-- ==== Sys2Proof/Word.lean ====
section
/-! DEFINITION. The word types of the Darif: register widths (R58), instruction words (R26), the names of dies,
clusters, cores and contexts (R12, R13, R66), and the sparse table that holds numbered state. -/

namespace Sys2Proof

/-- A 64-bit scalar register, address or control word (R58, R70). -/
abbrev Word := BitVec 64
/-- A byte of memory. -/
abbrev Byte := BitVec 8
/-- An instruction word (R26). -/
abbrev IWord := BitVec 32
/-- A vector register (R58). -/
abbrev VWord := BitVec 512
/-- A scalar or vector register number, 0 to 31 (R27). -/
abbrev Reg := BitVec 5
/-- A predicate register number, 0 to 7 (R27). -/
abbrev PReg := BitVec 3
/-- An accumulator number, 0 to 3 (R27). -/
abbrev Acc := BitVec 2

/-- Numbered state as a sorted list of (number, value) pairs; an unlisted number holds a default. -/
abbrev Table (α : Type) := List (Nat × α)

/-- A cluster of the device (R13). -/
structure ClusterId where
  die : Fin 4
  cl : Fin 192
  deriving DecidableEq, Repr

/-- A core of the device (R13). -/
structure CoreId where
  die : Fin 4
  cl : Fin 192
  core : Fin 16
  deriving DecidableEq, Repr

/-- A context of a core (R66): slots 0 to 3, bank H0 = 4, bank H1 = 5. -/
structure CtxId where
  core : CoreId
  ctx : Fin 6
  deriving DecidableEq, Repr

/-- The number of a cluster on the device. -/
def ClusterId.key (c : ClusterId) : Nat := c.die.val * 192 + c.cl.val
/-- The number of a core on the device. -/
def CoreId.key (c : CoreId) : Nat := (c.die.val * 192 + c.cl.val) * 16 + c.core.val
/-- The number of a context on the device. -/
def CtxId.key (c : CtxId) : Nat := c.core.key * 6 + c.ctx.val
/-- The cluster of a core. -/
def CoreId.cluster (c : CoreId) : ClusterId := ⟨c.die, c.cl⟩
/-- The cluster with a given number. -/
def ClusterId.ofKey (n : Nat) : ClusterId := ⟨Fin.ofNat 4 (n / 192), Fin.ofNat 192 (n % 192)⟩
/-- The core with a given number. -/
def CoreId.ofKey (n : Nat) : CoreId :=
  ⟨Fin.ofNat 4 (n / 3072), Fin.ofNat 192 (n / 16 % 192), Fin.ofNat 16 (n % 16)⟩
/-- The context with a given number. -/
def CtxId.ofKey (n : Nat) : CtxId := ⟨CoreId.ofKey (n / 6), Fin.ofNat 6 (n % 6)⟩
/-- The core of a cluster with a given number in the cluster. -/
def ClusterId.coreAt (c : ClusterId) (n : Nat) : CoreId := ⟨c.die, c.cl, Fin.ofNat 16 n⟩
/-- Banks H0 and H1 are handler contexts (R60). -/
def CtxId.isHandler (c : CtxId) : Bool := decide (4 ≤ c.ctx.val)

end Sys2Proof
end

