-- ==== Sys2Proof/Machine/Crypto.lean ====
section
/-! DEFINITION. The functions that the spec takes from public standards for the control port and the links: SHA-256, HMAC and
HKDF with it (R385), RSAES-OAEP and RSASSA-PSS (R385), AES-256 in Galois counter mode (R352, R353, R386). -/

namespace Sys2Proof.Machine

/-! ### Byte strings -/

/-- A number as n bytes, most significant first. -/
def beBytes : Nat → Nat → List Byte
  | 0, _ => []
  | n + 1, x => BitVec.ofNat 8 (x / 256 ^ n) :: beBytes n x

/-- The number that a byte string is, most significant byte first. -/
def beNat (bs : List Byte) : Nat := bs.foldl (fun n b => n * 256 + b.toNat) 0

/-- A list cut into pieces of n; the last may be shorter. The first argument bounds their number. -/
def pieces {α : Type} : Nat → Nat → List α → List (List α)
  | 0, _, _ => []
  | fuel + 1, n, l => if l.isEmpty then [] else l.take n :: pieces fuel n (l.drop n)

/-- Exclusive or of two byte strings, as long as the shorter. -/
def xorBytes (a b : List Byte) : List Byte := (a.zip b).map (fun e => e.1 ^^^ e.2)

/-! ### SHA-256 -/

/-- The first numbers from p on that no number between 2 and their predecessor divides; the first argument bounds the search. -/
def primesFrom : Nat → Nat → List Nat
  | 0, _ => []
  | fuel + 1, p =>
    if (List.range p).any (fun d => 2 ≤ d && p % d == 0) then primesFrom fuel (p + 1) else p :: primesFrom fuel (p + 1)

/-- The largest r with r ^ k ≤ x, found from bit n - 1 down. -/
def rootBits (k x : Nat) : Nat → Nat → Nat
  | 0, r => r
  | n + 1, r => rootBits k x n (if (r + 2 ^ n) ^ k ≤ x then r + 2 ^ n else r)

/-- The first 32 bits of the fraction of the k-th root of a prime below 512. -/
def rootFraction (k p : Nat) : Nat := rootBits k (p * 2 ^ (32 * k)) 37 0 % 2 ^ 32

/-- The round constants come from the cube roots of the primes up to 311, the first 64. -/
def shaK : List Nat := (primesFrom 310 2).map (rootFraction 3)

/-- The initial hash value comes from the square roots of the primes up to 19, the first 8. -/
def shaH0 : List Nat := (primesFrom 18 2).map (rootFraction 2)

/-- Rotate a 32-bit word right. -/
def rotr (n x : Nat) : Nat := (x >>> n ||| x <<< (32 - n)) % 2 ^ 32
/-- The small functions of the message schedule and the large ones of the rounds. -/
def shaSmall0 (x : Nat) : Nat := rotr 7 x ^^^ rotr 18 x ^^^ x >>> 3
def shaSmall1 (x : Nat) : Nat := rotr 17 x ^^^ rotr 19 x ^^^ x >>> 10
def shaBig0 (x : Nat) : Nat := rotr 2 x ^^^ rotr 13 x ^^^ rotr 22 x
def shaBig1 (x : Nat) : Nat := rotr 6 x ^^^ rotr 11 x ^^^ rotr 25 x

/-- Extend the message schedule by some words; the newest stands first. -/
def shaExtend : Nat → List Nat → List Nat
  | 0, w => w
  | k + 1, w =>
    shaExtend k ((shaSmall1 (w.getD 1 0) + w.getD 6 0 + shaSmall0 (w.getD 14 0) + w.getD 15 0) % 2 ^ 32 :: w)

/-- One round: the working variables a to h, with a constant and a schedule word. -/
def shaRound (v : List Nat) (kw : Nat × Nat) : List Nat :=
  match v with
  | [a, b, c, d, e, f, g, h] =>
    let t1 := h + shaBig1 e + (e &&& f ^^^ (2 ^ 32 - 1 - e) &&& g) + kw.1 + kw.2
    let t2 := shaBig0 a + (a &&& b ^^^ a &&& c ^^^ b &&& c)
    [(t1 + t2) % 2 ^ 32, a, b, c, (d + t1) % 2 ^ 32, e, f, g]
  | _ => v

/-- The hash value after one block of 64 bytes. -/
def shaBlock (h : List Nat) (block : List Byte) : List Nat :=
  let w := (shaExtend 48 ((pieces 16 4 block).map beNat).reverse).reverse
  (h.zip ((shaK.zip w).foldl shaRound h)).map (fun e => (e.1 + e.2) % 2 ^ 32)

/-- The padding of a message of n bytes. -/
def shaPad (n : Nat) : List Byte := 0x80 :: List.replicate ((119 - n % 64) % 64) 0 ++ beBytes 8 (8 * n)

/-- SHA-256 of a byte string, as 32 bytes. -/
def sha256 (m : List Byte) : List Byte :=
  let m := m ++ shaPad m.length
  ((pieces m.length 64 m).foldl shaBlock shaH0).flatMap (beBytes 4)

/-- HMAC-SHA-256 under a key of at most 64 bytes. -/
def hmac (key m : List Byte) : List Byte :=
  let k := key ++ List.replicate (64 - key.length) 0
  sha256 (k.map (fun b => b ^^^ 0x5C) ++ sha256 (k.map (fun b => b ^^^ 0x36) ++ m))

/-- HKDF-SHA-256 (RFC 5869) of 32 bytes: extract with a salt, expand with an info string. -/
def hkdf (salt ikm info : List Byte) : BitVec 256 := BitVec.ofNat 256 (beNat (hmac (hmac salt ikm) (info ++ [1])))

/-! ### RSA with a modulus of 384 bytes (R384, R385) -/

/-- b ^ e modulo n, by the lowest bits of e. -/
def powMod (n : Nat) : Nat → Nat → Nat → Nat
  | 0, _, _ => 1 % n
  | k + 1, b, e => (if e % 2 = 1 then b else 1) * powMod n k (b * b % n) (e / 2) % n

/-- The coefficient of a in the greatest common divisor of a and m, modulo m, by Euclid's steps: (r, x) and (r', x') with
r ≡ x·a and r' ≡ x'·a. -/
def euclid (m : Nat) : Nat → Nat → Nat → Nat → Nat → Nat
  | 0, _, x, _, _ => x
  | k + 1, r, x, r', x' => if r' = 0 then x else euclid m k r' x' (r % r') ((x + m - r / r' * x' % m) % m)

/-- The private exponent that belongs to 65,537 for two primes. -/
def privateExp (p q : Nat) : Nat :=
  let m := Nat.lcm (p - 1) (q - 1)
  euclid m 4608 65537 (1 % m) m 0

/-- MGF1 with SHA-256: n bytes from a seed. -/
def mgf1 (seed : List Byte) (n : Nat) : List Byte :=
  ((List.range ((n + 31) / 32)).flatMap (fun i => sha256 (seed ++ beBytes 4 i))).take n

/-- What follows the zero bytes and the byte 1 that end the padding. -/
def afterPad : List Byte → Option (List Byte)
  | [] => none
  | b :: t => if b = 0 then afterPad t else if b = 1 then some t else none

/-- The message in an OAEP block of 384 bytes, with an empty label. -/
def oaepDecode (em : List Byte) : Option (List Byte) :=
  let masked := em.drop 33
  let seed := xorBytes ((em.drop 1).take 32) (mgf1 masked 32)
  let db := xorBytes masked (mgf1 seed 351)
  if em.headD 0 = 0 ∧ db.take 32 = sha256 [] then afterPad (db.drop 32) else none

/-- The PSS block of a message of 384 bytes for a modulus of 3,072 bits: its first bit is zero. -/
def pssEncode (m salt : List Byte) : List Byte :=
  let h := sha256 (List.replicate 8 0 ++ sha256 m ++ salt)
  let db := xorBytes (List.replicate 318 0 ++ 1 :: salt) (mgf1 h 351)
  (db.headD 0 &&& 0x7F) :: db.tail ++ h ++ [0xBC]

/-! ### AES-256 -/

/-- The S-box, entry x in bits [8x+7:8x]. -/
def aesTable : Nat :=
  0x16bb54b00f2d99416842e6bf0d89a18cdf2855cee9871e9b948ed9691198f8e19e1dc186b95735610ef6034866b53e708a8bbd4b1f74dde8c6b4a61c2e2578ba08ae7a65eaf4566ca94ed58d6d37c8e779e4959162acd3c25c2406490a3a32e0db0b5ede14b8ee4688902a22dc4f816073195d643d7ea7c41744975fec130ccdd2f3ff1021dab6bcf5389d928f40a351a89f3c507f02f94585334d43fbaaefd0cf584c4a39becb6a5bb1fc20ed00d153842fe329b3d63b52a05a6e1b1a2c830975b227ebe28012079a059618c323c7041531d871f1e5a534ccf73f362693fdb7c072a49cafa2d4adf04759fa7dc982ca76abd7fe2b670130c56f6bf27b777c63

/-- The S-box. -/
def aesSub (x : Nat) : Nat := (aesTable >>> (8 * x)) % 256

/-- Multiply by x in the field of AES. -/
def xtime (b : Nat) : Nat := (2 * b ^^^ (if 128 ≤ b then 0x1B else 0)) % 256

/-- The words of the key schedule, newest first: word i from words i − 1 and i − 8. -/
def aesExpand : Nat → Nat → Nat → List (List Nat) → List (List Nat)
  | 0, _, _, ws => ws
  | k + 1, i, rcon, ws =>
    let t := ws.getD 0 []
    let rot := t.drop 1 ++ t.take 1
    let t := if i % 8 = 0 then
        match rot.map aesSub with
        | b :: r => (b ^^^ rcon) :: r
        | [] => []
      else if i % 8 = 4 then t.map aesSub else t
    aesExpand k (i + 1) (if i % 8 = 0 then xtime rcon else rcon)
      (((ws.getD 7 []).zip t).map (fun e => e.1 ^^^ e.2) :: ws)

/-- The 15 round keys of a 256-bit key, 16 bytes each. -/
def aesKeys (key : BitVec 256) : List (List Nat) :=
  let k := (beBytes 32 key.toNat).map BitVec.toNat
  (pieces 15 4 (aesExpand 52 8 1 (pieces 8 4 k).reverse).reverse).map List.flatten

/-- The places the bytes of a state are taken from when its rows shift. -/
def aesShift : List Nat := [0, 5, 10, 15, 4, 9, 14, 3, 8, 13, 2, 7, 12, 1, 6, 11]

/-- Mix one column. -/
def aesMix (c : List Nat) : List Nat :=
  match c with
  | [a, b, d, e] =>
    let t := a ^^^ b ^^^ d ^^^ e
    [a ^^^ t ^^^ xtime (a ^^^ b), b ^^^ t ^^^ xtime (b ^^^ d), d ^^^ t ^^^ xtime (d ^^^ e), e ^^^ t ^^^ xtime (e ^^^ a)]
  | _ => c

/-- Add a round key. -/
def aesAdd (s k : List Nat) : List Nat := (s.zip k).map (fun e => e.1 ^^^ e.2)

/-- The rounds with the round keys given; the last one mixes no column. -/
def aesRounds (s : List Nat) : List (List Nat) → List Nat
  | [] => s
  | k :: ks =>
    let t := aesShift.map (fun i => aesSub (s.getD i 0))
    if ks.isEmpty then aesAdd t k else aesRounds (aesAdd ((pieces 4 4 t).flatMap aesMix) k) ks

/-- Encrypt one block of 16 bytes, as a number. -/
def aesBlock (keys : List (List Nat)) (x : Nat) : Nat :=
  let s := (beBytes 16 x).map BitVec.toNat
  (aesRounds (aesAdd s (keys.headD [])) keys.tail).foldl (fun n b => n * 256 + b) 0

/-! ### Galois counter mode -/

/-- Multiply in the field of GHASH: the bits of x, most significant first, against v. -/
def ghashMul : Nat → Nat → Nat → Nat → Nat
  | 0, _, _, z => z
  | k + 1, x, v, z =>
    ghashMul k x ((v >>> 1) ^^^ (if v % 2 = 1 then 0xE1 <<< 120 else 0)) (if x.testBit k then z ^^^ v else z)

/-- GHASH over whole blocks. -/
def ghash (h : Nat) (bs : List (List Byte)) : Nat :=
  bs.foldl (fun y b => ghashMul 128 (y ^^^ beNat (b ++ List.replicate (16 - b.length) 0)) h 0) 0

/-- The counter block of a 96-bit nonce. -/
def gcmBlock (nonce : BitVec 96) (i : Nat) : Nat := nonce.toNat * 2 ^ 32 + i

/-- Encrypt or decrypt a byte string: exclusive or with the key stream. -/
def gcmCrypt (key : BitVec 256) (nonce : BitVec 96) (m : List Byte) : List Byte :=
  let ks := aesKeys key
  (((List.range m.length).zip (pieces m.length 16 m)).map
    (fun e => xorBytes e.2 (beBytes 16 (aesBlock ks (gcmBlock nonce (e.1 + 2)))))).flatten

/-- The 16-byte tag over additional data and ciphertext. -/
def gcmTag (key : BitVec 256) (nonce : BitVec 96) (aad c : List Byte) : List Byte :=
  let ks := aesKeys key
  let y := ghash (aesBlock ks 0) (pieces aad.length 16 aad ++ pieces c.length 16 c
    ++ [beBytes 8 (8 * aad.length) ++ beBytes 8 (8 * c.length)])
  beBytes 16 (y ^^^ aesBlock ks (gcmBlock nonce 1))

end Sys2Proof.Machine
end

