-- ==== Sys2Proof/Syntax.lean ====
section
/-! DEFINITION. The steps of the Darif as one inductive: the 226 encoded instructions of R32 to R41 and R49, and the
98 events of the machine and of the outside world that spec/opcode_table.json lists without an encoding and without
fields. An event's operands are an Event, which the state holds while the event is performed. -/

namespace Sys2Proof

/-- Element widths of the vector integer forms (R35). -/
inductive Width | i8 | i16 | i32 | i64
  deriving DecidableEq, Repr
/-- Formats of the vector float forms (R35). -/
inductive FFmt | f32 | bf16
  deriving DecidableEq, Repr
/-- Element types of the compares (R36). -/
inductive CmpTy | i8 | i16 | i32 | i64 | f32 | bf16
  deriving DecidableEq, Repr
/-- Scopes of the ordering instructions (R41, R276). -/
inductive Scope | blk | cls | dev | sys
  deriving DecidableEq, Repr
/-- Widths of LDA and STL (R41). -/
inductive MemW | b | h | w | d
  deriving DecidableEq, Repr
/-- Gang forms (R147). -/
inductive GangForm | bf16 | f32 | p | sbf16 | sp
  deriving DecidableEq, Repr
/-- Read-modify-write operations, in the order of the Map L ops 0x03 to 0x0D (R41, R286). -/
inductive AmoOp | cas | add | and | or | xor | min | max | minu | maxu | swap | fadd
  deriving DecidableEq, Repr

/-- A task message (R166), by its fields. `route` is the route kind its packet's header records at injection (R230): 0 XY, 1 YX,
2 west-first. -/
structure TaskMsg where
  typ : Nat
  rcls : Nat
  prio : Nat
  colour : Nat
  region : Nat
  cost : Nat
  kind : Bool
  hops : Nat
  pull : Nat
  hdev : Nat
  sstamp : Nat
  hopt : Nat
  hdie : Nat
  hcls : Nat
  cat : Nat
  entry : Word
  args : List Word
  trig : Nat
  target : Nat
  join : Word
  route : Nat := 0
  deriving DecidableEq, Repr

/-- An active message, reply, arrival notice or atomic operation message (R233, R286), by its fields. In an atomic
operation message `entry` is word 2 of R286 and `payload` holds the operand and the expected value. `route` is as in a task
message. -/
structure ActMsg where
  typ : Nat
  rcls : Nat
  colour : Nat
  region : Nat
  tag : Nat
  cat : Nat
  entry : Word
  payload : List Word
  raddr : Nat
  cv : Bool
  cnt : Nat
  status : Nat
  route : Nat := 0
  deriving DecidableEq, Repr

/-- The put that a chunk of a PUT to another device belongs to: issuer and command number, destination, length, the counter to
increment, job colour and catalogue number (R226, R267). -/
structure PutTag where
  issuer : CtxId
  id : Nat
  pa : Nat
  len : Nat
  rcn : Option Nat
  colour : Nat
  cat : Nat
  deriving DecidableEq, Repr

/-- What a memory request does at its home (R292): read bytes, read the active bytes of a line (R121), write bytes, write a chunk of a
put, write the active bytes of a line, reduce elements, one read-modify-write, add to a counter, a line's CWB or CINV, or its fill
(R303). `poison` names the poisoned bytes of what is written by its bits. -/
inductive ReqKind
  | read (n : Nat)
  | readActive (mask : BitVec 64)
  | write (bytes : List Byte) (poison : Nat)
  | put (bytes : List Byte) (poison : Nat) (t : PutTag)
  | masked (mask : BitVec 64) (bytes : List Byte)
  | reduce (rop : Nat) (bytes : List Byte) (poison : Nat)
  | rmw (op : AmoOp) (w32 : Bool) (operand expected : Word)
  | inc (value : Nat) (poison : Bool)
  | clean
  | discard
  | fill
  | arm (m : TaskMsg)
  | cancel (cat : Nat)
  | colour
  deriving DecidableEq, Repr

/-- A memory request on vn0 (R228): who issued it, its outstanding-request entry, where it goes, and the colour and
region it carries. -/
structure Request where
  issuer : CtxId
  id : Nat
  pa : Nat
  kind : ReqKind
  colour : Nat
  region : Nat
  cat : Nat
  deriving DecidableEq, Repr

/-- The effect of a tagged instruction at its word (R216). -/
inductive TagOp | ldf | ldfe | ste | stf
  deriving DecidableEq, Repr

/-- A tagged request at the banks of the core that holds its word (R217): whether it came through the window, and
the job colour its packet carries (R228). -/
structure TagReq where
  issuer : CtxId
  id : Nat
  core : CoreId
  off : Nat
  op : TagOp
  data : Word
  deadline : Option Nat
  window : Bool
  colour : Nat
  deriving DecidableEq, Repr

/-- A Manifest flag in flight (R345). `id` tells a repeat of a flag from another flag of the same count. -/
structure Flag where
  id : Nat
  addr : Nat
  word : Word
  counter : Option Nat
  count : Nat
  deriving DecidableEq, Repr

/-- The part of a context that migrates (R318): program counter, registers, poison, control words, message, and
whether the task is a fault handler (R187). -/
structure Shipment where
  pc : Word
  g : Table Word
  q : Table Word
  v : Table VWord
  vpois : BitVec 32
  cw : Table Word
  msg : TaskMsg
  defer : Nat
  handler : Bool := false
  deriving DecidableEq, Repr

/-- A packet of the scale-up fabric (R327), by what it carries. `src` and `dst` are device numbers. In a reply, bit i of
`bad` marks the i-th 8-byte word of the bytes read poisoned. A message carries the set of its destination cores in the order
it visits them (R232). An open request, its reply and its close carry the number of the request (R344). -/
inductive Packet
  | request (src dst : Nat) (r : Request)
  | reply (src dst : Nat) (issuer : CtxId) (id : Nat) (bytes : List Byte) (bad : Nat) (refused : Bool)
  | message (src dst : Nat) (cores : List CoreId) (m : ActMsg)
  | answer (src dst : Nat) (m : ActMsg) (replier : Nat)
  | task (src dst : Nat) (m : TaskMsg) (handler : Bool)
  | counted (src dst : Nat) (die : Fin 4) (state seq pa op : Nat) (bytes : List Byte) (poison : Nat) (put : Option PutTag)
  | flag (src dst : Nat) (die : Fin 4) (state : Nat) (f : Flag)
  | openReq (src dst : Nat) (die : Fin 4) (cl : ClusterId) (ch req region mhold mtries : Nat)
  | openReply (src dst : Nat) (cl : ClusterId) (ch req : Nat) (result : Nat) (refused : Bool)
  | closeReq (src dst : Nat) (die : Fin 4) (state : Nat)
  | closeOpen (src dst : Nat) (die : Fin 4) (cl : ClusterId) (ch req : Nat)
  | recount (src dst : Nat) (cl : ClusterId) (ch base count : Nat) (window : BitVec 1024)
  | notice (src dst : Nat) (cl : ClusterId) (ch id count : Nat) (poisoned : Bool)
  | spawnat (src dst : Nat) (core : CoreId) (caller : CtxId) (id : Nat) (m : TaskMsg)
  | spawnatCancel (src dst : Nat) (core : CoreId) (caller : CtxId) (id cat : Nat)
  | spawnatReply (src dst : Nat) (caller : CtxId) (id outcome : Nat)
  | migrate (src dst : Nat) (source : CtxId) (pa : Nat) (sh : Shipment)
  | migrateReply (src dst : Nat) (source : CtxId) (dest : Option Nat)
  deriving DecidableEq, Repr

/-- A frame of the control node (R386): its header, and its payload and tag as they stand on the wire; outside a session there
is no tag. LEN is the length of the payload, but for a Read, which carries none. -/
structure CFrame where
  typ : Nat
  flags : Nat
  seq : Nat
  addr : Nat
  payload : List Byte
  tag : List Byte := []
  deriving DecidableEq, Repr

/-- What phase 2 finds of a firmware image (R383, R424). -/
structure Firmware where
  wellFormed : Bool
  signed : Bool
  rollback : Nat
  deriving DecidableEq, Repr, Inhabited

/-- Keys and salts that a link takes at its training, one each way (R352, R353). -/
structure LinkKeys where
  txKey : BitVec 256
  rxKey : BitVec 256
  txSalt : BitVec 32
  rxSalt : BitVec 32
  deriving DecidableEq, Repr

/-- A fabric flit (R353): its header fields and its body in clear. -/
structure Flit where
  fseq : Nat
  ack : Nat
  nak : Bool
  idle : Bool
  quiet : Bool
  body : List Byte
  deriving DecidableEq, Repr

/-- What the scrub finds at a local word (R378). -/
inductive ScrubFind | clean | correctable | uncorrectable
  deriving DecidableEq, Repr

/-- Where ECC finds an error other than by the scrub of local memory (R294, R378): the word at a memory key in the line its home slice
holds, the word in DRAM as it is read, a local word as a reader meets it, a g or v register, or a queue, buffer or flit of a cluster. -/
inductive EccAt
  | line (loc : Nat)
  | dram (loc : Nat)
  | bank (k : CoreId) (word : BitVec 15)
  | greg (c : CtxId) (r : Reg)
  | vreg (c : CtxId) (r : Reg)
  | other (cl : ClusterId)
  deriving DecidableEq, Repr

/-- The device a packet goes to (R327). -/
def Packet.dst : Packet → Nat
  | .request _ d _ => d
  | .reply _ d _ _ _ _ _ => d
  | .message _ d _ _ => d
  | .answer _ d _ _ => d
  | .task _ d _ _ => d
  | .counted _ d _ _ _ _ _ _ _ _ => d
  | .flag _ d _ _ _ => d
  | .openReq _ d _ _ _ _ _ _ _ => d
  | .openReply _ d _ _ _ _ _ => d
  | .closeReq _ d _ _ => d
  | .closeOpen _ d _ _ _ _ => d
  | .recount _ d _ _ _ _ _ => d
  | .notice _ d _ _ _ _ _ => d
  | .spawnat _ d _ _ _ _ => d
  | .spawnatCancel _ d _ _ _ _ => d
  | .spawnatReply _ d _ _ _ => d
  | .migrate _ d _ _ _ => d
  | .migrateReply _ d _ _ => d

/-- The 64-byte line a packet names, 0 for one that names none (R328). -/
def Packet.line : Packet → Nat
  | .request _ _ r => r.pa / 64
  | .counted _ _ _ _ _ pa _ _ _ _ => pa / 64
  | .flag _ _ _ _ f => f.addr / 64
  | .migrate _ _ _ pa _ => pa / 64
  | _ => 0

/-- The operands of an event: who and what it concerns. Each constructor belongs to the constructor of Instr with the
same name; migrationAnswer is the part of MIGRATION_ARRIVAL at the source, spawnatRemote and spawnatAnswer are the parts
of SPAWNAT_OUTCOME at another device and spawnatCancel its withdrawal, openClose is a CHANNEL_CLOSE of a request whose reply
never came. An openReply with a timeout is the sender's own. summaries is the part of FIELD_TICK in which the switches above the
device report (R197), flitSlot the part of FLIT_RECEIVE at the sending end: a flit slot of the link comes (R352). counterFromAbove is a
COUNTER_CHANGE by one of a Manifest flag, which arrives at the up port (R254), linksTrained the end of JOIN, when the links named have
trained (R383), heldStore the part of MEMORY_PORT_REQUEST in which the
store of an STL that waited is tried (R285). -/
inductive Event
  -- events of memory, replies and migration
  | loadReply (c : CtxId) (id : Nat) (bytes : List Byte) (bad : Nat)
  | replyTimeout (c : CtxId) (id : Nat)
  | homeSliceRequest (r : Request)
  | lineRecord (cl : ClusterId) (line owner : Nat)
  | fillRecord (line region : Nat)
  | stashRecall (core : CoreId) (line : Nat) (exclusive : Bool)
  | parkRetry (c : CtxId) (id : Nat)
  | migrationArrival (source : CtxId) (srcDev : Nat) (cl : ClusterId) (sh : Shipment)
  | migrationAnswer (source : CtxId) (dest : Option Nat)
  | tfatal (c : CtxId)
  -- events of tasks and placement
  | taskPlacement (cl : ClusterId) (m : TaskMsg) (port : Fin 6)
  | switchForward (die : Option (Fin 4)) (m : TaskMsg) (handler : Bool)
  | armedRelease (cl : ClusterId) (cat : Nat)
  | spawnatOutcome (core : CoreId) (caller : CtxId) (id : Nat) (m : TaskMsg)
  | spawnatRemote (src : Nat) (core : CoreId) (caller : CtxId) (id : Nat) (m : TaskMsg)
  | spawnatAnswer (caller : CtxId) (id outcome : Nat)
  | spawnatCancel (src : Nat) (core : CoreId) (caller : CtxId) (id cat : Nat)
  | dispatch (cl : ClusterId)
  | taskPreemption (cl : ClusterId)
  | slotSave (c : CtxId)
  | fieldTick
  | summaries (outer : Table Nat)
  | adaptiveLoop (cl : ClusterId)
  | clusterFailure (cl : ClusterId)
  -- events of messages, counters and tags
  | messageArrival (core : CoreId) (m : ActMsg)
  | handlerStart (core : CoreId) (high : Bool)
  | maskedWindowClose (core : CoreId)
  | atomicOperationMessage (core : CoreId)
  | replySink (core : CoreId) (m : ActMsg) (replier : Nat)
  | counterChange (core : CoreId) (n : BitVec 6) (set : Bool) (value : BitVec 32) (poisoned : Bool)
  | counterFromAbove (core : CoreId) (n : BitVec 6) (poisoned : Bool)
  | mbwaitTimeout (c : CtxId) (id : Nat)
  | taggedRequestArrival (t : TagReq)
  | taggedRequestResend (t : TagReq)
  | taggedWaitTimeout (core : CoreId) (c : CtxId) (id : Nat)
  | deqtTimeout (c : CtxId) (id : Nat)
  | gangTimeout (c : CtxId) (id : Nat)
  -- events of engines, carrels and the Palimpsest
  | triggeredCommandStart (core : CoreId) (port : BitVec 2) (id : Nat)
  | copy (core : CoreId) (id : Nat) | get (core : CoreId) (id : Nat) | put (core : CoreId) (id : Nat)
  | rcopy (core : CoreId) (id : Nat)
  | gather (core : CoreId) (id : Nat) | scatter (core : CoreId) (id : Nat) | scatterReduction (core : CoreId) (id : Nat)
  | carrelTurn (cl : ClusterId)
  | directoryOperation (core : CoreId) (id : Nat)
  -- events of the fabric and the Manifest
  | remoteRequest (src : Nat) (r : Request)
  | countedWriteArrival (src : Nat) (die : Fin 4) (state seq pa op : Nat) (bytes : List Byte) (poison : Nat)
      (put : Option PutTag)
  | homeAcknowledge (die : Fin 4) (state seq : Nat)
  | flagArrival (die : Fin 4) (state : Nat) (f : Flag)
  | flagCompleteNotice (cl : ClusterId) (ch id count : Nat) (poisoned : Bool)
  | holdTimerExpiry (die : Fin 4) (state : Nat) (gen : Nat)
  | recount (cl : ClusterId) (ch base count : Nat) (window : BitVec 1024)
  | flagResend (cl : ClusterId) (ch id : Nat)
  | openRequest (src : Nat) (die : Fin 4) (cl : ClusterId) (ch req region mhold mtries : Nat)
  | openReply (cl : ClusterId) (ch req : Nat) (result : Nat) (refused timeout : Bool)
  | channelClose (die : Fin 4) (state : Nat)
  | openClose (src : Nat) (die : Fin 4) (cl : ClusterId) (ch req : Nat)
  | flitReceive (link : Fin 18) (bytes : List Byte)
  | flitSlot (link : Fin 18)
  | laneRetirement (link : Fin 18) (lane : Fin 16)
  -- events of errors, debugging and the control window
  | scrub (core : CoreId) (word : BitVec 15) (found : ScrubFind)
  | eccError (place : EccAt) (found : ScrubFind)
  | debugStop (c : CtxId)
  | dbgctlStop (c : CtxId)
  | dbgctlResume (c : CtxId) (skip : Bool)
  | debuggerWrite (c : CtxId) (off : BitVec 12) (value : Word)
  | controlWindowWrite (core : CoreId) (off : BitVec 16) (value : Word)
  -- frames of the control node
  | identity (f : CFrame) | attest (f : CFrame) | firmware (f : CFrame)
  | status (f : CFrame) | write (f : CFrame) | read (f : CFrame) (len : Nat) | launch (f : CFrame) | close (f : CFrame)
  | partition (f : CFrame) | breakpoint (f : CFrame) | telemetry (f : CFrame) | management (f : CFrame)
  | reset (f : CFrame)
  -- start-up, power and the package
  | hold
  | verify (img : List Byte)
  | initialise (vmaps : List (Nat × Nat)) (failed : List ClusterId)
  | join (dev dlim rtbase : Nat) (edge : Word) (links : List (Fin 18 × LinkKeys))
  | linksTrained (up : List (Fin 18))
  | ready (block : List Word)
  | powerGood (group : Fin 3)
  | powerRedivision (shares : List (ClusterId × Nat × Nat))
  | powerReadings (power : Nat) (dies : List (Fin 4 × Nat × Int × Nat)) (clusters : List (ClusterId × Nat))
      (margins : List (Fin 18 × Nat))
  | trip (cl : ClusterId) (temp : Int) (flux : Nat)
  | tripPersisted (cl : ClusterId)
  | tripOutput (cl : ClusterId) (temp : Int)
  | moduleFault (cause : Fin 4) (value : BitVec 32)
  | illegalInstruction (w : IWord)
  -- further events of memory, queues, failures and the port
  | memoryPortRequest (r : Request)
  | heldStore (r : Request) (own : Bool)
  | clusterUnitAtomic (r : Request)
  | storeAcknowledgement (c : CtxId) (id : Nat)
  | atomicReply (c : CtxId) (id : Nat) (old : Word) (poison refused : Bool)
  | sendQueueInjection (core : CoreId) (reply : Bool)
  | armedTaskArrival (cl : ClusterId) (m : TaskMsg)
  | atomicOperationResend (core : CoreId) (m : ActMsg)
  | coreFailure (core : CoreId)
  | dieFailure (die : Fin 4)
  | vaultFailure (cl : ClusterId)
  | linkOrSwitchFailure (link : Option (Fin 18)) (lost : List Nat)
  | railFall (group : Fin 3)
  | controlPortDown
  | controlPortUp
  | unknownFrame (f : CFrame)
  deriving DecidableEq, Repr

/-- One step of the Darif. -/
inductive Instr
  -- Map A (R81)
  | add (gd ga gb : Reg) | sub (gd ga gb : Reg) | and (gd ga gb : Reg) | or (gd ga gb : Reg)
  | xor (gd ga gb : Reg) | andn (gd ga gb : Reg) | sll (gd ga gb : Reg) | srl (gd ga gb : Reg)
  | sra (gd ga gb : Reg) | clt (gd ga gb : Reg) | cltu (gd ga gb : Reg) | min (gd ga gb : Reg)
  | max (gd ga gb : Reg) | minu (gd ga gb : Reg) | maxu (gd ga gb : Reg) | mul (gd ga gb : Reg)
  | mulh (gd ga gb : Reg) | mulhu (gd ga gb : Reg) | div (gd ga gb : Reg) | divu (gd ga gb : Reg)
  | rem (gd ga gb : Reg) | remu (gd ga gb : Reg) | clz (gd ga : Reg) | popc (gd ga : Reg)
  | sel (gd ga gb : Reg) (n : PReg)
  -- immediates (R82 to R84)
  | addi (gd ga : Reg) (imm : BitVec 16) | andi (gd ga : Reg) (imm : BitVec 16)
  | ori (gd ga : Reg) (imm : BitVec 16) | xori (gd ga : Reg) (imm : BitVec 16)
  | clti (gd ga : Reg) (imm : BitVec 16) | cltiu (gd ga : Reg) (imm : BitVec 16)
  | insh0 (gd ga : Reg) (imm : BitVec 16) | insh1 (gd ga : Reg) (imm : BitVec 16)
  | insh2 (gd ga : Reg) (imm : BitVec 16) | insh3 (gd ga : Reg) (imm : BitVec 16)
  | slli (gd ga : Reg) (sh : BitVec 6) | srli (gd ga : Reg) (sh : BitVec 6) | srai (gd ga : Reg) (sh : BitVec 6)
  -- loads and stores (R85)
  | ldB (gd ga : Reg) (imm : BitVec 16) | ldBu (gd ga : Reg) (imm : BitVec 16)
  | ldH (gd ga : Reg) (imm : BitVec 16) | ldHu (gd ga : Reg) (imm : BitVec 16)
  | ldW (gd ga : Reg) (imm : BitVec 16) | ldWu (gd ga : Reg) (imm : BitVec 16)
  | ldD (gd ga : Reg) (imm : BitVec 16)
  | stB (gs ga : Reg) (imm : BitVec 16) | stH (gs ga : Reg) (imm : BitVec 16)
  | stW (gs ga : Reg) (imm : BitVec 16) | stD (gs ga : Reg) (imm : BitVec 16)
  -- branches and jumps (R89 to R91)
  | beq (sa sb : Reg) (disp : BitVec 16) | bne (sa sb : Reg) (disp : BitVec 16)
  | blt (sa sb : Reg) (disp : BitVec 16) | bge (sa sb : Reg) (disp : BitVec 16)
  | bltu (sa sb : Reg) (disp : BitVec 16) | bgeu (sa sb : Reg) (disp : BitVec 16)
  | j (disp : BitVec 26) | jal (disp : BitVec 26) | jalr (gd ga : Reg)
  -- Map B and control words (R92 to R97)
  | trap (n : BitVec 5) | tret | ifence | rdc (gd : Reg) (n : BitVec 4) | bkpt
  | cwrd (gd : Reg) (idx : BitVec 12) | cwwr (idx : BitVec 12) (ga : Reg)
  -- the repeat frame (R49)
  | rptImmediate (len : BitVec 4) (sd sa sb : BitVec 2) (count : BitVec 15)
  | rptRegister (len : BitVec 4) (sd sa sb : BitVec 2) (ga : Reg)
  -- Map C (R127, R128)
  | vadd (w : Width) (vd va vb : Reg) (q : PReg) | vsub (w : Width) (vd va vb : Reg) (q : PReg)
  | vmul (w : Width) (vd va vb : Reg) (q : PReg) | vadds (w : Width) (vd va vb : Reg) (q : PReg)
  | vsubs (w : Width) (vd va vb : Reg) (q : PReg) | vmin (w : Width) (vd va vb : Reg) (q : PReg)
  | vmax (w : Width) (vd va vb : Reg) (q : PReg) | vminu (w : Width) (vd va vb : Reg) (q : PReg)
  | vmaxu (w : Width) (vd va vb : Reg) (q : PReg) | vsll (w : Width) (vd va vb : Reg) (q : PReg)
  | vsrl (w : Width) (vd va vb : Reg) (q : PReg) | vsra (w : Width) (vd va vb : Reg) (q : PReg)
  | vabs (w : Width) (vd va : Reg) (q : PReg)
  | vand (vd va vb : Reg) (q : PReg) | vor (vd va vb : Reg) (q : PReg) | vxor (vd va vb : Reg) (q : PReg)
  | vandn (vd va vb : Reg) (q : PReg) | vsel (vd va vb : Reg) (q : PReg)
  -- Map D (R129)
  | vfadd (f : FFmt) (vd va vb : Reg) (q : PReg) | vfsub (f : FFmt) (vd va vb : Reg) (q : PReg)
  | vfmul (f : FFmt) (vd va vb : Reg) (q : PReg) | vfma (f : FFmt) (vd va vb : Reg) (q : PReg)
  | vfnma (f : FFmt) (vd va vb : Reg) (q : PReg) | vfmin (f : FFmt) (vd va vb : Reg) (q : PReg)
  | vfmax (f : FFmt) (vd va vb : Reg) (q : PReg)
  | vfabs (f : FFmt) (vd va : Reg) (q : PReg) | vfneg (f : FFmt) (vd va : Reg) (q : PReg)
  | vexp2 (vd va : Reg) (q : PReg) | vrcp (vd va : Reg) (q : PReg) | vrsq (vd va : Reg) (q : PReg)
  -- Map E (R130, R131)
  | vcmpEq (t : CmpTy) (qd : PReg) (va vb : Reg) (q : PReg) | vcmpNe (t : CmpTy) (qd : PReg) (va vb : Reg) (q : PReg)
  | vcmpLt (t : CmpTy) (qd : PReg) (va vb : Reg) (q : PReg) | vcmpLe (t : CmpTy) (qd : PReg) (va vb : Reg) (q : PReg)
  | vcmpLtu (w : Width) (qd : PReg) (va vb : Reg) (q : PReg) | vcmpLeu (w : Width) (qd : PReg) (va vb : Reg) (q : PReg)
  | qand (qd qa qb : PReg) | qor (qd qa qb : PReg) | qxor (qd qa qb : PReg) | qandn (qd qa qb : PReg)
  | qnot (qd qa : PReg) | qcnt (gd : Reg) (qa : PReg) | qfromg (qd : PReg) (ga : Reg) | qtog (gd : Reg) (qa : PReg)
  -- Map F (R132 to R138)
  | vrsumF32 (gd va : Reg) (q : PReg) | vrmaxF32 (gd va : Reg) (q : PReg)
  | vrsumI32 (gd va : Reg) (q : PReg) | vrmaxI32 (gd va : Reg) (q : PReg)
  | vbcast (w : Width) (vd ga : Reg) | vextr (w : Width) (gd va gb : Reg) | vins (w : Width) (vd ga gb : Reg)
  | vperm (w : Width) (vd va vb : Reg) | vslide (w : Width) (vd va gb : Reg)
  | vtopk (vd va gb : Reg) (q : PReg) | vtopkNz (vd va gb : Reg) (q : PReg) | vcompress (vd va : Reg)
  | vcvtF32Bf16 (vd va : Reg) (h : BitVec 1) (q : PReg) | vcvtBf16F32 (vd va : Reg) (h : BitVec 1) (q : PReg)
  | vcvtF32I32 (vd va : Reg) (q : PReg) | vcvtI32F32 (vd va : Reg) (q : PReg)
  | vcvtI8I32 (vd va : Reg) (h : BitVec 2) (q : PReg) | vcvtUi8I32 (vd va : Reg) (h : BitVec 2) (q : PReg)
  | vcvtI32I8 (vd va : Reg) (h : BitVec 2) (q : PReg)
  -- Map G (R122)
  | vld (vd ga gb : Reg) (q : PReg) | vst (vs ga gb : Reg) (q : PReg)
  | vlds (vd ga gb : Reg) (q : PReg) | vsts (vs ga gb : Reg) (q : PReg)
  | vldx (vd ga vb : Reg) (q : PReg) | vstx (vs ga vb : Reg) (q : PReg)
  | vldb (vd ga gb : Reg) (q : PReg)
  -- Map H (R147)
  | mldwBf16 (ga : Reg) | mldwF32 (ga : Reg) | mldwP (ga : Reg) (pl : BitVec 3) | mswap
  | mmaBf16 (m : Acc) (ga : Reg) | mmaF32 (m : Acc) (ga : Reg) | mmaP (m : Acc) (ga : Reg) (pl : BitVec 3)
  | mmasBf16 (m : Acc) (v ga : Reg) | mmasP (m : Acc) (v ga : Reg) (pl : BitVec 3)
  | mzero (m : Acc) | mldacc (m : Acc) (ga : Reg) | mstacc (m : Acc) (ga : Reg) | mstaccBf16 (m : Acc) (ga : Reg)
  | mscale (m : Acc) (ga : Reg)
  | gang (f : GangForm) (m : Acc) (v ga : Reg) (pl : BitVec 3)
  | gangT (f : GangForm) (m : Acc) (v ga : Reg) (pl : BitVec 3)
  | msave (ga : Reg) | mrest (ga : Reg) | mfree
  -- Map I (R255, R261, R297, R301, R358, R364)
  | enq (t : Bool) (port : BitVec 2) (ga : Reg) | enqt (t : Bool) (port : BitVec 2) (gd ga : Reg)
  | deq (port : BitVec 2) (gd : Reg) | deqt (port : BitVec 2) (gd : Reg)
  | mbinc (r : Bool) (ga gb : Reg) | mbwait (ga gb : Reg) | mbwaitT (gd ga gb : Reg)
  | mbrd (gd ga : Reg) | mbset (ga gb : Reg)
  | bmv (ga : Reg) | bfence | pchk (ga : Reg) | prec (ga : Reg) | pstep (gd ga : Reg) | pdrop (gd ga gb : Reg)
  -- Map J (R178, R207)
  | spawn (gd ga gb : Reg) | spawnat (gd ga gb : Reg) | spawntrig (gd ga gb : Reg) | exit | tid (gd : Reg)
  | tcancel (gd ga gb : Reg) | rgid (gd : Reg) | rgrd (gd ga gb : Reg) | rgwr (gs ga gb : Reg) | prd (gd ga gb : Reg)
  -- Map K (R243)
  | send (gd ga gb : Reg) | sendh (gd ga gb : Reg) | sendt (gd : Reg) | hend
  | cmask (gd ga : Reg) | cunmask (gd ga : Reg) | hmask | hunmask
  -- Map L (R283, R303, R323)
  | fence (sc : Scope) (sets : BitVec 4) | lda (wd : MemW) (sc : Scope) (gd ga : Reg) | stl (wd : MemW) (sc : Scope) (ga gb : Reg)
  | cas (w32 : Bool) (sc : Scope) (gd ga gb : Reg)
  | amoAdd (w32 : Bool) (sc : Scope) (gd ga gb : Reg) | amoAnd (w32 : Bool) (sc : Scope) (gd ga gb : Reg)
  | amoOr (w32 : Bool) (sc : Scope) (gd ga gb : Reg) | amoXor (w32 : Bool) (sc : Scope) (gd ga gb : Reg)
  | amoMin (w32 : Bool) (sc : Scope) (gd ga gb : Reg) | amoMax (w32 : Bool) (sc : Scope) (gd ga gb : Reg)
  | amoMinu (w32 : Bool) (sc : Scope) (gd ga gb : Reg) | amoMaxu (w32 : Bool) (sc : Scope) (gd ga gb : Reg)
  | amoSwap (w32 : Bool) (sc : Scope) (gd ga gb : Reg) | amoFadd (sc : Scope) (gd ga gb : Reg)
  | cwb (ga : Reg) | cinv (ga : Reg) | cpf (ga : Reg) | tlbinv (ga gb : Reg) | probe (gd ga gb : Reg)
  -- Map M (R343)
  | mchopen (gd ga : Reg) | mrel (gs ga gb : Reg) | mchclose (gd ga : Reg) | mchstat (gd ga : Reg)
  -- Map N (R215, R221, R225, R226)
  | ldf (gd ga : Reg) | ldfe (gd ga : Reg) | ste (gs ga : Reg) | stf (gs ga : Reg)
  | ldfT (gd ga gt : Reg) | ldfeT (gd ga gt : Reg) | steT (gs ga gt : Reg)
  | tagrd (gd ga : Reg) | tagwr (gs ga : Reg)
  | smap (gd ga gb : Reg) | sunmap (ga : Reg) | sflush (ga gb : Reg) | mfill (gd ga gb : Reg) | armh (gd ga gb : Reg)
  -- the events (spec/opcode_table.json lists them without an encoding); their operands are an Event of the state
  | loadReply | replyTimeout | homeSliceRequest | stashRecall | parkRetry | migrationArrival | tfatal | taskPlacement
  | switchForward | armedRelease | spawnatOutcome | dispatch | taskPreemption | slotSave | fieldTick | adaptiveLoop
  | clusterFailure | messageArrival | handlerStart | maskedWindowClose | atomicOperationMessage | replySink
  | counterChange | mbwaitTimeout | taggedRequestArrival | taggedRequestResend | taggedWaitTimeout | deqtTimeout
  | gangTimeout | triggeredCommandStart | copy | get | put | rcopy | gather | scatter | scatterReduction | carrelTurn
  | directoryOperation | remoteRequest | countedWriteArrival | homeAcknowledge | flagArrival | flagCompleteNotice
  | holdTimerExpiry | recount | flagResend | openRequest | openReply | channelClose | flitReceive | laneRetirement
  | scrub | debugStop | dbgctlStop | dbgctlResume | debuggerWrite | controlWindowWrite | identity | attest | firmware
  | status | write | read | launch | close | partition | breakpoint | telemetry | management | reset | hold | verify
  | initialise | join | ready | powerGood | powerRedivision | trip | tripPersisted | tripOutput | moduleFault
  | illegalInstruction | memoryPortRequest | clusterUnitAtomic | storeAcknowledgement | atomicReply
  | sendQueueInjection | armedTaskArrival | atomicOperationResend | coreFailure | dieFailure | vaultFailure
  | linkOrSwitchFailure | railFall | controlPortDown | controlPortUp | unknownFrame
  deriving DecidableEq, Repr

/-- The step an event is. -/
def Event.instr : Event → Instr
  | .loadReply _ _ _ _ => .loadReply
  | .replyTimeout _ _ => .replyTimeout
  | .homeSliceRequest _ => .homeSliceRequest
  | .lineRecord _ _ _ => .homeSliceRequest
  | .fillRecord _ _ => .homeSliceRequest
  | .stashRecall _ _ _ => .stashRecall
  | .parkRetry _ _ => .parkRetry
  | .migrationArrival _ _ _ _ => .migrationArrival
  | .migrationAnswer _ _ => .migrationArrival
  | .tfatal _ => .tfatal
  | .taskPlacement _ _ _ => .taskPlacement
  | .switchForward _ _ _ => .switchForward
  | .armedRelease _ _ => .armedRelease
  | .spawnatOutcome _ _ _ _ => .spawnatOutcome
  | .spawnatRemote _ _ _ _ _ => .spawnatOutcome
  | .spawnatAnswer _ _ _ => .spawnatOutcome
  | .spawnatCancel _ _ _ _ _ => .spawnatOutcome
  | .dispatch _ => .dispatch
  | .taskPreemption _ => .taskPreemption
  | .slotSave _ => .slotSave
  | .fieldTick => .fieldTick
  | .summaries _ => .fieldTick
  | .adaptiveLoop _ => .adaptiveLoop
  | .clusterFailure _ => .clusterFailure
  | .messageArrival _ _ => .messageArrival
  | .handlerStart _ _ => .handlerStart
  | .maskedWindowClose _ => .maskedWindowClose
  | .atomicOperationMessage _ => .atomicOperationMessage
  | .replySink _ _ _ => .replySink
  | .counterChange _ _ _ _ _ => .counterChange
  | .counterFromAbove _ _ _ => .counterChange
  | .mbwaitTimeout _ _ => .mbwaitTimeout
  | .taggedRequestArrival _ => .taggedRequestArrival
  | .taggedRequestResend _ => .taggedRequestResend
  | .taggedWaitTimeout _ _ _ => .taggedWaitTimeout
  | .deqtTimeout _ _ => .deqtTimeout
  | .gangTimeout _ _ => .gangTimeout
  | .triggeredCommandStart _ _ _ => .triggeredCommandStart
  | .copy _ _ => .copy
  | .get _ _ => .get
  | .put _ _ => .put
  | .rcopy _ _ => .rcopy
  | .gather _ _ => .gather
  | .scatter _ _ => .scatter
  | .scatterReduction _ _ => .scatterReduction
  | .carrelTurn _ => .carrelTurn
  | .directoryOperation _ _ => .directoryOperation
  | .remoteRequest _ _ => .remoteRequest
  | .countedWriteArrival _ _ _ _ _ _ _ _ _ => .countedWriteArrival
  | .homeAcknowledge _ _ _ => .homeAcknowledge
  | .flagArrival _ _ _ => .flagArrival
  | .flagCompleteNotice _ _ _ _ _ => .flagCompleteNotice
  | .holdTimerExpiry _ _ _ => .holdTimerExpiry
  | .recount _ _ _ _ _ => .recount
  | .flagResend _ _ _ => .flagResend
  | .openRequest _ _ _ _ _ _ _ _ => .openRequest
  | .openReply _ _ _ _ _ _ => .openReply
  | .channelClose _ _ => .channelClose
  | .openClose _ _ _ _ _ => .channelClose
  | .flitReceive _ _ => .flitReceive
  | .flitSlot _ => .flitReceive
  | .laneRetirement _ _ => .laneRetirement
  | .scrub _ _ _ => .scrub
  | .eccError _ _ => .scrub
  | .debugStop _ => .debugStop
  | .dbgctlStop _ => .dbgctlStop
  | .dbgctlResume _ _ => .dbgctlResume
  | .debuggerWrite _ _ _ => .debuggerWrite
  | .controlWindowWrite _ _ _ => .controlWindowWrite
  | .identity _ => .identity
  | .attest _ => .attest
  | .firmware _ => .firmware
  | .status _ => .status
  | .write _ => .write
  | .read _ _ => .read
  | .launch _ => .launch
  | .close _ => .close
  | .partition _ => .partition
  | .breakpoint _ => .breakpoint
  | .telemetry _ => .telemetry
  | .management _ => .management
  | .reset _ => .reset
  | .hold => .hold
  | .verify _ => .verify
  | .initialise _ _ => .initialise
  | .join _ _ _ _ _ => .join
  | .linksTrained _ => .join
  | .ready _ => .ready
  | .powerGood _ => .powerGood
  | .powerRedivision _ => .powerRedivision
  | .powerReadings _ _ _ _ => .powerRedivision
  | .trip _ _ _ => .trip
  | .tripPersisted _ => .tripPersisted
  | .tripOutput _ _ => .tripOutput
  | .moduleFault _ _ => .moduleFault
  | .illegalInstruction _ => .illegalInstruction
  | .memoryPortRequest _ => .memoryPortRequest
  | .heldStore _ _ => .memoryPortRequest
  | .clusterUnitAtomic _ => .clusterUnitAtomic
  | .storeAcknowledgement _ _ => .storeAcknowledgement
  | .atomicReply _ _ _ _ _ => .atomicReply
  | .sendQueueInjection _ _ => .sendQueueInjection
  | .armedTaskArrival _ _ => .armedTaskArrival
  | .atomicOperationResend _ _ => .atomicOperationResend
  | .coreFailure _ => .coreFailure
  | .dieFailure _ => .dieFailure
  | .vaultFailure _ => .vaultFailure
  | .linkOrSwitchFailure _ _ => .linkOrSwitchFailure
  | .railFall _ => .railFall
  | .controlPortDown => .controlPortDown
  | .controlPortUp => .controlPortUp
  | .unknownFrame _ => .unknownFrame

end Sys2Proof
end

