-- ==== Sys2Proof/Config.lean ====
section
/-! DEFINITION. What an implementation fixes, and the free values: constants without a body, of which nothing can be
proved. -/

namespace Sys2Proof.Config

/-- VEXP2 as the hardware computes it, kept only where it meets the bound of R114 (log entry 8). -/
opaque exp2 : BitVec 32 → BitVec 32
/-- VRCP as the hardware computes it, kept only where it meets the bound of R114 (log entry 8). -/
opaque rcp : BitVec 32 → BitVec 32
/-- VRSQ as the hardware computes it, kept only where it meets the bound of R114 (log entry 8). -/
opaque rsq : BitVec 32 → BitVec 32
/-- A free 64-bit value, by the counter in State (log entry 4). -/
opaque freeWord : Nat → BitVec 64
/-- The boot ROM (R385; log entry 9). -/
opaque bootRom : List Byte
/-- What phase 2 finds of a firmware image: its form, its signature against the fused key digest, its rollback number (R383;
log entry 9). -/
opaque imageOf : List Byte → Firmware
/-- The two primes of the identity key pair, which never leave the package hub (R384; log entry 9). -/
opaque primeP : Nat
opaque primeQ : Nat
/-- The modulus of the identity key (R384; log entry 9). -/
def modulus : BitVec 3072 := BitVec.ofNat 3072 (primeP * primeQ)
/-- The salt of the signature over a byte string: 32 bytes (R385; log entry 9). -/
opaque signSalt : List Byte → BitVec 256
/-- The first byte of the certificate over the identity key, in DER (R384; log entry 9). -/
opaque certificateHead : Byte
/-- The bytes of the certificate after the first (R384; log entry 9). -/
opaque certificateTail : List Byte
/-- The certificate: 1 to 4,096 bytes (R384). -/
def certificate : List Byte := (certificateHead :: certificateTail).take 4096
/-- Whether the device stands inside a VYD-440M (R384; log entry 9). -/
opaque onModule : Bool
/-- The product form, 1 or 2 (R384). -/
def productForm : BitVec 8 := if onModule then 2 else 1
/-- The fused rollback minimum (R384; log entry 9). -/
opaque rollbackMin : BitVec 16
/-- The bytes of a packet as flits carry it, but for the message layouts that the spec gives (R327, R328; log entry 10). -/
opaque packetBytes : Packet → List Byte
/-- The packet that stands at the head of a byte string, and how many bytes it takes beyond the first; none while it is
incomplete (R328; log entry 10). -/
opaque packetOf : List Byte → Option (Packet × Nat)
/-- The link a packet takes, by destination device and 64-byte line (R328; log entry 10). -/
opaque linkHash : Nat → Nat → Nat
/-- The access codes of R6. -/
inductive MgmtAccess | ro | rw | w1c | wo
  deriving DecidableEq, Repr
/-- What a management register governs: a clock, a rail, a trip point, or nothing that R399 and R400 limit. -/
inductive Governs | other | clock | vdie | vmem | vlink | vaux | trip
  deriving DecidableEq, Repr
/-- A management register as its catalogue entry gives it (R391), and what it governs. -/
structure MgmtReg where
  number : BitVec 32
  width : BitVec 16
  access : MgmtAccess
  name : List Byte
  governs : Governs
  deriving DecidableEq, Repr
/-- The management registers but for the catalogue (R391; log entry 24). -/
opaque mgmtRegs : List MgmtReg
/-- The byte of an access code in the catalogue (R391; log entry 24). -/
opaque mgmtCode : MgmtAccess → BitVec 8
/-- The width and the name of register 0 in the catalogue (R391; log entry 24). -/
opaque catalogueWidth : BitVec 16
opaque catalogueName : List Byte
/-- The value of a management register at reset (R391; log entry 24). -/
opaque mgmtReset : Nat → BitVec 64
/-- What a value of a management register means for what it governs: µV, kHz or 0.001 °C (R391; log entry 24). -/
opaque mgmtMeans : BitVec 32 → BitVec 64 → Nat
/-- How many local bank conflicts a core has in a cycle (R370; log entry 36). -/
opaque bankConflicts : Nat → Nat → Nat
/-- Bytes that a torn or corrupted outcome confined by R10 leaves (log entry 11). -/
opaque freeByte : Nat → BitVec 8

end Sys2Proof.Config
end

