-- ==== Sys2Proof/WellFormed.lean ====
section
/-! DEFINITION. Which terms of Instr are instructions or events of the machine: the operand values that R31 and the maps
call reserved are ill-formed, and so are event terms whose lists do not have the length their layout gives. -/

namespace Sys2Proof

/-- ENQ, ENQT, BMV, PCHK and PREC name four consecutive registers: 0 and 29 to 31 are reserved (R261, R297, R358). -/
def reqRegOk (ga : Reg) : Bool := decide (1 ≤ ga.toNat) && decide (ga.toNat ≤ 28)

/-- A gang form uses the metadata field in the S forms and the planes field in the P forms only; a planes value of 0 in
a P form is reserved (R38, R147). -/
def gangFieldsOk (f : GangForm) (v : Reg) (pl : BitVec 3) : Bool :=
  match f with
  | .bf16 => v == 0 && pl == 0
  | .f32 => v == 0 && pl == 0
  | .p => v == 0 && pl != 0
  | .sbf16 => pl == 0
  | .sp => pl != 0

/-- A task message has six argument words and fields within the widths of R166. -/
def TaskMsg.ok (m : TaskMsg) : Bool :=
  m.args.length == 6 && decide (m.typ < 16) && decide (m.rcls < 8) && decide (m.prio < 8) && decide (m.colour < 64)
    && decide (m.region < 4096) && decide (m.cost < 256) && decide (m.hops < 32) && decide (m.pull < 8)
    && decide (m.hdev < 2048) && decide (m.sstamp < 256) && decide (m.hopt < 32) && decide (m.hdie < 4)
    && decide (m.hcls < 256) && decide (m.cat < 2 ^ 48) && decide (m.trig < 2 ^ 64) && decide (m.target < 2 ^ 32)

/-- An active message has six payload words and fields within the widths of R233. -/
def ActMsg.ok (m : ActMsg) : Bool :=
  m.payload.length == 6 && decide (m.typ < 16) && decide (m.rcls < 8) && decide (m.colour < 64)
    && decide (m.region < 4096) && decide (m.tag < 65536) && decide (m.cat < 2 ^ 48) && decide (m.raddr < 2 ^ 64)
    && decide (m.cnt < 64) && decide (m.status < 256)

/-- A counted write holds 1 to 64 bytes within one 64-byte line (R333). -/
def countedOk (pa op : Nat) (bytes : List Byte) : Bool :=
  decide (1 ≤ bytes.length) && decide (pa % 64 + bytes.length ≤ 64) && decide (op ≤ 5)

/-- Well-formed terms. -/
def wellFormed (i : Instr) : Bool :=
  match i with
  | .vtopk vd _ _ _ => vd.toNat % 2 == 0
  | .vtopkNz vd _ _ _ => vd.toNat % 2 == 0
  | .mldwP _ pl => pl != 0
  | .mmaP _ _ pl => pl != 0
  | .mmasP _ _ _ pl => pl != 0
  | .gang f _ v _ pl => gangFieldsOk f v pl
  | .gangT f _ v _ pl => gangFieldsOk f v pl
  | .enq _ _ ga => reqRegOk ga
  | .enqt _ _ _ ga => reqRegOk ga
  | .bmv ga => reqRegOk ga
  | .pchk ga => reqRegOk ga
  | .prec ga => reqRegOk ga
  | .fence _ sets => sets != 0
  | _ => true

/-- The instructions that have an encoding: every constructor but the events. -/
def Instr.encoded (i : Instr) : Bool :=
  match i with
  | .loadReply | .replyTimeout | .homeSliceRequest | .stashRecall | .parkRetry | .migrationArrival | .tfatal
  | .taskPlacement | .switchForward | .armedRelease | .spawnatOutcome | .dispatch | .taskPreemption | .slotSave
  | .fieldTick | .adaptiveLoop | .clusterFailure | .messageArrival | .handlerStart | .maskedWindowClose
  | .atomicOperationMessage | .replySink | .counterChange | .mbwaitTimeout | .taggedRequestArrival
  | .taggedRequestResend | .taggedWaitTimeout | .deqtTimeout | .gangTimeout | .triggeredCommandStart | .copy | .get
  | .put | .rcopy | .gather | .scatter | .scatterReduction | .carrelTurn | .directoryOperation | .remoteRequest
  | .countedWriteArrival | .homeAcknowledge | .flagArrival | .flagCompleteNotice | .holdTimerExpiry | .recount
  | .flagResend | .openRequest | .openReply | .channelClose | .flitReceive | .laneRetirement | .scrub | .debugStop
  | .dbgctlStop | .dbgctlResume | .debuggerWrite | .controlWindowWrite | .identity | .attest | .firmware | .status
  | .write | .read | .launch | .close | .partition | .breakpoint | .telemetry | .management | .reset | .hold
  | .verify | .initialise | .join | .ready | .powerGood | .powerRedivision | .trip | .tripPersisted | .tripOutput
  | .moduleFault | .illegalInstruction | .memoryPortRequest | .clusterUnitAtomic | .storeAcknowledgement
  | .atomicReply | .sendQueueInjection | .armedTaskArrival | .atomicOperationResend | .coreFailure | .dieFailure
  | .vaultFailure | .linkOrSwitchFailure | .railFall | .controlPortDown | .controlPortUp | .unknownFrame => false
  | _ => true

/-- Well-formed events: messages of the lengths their layouts give, counted writes within a line. -/
def Event.ok (e : Event) : Bool :=
  match e with
  | .taskPlacement _ m _ => m.ok
  | .switchForward _ m _ => m.ok
  | .spawnatOutcome _ _ _ m => m.ok
  | .armedTaskArrival _ m => m.ok
  | .migrationArrival _ _ _ sh => sh.msg.ok
  | .messageArrival _ m => m.ok
  | .replySink _ m _ => m.ok
  | .atomicOperationResend _ m => m.ok
  | .countedWriteArrival _ _ state seq pa op bytes _ _ => decide (state < 512) && decide (seq < 65536) && countedOk pa op bytes
  | .ready block => block.length == 32
  | _ => true

end Sys2Proof
end

