-- ==== Sys2Proof/Decode.lean ====
section
/-! DEFINITION. The decoder of R27 to R41 and R49, total on any word, and the encoder of the same tables. -/

namespace Sys2Proof

/-! ### Fields (R27) -/

/-- Major opcode, bits [31:26]. -/
def fMaj (w : IWord) : BitVec 6 := w.extractLsb' 26 6
/-- Bits [25:21]. -/
def fA (w : IWord) : BitVec 5 := w.extractLsb' 21 5
/-- Bits [20:16]. -/
def fB (w : IWord) : BitVec 5 := w.extractLsb' 16 5
/-- Bits [15:11]. -/
def fC (w : IWord) : BitVec 5 := w.extractLsb' 11 5
/-- Function bits [10:0]. -/
def fF (w : IWord) : BitVec 11 := w.extractLsb' 0 11
/-- Bits [15:0]. -/
def fImm (w : IWord) : BitVec 16 := w.extractLsb' 0 16
/-- Predicate field [10:8]. -/
def fQ (w : IWord) : BitVec 3 := w.extractLsb' 8 3
/-- Function bits [7:0] of the vector and matrix formats. -/
def fFn (w : IWord) : BitVec 8 := w.extractLsb' 0 8
/-- Accumulator field [25:24]. -/
def fM (w : IWord) : BitVec 2 := w.extractLsb' 24 2
/-- Metadata register field [23:19]. -/
def fV (w : IWord) : BitVec 5 := w.extractLsb' 19 5
/-- Matrix scalar register field [18:14]. -/
def fG (w : IWord) : BitVec 5 := w.extractLsb' 14 5
/-- Planes field [13:11]. -/
def fPl (w : IWord) : BitVec 3 := w.extractLsb' 11 3

/-! ### Words from fields -/

/-- Register, vector and vector-memory formats: major, [25:21], [20:16], [15:11], [10:0]. -/
def mkR (m : BitVec 6) (a b c : BitVec 5) (f : BitVec 11) : IWord := m ++ a ++ b ++ c ++ f
/-- Immediate and branch formats: major, [25:21], [20:16], [15:0]. -/
def mkI (m : BitVec 6) (a b : BitVec 5) (i : BitVec 16) : IWord := m ++ a ++ b ++ i
/-- Jump format. -/
def mkJ (m : BitVec 6) (d : BitVec 26) : IWord := m ++ d
/-- Vector format: as mkR with [10:8] and [7:0] apart. -/
def mkV (m : BitVec 6) (a b c : BitVec 5) (q : BitVec 3) (f : BitVec 8) : IWord := m ++ a ++ b ++ c ++ q ++ f
/-- Matrix format. -/
def mkM (m : BitVec 2) (v g : BitVec 5) (pl md : BitVec 3) (f : BitVec 8) : IWord :=
  (0x30 : BitVec 6) ++ m ++ v ++ g ++ pl ++ md ++ f
/-- Engine format: major 0x34, [25:21], [20:16], [15:11], port, option, function. -/
def mkE (a b c : BitVec 5) (port : BitVec 2) (opt : BitVec 3) (f : BitVec 6) : IWord :=
  (0x34 : BitVec 6) ++ a ++ b ++ c ++ port ++ opt ++ f
/-- Map L: operation, scope, modifier in the function field (R41). -/
def mkL (a b c : BitVec 5) (op : BitVec 5) (sc : BitVec 2) (md : BitVec 4) : IWord :=
  (0x3A : BitVec 6) ++ a ++ b ++ c ++ op ++ sc ++ md

/-! ### Operand codes -/

/-- Element width code (R35). -/
def Width.code : Width → BitVec 2
  | .i8 => 0 | .i16 => 1 | .i32 => 2 | .i64 => 3
/-- Element width of a code. -/
def Width.ofCode (c : BitVec 2) : Width :=
  match c.toNat with
  | 0 => .i8 | 1 => .i16 | 2 => .i32 | _ => .i64
/-- Format code (R35). -/
def FFmt.code : FFmt → BitVec 2
  | .f32 => 0 | .bf16 => 1
/-- Format of a code; 0b10 and 0b11 are reserved. -/
def FFmt.ofCode (c : BitVec 2) : Option FFmt :=
  match c.toNat with
  | 0 => some .f32 | 1 => some .bf16 | _ => none
/-- Compare type code (R36). -/
def CmpTy.code : CmpTy → BitVec 3
  | .i8 => 0 | .i16 => 1 | .i32 => 2 | .i64 => 3 | .f32 => 4 | .bf16 => 5
/-- Compare type of a code; 6 is reserved and 7 names the predicate operations. -/
def CmpTy.ofCode (c : BitVec 3) : Option CmpTy :=
  match c.toNat with
  | 0 => some .i8 | 1 => some .i16 | 2 => some .i32 | 3 => some .i64 | 4 => some .f32 | 5 => some .bf16 | _ => none
/-- Scope code (R41). -/
def Scope.code : Scope → BitVec 2
  | .blk => 0 | .cls => 1 | .dev => 2 | .sys => 3
/-- Scope of a code. -/
def Scope.ofCode (c : BitVec 2) : Scope :=
  match c.toNat with
  | 0 => .blk | 1 => .cls | 2 => .dev | _ => .sys
/-- Width code of LDA and STL (R41). -/
def MemW.code : MemW → BitVec 4
  | .b => 0 | .h => 1 | .w => 2 | .d => 3
/-- Width of a modifier; bits [3:2] are reserved. -/
def MemW.ofCode (c : BitVec 4) : Option MemW :=
  match c.toNat with
  | 0 => some .b | 1 => some .h | 2 => some .w | 3 => some .d | _ => none
/-- Gang form code (R147). -/
def GangForm.code : GangForm → BitVec 3
  | .bf16 => 0 | .f32 => 1 | .p => 2 | .sbf16 => 3 | .sp => 4
/-- Gang form of a modifier; 5 to 7 are reserved. -/
def GangForm.ofCode (c : BitVec 3) : Option GangForm :=
  match c.toNat with
  | 0 => some .bf16 | 1 => some .f32 | 2 => some .p | 3 => some .sbf16 | 4 => some .sp | _ => none
/-- The 32-bit modifier of CAS and AMO (R41). -/
def w32Code (b : Bool) : BitVec 4 := if b then 1 else 0
/-- A modifier of CAS and AMO: [3:1] are reserved. -/
def w32Of (c : BitVec 4) : Option Bool :=
  match c.toNat with
  | 0 => some false | 1 => some true | _ => none

/-- An instruction whose reserved fields must be zero (R7, R31). -/
def req (ok : Bool) (i : Instr) : Option Instr := if ok then some i else none

/-! ### The decoder -/

/-- Map A (R33). -/
def decA (w : IWord) : Option Instr :=
  match (fF w).toNat with
  | 0x000 => some (.add (fA w) (fB w) (fC w))
  | 0x001 => some (.sub (fA w) (fB w) (fC w))
  | 0x002 => some (.and (fA w) (fB w) (fC w))
  | 0x003 => some (.or (fA w) (fB w) (fC w))
  | 0x004 => some (.xor (fA w) (fB w) (fC w))
  | 0x005 => some (.andn (fA w) (fB w) (fC w))
  | 0x006 => some (.sll (fA w) (fB w) (fC w))
  | 0x007 => some (.srl (fA w) (fB w) (fC w))
  | 0x008 => some (.sra (fA w) (fB w) (fC w))
  | 0x009 => some (.clt (fA w) (fB w) (fC w))
  | 0x00a => some (.cltu (fA w) (fB w) (fC w))
  | 0x00b => some (.min (fA w) (fB w) (fC w))
  | 0x00c => some (.max (fA w) (fB w) (fC w))
  | 0x00d => some (.minu (fA w) (fB w) (fC w))
  | 0x00e => some (.maxu (fA w) (fB w) (fC w))
  | 0x010 => some (.mul (fA w) (fB w) (fC w))
  | 0x011 => some (.mulh (fA w) (fB w) (fC w))
  | 0x012 => some (.mulhu (fA w) (fB w) (fC w))
  | 0x014 => some (.div (fA w) (fB w) (fC w))
  | 0x015 => some (.divu (fA w) (fB w) (fC w))
  | 0x016 => some (.rem (fA w) (fB w) (fC w))
  | 0x017 => some (.remu (fA w) (fB w) (fC w))
  | 0x018 => req (fC w == 0) (.clz (fA w) (fB w))
  | 0x019 => req (fC w == 0) (.popc (fA w) (fB w))
  | n => if n / 8 = 16 then some (.sel (fA w) (fB w) (fC w) ((fF w).extractLsb' 0 3)) else none

/-- Map B (R34). -/
def decB (w : IWord) : Option Instr :=
  match (fF w).toNat with
  | 0x000 => req (fC w == 0) (.jalr (fA w) (fB w))
  | 0x001 => req (fA w == 0 && fB w == 0) (.trap (fC w))
  | 0x002 => req (fA w == 0 && fB w == 0 && fC w == 0) .tret
  | 0x003 => req (fA w == 0 && fB w == 0 && fC w == 0) .ifence
  | 0x004 => req (fB w == 0 && (fC w).extractLsb' 4 1 == 0) (.rdc (fA w) ((fC w).extractLsb' 0 4))
  | 0x005 => req (fA w == 0 && fB w == 0 && fC w == 0) .bkpt
  | _ => none

/-- Map C (R35). -/
def decC (w : IWord) : Option Instr :=
  let wd := Width.ofCode ((fFn w).extractLsb' 6 2)
  let wz := (fFn w).extractLsb' 6 2 == 0
  match ((fFn w).extractLsb' 0 6).toNat with
  | 0x00 => some (.vadd wd (fA w) (fB w) (fC w) (fQ w))
  | 0x01 => some (.vsub wd (fA w) (fB w) (fC w) (fQ w))
  | 0x02 => some (.vmul wd (fA w) (fB w) (fC w) (fQ w))
  | 0x03 => some (.vadds wd (fA w) (fB w) (fC w) (fQ w))
  | 0x04 => some (.vsubs wd (fA w) (fB w) (fC w) (fQ w))
  | 0x05 => some (.vmin wd (fA w) (fB w) (fC w) (fQ w))
  | 0x06 => some (.vmax wd (fA w) (fB w) (fC w) (fQ w))
  | 0x07 => some (.vminu wd (fA w) (fB w) (fC w) (fQ w))
  | 0x08 => some (.vmaxu wd (fA w) (fB w) (fC w) (fQ w))
  | 0x09 => some (.vsll wd (fA w) (fB w) (fC w) (fQ w))
  | 0x0a => some (.vsrl wd (fA w) (fB w) (fC w) (fQ w))
  | 0x0b => some (.vsra wd (fA w) (fB w) (fC w) (fQ w))
  | 0x0c => req (fC w == 0) (.vabs wd (fA w) (fB w) (fQ w))
  | 0x10 => req wz (.vand (fA w) (fB w) (fC w) (fQ w))
  | 0x11 => req wz (.vor (fA w) (fB w) (fC w) (fQ w))
  | 0x12 => req wz (.vxor (fA w) (fB w) (fC w) (fQ w))
  | 0x13 => req wz (.vandn (fA w) (fB w) (fC w) (fQ w))
  | 0x14 => req wz (.vsel (fA w) (fB w) (fC w) (fQ w))
  | _ => none

/-- Map D (R35). -/
def decD (w : IWord) : Option Instr :=
  let wz := (fFn w).extractLsb' 6 2 == 0
  match FFmt.ofCode ((fFn w).extractLsb' 6 2) with
  | none => none
  | some f =>
  match ((fFn w).extractLsb' 0 6).toNat with
  | 0x00 => some (.vfadd f (fA w) (fB w) (fC w) (fQ w))
  | 0x01 => some (.vfsub f (fA w) (fB w) (fC w) (fQ w))
  | 0x02 => some (.vfmul f (fA w) (fB w) (fC w) (fQ w))
  | 0x03 => some (.vfma f (fA w) (fB w) (fC w) (fQ w))
  | 0x04 => some (.vfnma f (fA w) (fB w) (fC w) (fQ w))
  | 0x05 => some (.vfmin f (fA w) (fB w) (fC w) (fQ w))
  | 0x06 => some (.vfmax f (fA w) (fB w) (fC w) (fQ w))
  | 0x07 => req (fC w == 0) (.vfabs f (fA w) (fB w) (fQ w))
  | 0x08 => req (fC w == 0) (.vfneg f (fA w) (fB w) (fQ w))
  | 0x09 => req (wz && fC w == 0) (.vexp2 (fA w) (fB w) (fQ w))
  | 0x0a => req (wz && fC w == 0) (.vrcp (fA w) (fB w) (fQ w))
  | 0x0b => req (wz && fC w == 0) (.vrsq (fA w) (fB w) (fQ w))
  | _ => none

/-- Predicate operations, type 7 of map E (R36, R131). -/
def decQ (w : IWord) : Option Instr :=
  let dz := (fA w).extractLsb' 3 2 == 0
  let qd := (fA w).extractLsb' 0 3
  let az := (fB w).extractLsb' 3 2 == 0
  let qa := (fB w).extractLsb' 0 3
  let bz := (fC w).extractLsb' 3 2 == 0
  let qb := (fC w).extractLsb' 0 3
  let z := fQ w == 0
  match ((fFn w).extractLsb' 0 5).toNat with
  | 0x00 => req (dz && az && bz && z) (.qand qd qa qb)
  | 0x01 => req (dz && az && bz && z) (.qor qd qa qb)
  | 0x02 => req (dz && az && bz && z) (.qxor qd qa qb)
  | 0x03 => req (dz && az && bz && z) (.qandn qd qa qb)
  | 0x04 => req (dz && az && fC w == 0 && z) (.qnot qd qa)
  | 0x05 => req (az && fC w == 0 && z) (.qcnt (fA w) qa)
  | 0x06 => req (dz && fC w == 0 && z) (.qfromg qd (fB w))
  | 0x07 => req (az && fC w == 0 && z) (.qtog (fA w) qa)
  | _ => none

/-- Map E (R36). -/
def decE (w : IWord) : Option Instr :=
  let dz := (fA w).extractLsb' 3 2 == 0
  let qd := (fA w).extractLsb' 0 3
  let ty := (fFn w).extractLsb' 5 3
  if ty = 7 then decQ w
  else match CmpTy.ofCode ty with
  | none => none
  | some t =>
  match ((fFn w).extractLsb' 0 5).toNat with
  | 0x00 => req dz (.vcmpEq t qd (fB w) (fC w) (fQ w))
  | 0x01 => req dz (.vcmpNe t qd (fB w) (fC w) (fQ w))
  | 0x02 => req dz (.vcmpLt t qd (fB w) (fC w) (fQ w))
  | 0x03 => req dz (.vcmpLe t qd (fB w) (fC w) (fQ w))
  | 0x04 => req (dz && decide (ty.toNat < 4)) (.vcmpLtu (Width.ofCode (ty.extractLsb' 0 2)) qd (fB w) (fC w) (fQ w))
  | 0x05 => req (dz && decide (ty.toNat < 4)) (.vcmpLeu (Width.ofCode (ty.extractLsb' 0 2)) qd (fB w) (fC w) (fQ w))
  | _ => none

/-- Map F (R37, R121, R134, R135, R138). -/
def decF (w : IWord) : Option Instr :=
  let cz := fC w == 0
  let qz := (fQ w).extractLsb' 2 1 == 0
  let wd := Width.ofCode ((fQ w).extractLsb' 0 2)
  let even := (fA w).extractLsb' 0 1 == 0
  let h1 := (fC w).extractLsb' 0 1
  let h1z := (fC w).extractLsb' 1 4 == 0
  let h2 := (fC w).extractLsb' 0 2
  let h2z := (fC w).extractLsb' 2 3 == 0
  match (fFn w).toNat with
  | 0x00 => req cz (.vrsumF32 (fA w) (fB w) (fQ w))
  | 0x01 => req cz (.vrmaxF32 (fA w) (fB w) (fQ w))
  | 0x02 => req cz (.vrsumI32 (fA w) (fB w) (fQ w))
  | 0x03 => req cz (.vrmaxI32 (fA w) (fB w) (fQ w))
  | 0x08 => req (cz && qz) (.vbcast wd (fA w) (fB w))
  | 0x09 => req qz (.vextr wd (fA w) (fB w) (fC w))
  | 0x0a => req qz (.vins wd (fA w) (fB w) (fC w))
  | 0x0b => req qz (.vperm wd (fA w) (fB w) (fC w))
  | 0x0c => req qz (.vslide wd (fA w) (fB w) (fC w))
  | 0x10 => req even (.vtopk (fA w) (fB w) (fC w) (fQ w))
  | 0x11 => req even (.vtopkNz (fA w) (fB w) (fC w) (fQ w))
  | 0x12 => req (cz && fQ w == 0) (.vcompress (fA w) (fB w))
  | 0x20 => req h1z (.vcvtF32Bf16 (fA w) (fB w) h1 (fQ w))
  | 0x21 => req h1z (.vcvtBf16F32 (fA w) (fB w) h1 (fQ w))
  | 0x22 => req cz (.vcvtF32I32 (fA w) (fB w) (fQ w))
  | 0x23 => req cz (.vcvtI32F32 (fA w) (fB w) (fQ w))
  | 0x24 => req h2z (.vcvtI8I32 (fA w) (fB w) h2 (fQ w))
  | 0x25 => req h2z (.vcvtUi8I32 (fA w) (fB w) h2 (fQ w))
  | 0x26 => req h2z (.vcvtI32I8 (fA w) (fB w) h2 (fQ w))
  | _ => none

/-- Map G (R37). -/
def decG (w : IWord) : Option Instr :=
  match (fFn w).toNat with
  | 0x00 => some (.vld (fA w) (fB w) (fC w) (fQ w))
  | 0x01 => some (.vst (fA w) (fB w) (fC w) (fQ w))
  | 0x02 => some (.vlds (fA w) (fB w) (fC w) (fQ w))
  | 0x03 => some (.vsts (fA w) (fB w) (fC w) (fQ w))
  | 0x04 => some (.vldx (fA w) (fB w) (fC w) (fQ w))
  | 0x05 => some (.vstx (fA w) (fB w) (fC w) (fQ w))
  | 0x06 => some (.vldb (fA w) (fB w) (fC w) (fQ w))
  | _ => none

/-- Map H (R38, R147). -/
def decH (w : IWord) : Option Instr :=
  let mz := fM w == 0
  let vz := fV w == 0
  let gz := fG w == 0
  let pz := fPl w == 0
  let dz := fQ w == 0
  match (fFn w).toNat with
  | 0x00 => req (mz && vz && pz && dz) (.mldwBf16 (fG w))
  | 0x01 => req (mz && vz && pz && dz) (.mldwF32 (fG w))
  | 0x02 => req (mz && vz && !pz && dz) (.mldwP (fG w) (fPl w))
  | 0x03 => req (mz && vz && gz && pz && dz) .mswap
  | 0x08 => req (vz && pz && dz) (.mmaBf16 (fM w) (fG w))
  | 0x09 => req (vz && pz && dz) (.mmaF32 (fM w) (fG w))
  | 0x0a => req (vz && !pz && dz) (.mmaP (fM w) (fG w) (fPl w))
  | 0x0c => req (pz && dz) (.mmasBf16 (fM w) (fV w) (fG w))
  | 0x0e => req (!pz && dz) (.mmasP (fM w) (fV w) (fG w) (fPl w))
  | 0x10 => req (vz && gz && pz && dz) (.mzero (fM w))
  | 0x11 => req (vz && pz && dz) (.mldacc (fM w) (fG w))
  | 0x12 => if dz then req (vz && pz) (.mstacc (fM w) (fG w)) else req (vz && pz && fQ w == 1) (.mstaccBf16 (fM w) (fG w))
  | 0x13 => req (vz && pz && dz) (.mscale (fM w) (fG w))
  | 0x18 =>
    match GangForm.ofCode (fQ w) with
    | none => none
    | some f => req (gangFieldsOk f (fV w) (fPl w)) (.gang f (fM w) (fV w) (fG w) (fPl w))
  | 0x19 =>
    match GangForm.ofCode (fQ w) with
    | none => none
    | some f => req (gangFieldsOk f (fV w) (fPl w)) (.gangT f (fM w) (fV w) (fG w) (fPl w))
  | 0x20 => req (mz && vz && pz && dz) (.msave (fG w))
  | 0x21 => req (mz && vz && pz && dz) (.mrest (fG w))
  | 0x22 => req (mz && vz && gz && pz && dz) .mfree
  | _ => none

/-- Map I (R39). -/
def decI (w : IWord) : Option Instr :=
  let az := fA w == 0
  let bz := fB w == 0
  let cz := fC w == 0
  let port := w.extractLsb' 9 2
  let opt := w.extractLsb' 6 3
  let oz := opt == 0
  let pz := port == 0
  let o2z := opt.extractLsb' 1 2 == 0
  let t := opt.extractLsb' 0 1 == 1
  let rq := reqRegOk (fB w)
  match (w.extractLsb' 0 6).toNat with
  | 0x00 => req (az && cz && o2z && rq) (.enq t port (fB w))
  | 0x01 => req (cz && o2z && rq) (.enqt t port (fA w) (fB w))
  | 0x02 => req (bz && cz && oz) (.deq port (fA w))
  | 0x03 => req (bz && cz && oz) (.deqt port (fA w))
  | 0x08 => req (az && pz && o2z) (.mbinc t (fB w) (fC w))
  | 0x09 => req (az && pz && oz) (.mbwait (fB w) (fC w))
  | 0x0a => req (pz && oz) (.mbwaitT (fA w) (fB w) (fC w))
  | 0x0b => req (cz && pz && oz) (.mbrd (fA w) (fB w))
  | 0x0c => req (az && pz && oz) (.mbset (fB w) (fC w))
  | 0x10 => req (az && cz && port == 2 && oz && rq) (.bmv (fB w))
  | 0x11 => req (az && bz && cz && pz && oz) .bfence
  | 0x18 => req (az && cz && port == 3 && oz && rq) (.pchk (fB w))
  | 0x19 => req (az && cz && port == 3 && oz && rq) (.prec (fB w))
  | 0x1a => req (cz && pz && oz) (.pstep (fA w) (fB w))
  | 0x1b => req (pz && oz) (.pdrop (fA w) (fB w) (fC w))
  | _ => none

/-- Map J (R40, R178, R207). -/
def decJ (w : IWord) : Option Instr :=
  match (fF w).toNat with
  | 0x000 => some (.spawn (fA w) (fB w) (fC w))
  | 0x001 => some (.spawnat (fA w) (fB w) (fC w))
  | 0x002 => some (.spawntrig (fA w) (fB w) (fC w))
  | 0x003 => req (fA w == 0 && fB w == 0 && fC w == 0) .exit
  | 0x004 => req (fB w == 0 && fC w == 0) (.tid (fA w))
  | 0x005 => some (.tcancel (fA w) (fB w) (fC w))
  | 0x008 => req (fB w == 0 && fC w == 0) (.rgid (fA w))
  | 0x009 => some (.rgrd (fA w) (fB w) (fC w))
  | 0x00a => some (.rgwr (fA w) (fB w) (fC w))
  | 0x010 => some (.prd (fA w) (fB w) (fC w))
  | _ => none

/-- Map K (R40, R243). -/
def decK (w : IWord) : Option Instr :=
  match (fF w).toNat with
  | 0x000 => some (.send (fA w) (fB w) (fC w))
  | 0x001 => some (.sendh (fA w) (fB w) (fC w))
  | 0x002 => req (fB w == 0 && fC w == 0) (.sendt (fA w))
  | 0x003 => req (fA w == 0 && fB w == 0 && fC w == 0) .hend
  | 0x008 => req (fC w == 0) (.cmask (fA w) (fB w))
  | 0x009 => req (fC w == 0) (.cunmask (fA w) (fB w))
  | 0x00a => req (fA w == 0 && fB w == 0 && fC w == 0) .hmask
  | 0x00b => req (fA w == 0 && fB w == 0 && fC w == 0) .hunmask
  | _ => none

/-- Map L (R41). -/
def decL (w : IWord) : Option Instr :=
  let sc := Scope.ofCode (w.extractLsb' 4 2)
  let md := w.extractLsb' 0 4
  let sz := w.extractLsb' 4 2 == 0 && md == 0
  let amo := fun (f : Bool → Scope → Reg → Reg → Reg → Instr) =>
    match w32Of md with
    | none => none
    | some b => some (f b sc (fA w) (fB w) (fC w))
  match (w.extractLsb' 6 5).toNat with
  | 0x00 => req (fA w == 0 && fB w == 0 && fC w == 0 && md != 0) (.fence sc md)
  | 0x01 =>
    match MemW.ofCode md with
    | none => none
    | some wd => req (fC w == 0) (.lda wd sc (fA w) (fB w))
  | 0x02 =>
    match MemW.ofCode md with
    | none => none
    | some wd => req (fA w == 0) (.stl wd sc (fB w) (fC w))
  | 0x03 => amo .cas
  | 0x04 => amo .amoAdd
  | 0x05 => amo .amoAnd
  | 0x06 => amo .amoOr
  | 0x07 => amo .amoXor
  | 0x08 => amo .amoMin
  | 0x09 => amo .amoMax
  | 0x0a => amo .amoMinu
  | 0x0b => amo .amoMaxu
  | 0x0c => amo .amoSwap
  | 0x0d => req (md == 1) (.amoFadd sc (fA w) (fB w) (fC w))
  | 0x10 => req (sz && fA w == 0 && fC w == 0) (.cwb (fB w))
  | 0x11 => req (sz && fA w == 0 && fC w == 0) (.cinv (fB w))
  | 0x12 => req (sz && fA w == 0 && fC w == 0) (.cpf (fB w))
  | 0x13 => req (sz && fA w == 0) (.tlbinv (fB w) (fC w))
  | 0x14 => req sz (.probe (fA w) (fB w) (fC w))
  | _ => none

/-- Map M (R40, R343). -/
def decM (w : IWord) : Option Instr :=
  match (fF w).toNat with
  | 0x000 => req (fC w == 0) (.mchopen (fA w) (fB w))
  | 0x001 => some (.mrel (fA w) (fB w) (fC w))
  | 0x002 => req (fC w == 0) (.mchclose (fA w) (fB w))
  | 0x003 => req (fC w == 0) (.mchstat (fA w) (fB w))
  | _ => none

/-- Map N (R40, R215, R221, R225, R226). -/
def decN (w : IWord) : Option Instr :=
  let cz := fC w == 0
  match (fF w).toNat with
  | 0x000 => req cz (.ldf (fA w) (fB w))
  | 0x001 => req cz (.ldfe (fA w) (fB w))
  | 0x002 => req cz (.ste (fA w) (fB w))
  | 0x003 => req cz (.stf (fA w) (fB w))
  | 0x004 => some (.ldfT (fA w) (fB w) (fC w))
  | 0x005 => some (.ldfeT (fA w) (fB w) (fC w))
  | 0x006 => some (.steT (fA w) (fB w) (fC w))
  | 0x008 => req cz (.tagrd (fA w) (fB w))
  | 0x009 => req cz (.tagwr (fA w) (fB w))
  | 0x010 => some (.smap (fA w) (fB w) (fC w))
  | 0x011 => req (fA w == 0 && cz) (.sunmap (fB w))
  | 0x012 => req (fA w == 0) (.sflush (fB w) (fC w))
  | 0x018 => some (.mfill (fA w) (fB w) (fC w))
  | 0x019 => some (.armh (fA w) (fB w) (fC w))
  | _ => none

/-- RPT (R49). -/
def decRpt (w : IWord) : Option Instr :=
  let len := w.extractLsb' 22 4
  let sd := w.extractLsb' 20 2
  let sa := w.extractLsb' 18 2
  let sb := w.extractLsb' 16 2
  if w.extractLsb' 15 1 = 0 then some (.rptImmediate len sd sa sb (w.extractLsb' 0 15))
  else req (w.extractLsb' 0 10 == 0) (.rptRegister len sd sa sb (w.extractLsb' 10 5))

/-- The instruction of a word, or none where R30 and R31 make it illegal. -/
def decode (w : IWord) : Option Instr :=
  match (fMaj w).toNat with
  | 0x01 => decA w
  | 0x02 => some (.addi (fA w) (fB w) (fImm w))
  | 0x03 => some (.andi (fA w) (fB w) (fImm w))
  | 0x04 => some (.ori (fA w) (fB w) (fImm w))
  | 0x05 => some (.xori (fA w) (fB w) (fImm w))
  | 0x06 => some (.clti (fA w) (fB w) (fImm w))
  | 0x07 => some (.cltiu (fA w) (fB w) (fImm w))
  | 0x08 => some (.insh0 (fA w) (fB w) (fImm w))
  | 0x09 => some (.insh1 (fA w) (fB w) (fImm w))
  | 0x0a => some (.insh2 (fA w) (fB w) (fImm w))
  | 0x0b => some (.insh3 (fA w) (fB w) (fImm w))
  | 0x0c => req (w.extractLsb' 6 10 == 0) (.slli (fA w) (fB w) (w.extractLsb' 0 6))
  | 0x0d => req (w.extractLsb' 6 10 == 0) (.srli (fA w) (fB w) (w.extractLsb' 0 6))
  | 0x0e => req (w.extractLsb' 6 10 == 0) (.srai (fA w) (fB w) (w.extractLsb' 0 6))
  | 0x10 => some (.ldB (fA w) (fB w) (fImm w))
  | 0x11 => some (.ldBu (fA w) (fB w) (fImm w))
  | 0x12 => some (.ldH (fA w) (fB w) (fImm w))
  | 0x13 => some (.ldHu (fA w) (fB w) (fImm w))
  | 0x14 => some (.ldW (fA w) (fB w) (fImm w))
  | 0x15 => some (.ldWu (fA w) (fB w) (fImm w))
  | 0x16 => some (.ldD (fA w) (fB w) (fImm w))
  | 0x17 => some (.stB (fA w) (fB w) (fImm w))
  | 0x18 => some (.stH (fA w) (fB w) (fImm w))
  | 0x19 => some (.stW (fA w) (fB w) (fImm w))
  | 0x1a => some (.stD (fA w) (fB w) (fImm w))
  | 0x1c => some (.beq (fA w) (fB w) (fImm w))
  | 0x1d => some (.bne (fA w) (fB w) (fImm w))
  | 0x1e => some (.blt (fA w) (fB w) (fImm w))
  | 0x1f => some (.bge (fA w) (fB w) (fImm w))
  | 0x20 => some (.bltu (fA w) (fB w) (fImm w))
  | 0x21 => some (.bgeu (fA w) (fB w) (fImm w))
  | 0x22 => some (.j (w.extractLsb' 0 26))
  | 0x23 => some (.jal (w.extractLsb' 0 26))
  | 0x24 => decB w
  | 0x25 => req (fB w == 0 && w.extractLsb' 12 4 == 0) (.cwrd (fA w) (w.extractLsb' 0 12))
  | 0x26 => req (fA w == 0 && w.extractLsb' 12 4 == 0) (.cwwr (w.extractLsb' 0 12) (fB w))
  | 0x28 => decC w
  | 0x29 => decD w
  | 0x2a => decE w
  | 0x2b => decF w
  | 0x2c => decG w
  | 0x30 => decH w
  | 0x34 => decI w
  | 0x38 => decJ w
  | 0x39 => decK w
  | 0x3a => decL w
  | 0x3b => decM w
  | 0x3c => decRpt w
  | 0x3d => decN w
  | _ => none

/-- The word held little-endian in four bytes (R26). -/
def wordOfBytes (b0 b1 b2 b3 : Byte) : IWord := b3 ++ b2 ++ b1 ++ b0

/-- The decoder on bytes as memory holds them: the instruction at the head, or none. -/
def decodeBytes (bs : List Byte) : Option Instr :=
  match bs with
  | b0 :: b1 :: b2 :: b3 :: _ => decode (wordOfBytes b0 b1 b2 b3)
  | _ => none

/-- The instruction the decoder reads from a word numbered as the opcode table numbers it. -/
def decodeTableWord (nbits w : Nat) : Option Instr :=
  if nbits ≤ 32 then
    let v : IWord := BitVec.ofNat 32 w
    decodeBytes [v.extractLsb' 0 8, v.extractLsb' 8 8, v.extractLsb' 16 8, v.extractLsb' 24 8]
  else none

/-! ### The encoder -/

/-- The word of an instruction, or none for an event, which has no encoding. -/
def encode? (i : Instr) : Option IWord :=
  match i with
  | .add gd ga gb => some (mkR 0x01 gd ga gb 0x000)
  | .sub gd ga gb => some (mkR 0x01 gd ga gb 0x001)
  | .and gd ga gb => some (mkR 0x01 gd ga gb 0x002)
  | .or gd ga gb => some (mkR 0x01 gd ga gb 0x003)
  | .xor gd ga gb => some (mkR 0x01 gd ga gb 0x004)
  | .andn gd ga gb => some (mkR 0x01 gd ga gb 0x005)
  | .sll gd ga gb => some (mkR 0x01 gd ga gb 0x006)
  | .srl gd ga gb => some (mkR 0x01 gd ga gb 0x007)
  | .sra gd ga gb => some (mkR 0x01 gd ga gb 0x008)
  | .clt gd ga gb => some (mkR 0x01 gd ga gb 0x009)
  | .cltu gd ga gb => some (mkR 0x01 gd ga gb 0x00a)
  | .min gd ga gb => some (mkR 0x01 gd ga gb 0x00b)
  | .max gd ga gb => some (mkR 0x01 gd ga gb 0x00c)
  | .minu gd ga gb => some (mkR 0x01 gd ga gb 0x00d)
  | .maxu gd ga gb => some (mkR 0x01 gd ga gb 0x00e)
  | .mul gd ga gb => some (mkR 0x01 gd ga gb 0x010)
  | .mulh gd ga gb => some (mkR 0x01 gd ga gb 0x011)
  | .mulhu gd ga gb => some (mkR 0x01 gd ga gb 0x012)
  | .div gd ga gb => some (mkR 0x01 gd ga gb 0x014)
  | .divu gd ga gb => some (mkR 0x01 gd ga gb 0x015)
  | .rem gd ga gb => some (mkR 0x01 gd ga gb 0x016)
  | .remu gd ga gb => some (mkR 0x01 gd ga gb 0x017)
  | .clz gd ga => some (mkR 0x01 gd ga 0 0x018)
  | .popc gd ga => some (mkR 0x01 gd ga 0 0x019)
  | .sel gd ga gb n => some (mkR 0x01 gd ga gb ((0x10 : BitVec 8) ++ n))
  | .addi gd ga imm => some (mkI 0x02 gd ga imm)
  | .andi gd ga imm => some (mkI 0x03 gd ga imm)
  | .ori gd ga imm => some (mkI 0x04 gd ga imm)
  | .xori gd ga imm => some (mkI 0x05 gd ga imm)
  | .clti gd ga imm => some (mkI 0x06 gd ga imm)
  | .cltiu gd ga imm => some (mkI 0x07 gd ga imm)
  | .insh0 gd ga imm => some (mkI 0x08 gd ga imm)
  | .insh1 gd ga imm => some (mkI 0x09 gd ga imm)
  | .insh2 gd ga imm => some (mkI 0x0a gd ga imm)
  | .insh3 gd ga imm => some (mkI 0x0b gd ga imm)
  | .slli gd ga sh => some (mkI 0x0c gd ga ((0 : BitVec 10) ++ sh))
  | .srli gd ga sh => some (mkI 0x0d gd ga ((0 : BitVec 10) ++ sh))
  | .srai gd ga sh => some (mkI 0x0e gd ga ((0 : BitVec 10) ++ sh))
  | .ldB gd ga imm => some (mkI 0x10 gd ga imm)
  | .ldBu gd ga imm => some (mkI 0x11 gd ga imm)
  | .ldH gd ga imm => some (mkI 0x12 gd ga imm)
  | .ldHu gd ga imm => some (mkI 0x13 gd ga imm)
  | .ldW gd ga imm => some (mkI 0x14 gd ga imm)
  | .ldWu gd ga imm => some (mkI 0x15 gd ga imm)
  | .ldD gd ga imm => some (mkI 0x16 gd ga imm)
  | .stB gd ga imm => some (mkI 0x17 gd ga imm)
  | .stH gd ga imm => some (mkI 0x18 gd ga imm)
  | .stW gd ga imm => some (mkI 0x19 gd ga imm)
  | .stD gd ga imm => some (mkI 0x1a gd ga imm)
  | .beq sa sb d => some (mkI 0x1c sa sb d)
  | .bne sa sb d => some (mkI 0x1d sa sb d)
  | .blt sa sb d => some (mkI 0x1e sa sb d)
  | .bge sa sb d => some (mkI 0x1f sa sb d)
  | .bltu sa sb d => some (mkI 0x20 sa sb d)
  | .bgeu sa sb d => some (mkI 0x21 sa sb d)
  | .j d => some (mkJ 0x22 d)
  | .jal d => some (mkJ 0x23 d)
  | .jalr gd ga => some (mkR 0x24 gd ga 0 0x000)
  | .trap n => some (mkR 0x24 0 0 n 0x001)
  | .tret => some (mkR 0x24 0 0 0 0x002)
  | .ifence => some (mkR 0x24 0 0 0 0x003)
  | .rdc gd n => some (mkR 0x24 gd 0 ((0 : BitVec 1) ++ n) 0x004)
  | .bkpt => some (mkR 0x24 0 0 0 0x005)
  | .cwrd gd idx => some (mkI 0x25 gd 0 ((0 : BitVec 4) ++ idx))
  | .cwwr idx ga => some (mkI 0x26 0 ga ((0 : BitVec 4) ++ idx))
  | .rptImmediate len sd sa sb count => some ((0x3C : BitVec 6) ++ len ++ sd ++ sa ++ sb ++ (0 : BitVec 1) ++ count)
  | .rptRegister len sd sa sb ga =>
    some ((0x3C : BitVec 6) ++ len ++ sd ++ sa ++ sb ++ (1 : BitVec 1) ++ ga ++ (0 : BitVec 10))
  | .vadd wd vd va vb q => some (mkV 0x28 vd va vb q (wd.code ++ (0x00 : BitVec 6)))
  | .vsub wd vd va vb q => some (mkV 0x28 vd va vb q (wd.code ++ (0x01 : BitVec 6)))
  | .vmul wd vd va vb q => some (mkV 0x28 vd va vb q (wd.code ++ (0x02 : BitVec 6)))
  | .vadds wd vd va vb q => some (mkV 0x28 vd va vb q (wd.code ++ (0x03 : BitVec 6)))
  | .vsubs wd vd va vb q => some (mkV 0x28 vd va vb q (wd.code ++ (0x04 : BitVec 6)))
  | .vmin wd vd va vb q => some (mkV 0x28 vd va vb q (wd.code ++ (0x05 : BitVec 6)))
  | .vmax wd vd va vb q => some (mkV 0x28 vd va vb q (wd.code ++ (0x06 : BitVec 6)))
  | .vminu wd vd va vb q => some (mkV 0x28 vd va vb q (wd.code ++ (0x07 : BitVec 6)))
  | .vmaxu wd vd va vb q => some (mkV 0x28 vd va vb q (wd.code ++ (0x08 : BitVec 6)))
  | .vsll wd vd va vb q => some (mkV 0x28 vd va vb q (wd.code ++ (0x09 : BitVec 6)))
  | .vsrl wd vd va vb q => some (mkV 0x28 vd va vb q (wd.code ++ (0x0a : BitVec 6)))
  | .vsra wd vd va vb q => some (mkV 0x28 vd va vb q (wd.code ++ (0x0b : BitVec 6)))
  | .vabs wd vd va q => some (mkV 0x28 vd va 0 q (wd.code ++ (0x0C : BitVec 6)))
  | .vand vd va vb q => some (mkV 0x28 vd va vb q 0x10)
  | .vor vd va vb q => some (mkV 0x28 vd va vb q 0x11)
  | .vxor vd va vb q => some (mkV 0x28 vd va vb q 0x12)
  | .vandn vd va vb q => some (mkV 0x28 vd va vb q 0x13)
  | .vsel vd va vb q => some (mkV 0x28 vd va vb q 0x14)
  | .vfadd f vd va vb q => some (mkV 0x29 vd va vb q (f.code ++ (0x00 : BitVec 6)))
  | .vfsub f vd va vb q => some (mkV 0x29 vd va vb q (f.code ++ (0x01 : BitVec 6)))
  | .vfmul f vd va vb q => some (mkV 0x29 vd va vb q (f.code ++ (0x02 : BitVec 6)))
  | .vfma f vd va vb q => some (mkV 0x29 vd va vb q (f.code ++ (0x03 : BitVec 6)))
  | .vfnma f vd va vb q => some (mkV 0x29 vd va vb q (f.code ++ (0x04 : BitVec 6)))
  | .vfmin f vd va vb q => some (mkV 0x29 vd va vb q (f.code ++ (0x05 : BitVec 6)))
  | .vfmax f vd va vb q => some (mkV 0x29 vd va vb q (f.code ++ (0x06 : BitVec 6)))
  | .vfabs f vd va q => some (mkV 0x29 vd va 0 q (f.code ++ (0x07 : BitVec 6)))
  | .vfneg f vd va q => some (mkV 0x29 vd va 0 q (f.code ++ (0x08 : BitVec 6)))
  | .vexp2 vd va q => some (mkV 0x29 vd va 0 q 0x09)
  | .vrcp vd va q => some (mkV 0x29 vd va 0 q 0x0a)
  | .vrsq vd va q => some (mkV 0x29 vd va 0 q 0x0b)
  | .vcmpEq t qd va vb q => some (mkV 0x2A ((0 : BitVec 2) ++ qd) va vb q (t.code ++ (0 : BitVec 5)))
  | .vcmpNe t qd va vb q => some (mkV 0x2A ((0 : BitVec 2) ++ qd) va vb q (t.code ++ (1 : BitVec 5)))
  | .vcmpLt t qd va vb q => some (mkV 0x2A ((0 : BitVec 2) ++ qd) va vb q (t.code ++ (2 : BitVec 5)))
  | .vcmpLe t qd va vb q => some (mkV 0x2A ((0 : BitVec 2) ++ qd) va vb q (t.code ++ (3 : BitVec 5)))
  | .vcmpLtu wd qd va vb q => some (mkV 0x2A ((0 : BitVec 2) ++ qd) va vb q ((0 : BitVec 1) ++ wd.code ++ (4 : BitVec 5)))
  | .vcmpLeu wd qd va vb q => some (mkV 0x2A ((0 : BitVec 2) ++ qd) va vb q ((0 : BitVec 1) ++ wd.code ++ (5 : BitVec 5)))
  | .qand qd qa qb => some (mkV 0x2A ((0 : BitVec 2) ++ qd) ((0 : BitVec 2) ++ qa) ((0 : BitVec 2) ++ qb) 0 0xe0)
  | .qor qd qa qb => some (mkV 0x2A ((0 : BitVec 2) ++ qd) ((0 : BitVec 2) ++ qa) ((0 : BitVec 2) ++ qb) 0 0xe1)
  | .qxor qd qa qb => some (mkV 0x2A ((0 : BitVec 2) ++ qd) ((0 : BitVec 2) ++ qa) ((0 : BitVec 2) ++ qb) 0 0xe2)
  | .qandn qd qa qb => some (mkV 0x2A ((0 : BitVec 2) ++ qd) ((0 : BitVec 2) ++ qa) ((0 : BitVec 2) ++ qb) 0 0xe3)
  | .qnot qd qa => some (mkV 0x2A ((0 : BitVec 2) ++ qd) ((0 : BitVec 2) ++ qa) 0 0 0xe4)
  | .qcnt gd qa => some (mkV 0x2A gd ((0 : BitVec 2) ++ qa) 0 0 0xe5)
  | .qfromg qd ga => some (mkV 0x2A ((0 : BitVec 2) ++ qd) ga 0 0 0xe6)
  | .qtog gd qa => some (mkV 0x2A gd ((0 : BitVec 2) ++ qa) 0 0 0xe7)
  | .vrsumF32 gd va q => some (mkV 0x2B gd va 0 q 0x00)
  | .vrmaxF32 gd va q => some (mkV 0x2B gd va 0 q 0x01)
  | .vrsumI32 gd va q => some (mkV 0x2B gd va 0 q 0x02)
  | .vrmaxI32 gd va q => some (mkV 0x2B gd va 0 q 0x03)
  | .vbcast wd vd ga => some (mkV 0x2B vd ga 0 ((0 : BitVec 1) ++ wd.code) 0x08)
  | .vextr wd gd va gb => some (mkV 0x2B gd va gb ((0 : BitVec 1) ++ wd.code) 0x09)
  | .vins wd vd ga gb => some (mkV 0x2B vd ga gb ((0 : BitVec 1) ++ wd.code) 0x0a)
  | .vperm wd vd va vb => some (mkV 0x2B vd va vb ((0 : BitVec 1) ++ wd.code) 0x0b)
  | .vslide wd vd va gb => some (mkV 0x2B vd va gb ((0 : BitVec 1) ++ wd.code) 0x0c)
  | .vtopk vd va gb q => some (mkV 0x2B vd va gb q 0x10)
  | .vtopkNz vd va gb q => some (mkV 0x2B vd va gb q 0x11)
  | .vcompress vd va => some (mkV 0x2B vd va 0 0 0x12)
  | .vcvtF32Bf16 vd va h q => some (mkV 0x2B vd va ((0 : BitVec 4) ++ h) q 0x20)
  | .vcvtBf16F32 vd va h q => some (mkV 0x2B vd va ((0 : BitVec 4) ++ h) q 0x21)
  | .vcvtF32I32 vd va q => some (mkV 0x2B vd va 0 q 0x22)
  | .vcvtI32F32 vd va q => some (mkV 0x2B vd va 0 q 0x23)
  | .vcvtI8I32 vd va h q => some (mkV 0x2B vd va ((0 : BitVec 3) ++ h) q 0x24)
  | .vcvtUi8I32 vd va h q => some (mkV 0x2B vd va ((0 : BitVec 3) ++ h) q 0x25)
  | .vcvtI32I8 vd va h q => some (mkV 0x2B vd va ((0 : BitVec 3) ++ h) q 0x26)
  | .vld vd ga gb q => some (mkV 0x2C vd ga gb q 0x00)
  | .vst vd ga gb q => some (mkV 0x2C vd ga gb q 0x01)
  | .vlds vd ga gb q => some (mkV 0x2C vd ga gb q 0x02)
  | .vsts vd ga gb q => some (mkV 0x2C vd ga gb q 0x03)
  | .vldx vd ga gb q => some (mkV 0x2C vd ga gb q 0x04)
  | .vstx vd ga gb q => some (mkV 0x2C vd ga gb q 0x05)
  | .vldb vd ga gb q => some (mkV 0x2C vd ga gb q 0x06)
  | .mldwBf16 ga => some (mkM 0 0 ga 0 0 0x00)
  | .mldwF32 ga => some (mkM 0 0 ga 0 0 0x01)
  | .mldwP ga pl => some (mkM 0 0 ga pl 0 0x02)
  | .mswap => some (mkM 0 0 0 0 0 0x03)
  | .mmaBf16 m ga => some (mkM m 0 ga 0 0 0x08)
  | .mmaF32 m ga => some (mkM m 0 ga 0 0 0x09)
  | .mmaP m ga pl => some (mkM m 0 ga pl 0 0x0a)
  | .mmasBf16 m v ga => some (mkM m v ga 0 0 0x0c)
  | .mmasP m v ga pl => some (mkM m v ga pl 0 0x0e)
  | .mzero m => some (mkM m 0 0 0 0 0x10)
  | .mldacc m ga => some (mkM m 0 ga 0 0 0x11)
  | .mstacc m ga => some (mkM m 0 ga 0 0 0x12)
  | .mstaccBf16 m ga => some (mkM m 0 ga 0 1 0x12)
  | .mscale m ga => some (mkM m 0 ga 0 0 0x13)
  | .gang f m v ga pl => some (mkM m v ga pl f.code 0x18)
  | .gangT f m v ga pl => some (mkM m v ga pl f.code 0x19)
  | .msave ga => some (mkM 0 0 ga 0 0 0x20)
  | .mrest ga => some (mkM 0 0 ga 0 0 0x21)
  | .mfree => some (mkM 0 0 0 0 0 0x22)
  | .enq t p ga => some (mkE 0 ga 0 p ((0 : BitVec 2) ++ BitVec.ofBool t) 0x00)
  | .enqt t p gd ga => some (mkE gd ga 0 p ((0 : BitVec 2) ++ BitVec.ofBool t) 0x01)
  | .deq p gd => some (mkE gd 0 0 p 0 0x02)
  | .deqt p gd => some (mkE gd 0 0 p 0 0x03)
  | .mbinc r ga gb => some (mkE 0 ga gb 0 ((0 : BitVec 2) ++ BitVec.ofBool r) 0x08)
  | .mbwait ga gb => some (mkE 0 ga gb 0 0 0x09)
  | .mbwaitT gd ga gb => some (mkE gd ga gb 0 0 0x0a)
  | .mbrd gd ga => some (mkE gd ga 0 0 0 0x0b)
  | .mbset ga gb => some (mkE 0 ga gb 0 0 0x0c)
  | .bmv ga => some (mkE 0 ga 0 2 0 0x10)
  | .bfence => some (mkE 0 0 0 0 0 0x11)
  | .pchk ga => some (mkE 0 ga 0 3 0 0x18)
  | .prec ga => some (mkE 0 ga 0 3 0 0x19)
  | .pstep gd ga => some (mkE gd ga 0 0 0 0x1a)
  | .pdrop gd ga gb => some (mkE gd ga gb 0 0 0x1b)
  | .spawn gd ga gb => some (mkR 0x38 gd ga gb 0x000)
  | .spawnat gd ga gb => some (mkR 0x38 gd ga gb 0x001)
  | .spawntrig gd ga gb => some (mkR 0x38 gd ga gb 0x002)
  | .exit => some (mkR 0x38 0 0 0 0x003)
  | .tid gd => some (mkR 0x38 gd 0 0 0x004)
  | .tcancel gd ga gb => some (mkR 0x38 gd ga gb 0x005)
  | .rgid gd => some (mkR 0x38 gd 0 0 0x008)
  | .rgrd gd ga gb => some (mkR 0x38 gd ga gb 0x009)
  | .rgwr gs ga gb => some (mkR 0x38 gs ga gb 0x00a)
  | .prd gd ga gb => some (mkR 0x38 gd ga gb 0x010)
  | .send gd ga gb => some (mkR 0x39 gd ga gb 0x000)
  | .sendh gd ga gb => some (mkR 0x39 gd ga gb 0x001)
  | .sendt gd => some (mkR 0x39 gd 0 0 0x002)
  | .hend => some (mkR 0x39 0 0 0 0x003)
  | .cmask gd ga => some (mkR 0x39 gd ga 0 0x008)
  | .cunmask gd ga => some (mkR 0x39 gd ga 0 0x009)
  | .hmask => some (mkR 0x39 0 0 0 0x00a)
  | .hunmask => some (mkR 0x39 0 0 0 0x00b)
  | .fence sc sets => some (mkL 0 0 0 0x00 sc.code sets)
  | .lda wd sc gd ga => some (mkL gd ga 0 0x01 sc.code wd.code)
  | .stl wd sc ga gb => some (mkL 0 ga gb 0x02 sc.code wd.code)
  | .cas b sc gd ga gb => some (mkL gd ga gb 0x03 sc.code (w32Code b))
  | .amoAdd b sc gd ga gb => some (mkL gd ga gb 0x04 sc.code (w32Code b))
  | .amoAnd b sc gd ga gb => some (mkL gd ga gb 0x05 sc.code (w32Code b))
  | .amoOr b sc gd ga gb => some (mkL gd ga gb 0x06 sc.code (w32Code b))
  | .amoXor b sc gd ga gb => some (mkL gd ga gb 0x07 sc.code (w32Code b))
  | .amoMin b sc gd ga gb => some (mkL gd ga gb 0x08 sc.code (w32Code b))
  | .amoMax b sc gd ga gb => some (mkL gd ga gb 0x09 sc.code (w32Code b))
  | .amoMinu b sc gd ga gb => some (mkL gd ga gb 0x0a sc.code (w32Code b))
  | .amoMaxu b sc gd ga gb => some (mkL gd ga gb 0x0b sc.code (w32Code b))
  | .amoSwap b sc gd ga gb => some (mkL gd ga gb 0x0c sc.code (w32Code b))
  | .amoFadd sc gd ga gb => some (mkL gd ga gb 0x0d sc.code 1)
  | .cwb ga => some (mkL 0 ga 0 0x10 0 0)
  | .cinv ga => some (mkL 0 ga 0 0x11 0 0)
  | .cpf ga => some (mkL 0 ga 0 0x12 0 0)
  | .tlbinv ga gb => some (mkL 0 ga gb 0x13 0 0)
  | .probe gd ga gb => some (mkL gd ga gb 0x14 0 0)
  | .mchopen gd ga => some (mkR 0x3B gd ga 0 0x000)
  | .mrel gs ga gb => some (mkR 0x3B gs ga gb 0x001)
  | .mchclose gd ga => some (mkR 0x3B gd ga 0 0x002)
  | .mchstat gd ga => some (mkR 0x3B gd ga 0 0x003)
  | .ldf gd ga => some (mkR 0x3D gd ga 0 0x000)
  | .ldfe gd ga => some (mkR 0x3D gd ga 0 0x001)
  | .ste gs ga => some (mkR 0x3D gs ga 0 0x002)
  | .stf gs ga => some (mkR 0x3D gs ga 0 0x003)
  | .ldfT gd ga gt => some (mkR 0x3D gd ga gt 0x004)
  | .ldfeT gd ga gt => some (mkR 0x3D gd ga gt 0x005)
  | .steT gs ga gt => some (mkR 0x3D gs ga gt 0x006)
  | .tagrd gd ga => some (mkR 0x3D gd ga 0 0x008)
  | .tagwr gs ga => some (mkR 0x3D gs ga 0 0x009)
  | .smap gd ga gb => some (mkR 0x3D gd ga gb 0x010)
  | .sunmap ga => some (mkR 0x3D 0 ga 0 0x011)
  | .sflush ga gb => some (mkR 0x3D 0 ga gb 0x012)
  | .mfill gd ga gb => some (mkR 0x3D gd ga gb 0x018)
  | .armh gd ga gb => some (mkR 0x3D gd ga gb 0x019)
  | _ => none

/-- The word of an instruction; an event, which has none, gives the all-ones word that R30 makes illegal. -/
def encode (i : Instr) : IWord := (encode? i).getD 0xFFFFFFFF#32

end Sys2Proof
end

