-- ==== Sys2Proof/Machine/State.lean ====
section
/-! DEFINITION. Everything the spec gives one Darif, as plain data; the reasons a step can stop; the state after reset. -/

namespace Sys2Proof.Machine

/-- A live repeat frame (R52): the captured words and where the sequencer stands. -/
structure Frame where
  words : List IWord
  sd : Nat
  sa : Nat
  sb : Nat
  count : Nat
  iter : Nat
  pos : Nat
  deriving DecidableEq, Repr

/-- A fetched word of a slot's fetch queue (R71): its address, the word, and whether it was poisoned. -/
structure Fetched where
  va : Word
  word : IWord
  pois : Bool
  deriving DecidableEq, Repr

/-- Where the bytes of a reply go (R68, R123): nowhere, a g register of a given size, the active bytes of a vector
register, every active word lane (VLDB), the read buffer of the waiting instruction, or that of an engine command. -/
inductive Dest
  | none
  | g (r : Reg) (size : Nat) (signed : Bool)
  | v (r : Reg) (mask : BitVec 64)
  | bcast (r : Reg) (mask : BitVec 64)
  | buf (pa : Nat)
  | cmd (port : BitVec 2) (id : Nat) (pa : Nat)
  deriving DecidableEq, Repr

/-- An entry of a core's outstanding requests (R69). `counted` is false for what takes no entry of the 64; an acquire
holds back every younger instruction of its context (R280); `pa` and `len` say what a load asked for, `region` which region it is charged to, `colour` what its packets carry (R228). -/
structure Outstanding where
  id : Nat
  ctx : Nat
  load : Bool
  dest : Dest
  counted : Bool
  discard : Bool := false
  acq : Bool := false
  pa : Nat := 0
  len : Nat := 0
  region : Nat := 0
  colour : Nat := 0
  deriving DecidableEq, Repr

/-- What holds a context at its instruction. -/
inductive Wait
  | none
  /-- MBWAIT and MBWAIT.T (R256). `met` is set in the cycle the test holds. -/
  | counter (n : BitVec 6) (target : BitVec 32) (id : Nat) (gd : Option Reg) (met : Bool)
  /-- A tagged instruction whose request is at the banks (R216). -/
  | tagged (id : Nat) (gd gt : Option Reg) (deadline : Option Nat)
  /-- A CAS or AMO that waits for its old value (R288). -/
  | atomic (id : Nat) (gd : Reg) (w32 fadd : Bool) (va : Word)
  /-- DEQ and DEQT (R263). -/
  | completion (port : BitVec 2) (id : Nat) (gd : Reg) (timed : Bool)
  /-- A GANG at the row barrier (R159). -/
  | gang (id : Nat)
  /-- A SPAWNAT that waits for its outcome (R181), by the address of the core named. -/
  | spawnat (id pa : Nat) (msg : TaskMsg) (gd : Reg)
  /-- A SPAWNAT recalled from another device, which says what became of it (R181; log entry 30). -/
  | recalled (id pa : Nat) (msg : TaskMsg) (gd : Reg)
  /-- A SPAWNTRIG, with its message, or a TCANCEL at a counter of another device: what the cluster there answers (R170, R185; log
  entry 15). -/
  | told (id : Nat) (gd : Reg) (msg : Option TaskMsg)
  /-- A parked access (R313): the address it walks, kind 0 read, 1 write, 2 execute, the TVAL of fault 0x04 (R125, R315) and the
  region it is translated in (R224). -/
  | parked (id : Nat) (va : Word) (kind interval failed : Nat) (tval : Word) (region : Nat)
  /-- Remote lines of a multi-line operand are on their way. -/
  | remote
  /-- A migration awaits the destination's answer (R318). -/
  | migrating
  /-- The destination refused the migration, so the access is performed remotely (R319). -/
  | stayed
  /-- A send of a slot that found its queue full (R239). -/
  | full
  /-- A counted request that found no free entries: it needs `n` of them (R69). -/
  | oreq (n : Nat)
  /-- A Manifest wait of R348: it is tried again in every cycle. -/
  | stalled
  deriving DecidableEq, Repr

/-- The basic-level values of a region that a task takes at its dispatch (R24, R169) and that no register of the slot
holds: PLIM (R308), WMASK (R291), MBOX.MASK (R253), PCMASK (R369). -/
structure Basic where
  plim : Nat := 0
  wmask : Nat := 0
  mask : Word := 0
  pcmask : Nat := 0
  deriving DecidableEq, Repr

/-- The task in a slot (R59): the message as dispatched and the values taken from the region at dispatch (R24). -/
structure Task where
  msg : TaskMsg
  sup : Bool
  expert : Bool
  preempt : Bool
  defer : Nat
  basic : Basic := {}
  deriving DecidableEq, Repr

/-- The message a handler bank handles, and whether it was replied to (R246). -/
structure Handled where
  msg : ActMsg
  replied : Bool
  deriving DecidableEq, Repr

/-- A context: a task slot or a handler bank (R58, R60). `frame` is the live repeat frame, `onFrame` says that the
instruction being performed is one of its captured words, `heldTrap` holds the code and TVAL of a later instruction's
trap until the frame ends (R54). `left` says that its instruction was left, for the counts made
at issue (the model's own); `img` is the matrix image of a restored owner that awaits the slice (R141). -/
structure Ctx where
  g : Table Word := []
  q : Table Word := []
  v : Table VWord := []
  gpois : BitVec 32 := 0
  vpois : BitVec 32 := 0
  pc : Word := 0
  cw : Table Word := []
  frame : Option Frame := none
  onFrame : Bool := false
  heldTrap : Option (Nat × Word) := none
  /-- How many stores of STLs still wait for the tile reads of a frame (R280, R285). -/
  late : Nat := 0
  /-- A debug stop interrupted a live frame, which its end resumes (R55). -/
  suspended : Bool := false
  fq : List Fetched := []
  wait : Wait := .none
  task : Option Task := none
  handled : Option Handled := none
  rbuf : Table Byte := []
  rpois : List Nat := []
  skipNow : Bool := false
  stopReq : Bool := false
  saveReq : Bool := false
  left : Bool := false
  img : List Byte := []
  deriving DecidableEq, Repr

/-- A stationary plane of the matrix slice (R139): format 0 empty, 1 BF16, 2 F32, 3 P; bytes as in R162. -/
structure Plane where
  fmt : Nat := 0
  planes : Nat := 0
  cols : Table Byte := []
  scales : Table Byte := []
  pois : Bool := false
  deriving DecidableEq, Repr

/-- The matrix slice of a core (R139). Row i of accumulator m is `acc` entry 16m + i, column n in bits [32n+31:32n].
`queue` holds the matrix instructions issued and not completed, oldest first: the cycle in which each completes and the
region of its context. -/
structure Slice where
  queue : List (Nat × Nat) := []
  owner : Option Nat := none
  acc : Table VWord := []
  mpois : BitVec 4 := 0
  wa : Plane := {}
  wb : Plane := {}
  deriving DecidableEq, Repr

/-- A member at the row barrier (R159), with the operands it sampled at issue (R145): its slot, form and plane count,
accumulator, tile base and stride, sparsity metadata, activation scale. -/
structure GangArrival where
  slot : Nat
  form : GangForm
  k : Nat
  m : Nat
  base : Nat
  stride : Nat
  mdata : List Nat
  scale : Nat
  deriving DecidableEq, Repr

/-- How far an engine command is (R259). -/
inductive CmdState
  | armed (counter : BitVec 6) (target : BitVec 32)
  | queued
  | started
  deriving DecidableEq, Repr

/-- What a command does: an engine request (R267, R270), a BMV (R297), a PCHK or PREC (R358). -/
inductive CmdKind
  | engine
  | bmv (pa base clay cpl ck cso : Nat)
  | pchk (theta : BitVec 32) (maxrun : Nat)
  | prec
  deriving DecidableEq, Repr

/-- A command of an engine port (R259), with what it sampled at issue. -/
structure Command where
  id : Nat
  ctx : Nat
  orphan : Bool
  kind : CmdKind
  state : CmdState
  w0 : Word
  w1 : Word
  w2 : Word
  w3 : Word
  mchsel : Word
  region : Nat
  colour : Nat
  sup : Bool
  cat : Nat
  plim : Nat := 0
  progress : Nat := 0
  skipped : Nat := 0
  pois : Bool := false
  interval : Nat := 0
  failed : Nat := 0
  parkVa : Word := 0
  due : Nat := 0
  applied : Nat := 0
  xv : List Byte := []
  xpois : Bool := false
  rbuf : Table Byte := []
  rpois : List Nat := []
  deriving DecidableEq, Repr

/-- An unread completion word (R259, R263). -/
structure Completion where
  ctx : Nat
  word : Word
  reported : Bool
  hidden : Bool := false
  deriving DecidableEq, Repr

/-- An engine port (R259). -/
structure Port where
  cmds : List Command := []
  done : List Completion := []
  deriving DecidableEq, Repr

/-- A message in the inbox, with its arrival time (R235). -/
structure InMsg where
  msg : ActMsg
  time : Nat
  deriving DecidableEq, Repr

/-- A packet in a send queue (R239): a message with its destination cores by address, or a task message for the
cluster, core or switch it goes to. -/
inductive OutPkt
  | msg (m : ActMsg) (dests : List Nat)
  | reply (m : ActMsg) (replier : Nat)
  | spawn (m : TaskMsg)
  | armed (m : TaskMsg)
  | spawnat (m : TaskMsg) (core : Nat) (id : Nat)
  deriving DecidableEq, Repr

/-- A stash window line (R223): 0 invalid, 1 shared, 2 exclusive. -/
structure StashLine where
  pa : Nat
  excl : Bool
  dirty : Bool
  deriving DecidableEq, Repr

/-- An arrival arm (R226). `off` holds the cycle in which it disarmed: a put of that very cycle still fires it, unless it disarmed
because it `fired`. -/
structure Arm where
  lbase : Nat
  lines : Nat
  entry : Word
  region : Nat
  off : Option Nat := none
  fired : Bool := false
  deriving DecidableEq, Repr

/-- A TLB entry (R311): region, virtual page, page size 0 to 3, page address, flags of dword 0 and dword 1 (R309). -/
structure TlbEntry where
  region : Nat
  vpn : Nat
  size : Nat
  pa : Nat
  flags : Word
  attr : Word
  deriving DecidableEq, Repr

/-- A line of the line buffer (R71). -/
structure FetchLine where
  pa : Nat
  words : List (IWord × Bool)
  deriving DecidableEq, Repr

/-- A core (R12). -/
structure Core where
  cw : Table Word := []
  outs : List Outstanding := []
  slice : Slice := {}
  gangAt : Option GangArrival := none
  ports : Table Port := []
  inbox : List InMsg := []
  spillSlots : List Nat := []
  sendCount : BitVec 16 := 0
  sendReq : List OutPkt := []
  sendReply : List OutPkt := []
  winOpen : Bool := false
  winLeft : Nat := 0
  stash : Table (Option StashLine) := []
  tagWaits : List TagReq := []
  arms : Table (Option Arm) := []
  dtlb : List TlbEntry := []
  itlb : List TlbEntry := []
  lineBuf : List FetchLine := []
  lastSlot : Nat := 3
  lastHandler : Bool := false
  failed : Bool := false
  deriving DecidableEq, Repr

/-- A ready-queue entry (R171). -/
structure QEntry where
  msg : TaskMsg
  stamp : Nat
  defer : Nat
  save : Nat
  core : Nat
  since : Nat
  deriving DecidableEq, Repr

/-- Indices of a region's spill ring for a cluster (R173), and the entries it holds, oldest first, as the cluster unit appended
them: what it trusts of the records when software breaks its obligation not to write them (R10). -/
structure Ring where
  head : Nat := 0
  tail : Nat := 0
  held : Nat := 0
  entries : List QEntry := []
  deriving DecidableEq, Repr

/-- A flag without a notice yet (R340). -/
structure OutFlag where
  flag : Flag
  sends : Nat
  deriving DecidableEq, Repr

/-- A Manifest send channel (R330). `opening` holds the issuer, its entry and gd while the open reply is awaited. -/
structure Channel where
  region : Nat
  dev : Nat
  die : Fin 4
  state : Nat
  scnt : Nat
  fcnt : Nat
  perr : Bool
  lastRel : Nat
  mhold : Nat
  mtries : Nat
  flags : List OutFlag
  opening : Option (CtxId × Nat × Reg)
  /-- The puts that the writes of the last 1,024 sequence numbers belong to, by journal slot (R226, R332). -/
  puts : Table (Option PutTag) := []
  deriving DecidableEq, Repr

/-- A line held in a cache slice (R291 to R294): its way, when it was last used, its owner tag, whether it is dirty,
whether an uncorrectable error arose in it, and under a dirty line the bytes and poison marks that DRAM still holds. -/
structure Line where
  way : Nat
  stamp : Nat
  owner : Nat
  dirty : Bool
  bad : Bool
  dram : List Byte
  dramPois : List Bool
  deriving DecidableEq, Repr

/-- A cluster (R12): cluster unit, router, cache slice, vault and carrel. -/
structure Cluster where
  cw : Table Word := []
  queue : List QEntry := []
  rings : Table Ring := []
  sum : Nat := 0
  closed : Bool := false
  failed : Bool := false
  rreq : Bool := false
  vaultFailed : Bool := false
  seq : Nat := 0
  lowUsed : Option Nat := none
  maskUsed : Option Nat := none
  maskNow : Option Nat := none
  dispatched : Option Nat := none
  /-- The cycle of the last placement decision (R193). -/
  placed : Option Nat := none
  /-- The cycle of the last write to STAY, and the value that governs in it (R204). -/
  stayOld : Option (Nat × Nat) := none
  adaptTicks : Nat := 0
  adaptLate : Bool := false
  adaptN : Nat := 0
  adaptSum : Nat := 0
  saving : Option CtxId := none
  channels : Table (Option Channel) := []
  tlb : List TlbEntry := []
  tlbBig : List TlbEntry := []
  lines : Table (Option Line) := []
  carrelLast : Nat := 0
  duty : Nat := 16
  budget : Nat := 0
  power : Nat := 0
  temp : Int := 0
  flux : Nat := 0
  tripped : Bool := false
  persisted : Bool := false
  deriving DecidableEq, Repr

/-- An entry of a Palimpsest directory (R355). -/
structure DirEntry where
  region : Nat
  block : Nat
  tag : Nat
  slot : Nat
  len : Nat
  rlen : Nat
  run : Nat
  checked : Nat
  deriving DecidableEq, Repr

/-- A Manifest receive state (R336 to R338), with the number of the open request it was allotted for (R344). `last` names the
last flags completed, up to eight, and which were poisoned: a channel has at most four without a notice (R345). -/
structure RecvState where
  src : Nat
  cl : ClusterId
  ch : Nat
  req : Nat
  region : Nat
  base : Nat
  window : BitVec 1024
  pending : List Nat
  held : List Flag
  last : List (Nat × Bool)
  gen : Nat
  expiries : Nat
  mhold : Nat
  mtries : Nat
  deriving DecidableEq, Repr

/-- A die (R12): the distance fields of its routers (an empty list stands for 63 everywhere), its up-values and
summaries as last computed (R197), the domains to clear at the next tick, RTCFG, the Palimpsest directory and the
receive states of its hub port. -/
structure Die where
  fields : Table (List Nat) := []
  up : Table Nat := []
  low : Table (Option Nat) := []
  clear : BitVec 8 := 0
  clearNext : BitVec 8 := 0
  rtcfg : Word := 0
  rtcfgNext : Word := 0
  /-- RTCFG as written in the cycle that ends a tick: it takes effect at the tick after (R231). -/
  rtcfgDue : Option Word := none
  dir : List DirEntry := []
  recv : Table (Option RecvState) := []
  failed : Bool := false
  vmap : Word := 32768
  deriving DecidableEq, Repr

/-- A fabric link (R350 to R353, R390): its state, widths and sequence numbers; the flits not acknowledged (`retry`), how many
of them are to be sent again (`again`), the packet bytes that await a flit (`tx`), the flits it has sent, and the packet bytes it
has received that are no whole packet yet (`rx`). `quiet` says of a quiet point (R351): 0 none, 1 to be asked for, 2 asked for, 3
to be answered. -/
structure Link where
  up : Bool := false
  training : Bool := false
  width : Nat := 0
  retired : BitVec 16 := 0
  fseq : Nat := 0
  ack : Nat := 0
  txSlot : Nat := 0
  rxSlot : Nat := 0
  retry : List Flit := []
  again : Nat := 0
  tx : List Byte := []
  sent : List (List Byte) := []
  nak : Bool := false
  quiet : Nat := 0
  /-- Lanes that retire at the quiet point asked for (R351). -/
  retiring : BitVec 16 := 0
  rx : List Byte := []
  failedChecks : Nat := 0
  resent : Nat := 0
  txKey : BitVec 256 := 0
  rxKey : BitVec 256 := 0
  txSalt : BitVec 32 := 0
  rxSalt : BitVec 32 := 0
  margin : Nat := 0
  deriving DecidableEq, Repr

/-- A reply or notice the device sends to the control node (R388, R392): TYPE, SEQ, ADDR, and payload and tag as they stand on
the wire. -/
structure OutFrame where
  typ : Nat
  seq : Nat
  addr : Nat
  payload : List Byte
  tag : List Byte := []
  deriving DecidableEq, Repr

/-- A session with the control node (R385): nonce and secret, and the keys of frames of the control node (N2D) and of the device
(D2N). -/
structure Session where
  nonce : List Byte
  secret : List Byte
  n2d : BitVec 256
  d2n : BitVec 256
  deriving DecidableEq, Repr

/-- A .sys atomic on a local-memory word that the fabric port has handed to a core (R286). -/
structure SysOp where
  tag : Nat
  issuer : CtxId
  id : Nat
  src : Nat
  deriving DecidableEq, Repr

/-- What the package hub and firmware hold (R383 to R401). -/
structure Platform where
  phase : Nat := 1
  failPhase : Nat := 0
  cause : Nat := 0
  failedDies : BitVec 4 := 0
  digest : List Byte := List.replicate 32 0
  imgRollback : Nat := 0
  verified : Bool := false
  joined : Bool := false
  dev : Nat := 0
  rtbase : Nat := 0
  edge : Word := 0x0480100C0804
  session : Option Session := none
  expSeq : Nat := 0
  noticeSeq : Nat := 0
  portUp : Bool := true
  sent : List OutFrame := []
  kept : List OutFrame := []
  lost : Nat := 0
  discarded : Nat := 0
  mgmt : Table Word := []
  bpc : Table Word := []
  bpa : Table Word := []
  stopped : BitVec 64 := 0
  vaux : Bool := true
  vlinkMem : Bool := true
  vdie : Bool := true
  trip : Bool := false
  moduleHeld : Bool := false
  rreq : Bool := false
  faultHandlers : List Nat := []
  /-- SPAWNATs of other devices withdrawn before they arrived, by device and number (R181). -/
  withdrawn : List (Nat × Nat) := []
  /-- The number of the last SPAWNAT decided here for a caller of another device (R181). -/
  answered : Table Nat := []
  /-- The mode bits and the TVEC of the tasks saved, by catalogue number: what a cluster unit trusts of a save record that software
  wrote over (R10; log entry 70). -/
  savedModes : Table (Word × Word) := []
  outer : Table Nat := []
  /-- The device summary sent to the board switch at the last tick (R197): the lowest-numbered low die of each field. -/
  summary : Table Nat := []
  upDev : Table Nat := []
  upBoard : Table Nat := []
  upRack : Table Nat := []
  links : Table Link := []
  fabric : List Packet := []
  sysOps : List SysOp := []
  /-- Puts of other devices of which bytes are still to come: device, put, how many (R226, R267). -/
  puts : List (Nat × PutTag × Nat) := []
  sysTag : Nat := 0
  power : Nat := 0
  diePower : Table Nat := []
  dramTemp : Table Int := []
  vdieMv : Table Nat := []
  deriving DecidableEq, Repr

/-- What stands on the agenda of the model: an event, the issue of one instruction of a context, or of one captured
instruction of its frame, the issue of a second instruction beside the one whose address and word are given (R67), the
tests of a counter at the end of a cycle in which it was written (R254). -/
inductive Act
  | ev (e : Event)
  | issue (c : CtxId)
  | seq (c : CtxId)
  | pair (c : CtxId) (pc : Word) (w : IWord)
  | test (core : CoreId) (n : BitVec 6)
  deriving DecidableEq, Repr

/-- The state of one device. -/
structure State where
  /-- Device time base (R368). -/
  time : Nat
  /-- The context whose instruction is being performed. -/
  cur : CtxId
  /-- What happens next, before any further instruction issues (the model's own; log entry 1). -/
  agenda : List Act
  /-- Deadlines: the cycle each falls due and the event it causes (the model's own; log entry 1). -/
  timers : List (Nat × Event)
  /-- The operands of the event being performed (the model's own; log entry 1). -/
  event : Event
  /-- Whether the instruction being performed raised a fault (the model's own; R77). -/
  faulted : Bool
  /-- Numbers given to requests and waits (the model's own). -/
  nextId : Nat
  /-- Counter of the free values used (the model's own; log entry 4). -/
  free : Nat
  /-- Bytes of local memory and DRAM, by physical address without the device field; unlisted bytes read 0. -/
  mem : Table Byte
  /-- Poison marks, by 8-byte word (R210, R294). -/
  pois : List Nat
  /-- Full tags, by 8-byte local word (R214). -/
  tags : List Nat
  /-- Mailbox counters, by 64 × core + n (R252). -/
  counters : Table (BitVec 32)
  ctxs : Table Ctx
  cores : Table Core
  clusters : Table Cluster
  dies : Table Die
  /-- Record sequence counts of the regions (R187). -/
  recSeq : Table Nat
  /-- The region control blocks in force, by 32 × region + doubleword: what the cluster units cache, apart from the bytes
  of the region table in memory (R169). -/
  regs : Table Word
  plat : Platform
  deriving DecidableEq, Repr

/-- Why the machine stops with a fault. Every fault of the ISA is a next state (R73, R74), so no instruction and no step
raises one. -/
inductive Fault
  /-- Raised by nothing, so it is safe; it is there so that the type has a value. -/
  | stuck
  deriving DecidableEq, Repr

/-- Why the model gives no meaning. -/
inductive Refusal
  /-- Raised by the dispatch arm of an instruction not modelled yet; safe. -/
  | notModelled (mnemonic : String)
  deriving DecidableEq, Repr

/-- Core 0 of cluster 0 of die 0, slot 0. -/
def ctx0 : CtxId := ⟨⟨0, 0, 0⟩, 0⟩

/-- The device right after reset: phase 1 (Hold), everything clear (R383). -/
def State.reset : State where
  time := 0
  cur := ctx0
  agenda := []
  timers := []
  event := .fieldTick
  faulted := false
  nextId := 0
  free := 0
  mem := []
  pois := []
  tags := []
  counters := []
  ctxs := []
  cores := []
  clusters := []
  dies := []
  recSeq := []
  regs := [(2, 0x1800000000), (16, 0xFFFF), (17, 0xFFFFFFFFFFFFFFFF)]
  plat := {}

end Sys2Proof.Machine
end

