-- ==== Sys2Proof/Machine/Base.lean ====
section
/-! DEFINITION. Reading and writing the parts of State: tables, bytes of memory, poison and tags, the current context,
the agenda. -/

namespace Sys2Proof.Machine

/-- The outcome of a meaning. -/
abbrev Out := Host.Outcome State Fault Refusal

/-! ### Tables and sorted sets -/

/-- The value listed for `k`, or the default. -/
def tget {α : Type} (d : α) : Table α → Nat → α
  | [], _ => d
  | (k, v) :: t, n => if n = k then v else tget d t n

/-- List `x` for `n`, in rising order of numbers. -/
def tput {α : Type} : Table α → Nat → α → Table α
  | [], n, x => [(n, x)]
  | (k, v) :: t, n, x =>
    if n < k then (n, x) :: (k, v) :: t else if n = k then (n, x) :: t else (k, v) :: tput t n x

/-- Remove what is listed for `n`. -/
def tdel {α : Type} (t : Table α) (n : Nat) : Table α := t.filter (fun e => e.1 != n)

/-- Put `x`, keeping no entry equal to the default `z`. -/
def tset {α : Type} [DecidableEq α] (z : α) (t : Table α) (n : Nat) (x : α) : Table α :=
  if x = z then tdel t n else tput t n x

/-- Membership in a sorted set of numbers. -/
def smem (n : Nat) (t : List Nat) : Bool := t.elem n
/-- Insert into a sorted set of numbers. -/
def sins (n : Nat) : List Nat → List Nat
  | [] => [n]
  | k :: t => if n < k then n :: k :: t else if n = k then k :: t else k :: sins n t
/-- Remove from a sorted set of numbers. -/
def sdel (n : Nat) (t : List Nat) : List Nat := t.filter (fun k => k != n)

/-! ### Bytes and words -/

/-- A little-endian number from bytes (R102). -/
def leNat : List Byte → Nat
  | [] => 0
  | b :: t => b.toNat + 256 * leNat t

/-- The low `n` bytes of a number, least significant first. -/
def leBytes : Nat → Nat → List Byte
  | 0, _ => []
  | n + 1, x => BitVec.ofNat 8 x :: leBytes n (x / 256)

/-- Bits hi down to lo of a number (R8). -/
def bitsN (x hi lo : Nat) : Nat := x / 2 ^ lo % 2 ^ (hi + 1 - lo)
/-- Bits hi down to lo of a word (R8). -/
def bits (w : Word) (hi lo : Nat) : Nat := bitsN w.toNat hi lo
/-- One bit of a word. -/
def bit (w : Word) (n : Nat) : Bool := w.getLsbD n
/-- A word from a number. -/
def word (n : Nat) : Word := BitVec.ofNat 64 n
/-- Sign extension of an n-bit field to 64 bits (R8). -/
def sextW (n : Nat) (x : BitVec n) : Word := x.signExtend 64

/-- Consecutive numbers from `a`. -/
def upto : Nat → Nat → List Nat
  | _, 0 => []
  | a, n + 1 => a :: upto (a + 1) n

/-- The doublewords of a byte string. -/
def wordsOf : Nat → List Byte → List Word
  | 0, _ => []
  | n + 1, bs => word (leNat (bs.take 8)) :: wordsOf n (bs.drop 8)

/-! ### Physical addresses (R18) -/

/-- Device field of a global physical address. -/
def paDev (pa : Nat) : Nat := pa / 2 ^ 45
/-- A physical address without its device field: the key of memory. -/
def paLoc (pa : Nat) : Nat := pa % 2 ^ 45
/-- Die field. -/
def paDie (pa : Nat) : Fin 4 := Fin.ofNat 4 (bitsN pa 44 43)
/-- Space field: true for on-die. -/
def paOnDie (pa : Nat) : Bool := pa.testBit 42
/-- Cluster field of an on-die address. -/
def paCl (pa : Nat) : Nat := bitsN pa 41 34
/-- Core field of an on-die address. -/
def paCore (pa : Nat) : Nat := bitsN pa 33 30
/-- Local offset of an on-die address. -/
def paOff (pa : Nat) : Nat := bitsN pa 29 0
/-- DRAM offset of an address of space 0. -/
def paDram (pa : Nat) : Nat := bitsN pa 35 0
/-- The core an on-die address names. -/
def paCoreId (pa : Nat) : CoreId := ⟨paDie pa, Fin.ofNat 192 (paCl pa), Fin.ofNat 16 (paCore pa)⟩
/-- The memory key of a local offset of a core. -/
def localLoc (k : CoreId) (off : Nat) : Nat :=
  k.die.val * 2 ^ 43 + 2 ^ 42 + k.cl.val * 2 ^ 34 + k.core.val * 2 ^ 30 + off
/-- The memory key of a DRAM offset of a die. -/
def dramLoc (d : Fin 4) (off : Nat) : Nat := d.val * 2 ^ 43 + off

/-! ### Parts of the state -/

/-- A context. -/
def State.ctx (s : State) (c : CtxId) : Ctx := tget {} s.ctxs c.key
/-- Replace a context. -/
def State.setCtx (s : State) (c : CtxId) (x : Ctx) : State := { s with ctxs := tput s.ctxs c.key x }
/-- A core. -/
def State.core (s : State) (k : CoreId) : Core := tget {} s.cores k.key
/-- Replace a core. -/
def State.setCore (s : State) (k : CoreId) (x : Core) : State := { s with cores := tput s.cores k.key x }
/-- A cluster. -/
def State.cluster (s : State) (c : ClusterId) : Cluster := tget {} s.clusters c.key
/-- Replace a cluster. -/
def State.setCluster (s : State) (c : ClusterId) (x : Cluster) : State :=
  { s with clusters := tput s.clusters c.key x }
/-- A die. -/
def State.die (s : State) (d : Fin 4) : Die := tget {} s.dies d.val
/-- Replace a die. -/
def State.setDie (s : State) (d : Fin 4) (x : Die) : State := { s with dies := tput s.dies d.val x }
/-- The context whose instruction is performed. -/
def State.my (s : State) : Ctx := s.ctx s.cur
/-- Replace the current context. -/
def State.setMy (s : State) (x : Ctx) : State := s.setCtx s.cur x
/-- The core of the current context. -/
def State.myCore (s : State) : Core := s.core s.cur.core
/-- Replace the core of the current context. -/
def State.setMyCore (s : State) (x : Core) : State := s.setCore s.cur.core x
/-- The cluster of the current context. -/
def State.myCluster (s : State) : Cluster := s.cluster s.cur.core.cluster
/-- The contexts of a core. -/
def coreCtxs (k : CoreId) : List CtxId := [⟨k, 0⟩, ⟨k, 1⟩, ⟨k, 2⟩, ⟨k, 3⟩, ⟨k, 4⟩, ⟨k, 5⟩]
/-- The task slots of a core. -/
def coreSlots (k : CoreId) : List CtxId := [⟨k, 0⟩, ⟨k, 1⟩, ⟨k, 2⟩, ⟨k, 3⟩]
/-- The cores of a cluster. -/
def clusterCores (c : ClusterId) : List CoreId := (upto 0 16).map c.coreAt
/-- Arrival entry e of a core, when it is armed (R226). -/
def Core.armed (x : Core) (e : Nat) : Option Arm :=
  match tget none x.arms e with
  | some a => if a.off.isNone then some a else none
  | none => none
/-- Arrival entry e of a core as a put of cycle `now` meets it: one disarmed in that very cycle still fires (R226). -/
def Core.firing (x : Core) (e now : Nat) : Option Arm :=
  match tget none x.arms e with
  | some a => if a.off.isNone || (a.off == some now && !a.fired) then some a else none
  | none => none
/-- Whether ARMH finds arrival entry e of a core armed: an entry that fires in the cycle of the ARMH counts (R226). -/
def Core.wasArmed (x : Core) (e now : Nat) : Bool :=
  match tget none x.arms e with
  | some a => a.off.isNone || (a.off == some now && a.fired)
  | none => false
/-- The device number (R17). -/
def State.dev (s : State) : Nat := s.plat.dev
/-- The on-die global address of a core at a local offset. -/
def State.corePa (s : State) (k : CoreId) (off : Nat) : Nat := s.dev * 2 ^ 45 + localLoc k off

/-- Put an event at the end of the agenda. -/
def State.post (s : State) (e : Event) : State := { s with agenda := s.agenda ++ [.ev e] }
/-- Put events at the end of the agenda. -/
def State.posts (s : State) (es : List Event) : State := { s with agenda := s.agenda ++ es.map .ev }
/-- An event that falls due `n` cycles from now. -/
def State.after (s : State) (n : Nat) (e : Event) : State := { s with timers := s.timers ++ [(s.time + n, e)] }
/-- Take a new number. -/
def State.fresh (s : State) : State := { s with nextId := s.nextId + 1 }
/-- Take a free value (log entry 4). -/
def State.freeNext (s : State) : State := { s with free := s.free + 1 }

/-! ### Memory -/

/-- One byte of the device's memory; an unlisted byte reads 0 (R208; log entry 2 for DRAM). -/
def State.byte (s : State) (a : Nat) : Byte := tget 0 s.mem a
/-- Consecutive bytes. -/
def State.bytes (s : State) : Nat → Nat → List Byte
  | _, 0 => []
  | a, n + 1 => s.byte a :: s.bytes (a + 1) n
/-- A little-endian number of n bytes (R86). -/
def State.readLE (s : State) (a n : Nat) : Nat := leNat (s.bytes a n)
/-- A doubleword. -/
def State.dword (s : State) (a : Nat) : Word := word (s.readLE a 8)
/-- Write one byte, keeping the canonical form. -/
def memPut (m : Table Byte) (a : Nat) (b : Byte) : Table Byte := tset 0 m a b
/-- Write consecutive bytes. -/
def memPuts (m : Table Byte) : Nat → List Byte → Table Byte
  | _, [] => m
  | a, b :: t => memPuts (memPut m a b) (a + 1) t
/-- The 8-byte words that n bytes at a touch. -/
def wordsAt (a n : Nat) : List Nat := if n = 0 then [] else upto (a / 8) ((a + n - 1) / 8 + 1 - a / 8)
/-- Whether any 8-byte word that n bytes at a touch is marked poisoned (R210, R294). -/
def State.poisAt (s : State) (a n : Nat) : Bool := (wordsAt a n).any (fun w => smem w s.pois)
/-- Poison marks after a write (R210, R294): poisoned data marks every word it touches; clean data clears the words it
covers whole and leaves the others. -/
def poisAfter (p : List Nat) (a n : Nat) (bad : Bool) : List Nat :=
  (wordsAt a n).foldl (fun p w => if bad then sins w p else if a ≤ 8 * w ∧ 8 * w + 8 ≤ a + n then sdel w p else p) p
/-- Write bytes with their poison. -/
def State.poke (s : State) (a : Nat) (bs : List Byte) (bad : Bool) : State :=
  { s with mem := memPuts s.mem a bs, pois := poisAfter s.pois a bs.length bad }
/-- Mark the words of the poisoned bytes of a range. -/
def markBytes (p : List Nat) (loc : Nat) (bad : List Bool) : List Nat :=
  ((upto loc bad.length).zip bad).foldl (fun p e => if e.2 then sins (e.1 / 8) p else p) p
/-- Write bytes of which those that `bad` names by their bits are poisoned: the words that receive them are marked (R210). -/
def State.pokeMarked (s : State) (a : Nat) (bs : List Byte) (bad : Nat) : State :=
  let s := s.poke a bs false
  { s with pois := markBytes s.pois a ((upto 0 bs.length).map bad.testBit) }
/-- The bits of a list of marks. -/
def markBits (bad : List Bool) : Nat := ((upto 0 bad.length).zip bad).foldl (fun n e => if e.2 then n + 2 ^ e.1 else n) 0
/-- Write a doubleword that hardware computes. -/
def State.pokeD (s : State) (a : Nat) (x : Nat) : State := s.poke a (leBytes 8 x) false

/-- The canonical form of memory: addresses strictly rising, no entry equal to what an unlisted byte reads as. -/
def Memory.wf : Table Byte → Bool
  | [] => true
  | [(_, b)] => b != 0
  | (a, b) :: (a', b') :: t => b != 0 && decide (a < a') && Memory.wf ((a', b') :: t)

/-! ### Registers of the current context (R58) -/

/-- g register n of a context; g0 reads as zero. -/
def Ctx.greg (x : Ctx) (r : Reg) : Word := if r = 0 then 0 else tget 0 x.g r.toNat
/-- q register n of a context; q0 reads as all ones. -/
def Ctx.qreg (x : Ctx) (r : PReg) : Word := if r = 0 then BitVec.allOnes 64 else tget 0 x.q r.toNat
/-- v register n of a context. -/
def Ctx.vreg (x : Ctx) (r : Reg) : VWord := tget 0 x.v r.toNat
/-- Write a g register: a write to g0 is discarded; the poison bit is cleared (R78). -/
def Ctx.setG (x : Ctx) (r : Reg) (w : Word) : Ctx :=
  if r = 0 then x else { x with g := tput x.g r.toNat w, gpois := x.gpois &&& ~~~((1 : BitVec 32) <<< r.toNat) }
/-- Write a q register: a write to q0 is discarded. -/
def Ctx.setQ (x : Ctx) (r : PReg) (w : Word) : Ctx := if r = 0 then x else { x with q := tput x.q r.toNat w }
/-- Write a v register. -/
def Ctx.setV (x : Ctx) (r : Reg) (w : VWord) : Ctx := { x with v := tput x.v r.toNat w }
/-- Set the poison bit of a g register (R78). -/
def Ctx.poisG (x : Ctx) (r : Reg) : Ctx :=
  if r = 0 then x else { x with gpois := x.gpois ||| (1 : BitVec 32) <<< r.toNat }
/-- Set the poison bit of a v register (R117). -/
def Ctx.poisV (x : Ctx) (r : Reg) : Ctx := { x with vpois := x.vpois ||| (1 : BitVec 32) <<< r.toNat }
/-- Clear the poison bit of a v register (R117). -/
def Ctx.cleanV (x : Ctx) (r : Reg) : Ctx := { x with vpois := x.vpois &&& ~~~((1 : BitVec 32) <<< r.toNat) }

/-- g register of the current context. -/
def State.g (s : State) (r : Reg) : Word := s.my.greg r
/-- q register of the current context. -/
def State.q (s : State) (r : PReg) : Word := s.my.qreg r
/-- v register of the current context. -/
def State.v (s : State) (r : Reg) : VWord := s.my.vreg r
/-- Write a g register of the current context. -/
def State.setG (s : State) (r : Reg) (w : Word) : State := s.setMy (s.my.setG r w)
/-- Write a q register of the current context. -/
def State.setQ (s : State) (r : PReg) (w : Word) : State := s.setMy (s.my.setQ r w)
/-- Write a v register of the current context. -/
def State.setV (s : State) (r : Reg) (w : VWord) : State := s.setMy (s.my.setV r w)

end Sys2Proof.Machine
end

