-- ==== Sys2Proof/Machine/Cw.lean ====
section
/-! DEFINITION. Control words as the maps of R62 to R65, R56, R106, R143, R176, R203, R212, R241, R272, R304, R321, R341,
R365 and R380 give them: index, scope, mode rules, access, reset value. -/

namespace Sys2Proof.Machine

/-- Scope of a control word (R62). -/
inductive CwScope | slot | bank | both | core | cluster
  deriving DecidableEq, Repr

/-- How task mode may write a word. -/
inductive TaskWrite | no | yes | expert | pcmask
  deriving DecidableEq, Repr

/-- A row of a control-word map: scope; task read, task write, supervisor read, supervisor write; the bits a write
sets; the bits a written 1 clears; the reset value. -/
structure CwInfo where
  scope : CwScope
  tr : Bool
  tw : TaskWrite
  sr : Bool
  sw : Bool
  rw : Nat
  w1c : Nat
  reset : Nat
  deriving DecidableEq, Repr

/-- All 64 bits. -/
def all64 : Nat := 0xFFFFFFFFFFFFFFFF

/-- Read and write in both modes. -/
def cwRW (sc : CwScope) (m r : Nat) : CwInfo := ⟨sc, true, .yes, true, true, m, 0, r⟩
/-- Task mode reads; supervisor mode reads and writes. -/
def cwS (sc : CwScope) (m r : Nat) : CwInfo := ⟨sc, true, .no, true, true, m, 0, r⟩
/-- Read only in both modes. -/
def cwR (sc : CwScope) (r : Nat) : CwInfo := ⟨sc, true, .no, true, false, 0, 0, r⟩
/-- Task mode has no access; supervisor mode reads and writes. -/
def cwP (sc : CwScope) (m : Nat) : CwInfo := ⟨sc, false, .no, true, true, m, 0, 0⟩
/-- An expert word (R25). -/
def cwX (sc : CwScope) (m r : Nat) : CwInfo := ⟨sc, true, .expert, true, true, m, 0, r⟩

/-- The words of 0x000 to 0x05F (R63 to R65, R56, R106, R107, R143, R144). -/
def cwInfoATable : List (Nat × CwInfo) :=
  [(0x000, (cwS .both 0x6 0)),
   (0x001, (cwS .both 0x3FF 0)),
   (0x002, (cwS .both all64 0)),
   (0x003, (cwS .both all64 0)),
   (0x004, (cwS .both 0xFFFFFFFFFFFFFFFC 0)),
   (0x005, (cwS .both 0x1FFFE 0)),
   (0x006, ⟨.both, false, .no, false, true, 0, 0, 0⟩),
   (0x007, ⟨.both, true, .no, true, true, 0, 0xFFFFFFFE, 0⟩),
   (0x008, (cwR .core 0)),
   (0x020, (cwS .slot 0xFFFE0000FFFFFFFF 0)),
   (0x021, (cwS .slot 0xFFFFFFFF 0)),
   (0x030, (cwRW .slot 0x3 0)),
   (0x031, (cwRW .slot 0x1F 0)),
   (0x040, (cwRW .slot 0x1FFF 0)),
   (0x041, (cwRW .slot 0x1FFF 0)),
   (0x042, (cwRW .slot 0xFFFFFFFF 0x3F800000)),
   (0x043, (cwRW .slot all64 0)),
   (0x044, (cwRW .slot 0x80000000FFFFFFFF 0x10000)),
   (0x045, (cwR .slot 0)),
   (0x046, (cwR .slot 0))]
/-- The rows above, and the numbered words of this range. -/
def cwInfoA (i : Nat) : Option CwInfo :=
  match cwInfoATable.lookup i with
  | some m => some m
  | none => if 0x028 ≤ i ∧ i ≤ 0x02F then some (cwS .slot all64 0) else none

/-- The words of 0x060 to 0x09F (R176, R177, R203, R204). -/
def cwInfoBTable : List (Nat × CwInfo) :=
  [(0x060, (cwRW .slot 0xFFFFFFFFFFFFFF 0)),
   (0x061, (cwRW .slot all64 0)),
   (0x062, (cwRW .slot all64 0)),
   (0x063, (cwRW .slot 0xFFFFFFFF 0)),
   (0x064, (cwR .slot 0)),
   (0x065, (cwS .slot all64 0)),
   (0x066, (cwS .slot all64 0)),
   (0x067, (cwR .slot 0)),
   (0x068, (cwR .slot 0)),
   (0x069, (cwR .slot 0)),
   (0x070, (cwR .cluster 0)),
   (0x071, (cwX .cluster 0xFFFFFFFF 4096)),
   (0x080, (cwX .cluster 0xFFFF 16)),
   (0x081, (cwX .cluster 0xFFFF 32)),
   (0x082, (cwR .cluster 0)),
   (0x083, (cwX .cluster 0x8000FFFFFF00FFFF 0x1040000004)),
   (0x084, (cwR .cluster 0)),
   (0x085, (cwS .cluster 0xFF 1))]
/-- The rows above, and the numbered words of this range. -/
def cwInfoB (i : Nat) : Option CwInfo :=
  match cwInfoBTable.lookup i with
  | some m => some m
  | none => none

/-- The words of 0x0A0 to 0x0FF (R212, R213, R241, R242, R272, R273). -/
def cwInfoCTable : List (Nat × CwInfo) :=
  [(0x0A0, (cwRW .both 0xFFFFFFFF 0x10000)),
   (0x0A1, (cwS .core 0x3F 0)),
   (0x0A2, (cwR .core 0)),
   (0x0C0, (cwRW .both 0xFF0000000003FFFF 0)),
   (0x0C1, (cwP .bank 0x3FFFF)),
   (0x0C2, (cwS .core 0xFF 0)),
   (0x0C3, (cwR .core 0)),
   (0x0C4, (cwS .core all64 0)),
   (0x0C5, (cwS .core 0xFFF 0)),
   (0x0C6, (cwS .cluster 0xFFFF 0)),
   (0x0C7, ⟨.bank, false, .no, true, false, 0, 0, 0⟩),
   (0x0E0, (cwRW .both 0xFFFFFFFF 0x10000)),
   (0x0E1, (cwRW .both 0xFFFFFFFF 0x10000)),
   (0x0E2, (cwRW .both all64 0)),
   (0x0E3, (cwRW .both 0xFFFFFFFF 0)),
   (0x0E4, (cwR .both 0)),
   (0x0E5, (cwS .core 0xFFFFFFFF 0))]
/-- The rows above, and the numbered words of this range. -/
def cwInfoC (i : Nat) : Option CwInfo :=
  match cwInfoCTable.lookup i with
  | some m => some m
  | none => if 0x0A8 ≤ i ∧ i ≤ 0x0B7 then some (cwR .core 0)
    else if 0x0C8 ≤ i ∧ i ≤ 0x0CF then some (cwS .core 0xC003FFFF0003FFFF 0)
    else if 0x0F0 ≤ i ∧ i ≤ 0x0FB then some (cwR .slot 0)
    else none

/-- The words of 0x100 to 0x1BF (R304, R305, R321, R322, R341, R342, R365, R366, R380, R381). -/
def cwInfoDTable : List (Nat × CwInfo) :=
  [(0x110, (cwX .cluster 0xFF 1)),
   (0x111, (cwR .cluster 0)),
   (0x112, (cwR .cluster 0)),
   (0x120, (cwX .cluster 0xFFFFFFFF 0x100000)),
   (0x121, (cwR .both 0)),
   (0x140, (cwX .cluster 0xFFFFFFFF 165000)),
   (0x141, (cwX .cluster 0xF 3)),
   (0x142, (cwRW .both 0xC00000000000000F 0)),
   (0x143, ⟨.core, true, .yes, true, true, 0, all64, 0⟩),
   (0x144, (cwS .cluster all64 0)),
   (0x145, (cwX .cluster 0xFFFFFFFF 330000)),
   (0x160, (cwX .both 0xFFFFFFFF 0x3D4CCCCD)),
   (0x161, (cwX .both 0xFF 3)),
   (0x162, (cwR .cluster 0)),
   (0x1A0, (cwR .core 0)),
   (0x1A1, (cwS .cluster all64 0)),
   (0x1A2, (cwR .both 0))]
/-- The rows above, and the numbered words of this range. -/
def cwInfoD (i : Nat) : Option CwInfo :=
  match cwInfoDTable.lookup i with
  | some m => some m
  | none => if 0x128 ≤ i ∧ i ≤ 0x12F then some (cwP .cluster all64)
    else if 0x130 ≤ i ∧ i ≤ 0x137 then some (cwP .cluster 0xFFFFFFFFFFFFFFFC)
    else if 0x180 ≤ i ∧ i ≤ 0x18F then some ⟨.core, true, .pcmask, true, true, 0x8FFF0000000000FF, 0, 0⟩
    else if 0x190 ≤ i ∧ i ≤ 0x19F then some ⟨.core, true, .pcmask, true, true, all64, 0, 0⟩
    else if 0x1A8 ≤ i ∧ i ≤ 0x1B7 then some (cwR .core 0)
    else none

/-- The map row of an index; none when the index is unassigned (R62). -/
def cwInfo (i : Nat) : Option CwInfo :=
  if i < 0x060 then cwInfoA i else if i < 0x0A0 then cwInfoB i else if i < 0x100 then cwInfoC i else cwInfoD i

/-- The reset value of a word's map. -/
def cwReset (i : Nat) : Word :=
  match cwInfo i with
  | some m => word m.reset
  | none => 0

/-- The bits of a slot word that its map names: those a save record can give it (R7, R189). -/
def cwNamed (i : Nat) : Word :=
  match i with
  | 0x006 => 0
  | 0x045 => 3
  | 0x064 => 7
  | 0x1A2 => 0xC00000000000000F
  | _ =>
    match cwInfo i with
    | some m => if m.sw then word (m.rw ||| m.w1c) else word all64
    | none => 0

/-- The stored value of a slot or bank word. -/
def Ctx.cwv (x : Ctx) (i : Nat) : Word := tget (cwReset i) x.cw i
/-- Store a slot or bank word. -/
def Ctx.setCw (x : Ctx) (i : Nat) (w : Word) : Ctx := { x with cw := tput x.cw i w }
/-- The stored value of a core word. -/
def Core.cwv (x : Core) (i : Nat) : Word := tget (cwReset i) x.cw i
/-- Store a core word. -/
def Core.setCw (x : Core) (i : Nat) (w : Word) : Core := { x with cw := tput x.cw i w }
/-- The stored value of a cluster word. -/
def Cluster.cwv (x : Cluster) (i : Nat) : Word := tget (cwReset i) x.cw i
/-- Store a cluster word. -/
def Cluster.setCw (x : Cluster) (i : Nat) (w : Word) : Cluster := { x with cw := tput x.cw i w }

/-- Indices used by name. -/
def cwSTATUS : Nat := 0x000
def cwTCAUSE : Nat := 0x001
def cwTVAL : Nat := 0x002
def cwTPC : Nat := 0x003
def cwTVEC : Nat := 0x004
def cwTMASK : Nat := 0x005
def cwRPTST : Nat := 0x020
def cwRPTCNT : Nat := 0x021
def cwRPTW : Nat := 0x028
def cwFRM : Nat := 0x030
def cwFFLAGS : Nat := 0x031
def cwFMTA : Nat := 0x040
def cwFMTB : Nat := 0x041
def cwSCLA : Nat := 0x042
def cwSCLB : Nat := 0x043
def cwGTIME : Nat := 0x044
def cwGSTAT : Nat := 0x045
def cwSPHOME : Nat := 0x060
def cwSPJOIN : Nat := 0x061
def cwSPTRIG : Nat := 0x062
def cwSPTGT : Nat := 0x063
def cwTSTAT : Nat := 0x064
def cwTJOIN : Nat := 0x065
def cwTINRET : Nat := 0x066
def cwTENQ : Nat := 0x067
def cwTDISP : Nat := 0x068
def cwPWAIT : Nat := 0x071
def cwLOW : Nat := 0x080
def cwSTAY : Nat := 0x081
def cwADAPT : Nat := 0x083
def cwPDMASK : Nat := 0x085
def cwLTIME : Nat := 0x0A0
def cwLMCOL : Nat := 0x0A1
def cwSWL : Nat := 0x0A8
def cwSWV : Nat := 0x0B0
def cwSRPLY : Nat := 0x0C0
def cwHSP : Nat := 0x0C1
def cwCLMASK : Nat := 0x0C2
def cwNCNT : Nat := 0x0C4
def cwSVCREG : Nat := 0x0C5
def cwRTCFG : Nat := 0x0C6
def cwHTAB : Nat := 0x0C8
def cwMTIME : Nat := 0x0E0
def cwETIME : Nat := 0x0E1
def cwETRIG : Nat := 0x0E2
def cwETGT : Nat := 0x0E3
def cwECNT : Nat := 0x0E5
def cwECS : Nat := 0x0F0
def cwCARQ : Nat := 0x110
def cwPARKMAX : Nat := 0x120
def cwPARKST : Nat := 0x121
def cwPGD : Nat := 0x128
def cwPGE : Nat := 0x130
def cwMHOLD : Nat := 0x140
def cwMTRIES : Nat := 0x141
def cwMCHSEL : Nat := 0x142
def cwMPOIS : Nat := 0x143
def cwMCNT : Nat := 0x144
def cwFTIME : Nat := 0x145
def cwPTHETA : Nat := 0x160
def cwPMAXRUN : Nat := 0x161
def cwPCSEL : Nat := 0x180
def cwPCCNT : Nat := 0x190
def cwERRCNT : Nat := 0x1A1
def cwDBGST : Nat := 0x1A2

/-! ### Mode, region and colour of a context -/

/-- STATUS.SV, PM and TB (R64). -/
def Ctx.sv (x : Ctx) : Bool := bit (x.cwv cwSTATUS) 0
def Ctx.pm (x : Ctx) : Bool := bit (x.cwv cwSTATUS) 1
def Ctx.tb (x : Ctx) : Bool := bit (x.cwv cwSTATUS) 2
/-- STATUS from its three stored bits. -/
def statusOf (sv pm tb : Bool) : Word := word (sv.toNat + 2 * pm.toNat + 4 * tb.toNat)

/-- Supervisor mode: STATUS.SV, and always in a handler context (R60). -/
def State.sup (s : State) (c : CtxId) : Bool := c.isHandler || (s.ctx c).sv

/-- The service region of a core (R235). -/
def Core.svc (k : Core) : Nat := bits (k.cwv cwSVCREG) 11 0

/-- The region of a context: its task's, or the service region (R236, R307). -/
def State.regionOf (s : State) (c : CtxId) : Nat :=
  if c.isHandler then (s.core c.core).svc
  else match (s.ctx c).task with
    | some t => t.msg.region
    | none => 0

/-- The job colour of a context: its task's, or its message's (R236). -/
def State.colourOf (s : State) (c : CtxId) : Nat :=
  if c.isHandler then match (s.ctx c).handled with
    | some h => h.msg.colour
    | none => 0
  else match (s.ctx c).task with
    | some t => t.msg.colour
    | none => 0

/-- The catalogue number TID gives (R184). -/
def State.catOf (s : State) (c : CtxId) : Nat :=
  if c.isHandler then match (s.ctx c).handled with
    | some h => h.msg.cat
    | none => 0
  else match (s.ctx c).task with
    | some t => t.msg.cat
    | none => 0

/-- A context that holds a task or runs a handler. -/
def Ctx.live (x : Ctx) : Bool := x.task.isSome || x.handled.isSome

/-- A context in a debug stop (R377). -/
def Ctx.stopped (x : Ctx) : Bool := bit (x.cwv cwDBGST) 63

end Sys2Proof.Machine
end

