-- ==== Sys2Proof/Machine/Region.lean ====
section
/-! DEFINITION. Region control blocks (R168), task messages and active messages as memory holds them (R166, R233). -/

namespace Sys2Proof.Machine

/-- Doublewords that inherit (R168). -/
def inherits (k : Nat) : Bool := (2 ≤ k && k ≤ 6) || k == 12 || k == 13 || (15 ≤ k && k ≤ 22)

/-- Memory key of doubleword k of region n's block (R168). -/
def State.regLoc (s : State) (n k : Nat) : Nat := paLoc s.plat.rtbase + 256 * n + 8 * k
/-- The region's own doubleword as the cluster units cache it: plain stores to the block do not change it (R169). -/
def State.regOwn (s : State) (n k : Nat) : Word := tget 0 s.regs (32 * n + k)
/-- HDR.V. -/
def State.regValid (s : State) (n : Nat) : Bool := bit (s.regOwn n 0) 63
/-- HDR.PARENT. -/
def State.regParent (s : State) (n : Nat) : Nat := bits (s.regOwn n 0) 23 12
/-- HDR.DEPTH. -/
def State.regDepth (s : State) (n : Nat) : Nat := bits (s.regOwn n 0) 26 24

/-- The effective doubleword, looking at most `fuel` levels up. -/
def State.regEffN (s : State) (k : Nat) : Nat → Nat → Word
  | 0, n => s.regOwn n k
  | fuel + 1, n =>
    if n = 0 ∨ inherits k = false ∨ bit (s.regOwn n 1) k then s.regOwn n k else s.regEffN k fuel (s.regParent n)
/-- The effective doubleword k of region n (R168); the tree is at most eight levels deep. -/
def State.regEff (s : State) (n k : Nat) : Word := s.regEffN k 8 n

/-- Effective PRIO, looking at most `fuel` levels up. -/
def State.regPrioN (s : State) : Nat → Nat → Nat
  | 0, n => bits (s.regEff n 2) 2 0
  | fuel + 1, n =>
    if n = 0 then bits (s.regEff n 2) 2 0 else min (bits (s.regEff n 2) 2 0) (s.regPrioN fuel (s.regParent n))
/-- The smaller of the region's inherited PRIO and its parent's effective PRIO (R168). -/
def State.regPrio (s : State) (n : Nat) : Nat := s.regPrioN 8 n

/-- The effective doubleword as RGRD gives it (R186): that of SCHED carries the effective PRIO (DEDUCED, log entry 26). -/
def State.regRead (s : State) (n k : Nat) : Word :=
  if k = 2 then (s.regEff n 2 &&& ~~~7) ||| word (s.regPrio n) else s.regEff n k

/-- Whether region n lies in the subtree of region r. -/
def State.inSubtreeN (s : State) (r : Nat) : Nat → Nat → Bool
  | 0, n => n == r
  | fuel + 1, n => n == r || (n != 0 && s.inSubtreeN r fuel (s.regParent n))
def State.inSubtree (s : State) (r n : Nat) : Bool := s.inSubtreeN r 8 n

/-- Take the doublewords of the region table that n bytes at a memory key touch into force (R169: the control port). -/
def State.regSync (s : State) (loc n : Nat) : State :=
  let base := paLoc s.plat.rtbase
  let first := (loc - base) / 8
  let ks := upto first (min 131072 ((loc + n - base + 7) / 8) - first)
  { s with regs := ks.foldl (fun t i => tset 0 t i (s.dword (base + 8 * i))) s.regs }

/-- LIVE.TASKS and LIVE.ARMED (R168). -/
def State.liveTasks (s : State) (n : Nat) : Nat := bits (s.regOwn n 14) 31 0
def State.liveArmed (s : State) (n : Nat) : Nat := bits (s.regOwn n 14) 63 32

/-! ### Fields of SCHED, BUDGET and the other doublewords (R168) -/

def State.schedRcls (s : State) (n : Nat) : Nat := bits (s.regEff n 2) 42 40
def State.schedHops (s : State) (n : Nat) : Nat := bits (s.regEff n 2) 36 32
def State.schedPreempt (s : State) (n : Nat) : Bool := bit (s.regEff n 2) 26
def State.schedExpert (s : State) (n : Nat) : Bool := bit (s.regEff n 2) 25
def State.schedSup (s : State) (n : Nat) : Bool := bit (s.regEff n 2) 24
def State.schedDom (s : State) (n : Nat) : Nat := bits (s.regEff n 2) 18 16
def State.schedColour (s : State) (n : Nat) : Nat := bits (s.regEff n 2) 13 8
def State.budgetTmax (s : State) (n : Nat) : Nat := bits (s.regEff n 13) 15 0
def State.budgetSlots (s : State) (n : Nat) : Nat := bits (s.regEff n 13) 23 16
def State.budgetArm (s : State) (n : Nat) : Nat := bits (s.regEff n 13) 39 32
def State.wmask (s : State) (n : Nat) : Nat := bits (s.regEff n 16) 15 0

/-- PLIM (R308) and PCMASK (R369) of a region. -/
def State.plim (s : State) (n : Nat) : Nat := bits (s.regEff n 21) 60 56
def State.pcmaskOf (s : State) (n : Nat) : Nat := bits (s.regEff n 20) 47 32
/-- The basic-level values that a region gives now (R24). -/
def State.basicNow (s : State) (n : Nat) : Basic := ⟨s.plim n, s.wmask n, s.regEff n 17, s.pcmaskOf n⟩
/-- The basic-level values that govern a context: those its task took at dispatch, and in a handler context those of the
service region (R24, R169). -/
def State.basicOf (s : State) (c : CtxId) : Basic :=
  match (s.ctx c).task with
  | some t => t.basic
  | none => s.basicNow (s.regionOf c)
/-- Those of the current context. -/
def State.basic (s : State) : Basic := s.basicOf s.cur
/-- The WMASK of a region's request from a core: as the task that makes it took it, else the region's now. -/
def State.wayMask (s : State) (n : Nat) (k : Option CoreId) : Nat :=
  match k with
  | none => s.wmask n
  | some k =>
    match (s.cur :: coreSlots k).find? (fun c => c.core == k && match (s.ctx c).task with
      | some t => t.msg.region == n
      | none => false) with
    | some c => (s.basicOf c).wmask
    | none => s.wmask n

/-! ### Messages as twelve words -/

/-- The twelve words of a task message (R166); TRIG and TARGET of a type other than 1 are zero. -/
def taskWords (m : TaskMsg) : List Word :=
  [word (m.typ * 2 ^ 60 + m.rcls * 2 ^ 57 + m.prio * 2 ^ 54 + m.colour * 2 ^ 48 + m.region * 2 ^ 36 + m.cost * 2 ^ 28
      + m.kind.toNat * 2 ^ 27 + m.hops * 2 ^ 22 + m.pull * 2 ^ 19 + m.hdev * 2 ^ 8 + m.sstamp),
   word (m.hopt * 2 ^ 58 + m.hdie * 2 ^ 56 + m.hcls * 2 ^ 48 + m.cat), m.entry]
  ++ m.args ++ (if m.typ = 1 then [word m.trig, word m.target, m.join] else [0, 0, m.join])

/-- The message as the record of a fatal fault shows it: one that was released from the armed state shows TYPE 1 with its
trigger (R410), though it was placed as type 0 (R174). -/
def TaskMsg.asSpawned (m : TaskMsg) : TaskMsg := if m.typ = 0 ∧ m.trig ≠ 0 then { m with typ := 1 } else m

/-- A task message from its words (R166). -/
def taskOfWords (w : List Word) : TaskMsg :=
  let w0 := w.getD 0 0
  let w1 := w.getD 1 0
  { typ := bits w0 63 60, rcls := bits w0 59 57, prio := bits w0 56 54, colour := bits w0 53 48,
    region := bits w0 47 36, cost := bits w0 35 28, kind := bit w0 27, hops := bits w0 26 22, pull := bits w0 21 19,
    hdev := bits w0 18 8, sstamp := bits w0 7 0, hopt := bits w1 62 58, hdie := bits w1 57 56, hcls := bits w1 55 48,
    cat := bits w1 47 0, entry := w.getD 2 0, args := (w.drop 3).take 6, trig := (w.getD 9 0).toNat,
    target := bits (w.getD 10 0) 31 0, join := w.getD 11 0 }

/-- The twelve words of a message of types 5 and 8 to 11 (R233, R286). -/
def actWords (m : ActMsg) : List Word :=
  [word (m.typ * 2 ^ 60 + m.rcls * 2 ^ 57 + m.colour * 2 ^ 48 + m.region * 2 ^ 36 + m.tag), word m.cat, m.entry]
  ++ m.payload ++ [word m.raddr, word (m.cv.toNat * 2 ^ 7 + m.cnt), word m.status]

/-- A message from its words. -/
def actOfWords (w : List Word) : ActMsg :=
  let w0 := w.getD 0 0
  { typ := bits w0 63 60, rcls := bits w0 59 57, colour := bits w0 53 48, region := bits w0 47 36, tag := bits w0 15 0,
    cat := bits (w.getD 1 0) 47 0, entry := w.getD 2 0, payload := (w.drop 3).take 6, raddr := (w.getD 9 0).toNat,
    cv := bit (w.getD 10 0) 7, cnt := bits (w.getD 10 0) 5 0, status := bits (w.getD 11 0) 7 0 }

/-- Words as memory bytes. -/
def wordBytes (ws : List Word) : List Byte := ws.flatMap (fun w => leBytes 8 w.toNat)

/-- A task message of a region: PRIO, COLOUR and RCLS from its effective SCHED (R180). -/
def State.taskMsg (s : State) (region typ cost : Nat) (kind : Bool) (hops pull : Nat) (home : Nat × Nat × Nat)
    (cat : Nat) (entry : Word) (args : List Word) (trig target : Nat) (join : Word) : TaskMsg :=
  { typ := typ, rcls := s.schedRcls region, prio := s.regPrio region, colour := s.schedColour region, region := region,
    cost := cost, kind := kind, hops := hops, pull := pull, hdev := home.1, sstamp := bitsN s.time 13 6, hopt := 0,
    hdie := home.2.1, hcls := home.2.2, cat := cat, entry := entry, args := args, trig := trig, target := target,
    join := join }

/-- Allot a cluster's next catalogue number (R167). -/
def State.allotCat (s : State) (c : ClusterId) : State × Nat :=
  let x := s.cluster c
  (s.setCluster c { x with seq := (x.seq + 1) % 2 ^ 27 },
   s.dev * 2 ^ 37 + c.die.val * 2 ^ 35 + c.cl.val * 2 ^ 27 + x.seq)

end Sys2Proof.Machine
end

