-- ==== Sys2Proof/Machine/Counts.lean ====
section
/-! DEFINITION. Performance counters (R369, R370) and error counts (R378, R381). -/

namespace Sys2Proof.Machine

/-- Whether PCSEL selects event `ev` of region `r` (R369, R381). -/
def pcCounts (sel : Word) (ev : Nat) (r : Option Nat) : Bool :=
  bits sel 7 0 == ev && (!bit sel 63 || r == some (bits sel 59 48))

/-- Add `n` events of code `ev` to the counters from number `k` on that select them. -/
def pcAdd (x : Core) (ev : Nat) (r : Option Nat) (n : Nat) : Nat → Core
  | 0 => x
  | k + 1 =>
    let x := pcAdd x ev r n k
    if pcCounts (x.cwv (cwPCSEL + k)) ev r then x.setCw (cwPCCNT + k) (x.cwv (cwPCCNT + k) + word n) else x

/-- Count `n` events in a core (R369). -/
def State.count (s : State) (k : CoreId) (ev : Nat) (r : Option Nat) (n : Nat) : State :=
  s.setCore k (pcAdd (s.core k) ev r n 16)

/-- A saturating sum of a field of `w` bits. -/
def satAdd (w x n : Nat) : Nat := min (x + n) (2 ^ w - 1)

/-- Add to ERRCNT of a cluster: corrected and uncorrectable errors (R378, R381). -/
def State.errs (s : State) (c : ClusterId) (ce ue : Nat) : State :=
  let x := s.cluster c
  let e := x.cwv cwERRCNT
  s.setCluster c (x.setCw cwERRCNT (word (satAdd 32 (bits e 31 0) ce + 2 ^ 32 * satAdd 32 (bits e 63 32) ue)))

end Sys2Proof.Machine
end

