-- ==== Sys2Proof/Machine/Order.lean ====
section
/-! DEFINITION. The ports at which packets enter routers (R193, R230, R287), the route kinds that their headers record, and the homes of
DRAM addresses (R290). -/

namespace Sys2Proof.Machine

/-! ### Ports -/

/-- The port at which a packet that travels XY from cluster a enters the router of cluster b: 0 local, 1 north, 2 east,
3 south, 4 west, 5 up from another die (R193, R230, R287). -/
def arrivalPort (a b : ClusterId) : Nat :=
  if a = b then 0
  else if a.die ≠ b.die then 5
  else if a.cl.val / 16 < b.cl.val / 16 then 1
  else if b.cl.val / 16 < a.cl.val / 16 then 3
  else if a.cl.val < b.cl.val then 4
  else 2

/-- The cores of a cluster in snake order (R232). -/
def snake : List Nat := [0, 1, 2, 3, 7, 6, 5, 4, 8, 9, 10, 11, 15, 14, 13, 12]

/-- The route kind that a die's RTCFG in force gives a route class: 0 XY, 1 YX, 2 west-first adaptive; 3 acts as 0 (R230,
R231). -/
def State.routeKind (s : State) (d : Fin 4) (rcls : Nat) : Nat :=
  let k := bits (s.die d).rtcfg (2 * rcls + 1) (2 * rcls)
  if k = 3 then 0 else k
/-- A task message as a die injects it: its header records the route kind. -/
def State.routed (s : State) (d : Fin 4) (m : TaskMsg) : TaskMsg := { m with route := s.routeKind d m.rcls }
/-- An active message as a die injects it. -/
def State.routedMsg (s : State) (d : Fin 4) (m : ActMsg) : ActMsg := { m with route := s.routeKind d m.rcls }

/-- VMAP.LINB and VLIN of a die in bytes (R305). -/
def Die.linb (x : Die) : Nat := bits x.vmap 15 0 * 2 ^ 21
def Die.vlin (x : Die) : Nat := bits x.vmap 47 32 * 2 ^ 21

/-- The vault that holds a DRAM offset, or none when it is unbacked (R290); the limits are compared in units of 2 MiB. -/
def Die.vault (x : Die) (o : Nat) : Option Nat :=
  if o / 2 ^ 21 < bits x.vmap 15 0 then some (o / 4096 % 192)
  else if o / 2 ^ 21 < bits x.vmap 15 0 + 192 * bits x.vmap 47 32 then some ((o - x.linb) / x.vlin)
  else none

/-- The cluster a DRAM line's request goes to, as VMAP of its die says; the die's first where none backs it. -/
def State.homeOr (s : State) (pa : Nat) : ClusterId :=
  match (s.die (paDie pa)).vault (paDram pa) with
  | some v => ⟨paDie pa, Fin.ofNat 192 v⟩
  | none => ⟨paDie pa, 0⟩

end Sys2Proof.Machine
end

