-- ==== Sys2Proof/Machine/Home.lean ====
section
/-! DEFINITION. Vaults and home slices (R290 to R294), stash copies and their recall (R223). Memory holds the coherent
view; a dirty slice line keeps the bytes that DRAM still holds beneath it. -/

namespace Sys2Proof.Machine

/-- The home cluster of a DRAM address of this device (R290). -/
def State.homeOf (s : State) (pa : Nat) : Option ClusterId :=
  match (s.die (paDie pa)).vault (paDram pa) with
  | some v => some ⟨paDie pa, Fin.ofNat 192 v⟩
  | none => none

/-- A DRAM address lies in backed offsets of this device. -/
def State.backed (s : State) (pa : Nat) : Bool := (s.homeOf pa).isSome

/-- Whether n bytes at a memory key lie in backed DRAM: what the hardware may write there is no other unit's state (R10; log entry
70). Backed offsets run from 0 without a gap (R290). -/
def State.areaBacked (s : State) (loc n : Nat) : Bool :=
  !loc.testBit 42 && bitsN loc 41 36 == 0 && bitsN (loc + n - 1) 44 36 == bitsN loc 44 36 && s.backed loc && s.backed (loc + n - 1)

/-- Line number of an address. -/
def lineNo (a : Nat) : Nat := a / 64
/-- The set of a line (log entry 12). -/
def setOf (n : Nat) : Nat := n % 4096

/-- Mark every word of a line poisoned (R294). -/
def poisonLine (p : List Nat) (n : Nat) : List Nat := (upto (n * 8) 8).foldl (fun p w => sins w p) p

/-- A dirty line in which an uncorrectable error arose, which no store has cleared since, is written back with every word marked, and
its owner region is told (R294); marks that a line carries go to DRAM word by word. -/
def State.writeBack (s : State) (c : ClusterId) (n : Nat) (l : Line) : State :=
  if l.dirty && l.bad && s.poisAt (64 * n) 64 then { s with pois := poisonLine s.pois n }.post (.lineRecord c n l.owner) else s

/-- Put a line into the slice of a cluster. -/
def State.putLine (s : State) (c : ClusterId) (n : Nat) (l : Line) : State :=
  s.setCluster c { s.cluster c with lines := tput (s.cluster c).lines n (some l) }

/-- Take a line out of the slice of a cluster. -/
def State.dropLine (s : State) (c : ClusterId) (n : Nat) : State :=
  s.setCluster c { s.cluster c with lines := tdel (s.cluster c).lines n }

/-- Evict a line: written back when dirty, then dropped (R291, R292). -/
def State.evict (s : State) (c : ClusterId) (n : Nat) : State :=
  match tget none (s.cluster c).lines n with
  | none => s
  | some l => (s.writeBack c n l).dropLine c n

/-- The lines a slice holds in a set: number, way and stamp. -/
def Cluster.setLines (x : Cluster) (set : Nat) : List (Nat × Nat × Nat) :=
  x.lines.filterMap (fun e => match e.2 with
    | some l => if setOf e.1 = set then some (e.1, l.way, l.stamp) else none
    | none => none)

/-- The least recently used of the lines given. -/
def oldest : List (Nat × Nat × Nat) → Option (Nat × Nat × Nat)
  | [] => none
  | e :: t =>
    match oldest t with
    | none => some e
    | some f => if e.2.2 ≤ f.2.2 then some e else some f

/-- The way a miss takes under a way mask, and the line that leaves it (R291). -/
def Cluster.victim (x : Cluster) (n mask : Nat) : Option (Nat × Option Nat) :=
  let ls := x.setLines (setOf n)
  match (upto 0 16).find? (fun w => mask.testBit w && !(ls.any (fun e => e.2.1 == w))) with
  | some w => some (w, none)
  | none =>
    match oldest (ls.filter (fun e => mask.testBit e.2.1)) with
    | some e => some (e.2.1, some e.1)
    | none => none

/-- A line as a write leaves it: the region owns it, and what DRAM holds beneath a line that was clean is kept (R292). -/
def State.writtenLine (s : State) (n region : Nat) (l : Line) : Line :=
  if l.dirty then { l with owner := region }
  else { l with owner := region, dirty := true, dram := s.bytes (64 * n) 64,
                dramPois := (upto (8 * n) 8).map (fun w => smem w s.pois) }

/-- The line as an access of a region leaves it. -/
def State.usedLine (s : State) (n region : Nat) (write : Bool) (l : Line) : Line :=
  if write then s.writtenLine n region l else l

/-- Count an event on the core that asked, where a core asked. -/
def State.countFor (s : State) (k : Option CoreId) (ev region : Nat) : State :=
  match k with
  | some k => s.count k ev (some region) 1
  | none => s

/-- The line that leaves for a new one: counted where it is dirty, then evicted. -/
def State.makeRoom (s : State) (c : ClusterId) (out : Option Nat) (k : Option CoreId) (region : Nat) : State :=
  match out with
  | none => s
  | some m =>
    match tget none (s.cluster c).lines m with
    | some l => if l.dirty then (s.countFor k 0x0E region).evict c m else s.evict c m
    | none => s.evict c m

/-- A miss at the slice allocates under WMASK (R291, R293). -/
def State.missLine (s : State) (c : ClusterId) (n region : Nat) (write : Bool) (k : Option CoreId) : State :=
  match (s.cluster c).victim n (s.wayMask region k) with
  | none => s
  | some (w, out) =>
    let s := s.makeRoom c out k region
    s.putLine c n (s.usedLine n region write ⟨w, s.nextId, 0, false, false, [], []⟩)

/-- A request of a region touches a line at its home slice: a hit renews the line, a miss allocates under WMASK, a write
sets the owner tag and keeps what DRAM holds beneath the now dirty line (R291 to R293). `loc` is a memory key. -/
def State.touch (s : State) (loc region : Nat) (write : Bool) (k : Option CoreId) : State :=
  match s.homeOf loc with
  | none => s
  | some c =>
    let s := s.fresh
    match tget none (s.cluster c).lines (lineNo loc) with
    | some l => s.putLine c (lineNo loc) (s.usedLine (lineNo loc) region write { l with stamp := s.nextId })
    | none => (s.countFor k 0x0D region).missLine c (lineNo loc) region write k

/-- CWB at the home slice: a dirty line is written to DRAM and stays valid and clean (R303). -/
def State.cleanLine (s : State) (loc : Nat) : State :=
  match s.homeOf loc with
  | none => s
  | some c =>
    match tget none (s.cluster c).lines (lineNo loc) with
    | none => s
    | some l =>
      (s.writeBack c (lineNo loc) l).putLine c (lineNo loc) { l with dirty := false, bad := false, dram := [], dramPois := [] }

/-- The bytes and marks DRAM holds beneath a dirty line. -/
def State.undirty (s : State) (n : Nat) (l : Line) : State :=
  if l.dirty then
    { s with mem := memPuts s.mem (64 * n) l.dram,
             pois := ((upto (8 * n) 8).zip l.dramPois).foldl
               (fun p e => if e.2 then sins e.1 p else sdel e.1 p) s.pois }
  else s

/-- What a dirty line holds beyond DRAM is given up, and the line leaves its slice. -/
def State.forgetLine (s : State) (loc : Nat) : State :=
  match s.homeOf loc with
  | none => s
  | some c =>
    match tget none (s.cluster c).lines (lineNo loc) with
    | none => s
    | some l => (s.undirty (lineNo loc) l).dropLine c (lineNo loc)

/-- CINV at the home slice: the line is discarded, then written as by a store of all 64 bytes with the DRAM contents as value
and the issuer's region as owner (R303). -/
def State.discardLine (s : State) (loc region : Nat) (k : Option CoreId) : State := (s.forgetLine loc).touch loc region true k

/-! ### Stash windows (R212, R223) -/

/-- SWLk of a core (R213). -/
def Core.swl (x : Core) (k : Nat) : Word := x.cwv (cwSWL + k)
def Core.swv (x : Core) (k : Nat) : Word := x.cwv (cwSWV + k)
/-- Number of a stash line: window and line. -/
def stashKey (win line : Nat) : Nat := win * 4096 + line
/-- Local offset of a stash line. -/
def Core.stashOff (x : Core) (key : Nat) : Nat := bits (x.swl (key / 4096)) 17 0 + 64 * (key % 4096)
/-- Region of a stash line's window. -/
def Core.stashRegion (x : Core) (key : Nat) : Nat := bits (x.swl (key / 4096)) 59 48

/-- The window and line of a core that a local offset lies in (R223). -/
def Core.stashAt (x : Core) (off : Nat) : Option Nat :=
  match (upto 0 8).find? (fun k => bit (x.swl k) 63 && decide (bits (x.swl k) 17 0 ≤ off)
      && decide (off < bits (x.swl k) 17 0 + 64 * bits (x.swl k) 44 32)) with
  | some k => some (stashKey k ((off - bits (x.swl k) 17 0) / 64))
  | none => none

/-- Mark a DRAM line poisoned and tell the region (R294). -/
def State.spoil (s : State) (loc region : Nat) : State :=
  match s.homeOf loc with
  | some c => { s with pois := poisonLine s.pois (lineNo loc) }.post (.lineRecord c (lineNo loc) region)
  | none => s

/-- The local memory key of a stash line's copy. -/
def State.stashLoc (s : State) (k : CoreId) (key : Nat) : Nat := localLoc k ((s.core k).stashOff key)

/-- The bytes of a stash line written to its DRAM line (R223). -/
def State.stashCopy (s : State) (k : CoreId) (key : Nat) (l : StashLine) : State :=
  (s.touch l.pa ((s.core k).stashRegion key) true none).poke l.pa (s.bytes (s.stashLoc k key) 64) false

/-- Write the bytes of a dirty stash line back to DRAM; poisoned words poison the DRAM line (R223). -/
def State.stashWriteBack (s : State) (k : CoreId) (key : Nat) (l : StashLine) : State :=
  if l.dirty then
    if s.poisAt (s.stashLoc k key) 64 then (s.stashCopy k key l).spoil l.pa ((s.core k).stashRegion key)
    else s.stashCopy k key l
  else s

/-- Set the state of a stash line. -/
def State.setStash (s : State) (k : CoreId) (key : Nat) (l : Option StashLine) : State :=
  s.setCore k { s.core k with stash := tset none (s.core k).stash key l }

/-- Recall one stash line: dirty bytes are written back; it becomes invalid, or shared for a read (R223). -/
def State.recallOne (s : State) (k : CoreId) (key : Nat) (invalidate : Bool) : State :=
  match tget none (s.core k).stash key with
  | none => s
  | some l =>
    let s := s.stashWriteBack k key l
    let s := s.count k 0x10 (some ((s.core k).stashRegion key)) 1
    s.setStash k key (if invalidate then none else some { l with excl := false, dirty := false })

/-- The stash lines of the device that hold a DRAM line: core number and line number. -/
def State.holders (s : State) (loc : Nat) : List (Nat × Nat) :=
  s.cores.flatMap (fun e => e.2.stash.filterMap (fun f => match f.2 with
    | some l => if lineNo l.pa = lineNo loc then some (e.1, f.1) else none
    | none => none))

/-- Recall a line from every stashing core but the one excepted: a write recalls every copy, a read an exclusive one
(R223). -/
def State.recall (s : State) (loc : Nat) (write : Bool) (except : Option CoreId) : State :=
  (s.holders loc).foldl (fun s e =>
    let k := CoreId.ofKey e.1
    if except = some k then s
    else match tget none (s.core k).stash e.2 with
      | some l => if write || l.excl then s.recallOne k e.2 write else s
      | none => s) s

/-! ### Accesses at the home slice -/

/-- A vault or carrel that failed delivers poison (R379). -/
def State.vaultBad (s : State) (loc : Nat) : Bool :=
  match s.homeOf loc with
  | some c => (s.cluster c).vaultFailed
  | none => false

/-- The 64-byte lines that n bytes at a touch. -/
def linesAt (a n : Nat) : List Nat := if n = 0 then [] else upto (a / 64) ((a + n - 1) / 64 + 1 - a / 64)

/-- Whether an access of a region to a line that its slice does not hold fills it from DRAM (R291). -/
def State.fills (s : State) (l region : Nat) (k : Option CoreId) : Bool :=
  match s.homeOf (64 * l) with
  | none => false
  | some c =>
    (tget none (s.cluster c).lines l).isNone && ((s.cluster c).victim l (s.wayMask region k)).isSome

/-- A write of part of a line fills it from DRAM: the region that asks is told of poison it brings (R294, R378). -/
def State.fillNote (s : State) (loc n region : Nat) (write : Bool) (k : Option CoreId) (l : Nat) : State :=
  if write && !(decide (loc ≤ 64 * l) && decide (64 * l + 64 ≤ loc + n)) && s.poisAt (64 * l) 64 && s.fills l region k then
    s.post (.fillRecord l region)
  else s

/-- Bring lines to a home access: recall stash copies, then touch the slice. -/
def State.homeAccess (s : State) (loc n region : Nat) (write : Bool) (k : Option CoreId) : State :=
  (linesAt loc n).foldl (fun s l =>
    ((s.recall (64 * l) write none).fillNote loc n region write k l).touch (64 * l) region write k) s

/-- A carrel's read and an atomic take every stash copy back first (R223). -/
def State.homeTake (s : State) (loc n region : Nat) (write : Bool) (k : Option CoreId) : State :=
  (linesAt loc n).foldl (fun s l => (s.recall (64 * l) true none).touch (64 * l) region write k) s

/-- Poison of n bytes as a reader gets them. -/
def State.readBad (s : State) (loc n : Nat) : Bool :=
  s.poisAt loc n || (!loc.testBit 42 && (linesAt loc n).any (fun l => s.vaultBad (64 * l)))

end Sys2Proof.Machine
end

