-- ==== Sys2Proof/Machine/Record.lean ====
section
/-! DEFINITION. What the machine writes down about itself: LIVE counts (R168, R170), the Annals (R372 to R374), fault queues
and fault handlers (R187), notices (R392). -/

namespace Sys2Proof.Machine

/-! ### Region control blocks as the hardware writes them (R168 to R170) -/

/-- The slice lines after a write of a region at a memory key: a line that its home slice holds takes the owner tag and becomes dirty
(R293; log entry 12). -/
def State.regMark (s : State) (loc region : Nat) : Table Cluster :=
  match s.homeOf loc with
  | none => s.clusters
  | some c =>
    match tget none (s.cluster c).lines (lineNo loc) with
    | none => s.clusters
    | some l =>
      let l := s.writtenLine (lineNo loc) region l
      tput s.clusters c.key { s.cluster c with lines := tput (s.cluster c).lines (lineNo loc) (some l) }
/-- Write a doubleword of a region's own block: in memory, and in force. -/
def State.regPut (s : State) (n k v : Nat) : State :=
  { s.pokeD (s.regLoc n k) v with regs := tset 0 s.regs (32 * n + k) (word v), clusters := s.regMark (s.regLoc n k) n }
/-- Set the counts of LIVE (R170). -/
def State.setLive (s : State) (n tasks armed : Nat) : State :=
  s.regPut n 14 (tasks % 2 ^ 32 + 2 ^ 32 * (armed % 2 ^ 32))
/-- One live task more. -/
def State.liveUp (s : State) (n : Nat) : State := s.setLive n (s.liveTasks n + 1) (s.liveArmed n)
/-- One live task less. -/
def State.liveDown (s : State) (n : Nat) : State := s.setLive n (s.liveTasks n - 1) (s.liveArmed n)
/-- One armed entry more. -/
def State.armUp (s : State) (n : Nat) : State := s.setLive n (s.liveTasks n) (s.liveArmed n + 1)
/-- One armed entry less. -/
def State.armDown (s : State) (n : Nat) : State := s.setLive n (s.liveTasks n) (s.liveArmed n - 1)

/-! ### The Annals -/

/-- Write a doubleword of DRAM at its home slice on behalf of a region. -/
def State.homeD (s : State) (loc region x : Nat) : State := (s.homeAccess loc 8 region true none).pokeD loc x

/-- Write ring words from index `w` on. -/
def annWrite (s : State) (region a w : Nat) : List Nat → State
  | [] => s
  | x :: t => annWrite (s.homeD (a + 64 + 8 * w) region x) region a (w + 1) t

/-- A header word (R373). -/
def annHdr (s : State) (len typ : Nat) : Nat := 2 ^ 63 + (len - 1) * 2 ^ 59 + typ * 2 ^ 52 + s.time % 2 ^ 52

/-- A record as ring words: the header and the data, each below 2^63 (R373). -/
def annRec (s : State) (typ : Nat) (data : List Nat) : List Nat :=
  annHdr s (data.length + 1) typ :: data.map (fun x => x % 2 ^ 63)

/-- Append one record of L words to a region's ring at `a` of N words, at the home slice (R374). WR counts modulo N (log
entry 23). -/
def annAppend (s : State) (region a N typ : Nat) (data : List Nat) : State :=
  let s := s.homeAccess a 24 region false none
  let wr := (s.dword a).toNat % N
  let rd := (s.dword (a + 8)).toNat
  let lost := (s.dword (a + 16)).toNat
  let L := data.length + 1
  let free := N - 1 - (wr + N - rd % N) % N
  let lpad := if lost > 0 ∧ N - wr < 2 then N - wr else 0
  let need0 := if lost > 0 then lpad + 2 else 0
  let w := if lost > 0 then (wr + lpad + 2) % N else wr
  let pad := if N - w < L then N - w else 0
  if free < need0 + pad + L then s.homeD (a + 16) region (min (lost + 1) (2 ^ 63 - 1))
  else
    let s := if lpad > 0 then annWrite s region a wr (annRec s 0 (List.replicate (lpad - 1) 0)) else s
    let l0 := if lpad > 0 then 0 else wr
    let s := if lost > 0 then (annWrite s region a l0 (annRec s 1 [lost])).homeD (a + 16) region 0 else s
    let s := if pad > 0 then annWrite s region a w (annRec s 0 (List.replicate (pad - 1) 0)) else s
    let w := if pad > 0 then 0 else w
    (annWrite s region a w (annRec s typ data)).homeD a region ((w + L) % N)

/-- The EVMASK bit of a record type (R372, R373). -/
def annClass (typ : Nat) : Nat :=
  match typ with
  | 2 => 0 | 3 => 1 | 4 => 2 | 5 => 3 | 6 => 4 | 8 => 5 | _ => 6

/-- Append a record to the region's ring on a die when ANNL enables it, and its ring is backed (R10, R372, R374; log entry 70). -/
def State.annals (s : State) (d : Fin 4) (region typ : Nat) (data : List Nat) : State :=
  let a := s.regEff region 20
  let loc := dramLoc d (bits a 19 0 * 65536)
  let n := 2 ^ (bits a 55 52 + 9)
  if bit a 63 && bit a (56 + annClass typ) && s.areaBacked loc (64 + 8 * n) then annAppend s region loc n typ data
  else s

/-- The poison record of a region (R373 type 0x05, R378). -/
def State.poisonRecord (s : State) (d : Fin 4) (region pa source : Nat) : State := s.annals d region 5 [pa, source]

/-! ### Reads at the home slice -/

/-- Where a poisoned word of DRAM is found (R373): 3 in a line that its home slice holds, else 1 in DRAM. -/
def State.poisonSource (s : State) (loc : Nat) : Nat :=
  match s.homeOf loc with
  | some c => if (tget none (s.cluster c).lines (lineNo loc)).isSome then 3 else 1
  | none => 1

/-- The first of n bytes at a memory key that a reader gets poisoned. -/
def State.badByte (s : State) (loc n : Nat) : Option Nat :=
  if n = 0 then none
  else ((wordsAt loc n).find? (fun w => smem w s.pois || (!loc.testBit 42 && s.vaultBad (8 * w)))).map (fun w => max loc (8 * w))

/-- The first line that a read of n bytes fills with poison from DRAM. -/
def State.fillBad (s : State) (loc n region : Nat) (k : Option CoreId) : Option Nat :=
  (linesAt loc n).find? (fun l => s.poisAt (64 * l) 64 && s.fills l region k)
/-- The poison record of a line that a read filled poisoned, outside the bytes read (R294, R378). -/
def State.fillRecord (s : State) (l : Option Nat) (region : Nat) : State :=
  match l with
  | some l => s.poisonRecord (paDie (64 * l)) region (s.dev * 2 ^ 45 + (s.badByte (64 * l) 64).getD (64 * l)) 1
  | none => s

/-- Bring n bytes of DRAM to a reader: the access at the home slice, and the poison record of the region that asks, which
names the first byte poisoned, of those read or else of a line that the read filled (R294, R378). -/
def State.homeRead (s : State) (pa n region : Nat) (k : Option CoreId) (take : Bool := false) : State :=
  let loc := paLoc pa
  let src := s.poisonSource loc
  let filled := s.fillBad loc n region k
  let s := if take then s.homeTake loc n region false k else s.homeAccess loc n region false k
  match s.badByte loc n with
  | some a => s.poisonRecord (paDie pa) region (paDev pa * 2 ^ 45 + a) src
  | none => s.fillRecord filled region

/-- Fill the line of a DRAM address, for a region that did not ask for its bytes (R303): it is told of poison (R294). -/
def State.prefetch (s : State) (pa region : Nat) (k : Option CoreId) : State :=
  let l := lineNo (paLoc pa)
  let note := s.poisAt (64 * l) 64 && s.fills l region k
  let s := s.homeAccess (64 * l) 64 region false k
  if note then s.poisonRecord (paDie pa) region (paDev pa * 2 ^ 45 + 64 * l) 1 else s

/-! ### Notices -/

/-- Pad a byte string to n bytes. -/
def padTo (n : Nat) (b : List Byte) : List Byte := (b ++ List.replicate n 0).take n

/-- The 24 bytes of a frame's header (R386). -/
def frameHeader (typ flags len seq addr : Nat) : List Byte :=
  leBytes 2 typ ++ leBytes 2 flags ++ leBytes 4 len ++ leBytes 8 seq ++ leBytes 8 addr

/-- The nonce of a frame: its kind and its SEQ (R386). -/
def frameNonce (kind seq : Nat) : BitVec 96 := BitVec.ofNat 96 (kind * 2 ^ 64 + seq % 2 ^ 64)

/-- A frame of the device as it stands on the wire (R386): under a session encrypted and tagged with the D2N key, kind 2 for a
reply and 3 for a notice. -/
def Platform.sealed (p : Platform) (kind : Nat) (f : OutFrame) : OutFrame :=
  match p.session with
  | none => f
  | some z =>
    let n := frameNonce kind f.seq
    let c := gcmCrypt z.d2n n f.payload
    { f with payload := c, tag := gcmTag z.d2n n (frameHeader f.typ 0 f.payload.length f.seq f.addr) c }

/-- Send a notice, keep it while the port is down, or lose it (R392). -/
def State.notice (s : State) (code : Nat) (payload : List Byte) : State :=
  let p := s.plat
  let f : OutFrame := { typ := 0x50, seq := p.noticeSeq, addr := code, payload := padTo 32 payload }
  if p.portUp then { s with plat := { p with sent := p.sent ++ [p.sealed 3 f], noticeSeq := p.noticeSeq + 1 } }
  else if p.kept.length < 64 then { s with plat := { p with kept := p.kept ++ [f] } }
  else { s with plat := { p with lost := satAdd 32 p.lost 1 } }

/-- "Replace requested" for a part (R392 code 0x01): kind, die, cluster, core, link, lane. -/
def State.replaceNotice (s : State) (kind die cl core link lane : Nat) : State :=
  { s with plat := { s.plat with rreq := true } }.notice 0x01 ([kind, die, cl, core, link, lane].map (fun n => BitVec.ofNat 8 n))

/-! ### Writes by the hardware itself -/

/-- Send a fabric packet (R327). -/
def State.fabric (s : State) (p : Packet) : State := { s with plat := { s.plat with fabric := s.plat.fabric ++ [p] } }

/-- Bytes the hardware writes at a global physical address of DRAM: at the home slice of this device's DRAM, or as a remote write; what
is no DRAM is not written (R10; log entry 70). -/
def State.hwWrite (s : State) (pa : Nat) (bs : List Byte) (bad : Bool) (region : Nat) : State :=
  if paOnDie pa ∨ (paDev pa = s.dev ∧ s.areaBacked (paLoc pa) bs.length = false) then s
  else if paDev pa = s.dev then (s.homeAccess (paLoc pa) bs.length region true none).poke (paLoc pa) bs bad
  else s.fabric (.request s.dev (paDev pa) ⟨s.cur, 0, pa, .write bs (if bad then 2 ^ bs.length - 1 else 0), 0, region, 0⟩)

/-! ### Fault queues (R187) -/

/-- Append a 128-byte record to a region's fault queue; the index it took, or none when it was dropped. -/
def State.faultRecord (s : State) (region typ tcause tval tpc : Nat) (body : List Byte) : State × Option Nat :=
  let ctl := s.regOwn region 9
  let n := bits ctl 15 0
  let head := bits ctl 31 16
  let tail := bits ctl 47 32
  if n = 0 ∨ (tail + 1) % n = head then
    (s.regPut region 9 (bits ctl 47 0 + 2 ^ 48 * satAdd 16 (bits ctl 63 48) 1), none)
  else
    let sq := tget 0 s.recSeq region
    let hdr := 2 ^ 63 + typ * 2 ^ 48 + sq
    let rec128 := leBytes 8 hdr ++ leBytes 8 tcause ++ leBytes 8 tval ++ leBytes 8 tpc ++ padTo 96 body
    let s := s.hwWrite ((s.regOwn region 7).toNat + 128 * tail) rec128 false region
    let s := { s with recSeq := tput s.recSeq region ((sq + 1) % 65536) }
    (s.regPut region 9 (bits ctl 31 0 + 2 ^ 32 * ((tail + 1) % n) + 2 ^ 48 * bits ctl 63 48), some tail)

/-- Spawn a region's fault handler task in a cluster (R187). -/
def State.spawnHandler (s : State) (region : Nat) (cl : ClusterId) (g10 g11 : Word) : State :=
  let entry := s.regEff region 5
  if entry = 0 then s
  else
    let ctl := s.regEff region 6
    let (s, cat) := s.allotCat cl
    let m := s.taskMsg region 0 (max 1 (bits ctl 7 0)) (bit ctl 8) (s.schedHops region) 0
      (s.dev, cl.die.val, cl.cl.val) cat entry [g10, g11, 0, 0, 0, 0] 0 0 0
    let s := { s with plat := { s.plat with faultHandlers := sins cat s.plat.faultHandlers } }
    s.post (.taskPlacement cl m 0)

/-- Write a record and spawn the region's fault handler on it; a dropped record gives g10 = 0 (R170, R187). -/
def State.recordFault (s : State) (region typ tcause tval tpc : Nat) (body : List Byte) (cl : ClusterId)
    (g11 : Word) : State :=
  match s.faultRecord region typ tcause tval tpc body with
  | (s, some i) => s.spawnHandler region cl (s.regOwn region 8 + word (128 * i)) g11
  | (s, none) => s.spawnHandler region cl 0 g11

/-- The record of a task that a fault ends, or that ends before it runs (R187, R200, R202). A fault handler's own fault
goes to the parent region, whose handler is spawned as its own is: in the parent region (log entry 65); in region 0 it goes to the
control node. -/
def State.taskRecord (s : State) (m : TaskMsg) (typ tcause tval tpc : Nat) (cl : ClusterId) : State :=
  if smem m.cat s.plat.faultHandlers then
    if m.region = 0 then s.notice 0x04 (leBytes 8 m.cat ++ leBytes 8 tcause ++ leBytes 8 tval ++ leBytes 8 tpc)
    else s.recordFault (s.regParent m.region) typ tcause tval tpc (wordBytes (taskWords m)) cl (word m.cat)
  else s.recordFault m.region typ tcause tval tpc (wordBytes (taskWords m)) cl (word m.cat)

/-- The Annals record of a fault (R373 type 0x04). -/
def State.annFault (s : State) (d : Fin 4) (region cat tcause tval tpc : Nat) : State :=
  s.annals d region 4 [cat, tcause, tval, tpc, tval / 2 ^ 63 + 2 * (tpc / 2 ^ 63)]

end Sys2Proof.Machine
end

