-- ==== Sys2Proof/Machine/Ops.lean ====
section
/-! DEFINITION. The named operations: counters and their waiters, engine completions, withdrawing waits, ending tasks and
handlers, taking an exception and returning from one, and what every instruction's meaning begins and ends with. -/

namespace Sys2Proof.Machine

/-! ### Mailbox counters (R252 to R254) -/

/-- Number of a counter on the device. -/
def ctrKey (k : CoreId) (n : Nat) : Nat := k.key * 64 + n
/-- A counter's value. -/
def State.ctr (s : State) (k : CoreId) (n : Nat) : BitVec 32 := tget 0 s.counters (ctrKey k n)
/-- The test of a wait, a trigger or an armed entry (R174, R254, R256). -/
def ctrTest (c target : BitVec 32) : Bool := !(c - target).msb

/-- Whether a context waits on a counter with a test that a value meets. -/
def Ctx.wakes (x : Ctx) (n : BitVec 6) (v : BitVec 32) : Bool :=
  match x.wait with
  | .counter m t _ _ met => m == n && !met && ctrTest v t
  | _ => false

/-- Mark the wait of a context as met. -/
def Ctx.wake (x : Ctx) : Ctx :=
  match x.wait with
  | .counter m t id gd _ => { x with wait := .counter m t id gd true }
  | _ => x

/-- Insert a number in rising order, keeping equal ones. -/
def insUp (n : Nat) : List Nat → List Nat
  | [] => [n]
  | k :: t => if n ≤ k then n :: k :: t else k :: insUp n t
/-- Sort rising. -/
def sortUp (l : List Nat) : List Nat := l.foldr insUp []

/-- Armed engine commands that a counter's value starts: port and number. -/
def Core.armedHits (x : Core) (n : BitVec 6) (v : BitVec 32) : List (Nat × Nat) :=
  x.ports.flatMap (fun e => e.2.cmds.filterMap (fun c => match c.state with
    | .armed m t => if m = n ∧ ctrTest v t then some (e.1, c.id) else none
    | _ => none))

/-- Put the test of a counter on the agenda, once: it comes at the end of the cycle (R254). -/
def State.postTest (s : State) (k : CoreId) (n : BitVec 6) : State :=
  if s.agenda.elem (.test k n) then s else { s with agenda := s.agenda ++ [.test k n] }

/-- Give a counter a value; every wait on it is tested at the end of the cycle (R254). -/
def State.setCtr (s : State) (k : CoreId) (n : BitVec 6) (v : BitVec 32) : State :=
  { s with counters := tset 0 s.counters (ctrKey k n.toNat) v }.postTest k n

/-- Increment a counter by one, later in this cycle. -/
def State.postInc (s : State) (k : CoreId) (n : Nat) : State :=
  s.post (.counterChange k (BitVec.ofNat 6 n) false 1 false)

/-! ### Engine ports (R259, R260) -/

/-- A port of a core. -/
def Core.port (x : Core) (p : Nat) : Port := tget {} x.ports p
/-- Replace a port. -/
def State.setPort (s : State) (k : CoreId) (p : Nat) (x : Port) : State :=
  s.setCore k { s.core k with ports := tput (s.core k).ports p x }

/-- OP and TAG of a command for its completion word (R260, R298, R357). -/
def Command.opTag (c : Command) : Nat × Nat :=
  match c.kind with
  | .engine => (bits c.w0 63 60, bits c.w0 47 32)
  | .bmv _ _ _ _ _ _ => (0, bits c.w1 47 32)
  | .pchk _ _ => (0, bits c.w0 15 0)
  | .prec => (1, bits c.w0 15 0)

/-- A completion word (R260). -/
def Command.complWord (c : Command) (status aux : Nat) : Word :=
  word (2 ^ 63 + status * 2 ^ 56 + c.opTag.1 * 2 ^ 52 + c.opTag.2 * 2 ^ 32 + aux % 2 ^ 32)

/-- The event that runs a started command. -/
def Command.event (k : CoreId) (p : Nat) (c : Command) : Event :=
  match c.kind with
  | .bmv pa _ _ _ _ _ => .carrelTurn ⟨paDie pa, Fin.ofNat 192 ((bitsN pa 35 0))⟩
  | .pchk _ _ => .directoryOperation k c.id
  | .prec => .directoryOperation k c.id
  | .engine =>
    if p = 0 then
      match bits c.w0 63 60 with
      | 0 => .copy k c.id
      | 1 => .get k c.id
      | 2 => .put k c.id
      | _ => .rcopy k c.id
    else
      match bits c.w0 63 60 with
      | 0 => .gather k c.id
      | 1 => .scatter k c.id
      | _ => .scatterReduction k c.id

/-- The event of a started command; a BMV's names the carrel of its page's home slice (R298). -/
def State.cmdEvent (s : State) (k : CoreId) (p : Nat) (c : Command) : Event :=
  match c.kind with
  | .bmv pa _ _ _ _ _ =>
    match s.homeOf pa with
    | some cl => .carrelTurn cl
    | none => c.event k p
  | _ => c.event k p

/-- Local ranges that a command on port p reads in full when it starts: x of a BMV (R297, R298); the shape record and the
index list of an index command (R270). -/
def Command.xRanges (c : Command) (p : Nat) : List (Nat × Nat) :=
  match c.kind with
  | .bmv _ _ clay _ ck _ => [(bits c.w1 17 0, if clay = 1 then 128 * (ck + 1) else 256 * (ck + 1))]
  | .engine => if p = 1 then [(bits c.w1 17 0, 32), (bits c.w1 49 32, 4 * bits c.w0 31 0)] else []
  | _ => []

/-- An address in the translated range (R70). -/
def inXl (va : Word) : Bool := decide (0x200000 ≤ va.toNat) && decide (va.toNat < 2 ^ 57)
/-- Whether a command reaches DRAM: by a translated operand or table, or as an operation of the directory. -/
def Command.usesDram (c : Command) (p : Nat) : Bool :=
  match c.kind with
  | .engine => if p = 0 then inXl c.w1 || inXl c.w2 else inXl (word (leNat (c.xv.take 8)))
  | .bmv _ _ _ _ _ _ => false
  | _ => true
/-- Let a started command go on: one that reaches DRAM does so among the requests that arrive in the next cycle (R292). -/
def State.launch (s : State) (k : CoreId) (p : Nat) (c : Command) : State :=
  if c.usesDram p then s.after 1 (s.cmdEvent k p c) else s.post (s.cmdEvent k p c)

/-- The first queued command of a port. -/
def Port.nextQueued (x : Port) : Option Command := x.cmds.find? (fun c => c.state == .queued)
/-- Started commands of a port. -/
def Port.started (x : Port) : Nat := (x.cmds.filter (fun c => c.state == .started)).length
/-- Replace a command of a port. -/
def Port.update (x : Port) (id : Nat) (f : Command → Command) : Port :=
  { x with cmds := x.cmds.map (fun c => if c.id = id then f c else c) }

/-- Start the first queued command. -/
def startFirst (f : Command → Command) : List Command → List Command
  | [] => []
  | c :: t => if c.state = .queued then f c :: t else c :: startFirst f t

/-- Start queued commands while fewer than four run (R259); poison in the operands they read at their start is recorded (R378). -/
def State.pump (s : State) (k : CoreId) (p : Nat) : Nat → State
  | 0 => s
  | fuel + 1 =>
    let x := (s.core k).port p
    if x.started < 4 then
      match x.nextQueued with
      | none => s
      | some c =>
        let r := c.xRanges p
        let xv := r.flatMap (fun e => s.bytes (localLoc k e.1) e.2)
        let bad := r.any (fun e => s.poisAt (localLoc k e.1) e.2)
        let x := { x with cmds := startFirst (fun c => { c with state := .started, xv := xv, xpois := bad }) x.cmds }
        let s := r.foldl (fun s e => match s.badByte (localLoc k e.1) e.2 with
          | some a => s.poisonRecord k.die c.region (s.dev * 2 ^ 45 + a) 2
          | none => s) s
        ((s.setPort k p x).launch k p { c with xv := xv }).pump k p fuel
    else s

/-- Complete a command: counter increment, completion word, next start (R260, R265, R267, R298). -/
def State.complete (s : State) (k : CoreId) (p : Nat) (c : Command) (status aux : Nat) : State :=
  let x := (s.core k).port p
  let done := if bit c.w3 62 || c.orphan then x.done else x.done ++ [⟨c.ctx, c.complWord status aux, false, (s.ctx ⟨k, Fin.ofNat 6 c.ctx⟩).stopped⟩]
  let s := s.setPort k p { cmds := x.cmds.filter (fun d => d.id != c.id), done := done }
  let s := s.count k 0x11 (some c.region) 1
  let s := if bit c.w3 63 then s.postInc k (bits c.w3 61 56) else s
  s.pump k p 4

/-- Cancel the armed commands of a context (R262). -/
def State.cancelArmed (s : State) (c : CtxId) : State :=
  (upto 0 4).foldl (fun s p =>
    (((s.core c.core).port p).cmds.filter (fun d => d.ctx == c.ctx.val && match d.state with
      | .armed _ _ => true
      | _ => false)).foldl (fun s d => s.complete c.core p d 0x06 0) s) s

/-- Discard a context's unread completions, and those still to come (R265). -/
def State.orphan (s : State) (c : CtxId) : State :=
  let x := s.core c.core
  s.setCore c.core { x with ports := x.ports.map (fun e =>
    (e.1, { cmds := e.2.cmds.map (fun d => if d.ctx = c.ctx.val then { d with orphan := true } else d),
            done := e.2.done.filter (fun d => d.ctx != c.ctx.val) })) }

/-! ### Outstanding requests (R69) -/

/-- Entries in use that count against the 64. -/
def Core.oreq (x : Core) : Nat := (x.outs.filter (fun o => o.counted)).length
/-- Entries held by task slots. -/
def Core.oreqSlots (x : Core) : Nat := (x.outs.filter (fun o => o.counted && decide (o.ctx < 4))).length
/-- Whether a context may take an entry: slots together at most 60, the last 4 kept for handlers (R69). -/
def State.mayIssue (s : State) (c : CtxId) (n : Nat) : Bool :=
  let x := s.core c.core
  decide (x.oreq + n ≤ 64) && (c.isHandler || decide (x.oreqSlots + n ≤ 60))
/-- Add an entry of a context. -/
def State.addOut (s : State) (c : CtxId) (id : Nat) (load : Bool) (dest : Dest) (counted : Bool)
    (acq : Bool := false) (pa : Nat := 0) (len : Nat := 0) (region : Option Nat := none) (colour : Option Nat := none) : State :=
  let x := s.core c.core
  s.setCore c.core { x with outs := x.outs ++ [⟨id, c.ctx.val, load, dest, counted, false, acq, pa, len,
                                                region.getD (s.regionOf c), colour.getD (s.colourOf c)⟩] }
/-- Free an entry. -/
def State.freeOut (s : State) (c : CtxId) (id : Nat) : State :=
  let x := s.core c.core
  s.setCore c.core { x with outs := x.outs.filter (fun o => !(o.id == id && o.ctx == c.ctx.val)) }
/-- An entry of a context. -/
def State.findOut (s : State) (c : CtxId) (id : Nat) : Option Outstanding :=
  (s.core c.core).outs.find? (fun o => o.id == id && o.ctx == c.ctx.val)
/-- An entry of the context itself, not of one of its engine commands. -/
def Outstanding.own (o : Outstanding) : Bool :=
  match o.dest with
  | .cmd _ _ _ => false
  | _ => true
/-- Whether a context has any entry. -/
def State.anyOut (s : State) (c : CtxId) : Bool := (s.core c.core).outs.any (fun o => o.ctx == c.ctx.val && o.own)
/-- Whether a context has a load outstanding. -/
def State.anyLoad (s : State) (c : CtxId) : Bool :=
  (s.core c.core).outs.any (fun o => o.ctx == c.ctx.val && o.load && o.own)
/-- Whether a reply goes to the read buffer of a waiting instruction. -/
def Dest.isBuf : Dest → Bool
  | .buf _ => true
  | _ => false
/-- Let the replies that a waiting instruction asked for fall on nothing; older loads still write their registers (R79, R377). -/
def State.discardBufs (s : State) (c : CtxId) : State :=
  let x := s.core c.core
  s.setCore c.core { x with outs := x.outs.map (fun o =>
    if o.ctx = c.ctx.val ∧ o.dest.isBuf then { o with discard := true } else o) }
/-- Let every outstanding reply of a context fall on nothing. -/
def State.discardOuts (s : State) (c : CtxId) : State :=
  let x := s.core c.core
  s.setCore c.core { x with outs := x.outs.map (fun o => if o.ctx = c.ctx.val ∧ o.own then { o with discard := true } else o) }

/-! ### The repeat frame (R52, R55, R56) -/

/-- RPTST of a frame. -/
def Frame.st (f : Frame) : Word :=
  word (2 ^ 63 + f.pos * 2 ^ 59 + (f.words.length - 1) * 2 ^ 55 + f.sd * 2 ^ 53 + f.sa * 2 ^ 51 + f.sb * 2 ^ 49 + f.iter)
/-- RPTWk of a frame. -/
def Frame.wk (f : Frame) (k : Nat) : Word :=
  word ((f.words.getD (2 * k) 0).toNat + 2 ^ 32 * (f.words.getD (2 * k + 1) 0).toNat)

/-- Interrupt a frame: its state goes to RPTST, RPTCNT and RPTW0 to RPTW7 (R55). -/
def Ctx.interruptFrame (x : Ctx) : Ctx :=
  match x.frame with
  | none => x
  | some f =>
    let x := (x.setCw cwRPTST f.st).setCw cwRPTCNT (word f.count)
    let x := (upto 0 8).foldl (fun x k => x.setCw (cwRPTW + k) (f.wk k)) x
    { x with frame := none, heldTrap := none }

/-- Whether a captured word reads a tile from memory (R150, R158). -/
def readsTile (w : IWord) : Bool :=
  match decode w with
  | some i => (match i with
    | .mmaBf16 _ _ | .mmaF32 _ _ | .mmaP _ _ _ | .mmasBf16 _ _ _ | .mmasP _ _ _ _ => true
    | _ => false)
  | none => false

/-- Whether a live frame of a context has tiles still to read. -/
def Ctx.tilesAhead (x : Ctx) : Bool :=
  match x.frame with
  | some f => f.words.any readsTile
  | none => false

/-- A frame after the captured instruction it stands at has executed. -/
def Frame.next (f : Frame) : Option Frame :=
  if f.pos + 1 < f.words.length then some { f with pos := f.pos + 1 }
  else if f.iter + 1 < f.count then some { f with pos := 0, iter := f.iter + 1 }
  else none

/-- Leave an instruction: nothing is waited for, and a SKIP in force is spent (R376). -/
def Ctx.leave (x : Ctx) : Ctx :=
  { x with wait := .none, rbuf := [], rpois := [], skipNow := false, left := true,
           cw := if x.skipNow then tput x.cw cwDBGST (x.cwv cwDBGST &&& 0xBFFFFFFFFFFFFFFF) else x.cw }

/-- The frame moves past the captured instruction it stands at; at its end RPTST.V is zero (R52, R56). The other fields of RPTST,
RPTCNT and RPTW0 to RPTW7 keep what was stored last before the frame (log entry 60). -/
def Ctx.stepFrame (x : Ctx) (f : Frame) : Ctx :=
  match f.next with
  | some f' => { x with frame := some f' }
  | none => { x with frame := none, cw := tput x.cw cwRPTST (x.cwv cwRPTST &&& 0x7FFFFFFFFFFFFFFF) }

/-- Move past an instruction: for a captured one the frame steps, else the pc moves to the next word. -/
def Ctx.advance (x : Ctx) : Ctx :=
  let x := x.leave
  match x.onFrame, x.frame with
  | true, some f => x.stepFrame f
  | _, _ => { x with pc := x.pc + 4 }

/-- Move the current context past its instruction. -/
def State.advance (s : State) : State := s.setMy s.my.advance
/-- Write gd and move on. -/
def State.done (s : State) (gd : Reg) (w : Word) : State := s.setMy (s.my.setG gd w).advance
/-- Send the current context to an address. -/
def State.jump (s : State) (t : Word) : State := s.setMy { s.my.leave with pc := t }

/-! ### Waits that are over -/

/-- The oldest unread completion of a context that it is shown. -/
def State.unread (s : State) (c : CtxId) (p : Nat) : Option Completion :=
  ((s.core c.core).port p).done.find? (fun d => d.ctx == c.ctx.val && !d.hidden)

/-- Whether a context has a command in flight or armed on a port (R263). -/
def State.inFlightOn (s : State) (c : CtxId) (p : Nat) : Bool :=
  ((s.core c.core).port p).cmds.any (fun d => d.ctx == c.ctx.val && !d.orphan)

/-- A wait for a counter or a completion that has what it waited for, or that can never end (R256, R263). -/
def State.waitMet (s : State) (c : CtxId) : Bool :=
  match (s.ctx c).wait with
  | .counter _ _ _ _ met => met
  | .completion p _ _ _ => (s.unread c p.toNat).isSome || !s.inFlightOn c p.toNat
  | _ => false

/-! ### Withdrawing waits (R55, R77, R161, R181, R218, R256, R316) -/

/-- Whether a context waits for a SPAWNAT that has left for another device: that device alone can say whether it is still to be
decided (R181; log entry 30). -/
def State.recalls (s : State) (c : CtxId) : Bool :=
  match (s.ctx c).wait with
  | .spawnat id pa _ _ => paDev pa != s.dev && !(s.core c.core).sendReq.any (fun p => match p with
    | .spawnat _ _ i => i == id
    | _ => false)
  | _ => false
/-- Recall it: the context waits for what became of it. -/
def State.recallSpawn (s : State) (c : CtxId) : State :=
  match (s.ctx c).wait with
  | .spawnat id pa m gd =>
    (s.fabric (.spawnatCancel s.dev (paDev pa) (paCoreId pa) c id m.cat)).setCtx c { s.ctx c with wait := .recalled id pa m gd }
  | _ => s

/-- Withdraw what a context waits for; the instruction counts as not executed. An atomic and a migration under way are not
withdrawn, unless their task ends. -/
def State.withdraw (s : State) (c : CtxId) : State :=
  let x := s.ctx c
  match x.wait with
  | .atomic _ _ _ _ _ => s
  | .migrating => s
  | .told _ _ m =>
    let s := match m with
      | some m => s.liveDown m.region
      | none => s
    s.setCtx c { x with wait := .none }
  | .recalled _ _ m _ => (s.liveDown m.region).setCtx c { x with wait := .none }
  | .tagged id _ _ _ =>
    let s := { s with cores := s.cores.map (fun (e : Nat × Core) =>
      (e.1, { e.2 with tagWaits := e.2.tagWaits.filter (fun t => !(t.issuer == c && t.id == id)) })) }
    let s := s.freeOut c id
    s.setCtx c { s.ctx c with wait := .none }
  | .gang _ =>
    let s := s.setCore c.core { s.core c.core with gangAt := none }
    s.setCtx c { s.ctx c with wait := .none }
  | .spawnat id pa m _ =>
    let k := s.core c.core
    let queued := k.sendReq.any (fun p => match p with
      | .spawnat _ _ i => i == id
      | _ => false)
    let s := if paDev pa ≠ s.dev ∧ queued = false then s.fabric (.spawnatCancel s.dev (paDev pa) (paCoreId pa) c id m.cat) else s
    let s := s.setCore c.core { k with sendReq := k.sendReq.filter (fun p => match p with
      | .spawnat _ _ i => i != id
      | _ => true) }
    let s := { s with agenda := s.agenda.filter (fun a => match a with
      | .ev (.spawnatOutcome _ d i _) => !(d == c && i == id)
      | _ => true) }
    let s := s.liveDown m.region
    s.setCtx c { s.ctx c with wait := .none }
  | .remote => (s.discardBufs c).setCtx c { x with wait := .none, rbuf := [], rpois := [] }
  | _ => s.setCtx c { x with wait := .none, rbuf := [], rpois := [] }

/-! ### Matrix slice ownership (R141) -/

/-- Clear a slice and leave it without an owner. -/
def State.releaseSlice (s : State) (c : CtxId) : State :=
  let k := s.core c.core
  if k.slice.owner = some c.ctx.val then s.setCore c.core { k with slice := { queue := k.slice.queue } } else s

/-! ### Ending tasks and handlers -/

/-- Take a task's cost from its cluster's pressure (R192). -/
def State.unpress (s : State) (cl : ClusterId) (cost : Nat) : State :=
  s.setCluster cl { s.cluster cl with sum := (s.cluster cl).sum - cost }

/-- End the task of a slot: slice and frame are released, armed commands cancelled, completions discarded, pressure and
LIVE counts fall, and the cluster unit looks for the next task (R74, R141, R183, R265). -/
def State.endTask (s : State) (c : CtxId) : State :=
  match (s.ctx c).task with
  | none => s
  | some t =>
    let s := (s.withdraw c).discardOuts c
    let s := s.releaseSlice c
    let s := (s.cancelArmed c).orphan c
    let s := s.unpress c.core.cluster t.msg.cost
    let s := if smem t.msg.cat s.plat.faultHandlers then
        { s with plat := { s.plat with faultHandlers := sdel t.msg.cat s.plat.faultHandlers } }
      else s.liveDown t.msg.region
    let x := s.ctx c
    let s := s.setCtx c { x with task := none, frame := none, wait := .none, rbuf := [], rpois := [], fq := [],
                                 stopReq := false, saveReq := false, late := 0 }
    let s := if (s.cluster c.core.cluster).saving = some c then
        s.setCluster c.core.cluster { s.cluster c.core.cluster with saving := none } else s
    s.post (.dispatch c.core.cluster)

/-- End the handler of a bank as HEND does: its message is gone, the masked window closes, armed commands are
cancelled, completions discarded (R238, R248, R250, R265). -/
def State.endHandler (s : State) (c : CtxId) : State :=
  let s := s.withdraw c
  let s := (s.cancelArmed c).orphan c
  let s := s.discardOuts c
  let s := s.setCtx c { s.ctx c with handled := none, wait := .none, rbuf := [], rpois := [], fq := [], stopReq := false }
  let s := if c.ctx.val = 4 then s.setCore c.core { s.core c.core with winOpen := false, winLeft := 0 } else s
  (s.post (.handlerStart c.core true)).post (.handlerStart c.core false)

/-! ### Taking an exception (R73, R74) -/

/-- A fatal fault: the record, the fault handler, and the end of the task or handler (R74, R187, R238). -/
def State.fatal (s : State) (c : CtxId) (tcause : Nat) (tval tpc : Word) : State :=
  let cl := c.core.cluster
  if c.isHandler then
    match (s.ctx c).handled with
    | none => s
    | some h =>
      let r := (s.core c.core).svc
      let s := s.recordFault r 1 tcause tval.toNat tpc.toNat (wordBytes (actWords h.msg)) cl (word h.msg.cat)
      let s := s.annFault c.core.die r h.msg.cat tcause tval.toNat tpc.toNat
      s.endHandler c
  else
    match (s.ctx c).task with
    | none => s
    | some t =>
      let s := s.taskRecord (TaskMsg.asSpawned t.msg) 1 tcause tval.toNat tpc.toNat cl
      let s := s.annFault c.core.die t.msg.region t.msg.cat tcause tval.toNat tpc.toNat
      s.endTask c

/-- Take trap `code` (a fault code, or 0x20 + n) in a context (R73). -/
def State.takeTrap (s : State) (c : CtxId) (code : Nat) (val tpc : Word) : State :=
  let s := if code < 0x20 then { s with faulted := true } else s
  let x := s.ctx c
  let hc := if c.isHandler then 256 else 0
  if code < 0x20 ∧ x.tb then s.fatal c (code + hc + 512) val tpc
  else if code < 0x20 ∧ bit (x.cwv cwTMASK) code = false then s.fatal c (code + hc) val tpc
  else if x.cwv cwTVEC = 0 then s.fatal c (code + hc) val tpc
  else
    let x := ((x.setCw cwTCAUSE (word (code + hc))).setCw cwTVAL val).setCw cwTPC tpc
    let x := x.setCw cwSTATUS (statusOf true (x.sv || c.isHandler) true)
    s.setCtx c { x.leave with pc := x.cwv cwTVEC }

/-- Return from a trap (R94): mode and trap-busy bit restored, the pc from TPC. A handler context stays in supervisor
mode (R60). -/
def Ctx.trapReturn (x : Ctx) (handler : Bool) : Ctx :=
  let x := x.leave
  { x.setCw cwSTATUS (statusOf (x.pm || handler) x.pm false) with
    pc := x.cwv cwTPC, skipNow := bit (x.cwv cwDBGST) 62 }

/-- Hold the trap of an instruction beside a live frame until the frame ends (R54). -/
def State.holdTrap (s : State) (code : Nat) (val : Word) : State :=
  { s with faulted := true }.setMy { s.my with heldTrap := some (code, val), wait := .none, rbuf := [], rpois := [] }

/-- A fault of the current context's instruction. Beside a live frame it is held (R54); a frame whose captured instruction
faults is interrupted; then the trap is taken with TPC at the instruction, or at the first instruction after the frame
(R55, R73). -/
def State.raise (s : State) (code : Nat) (val : Word) : State :=
  if s.my.frame.isSome && !s.my.onFrame then s.holdTrap code val
  else
    let s := s.setMy s.my.interruptFrame
    s.takeTrap s.cur code val s.my.pc

/-- Take the trap held beside a frame of the current context that has ended (R54). -/
def State.heldTrapNow (s : State) : State :=
  match s.my.frame, s.my.heldTrap with
  | none, some (code, val) => (s.setMy { s.my with heldTrap := none }).takeTrap s.cur code val s.my.pc
  | _, _ => s

/-- A state seen from another context. -/
def State.as (s : State) (c : CtxId) (f : State → State) : State := { f { s with cur := c } with cur := s.cur }

/-! ### The tests of a counter (R174, R254, R256, R339) -/

/-- The address of a counter in the local range. -/
def ctrVa (n : BitVec 6) : Word := word (0x80000 + 4 * n.toNat)

/-- The test of a context's wait holds: the wait is met, or, on a poisoned counter, ends in fault 0x0F (R339). -/
def State.wakeCtx (s : State) (c : CtxId) (n : BitVec 6) : State :=
  if bit ((s.core c.core).cwv cwMPOIS) n.toNat then
    s.as c (fun s => (s.setMy { s.my with wait := .none }).raise 0x0F (ctrVa n))
  else s.setCtx c (s.ctx c).wake

/-- Test the waits on a counter with the value it holds at the end of a cycle: contexts, armed engine commands, and the
cluster unit's armed entries, which are released before anything issues in the next cycle. -/
def State.testCounter (s : State) (k : CoreId) (n : BitVec 6) : State :=
  let v := s.ctr k n.toNat
  let s := ((coreCtxs k).filter (fun c => (s.ctx c).wakes n v)).foldl (fun s c => s.wakeCtx c n) s
  let s := s.posts (((s.core k).armedHits n v).map
    (fun e => Event.triggeredCommandStart k (BitVec.ofNat 2 e.1) e.2))
  let pa := s.corePa k (0x80000 + 4 * n.toNat)
  let cats := (s.cluster k.cluster).queue.filterMap (fun (e : QEntry) =>
    if e.msg.typ = 1 ∧ e.msg.trig = pa ∧ ctrTest v (BitVec.ofNat 32 e.msg.target) then some e.msg.cat else none)
  (sortUp cats).foldl (fun s cat => s.after 1 (.armedRelease k.cluster cat)) s

/-! ### What meanings begin with (R76) -/

/-- TVAL of faults 0x01 and 0x02: the instruction word (R75). -/
def insnWord (i : Instr) : Word := (encode i).setWidth 64

/-- Fault 0x01 of an instruction. -/
def State.illegal (s : State) (i : Instr) : State := s.raise 0x01 (insnWord i)

/-- The lowest of some register numbers. -/
def lowest : List Reg → Option Nat
  | [] => none
  | r :: t =>
    match lowest t with
    | none => some r.toNat
    | some m => some (min r.toNat m)

/-- TVAL of fault 0x0D for the sources of an instruction: the lowest poisoned g register, else 0x100 + the lowest
poisoned v register (R78). -/
def Ctx.poisoned (x : Ctx) (gs vs : List Reg) : Option Nat :=
  match lowest (gs.filter (fun r => x.gpois.getLsbD r.toNat)) with
  | some n => some n
  | none =>
    match lowest (vs.filter (fun r => x.vpois.getLsbD r.toNat)) with
    | some n => some (0x100 + n)
    | none => none

/-- Check the sources for poison, then go on (R76 step 4). -/
def State.guardP (s : State) (gs vs : List Reg) (k : State) : State :=
  match s.my.poisoned gs vs with
  | some n => s.raise 0x0D (word n)
  | none => k

/-- An instruction that no handler context may execute (R60). -/
def State.slotOnly (s : State) (i : Instr) (k : State) : State := if s.cur.isHandler then s.illegal i else k

/-- An instruction marked S (R31, R34, R40). -/
def State.supOnly (s : State) (i : Instr) (k : State) : State :=
  if s.sup s.cur then k else s.raise 0x02 (insnWord i)

end Sys2Proof.Machine
end

