-- ==== Sys2Proof/Machine/CwOps.lean ====
section
/-! DEFINITION. Reading and writing control words: the words the hardware computes, the effects of a write, the mode check
of R63 and R25. -/

namespace Sys2Proof.Machine

/-- The published pressure of a cluster (R192). -/
def Cluster.pressure (x : Cluster) : Nat := if x.closed || x.failed then 0xFFFF else min x.sum 0xFFFE
/-- The 19 bits of PSTAT (R204). -/
def Cluster.pstat (x : Cluster) : Nat :=
  x.pressure + x.closed.toNat * 2 ^ 16 + x.failed.toNat * 2 ^ 17 + x.rreq.toNat * 2 ^ 18
/-- QSTAT (R177). -/
def Cluster.qstat (x : Cluster) : Nat :=
  x.queue.length + 2 ^ 16 * (x.queue.filter (fun e => e.msg.typ == 1)).length
    + 2 ^ 32 * (x.rings.foldl (fun n e => n + e.2.held) 0)

/-- Matrix kind of a cluster: true for a plane cluster (R14). -/
def planeCluster (c : ClusterId) : Bool := (c.cl.val / 16 + c.cl.val % 16) % 2 == 1

/-- MSTATE bits [29:1] of a slice (R144). -/
def Slice.mstate (x : Slice) (plane : Bool) : Nat :=
  plane.toNat * 2 + x.wa.fmt * 2 ^ 4 + (if x.wa.fmt = 3 then x.wa.planes - 1 else 0) * 2 ^ 8 + x.wb.fmt * 2 ^ 12
    + (if x.wb.fmt = 3 then x.wb.planes - 1 else 0) * 2 ^ 16 + x.mpois.toNat * 2 ^ 24 + x.wa.pois.toNat * 2 ^ 28
    + x.wb.pois.toNat * 2 ^ 29

/-- LMSTAT (R213). -/
def Core.lmstat (x : Core) : Nat :=
  ((upto 0 8).foldl (fun n k => n + (bit (x.swl k) 63).toNat * 2 ^ k) 0)
    + ((upto 0 4).foldl (fun n e => n + (x.armed e).isSome.toNat * 2 ^ (8 + e)) 0)
    + 2 ^ 32 * x.tagWaits.length

/-- ESTAT of a context (R273). -/
def Core.estat (x : Core) (c : Nat) : Nat :=
  (upto 0 4).foldl (fun n p =>
    let cs := (x.port p).cmds.filter (fun d => d.ctx == c && !d.orphan)
    let armed := (cs.filter (fun d => match d.state with
      | .armed _ _ => true
      | _ => false)).length
    let unread := ((x.port p).done.filter (fun d => d.ctx == c && !d.hidden)).length
    n + 2 ^ (16 * p) * (cs.length + 2 ^ 4 * unread + 2 ^ 8 * armed)) 0

/-- The started BMVs at the carrel of a cluster: core number, port command number (R302). -/
def State.bmvs (s : State) (cl : ClusterId) : List (Nat × Nat) :=
  s.cores.flatMap (fun e => ((e.2.port 2).cmds.filterMap (fun c => match c.kind, c.state with
    | .bmv pa _ _ _ _ _, .started => if s.homeOf pa = some cl then some (e.1, c.id) else none
    | _, _ => none)))

/-- The oldest of a core's started BMVs, for each core that has one: the list gives them in the order they were started. -/
def oldestOf : List (Nat × Nat) → List (Nat × Nat)
  | [] => []
  | e :: t => e :: (oldestOf t).filter (fun f => f.1 != e.1)

/-- The BMVs a carrel can serve: each core's oldest, where it is not parked (R302). -/
def State.bmvsDue (s : State) (cl : ClusterId) : List (Nat × Nat) :=
  (oldestOf (s.bmvs cl)).filter (fun e =>
    match ((s.core (CoreId.ofKey e.1)).port 2).cmds.find? (fun c => c.id == e.2 && c.state == .started) with
    | some c => c.interval == 0 || decide (c.due ≤ s.time)
    | none => false)

/-- CARST (R305): BUSY while the carrel has a row tile to compute. -/
def State.carst (s : State) (cl : ClusterId) : Nat :=
  let b := s.bmvs cl
  b.length + (if s.bmvsDue cl = [] then 0 else 2 ^ 16) + 2 ^ 32 * (b.map (fun e => e.1)).eraseDups.length

/-- PARKST from the wait in force (R322). -/
def Wait.parkst (w : Wait) : Nat :=
  match w with
  | .parked _ _ _ i f _ _ => 2 ^ 63 + min f 255 * 2 ^ 48 + i
  | _ => 0

/-- NSTAT (R242). -/
def State.nstat (s : State) (k : CoreId) : Nat :=
  let x := s.core k
  let h0 := (s.ctx ⟨k, 4⟩).handled.isSome
  let h1 := (s.ctx ⟨k, 5⟩).handled.isSome
  x.inbox.length + h0.toNat + h1.toNat + 2 ^ 8 * x.sendReq.length + 2 ^ 16 * x.sendReply.length
    + 2 ^ 32 * x.spillSlots.length + 2 ^ 40 * h0.toNat + 2 ^ 41 * h1.toNat + 2 ^ 42 * x.winOpen.toNat

/-- TACCT (R177). -/
def Ctx.tacct (x : Ctx) : Nat :=
  match x.task with
  | none => 0
  | some t => t.msg.hopt + 2 ^ 8 * (t.defer % 256)
      + 2 ^ 16 * ((bits (x.cwv cwTENQ) 13 6 + 256 - t.msg.sstamp) % 256 * 64)

/-- The words of 0x000 to 0x05F as read, in a context they belong to. -/
def State.cwValueA (s : State) (c : CtxId) (i : Nat) : Word :=
  let x := s.ctx c
  if i = 0x000 then
    x.cwv cwSTATUS ||| (if c.isHandler then word (2 ^ 10 + (c.ctx.val - 4) * 2 ^ 11) else word (c.ctx.val * 2 ^ 8))
  else if i = 0x007 then x.gpois.setWidth 64 &&& 0xFFFFFFFE
  else if i = 0x008 then word (s.core c.core).oreq
  else if 0x020 ≤ i ∧ i ≤ 0x02F then match x.frame with
    | some f => if i = 0x020 then f.st else if i = 0x021 then word f.count else f.wk (i - 0x028)
    | none => x.cwv i
  else if i = 0x046 then
    let sl := (s.core c.core).slice
    let own := sl.owner == some c.ctx.val
    let m := sl.mstate (planeCluster c.core.cluster)
    word (if own then 2 ^ 32 * sl.queue.length + m + 1 else m % 4)
  else x.cwv i

/-- The words of 0x060 to 0x0FF as read. -/
def State.cwValueB (s : State) (c : CtxId) (i : Nat) : Word :=
  let x := s.ctx c
  let k := s.core c.core
  let cl := s.cluster c.core.cluster
  if i = 0x069 then word x.tacct
  else if i = 0x070 then word cl.qstat
  else if i = 0x082 then s.plat.edge
  else if i = 0x084 then word cl.pstat
  else if i = 0x0A2 then word k.lmstat
  else if i = 0x0C3 then word (s.nstat c.core)
  else if i = 0x0C6 then (s.die c.core.die).rtcfgDue.getD (s.die c.core.die).rtcfgNext
  else if i = 0x0C7 then
    if c.ctx.val = 4 then word (k.winOpen.toNat * 512 + k.winLeft) else 0
  else if i = 0x0E4 then word (k.estat c.ctx.val)
  else match cwInfo i with
    | some m => match m.scope with
      | .core => k.cwv i
      | .cluster => cl.cwv i
      | _ => x.cwv i
    | none => 0

/-- The words of 0x100 to 0x1BF as read. -/
def State.cwValueC (s : State) (c : CtxId) (i : Nat) : Word :=
  let x := s.ctx c
  let k := s.core c.core
  let cl := s.cluster c.core.cluster
  if i = 0x111 then word (s.carst c.core.cluster)
  else if i = 0x112 then (s.die c.core.die).vmap
  else if i = 0x121 then word x.wait.parkst
  else if i = 0x162 then word (s.die c.core.die).dir.length
  else if i = 0x1A0 then word s.time
  else if 0x1A8 ≤ i ∧ i ≤ 0x1AF then tget 0 s.plat.bpc (i - 0x1A8)
  else if 0x1B0 ≤ i ∧ i ≤ 0x1B7 then tget 0 s.plat.bpa (i - 0x1B0)
  else match cwInfo i with
    | some m => match m.scope with
      | .core => k.cwv i
      | .cluster => cl.cwv i
      | _ => x.cwv i
    | none => 0

/-- A slot word in a handler bank and a bank word in a slot read zero and ignore writes (R63). -/
def CwInfo.here (m : CwInfo) (c : CtxId) : Bool :=
  match m.scope with
  | .slot => !c.isHandler
  | .bank => c.isHandler
  | _ => true

/-- An assigned word as a read that the mode allows returns it. -/
def State.cwRead (s : State) (c : CtxId) (i : Nat) : Word :=
  match cwInfo i with
  | none => 0
  | some m =>
    if m.here c && m.sr then
      if i < 0x060 then s.cwValueA c i else if i < 0x100 then s.cwValueB c i else s.cwValueC c i
    else 0

/-- The stored word after a write of v (R6). -/
def CwInfo.after (m : CwInfo) (old v : Word) : Word :=
  (old &&& ~~~(word m.rw) ||| v &&& word m.rw) &&& ~~~(v &&& word m.w1c)

/-- A write in the last cycle of a field tick takes effect at the tick after (R195). -/
def State.tickCycle (s : State) : Bool := s.time % 64 == 63

/-- Effects of a write to a cluster word (R195, R204, R205, R231). -/
def State.cwClusterWrite (s : State) (c : CtxId) (m : CwInfo) (i : Nat) (v : Word) : State :=
  let cl := c.core.cluster
  let x := s.cluster cl
  if i = cwRTCFG then
    let d := s.die cl.die
    s.setDie cl.die (if s.tickCycle then { d with rtcfgDue := some (v &&& 0xFFFF) } else { d with rtcfgNext := v &&& 0xFFFF })
  else
    let old := x.cwv i
    let new := m.after old v
    let x := x.setCw i new
    if i = cwLOW then
      s.setCluster cl { x with lowUsed := if s.tickCycle && x.lowUsed == none then some (bits old 15 0) else x.lowUsed }
    else if i = cwSTAY then
      s.setCluster cl { x with stayOld := match x.stayOld with
        | some (t, w) => if t = s.time then some (t, w) else some (s.time, bits old 15 0)
        | none => some (s.time, bits old 15 0) }
    else if i = cwPDMASK then
      let s := s.setCluster cl
        { x with maskUsed := if s.tickCycle && x.maskUsed == none then some (bits old 7 0) else x.maskUsed,
                 maskNow := if x.maskNow == none then some (bits old 7 0) else x.maskNow }
      let d := s.die cl.die
      let ch := (old ^^^ new).setWidth 8
      s.setDie cl.die (if s.tickCycle then { d with clearNext := d.clearNext ||| ch } else { d with clear := d.clear ||| ch })
    else if i = cwADAPT then
      s.setCluster cl (if bit new 63 then { x with adaptTicks := 0, adaptN := 0, adaptSum := 0, adaptLate := s.tickCycle }
        else x)
    else s.setCluster cl x

/-- A write that the mode allows, in context c (R6, R62 to R65). -/
def State.cwWrite (s : State) (c : CtxId) (i : Nat) (v : Word) : State :=
  match cwInfo i with
  | none => s
  | some m =>
    if m.here c && m.sw then
      let x := s.ctx c
      match m.scope with
      | .cluster => s.cwClusterWrite c m i v
      | .core =>
        let k := s.core c.core
        let s := s.setCore c.core (k.setCw i (m.after (k.cwv i) v))
        if i = cwCLMASK then s.post (.handlerStart c.core false) else s
      | _ =>
        if i = 0x006 then if x.tb then s.post (.tfatal c) else s
        else if i = 0x007 then s.setCtx c { x with gpois := x.gpois &&& ~~~(v.setWidth 32 &&& 0xFFFFFFFE) }
        else s.setCtx c (x.setCw i (m.after (x.cwv i) v))
    else s

/-- Whether the running task's region gives it expert access (R25), as taken at dispatch (R24). -/
def State.expert (s : State) (c : CtxId) : Bool :=
  match (s.ctx c).task with
  | some t => t.expert
  | none => false

/-- ANNL.PCMASK bit of the context's region for PCSELn and PCCNTn (R371), as taken at dispatch (R24). -/
def State.pcmask (s : State) (c : CtxId) (i : Nat) : Bool := (s.basicOf c).pcmask.testBit (i % 16)

/-- Whether an access faults with 0x02: not allowed in task mode although supervisor mode has that kind (R25, R63). -/
def State.cwDenied (s : State) (c : CtxId) (m : CwInfo) (i : Nat) (write : Bool) : Bool :=
  if s.sup c then false
  else if write then
    match m.tw with
    | .yes => false
    | .no => m.sw || (!m.tr && m.sr)
    | .expert => !s.expert c
    | .pcmask => !s.pcmask c i
  else !m.tr && m.sr

end Sys2Proof.Machine
end

