-- ==== Sys2Proof/Machine/Xlat.lean ====
section
/-! DEFINITION. Address forms and areas (R18 to R20, R70), table walks (R307 to R310), TLBs (R311), permissions (R312),
parked accesses and the pager's message (R313 to R315). -/

namespace Sys2Proof.Machine

/-! ### Address forms -/

/-- The areas of a local offset (R19). -/
inductive Area | mem | tags | ctrs | eng | ctl | none
  deriving DecidableEq, Repr

/-- The area of a local offset (R19). -/
def areaOf (o : Nat) : Area :=
  if o < 0x40000 then .mem
  else if o < 0x41000 then .tags
  else if 0x80000 ≤ o ∧ o < 0x80100 then .ctrs
  else if 0xC0000 ≤ o ∧ o < 0xC1000 then .eng
  else if 0x100000 ≤ o ∧ o < 0x110000 then .ctl
  else .none

/-- The kinds of virtual address (R70). -/
inductive Place
  | loc (off : Nat)
  | win (pa : Nat)
  | xl
  | bad
  deriving DecidableEq, Repr

/-- DLIM (R17, R204). -/
def State.dlim (s : State) : Nat := bits s.plat.edge 42 32

/-- An on-die address within the limits of R18. -/
def State.onDieOk (s : State) (pa : Nat) : Bool :=
  paOnDie pa && decide (paDev pa < s.dlim) && decide (paCl pa < 192) && areaOf (paOff pa) != .none
/-- A DRAM address within the limits of R18 and, on this device, of R290. -/
def State.dramOk (s : State) (pa : Nat) : Bool :=
  !paOnDie pa && decide (paDev pa < s.dlim) && bitsN pa 41 36 == 0 && (paDev pa != s.dev || s.backed pa)

/-- The kind of a virtual address, `bad` where its form alone raises fault 0x05 (R18 to R20, R70). -/
def State.place (s : State) (va : Word) : Place :=
  let v := va.toNat
  if v < 0x200000 then (if areaOf v = .none then .bad else .loc v)
  else if v < 2 ^ 57 then .xl
  else if v / 2 ^ 56 = 0xFF then (if s.onDieOk (v % 2 ^ 56) then .win (v % 2 ^ 56) else .bad)
  else .bad

/-- The colour rule of R209 at a core. -/
def State.colourOk (s : State) (k : CoreId) (colour : Nat) : Bool :=
  colour == 0 || colour == bits ((s.core k).cwv cwLMCOL) 5 0

/-- Where the answer about the colour of a core of another device is kept (R209; log entry 13). -/
def colourKey (pa : Nat) : Nat := 2 ^ 60 + pa / 2 ^ 30
/-- What a context or command knows of that answer: none before it came; when none came in time the access is let go on. -/
def colourHeard (rbuf : Table Byte) (rpois : List Nat) (pa : Nat) : Option Bool :=
  if smem (colourKey pa) rpois then some true
  else (rbuf.find? (fun e => e.1 == colourKey pa)).map (fun e => e.2 != 0)
/-- A window address that passes R209, as far as it is known: a core of another device answers for itself. -/
def State.windowOk (s : State) (c : CtxId) (pa : Nat) : Bool :=
  if paDev pa = s.dev then s.colourOk (paCoreId pa) (s.colourOf c)
  else s.colourOf c == 0 || colourHeard (s.ctx c).rbuf (s.ctx c).rpois pa != some false
/-- Whether the current context knows if a window address passes R209. -/
def State.colourKnown (s : State) (pa : Nat) : Bool :=
  paDev pa == s.dev || s.colourOf s.cur == 0 || (colourHeard s.my.rbuf s.my.rpois pa).isSome
/-- The first of some window addresses of which it does not. -/
def State.unasked (s : State) (pas : List Nat) : Option Nat := pas.find? (fun pa => !s.colourKnown pa)

/-! ### Walks -/

/-- What a translation gives. -/
inductive Tr
  | ok (pa : Nat) (e : TlbEntry)
  | absent
  | fault (code : Nat)
  deriving DecidableEq, Repr

/-- Bits of the page offset for page size 0 to 3 (R309). -/
def pageShift (size : Nat) : Nat :=
  match size with
  | 0 => 12 | 1 => 16 | 2 => 21 | _ => 30

/-- Table index at a level (R307). -/
def walkIndex (va level : Nat) : Nat :=
  match level with
  | 1 => bitsN va 20 12 | 2 => bitsN va 29 21 | 3 => bitsN va 38 30 | _ => bitsN va 56 39

/-- An entry that R310 faults with 0x05 for its bits (R309). -/
def entryBad (level : Nat) (d0 d1 : Word) : Bool :=
  let leaf := bit d0 6
  bits d0 11 8 != 0 || bits d0 63 56 != 0 || (level == 4 && leaf) || (level == 1 && !leaf) || (level != 1 && bit d0 7)
    || (leaf && bits d1 63 25 != 0) || (!leaf && (bits d0 5 1 != 0 || d1 != 0))
    || (level == 1 && bit d0 7 && bits d0 15 12 != 0) || (level == 2 && leaf && bits d0 20 12 != 0)
    || (level == 3 && leaf && bits d0 29 12 != 0)

/-- Page size of a leaf at a level. -/
def leafSize (level : Nat) (d0 : Word) : Nat := if level = 1 then (if bit d0 7 then 1 else 0) else level

/-- DRAM of the walking device (R310). -/
def State.walkOk (s : State) (pa : Nat) : Bool := paDev pa == s.dev && s.dramOk pa

/-- Read entries from a table at a level down to a leaf (R310). -/
def walkN (s : State) (k : CoreId) (region va : Nat) : Nat → Nat → State × Tr
  | 0, _ => (s, .fault 0x05)
  | l + 1, base =>
    let a := base + 16 * walkIndex va (l + 1)
    if s.walkOk base ∧ s.walkOk a then
      let s := s.homeRead a 16 region (some k)
      if s.readBad (paLoc a) 16 then (s, .fault 0x0D)
      else
        let d0 := s.dword (paLoc a)
        let d1 := s.dword (paLoc a + 8)
        if bit d0 0 = false then (s, .absent)
        else if entryBad (l + 1) d0 d1 then (s, .fault 0x05)
        else
          let pa := bits d0 55 12 * 4096
          if bit d0 6 then
            let size := leafSize (l + 1) d0
            if paOnDie pa ∨ s.dlim ≤ paDev pa ∨ bitsN pa 41 36 ≠ 0 then (s, .fault 0x05)
            else
              let e : TlbEntry := ⟨region, va / 2 ^ pageShift size, size, pa, d0, d1⟩
              (s, .ok (pa + va % 2 ^ pageShift size) e)
          else walkN s k region va l pa
    else (s, .fault 0x05)

/-- A walk from ROOT (R308, R310). -/
def State.walk (s : State) (k : CoreId) (region va : Nat) : State × Tr :=
  walkN s k region va 4 (bits (s.regEff region 21) 55 22 * 2 ^ 22)

/-! ### TLBs (R311) -/

/-- An entry that translates an address of a region. -/
def TlbEntry.hits (e : TlbEntry) (region va : Nat) : Bool :=
  e.region == region && e.vpn == va / 2 ^ pageShift e.size
/-- The physical address an entry gives. -/
def TlbEntry.paOf (e : TlbEntry) (va : Nat) : Nat := e.pa + va % 2 ^ pageShift e.size
/-- Put an entry first, replacing the least recently used. -/
def tlbPut (cap : Nat) (l : List TlbEntry) (e : TlbEntry) : List TlbEntry := (e :: l.filter (fun x => x != e)).take cap

/-- Put an entry in a first-level TLB of a core. -/
def State.fillL1 (s : State) (k : CoreId) (exec : Bool) (e : TlbEntry) : State :=
  let x := s.core k
  s.setCore k (if exec then { x with itlb := tlbPut 64 x.itlb e } else { x with dtlb := tlbPut 256 x.dtlb e })
/-- Put an entry in a cluster TLB. -/
def State.fillL2 (s : State) (cl : ClusterId) (e : TlbEntry) : State :=
  let x := s.cluster cl
  s.setCluster cl (if e.size = 3 then { x with tlbBig := tlbPut 512 x.tlbBig e } else { x with tlb := tlbPut 2048 x.tlb e })

/-- A walk from ROOT whose result goes into the TLBs (R311, R313). -/
def State.rewalk (s : State) (k : CoreId) (region va : Nat) (exec : Bool) : State × Tr :=
  match s.walk k region va with
  | (s, .ok pa e) => ((s.fillL2 k.cluster e).fillL1 k exec e, .ok pa e)
  | r => r

/-- Translate an address of a region for a core: first-level TLB, cluster TLB, walk (R311). -/
def State.translate (s : State) (k : CoreId) (region va : Nat) (exec : Bool) : State × Tr :=
  let x := s.core k
  match (if exec then x.itlb else x.dtlb).find? (fun e => e.hits region va) with
  | some e => (s.fillL1 k exec e, .ok (e.paOf va) e)
  | none =>
    let s := s.count k (if exec then 0x0A else 0x09) (some region) 1
    let cl := s.cluster k.cluster
    match (cl.tlb ++ cl.tlbBig).find? (fun e => e.hits region va) with
    | some e => ((s.fillL2 k.cluster e).fillL1 k exec e, .ok (e.paOf va) e)
    | none =>
      let s := s.count k 0x0B (some region) 1
      s.rewalk k region va exec

/-- The permissions of a leaf for an access in a mode (R312). -/
def TlbEntry.allows (e : TlbEntry) (rd wr ex sup : Bool) : Bool :=
  (!rd || bit e.flags 1) && (!wr || bit e.flags 2) && (!ex || bit e.flags 3) && (sup || !bit e.flags 4)
/-- MIG. -/
def TlbEntry.mig (e : TlbEntry) : Bool := bit e.flags 5

/-! ### Parked accesses -/

/-- Destination word of R244: the on-die address of the core. -/
def destPa (d : Word) : Nat := bits d 55 30 * 2 ^ 30
/-- A destination word that names a core by R18 (R244). -/
def State.destOk (s : State) (d : Word) : Bool := s.onDieOk (destPa d)

/-- Hand an active message to the cores it visits, in their order: on this device a copy to each, else one packet with the set of
its destinations, which lie in one cluster (R232, R234, R327). -/
def State.deliverAll (s : State) (pas : List Nat) (m : ActMsg) : State :=
  match pas with
  | [] => s
  | pa :: _ =>
    if paDev pa = s.dev then pas.foldl (fun s p => s.post (.messageArrival (paCoreId p) m)) s
    else s.fabric (.message s.dev (paDev pa) (pas.map paCoreId) m)
/-- Hand an active message to one core. -/
def State.deliver (s : State) (pa : Nat) (m : ActMsg) : State := s.deliverAll [pa] m

/-- The message to the region's pager (R314). -/
def State.pager (s : State) (k : CoreId) (region va kind cat : Nat) (engine : Bool) : State :=
  let n := bits (s.regEff region 21) 63 61
  let d := (s.cluster k.cluster).cwv (cwPGD + n)
  let e := (s.cluster k.cluster).cwv (cwPGE + n)
  if e = 0 ∨ s.destOk d = false ∨ bits d 13 3 ≠ 0 ∨ bits d 29 14 ≠ 0 then s
  else s.deliver (destPa d) <| s.routedMsg k.die
    { typ := 8, rcls := bits d 2 0, colour := 0, region := region, tag := 0, cat := cat, entry := e,
      payload := [word va, word (kind + 4 * engine.toNat), word cat, word (s.corePa k 0), 0, 0], raddr := 0, cv := false,
      cnt := 0, status := 0 }

/-- PARKMAX.CYC of a cluster; values below 256 act as 256 (R322). -/
def State.parkMax (s : State) (cl : ClusterId) : Nat := max 256 (bits ((s.cluster cl).cwv cwPARKMAX) 31 0)

/-- Hold a context at a parked access until its next retry; the lines that came for its instruction are asked for again (R156). -/
def State.parkFor (s : State) (c : CtxId) (va : Word) (kind interval failed : Nat) (tval : Word) (region : Nat) : State :=
  let s := s.fresh
  let s := s.setCtx c { s.ctx c with wait := .parked s.nextId va kind interval failed tval region, rbuf := [], rpois := [] }
  s.after interval (.parkRetry c s.nextId)

/-- An access of the current context meets a not-present page of a region: it parks, or this was a failed retry, of which the one
at the limit raises fault 0x04 with TVAL `tval` (R313 to R315). -/
def State.parkAs (s : State) (va tval : Word) (kind region : Nat) : State :=
  let c := s.cur
  let pm := s.parkMax c.core.cluster
  match s.my.wait with
  | .parked _ va' kind' int failed _ _ =>
    if va' = va ∧ kind' = kind then
      let s := if pm ≤ int then s.pager c.core region va.toNat kind (s.catOf c) false else s
      if (s.basicOf c).plim ≠ 0 ∧ (s.basicOf c).plim ≤ failed + 1 then s.raise 0x04 tval
      else s.parkFor c va kind (min (2 * int) pm) (failed + 1) tval region
    else ((s.count c.core 0x0C (some region) 1).pager c.core region va.toNat kind (s.catOf c) false).parkFor c va kind 256 0 tval
      region
  | _ => ((s.count c.core 0x0C (some region) 1).pager c.core region va.toNat kind (s.catOf c) false).parkFor c va kind 256 0 tval
      region

/-- An access of the current context meets a not-present page of its region at the address that it names. -/
def State.park (s : State) (va : Word) (kind : Nat) : State := s.parkAs va va kind (s.regionOf s.cur)

/-- The instruction does not issue this cycle: nothing is waited for, but a refused migration stays refused (R69). -/
def State.stall (s : State) : State :=
  match s.my.wait with
  | .stayed => s
  | _ => s.setMy { s.my with wait := .none }

/-- Stall for want of n request entries: the context is ready again when it may take them (R67, R69). -/
def State.stallOreq (s : State) (n : Nat) : State :=
  match s.my.wait with
  | .stayed => s
  | _ => s.setMy { s.my with wait := .oreq n }

/-- Stall at a Manifest wait of R348. -/
def State.stallManifest (s : State) : State :=
  match s.my.wait with
  | .stayed => s
  | _ => s.setMy { s.my with wait := .stalled }

/-- FTIME.CYC of a cluster (R342). -/
def State.ftime (s : State) (cl : ClusterId) : Nat := bits ((s.cluster cl).cwv cwFTIME) 31 0

/-! ### Lines of another device that an operand needs -/

/-- Bytes of another device that have arrived for the current context. -/
def State.farHave (s : State) (pa n : Nat) : Bool := (upto pa n).all (fun a => (s.my.rbuf.find? (fun e => e.1 == a)).isSome)
/-- Their bytes. -/
def State.farBytes (s : State) (pa n : Nat) : List Byte := (upto pa n).map (fun a => tget 0 s.my.rbuf a)
/-- Whether any of them is poisoned. -/
def State.farBad (s : State) (pa n : Nat) : Bool := (upto pa n).any (fun a => smem a s.my.rpois)
/-- Ask another device by a request of some kind, and wait for the bytes that answer it, kept from a key on (R327, R329). -/
def State.farAskTo (s : State) (key pa n : Nat) (kind : ReqKind) (counted : Bool) : State :=
  let c := s.cur
  let s := s.fresh
  let s := s.addOut c s.nextId true (.buf key) counted false pa n
  let s := s.fabric (.request s.dev (paDev pa) ⟨c, s.nextId, pa, kind, s.colourOf c, s.regionOf c, s.catOf c⟩)
  let s := s.after (s.ftime c.core.cluster) (.replyTimeout c s.nextId)
  s.setMy { s.my with wait := .remote }
/-- Ask another device for bytes by a request of some kind and wait for them. -/
def State.farAskAs (s : State) (pa n : Nat) (kind : ReqKind) (counted : Bool) : State := s.farAskTo pa pa n kind counted
/-- Ask a core of another device whether an access of the current context passes R209 there (log entry 13). -/
def State.askColour (s : State) (pa : Nat) : State := s.farAskTo (colourKey pa) pa 1 .colour false
/-- Ask another device for bytes and wait for them (R327, R329). -/
def State.farAsk (s : State) (pa n : Nat) (counted : Bool) : State := s.farAskAs pa n (.read n) counted

/-! ### Fetch (R71) -/

/-- What a fetch gives; `wait` means the state already holds what the context waits for. -/
inductive Fetch
  | word (w : IWord) (pois : Bool)
  | fault (code : Nat)
  | wait
  deriving DecidableEq, Repr

/-- Instruction words of n bytes at a memory key, with their poison. -/
def State.codeAt (s : State) (loc : Nat) : Nat → List (IWord × Bool)
  | 0 => []
  | n + 1 => (BitVec.ofNat 32 (s.readLE loc 4), s.readBad loc 4) :: s.codeAt (loc + 4) n

/-- Words with rising addresses. -/
def fetchedFrom (va : Word) : List (IWord × Bool) → List Fetched
  | [] => []
  | (w, p) :: t => ⟨va, w, p⟩ :: fetchedFrom (va + 4) t

/-- Instruction words of a byte list. -/
def codeOf : Nat → List Byte → Bool → List (IWord × Bool)
  | 0, _, _ => []
  | n + 1, bs, p => (BitVec.ofNat 32 (leNat (bs.take 4)), p) :: codeOf n (bs.drop 4) p

/-- Fill the current context's fetch queue from `va` on and give the word there. -/
def State.queueCode (s : State) (va : Word) (ws : List (IWord × Bool)) : State × Fetch :=
  match ws with
  | [] => (s, .fault 0x05)
  | (w, p) :: _ => (s.setMy { s.my with fq := fetchedFrom va (ws.take 8) }, .word w p)

/-- Put a line in the line buffer of the current core. -/
def State.putFetchLine (s : State) (l : FetchLine) : State :=
  s.setMyCore { s.myCore with lineBuf := (l :: s.myCore.lineBuf.filter (fun x => x.pa != l.pa)).take 32 }

/-- Fetch the word at an address for the current context: from its fetch queue, local memory, or a translated page
through the line buffer (R71). A word in the queue was checked when it was fetched, and is not checked again after a change of mode
(log entry 61); a poisoned one is recorded as it is taken (R378). -/
def State.fetch (s : State) (va : Word) : State × Fetch :=
  let v := va.toNat
  if v % 4 ≠ 0 then (s, .fault 0x03)
  else match s.my.fq.find? (fun f => f.va == va) with
  | some f =>
    (if f.pois && decide (v < 0x40000) then
      s.poisonRecord s.cur.core.die (s.regionOf s.cur) (s.corePa s.cur.core v) 2 else s, .word f.word f.pois)
  | none =>
    if v < 0x40000 then
      let loc := localLoc s.cur.core v
      let s := if s.readBad loc 4 then s.poisonRecord s.cur.core.die (s.regionOf s.cur) (s.corePa s.cur.core v) 2 else s
      s.queueCode va (s.codeAt loc (min 8 ((0x40000 - v) / 4)))
    else if v < 0x200000 ∨ 2 ^ 57 ≤ v then (s, .fault 0x05)
    else
      let c := s.cur
      let region := s.regionOf c
      match s.translate c.core region v true with
      | (s, .absent) => (s.park va 2, .wait)
      | (s, .fault e) => (s, .fault e)
      | (s, .ok pa e) =>
        if e.allows false false true (s.sup c) = false ∨ s.dramOk pa = false then (s, .fault 0x05)
        else
          let line := pa / 64 * 64
          let skip := pa % 64 / 4
          match s.myCore.lineBuf.find? (fun l => l.pa == line) with
          | some l => (s.putFetchLine l).queueCode va (l.words.drop skip)
          | none =>
            if paDev pa = s.dev then
              let s := s.homeRead line 64 region (some c.core)
              let ws := s.codeAt (paLoc line) 16
              (s.putFetchLine ⟨line, ws⟩).queueCode va (ws.drop skip)
            else if s.farHave line 64 then
              let ws := codeOf 16 (s.farBytes line 64) (s.farBad line 64)
              let s := s.setMy { s.my with rbuf := [], rpois := [] }
              (s.putFetchLine ⟨line, ws⟩).queueCode va (ws.drop skip)
            else (s.farAsk line 64 false, .wait)

end Sys2Proof.Machine
end

