-- ==== Sys2Proof/Machine/Banks.lean ====
section
/-! DEFINITION. The areas of a core's local offsets as its banks read and write them: local memory, full/empty tags and
the tag wait table (R214 to R218), counters (R252), engine windows (R274), the core control window (R66). -/

namespace Sys2Proof.Machine

/-! ### Stash lines under an access of the core (R223) -/

/-- Copy a DRAM line into local memory, with its poison word by word. -/
def State.copyLine (s : State) (src dst : Nat) : State :=
  let bad := s.vaultBad src
  let marks := (upto 0 8).map (fun i => bad || smem (src / 8 + i) s.pois)
  let s := s.poke dst (s.bytes src 64) false
  { s with pois := ((upto 0 8).zip marks).foldl (fun p e => if e.2 then sins (dst / 8 + e.1) p else p) s.pois }

/-- Fill an invalid line, or make a line exclusive for a store; false when the instruction goes no further. Faults of the
fill name the line's mapped address, or `va` where `lane` asks for it. -/
def State.stashReady (s : State) (va : Word) (off : Nat) (write lane : Bool) : State × Bool :=
  let k := s.cur.core
  match (s.core k).stashAt off with
  | none => (s, true)
  | some key =>
    if (s.core k).stashRegion key ≠ s.regionOf s.cur then (s.raise 0x05 va, false)
    else match tget none (s.core k).stash key with
    | some l =>
      if write then
        let s := if l.excl then s else s.recall l.pa true (some k)
        (s.setStash k key (some { l with excl := true, dirty := true }), true)
      else (s, true)
    | none =>
      let lva := (s.core k).swv (key / 4096) + word (64 * (key % 4096))
      let region := s.regionOf s.cur
      match s.translate k region lva.toNat false with
      | (s, .absent) => (s.parkAs lva (if lane then va else lva) (if write then 1 else 0) region, false)
      | (s, .fault e) => (s.raise e (if lane then va else lva), false)
      | (s, .ok pa e) =>
        if e.allows (!write) write false (s.sup s.cur) = false ∨ s.dramOk pa = false ∨ paDev pa ≠ s.dev then
          (s.raise 0x05 (if lane then va else lva), false)
        else
          let loc := paLoc pa
          let src := s.poisonSource loc
          let s := (s.recall loc write (some k)).touch loc region false (some k)
          let s := match s.badByte loc 64 with
            | some a => s.poisonRecord (paDie pa) region (paDev pa * 2 ^ 45 + a) src
            | none => s
          let s := s.copyLine loc (localLoc k ((s.core k).stashOff key))
          let s := s.count k 0x0F (some region) 1
          (s.setStash k key (some ⟨loc, write, write⟩), true)

/-! ### Tags -/

/-- The number of the local word that holds an offset. -/
def tagKey (k : CoreId) (off : Nat) : Nat := localLoc k off / 8
/-- The tag of a local word: full or empty. -/
def State.full (s : State) (k : CoreId) (off : Nat) : Bool := smem (tagKey k off) s.tags
/-- Set the tag of a local word. -/
def State.setTag (s : State) (k : CoreId) (off : Nat) (b : Bool) : State :=
  { s with tags := if b then sins (tagKey k off) s.tags else sdel (tagKey k off) s.tags }
/-- A byte of the tag area (R214). -/
def State.tagByte (s : State) (k : CoreId) (t : Nat) : Byte :=
  BitVec.ofNat 8 ((upto 0 8).foldl (fun n i => n + (s.full k (64 * t + 8 * i)).toNat * 2 ^ i) 0)

/-- Whether a tagged operation can proceed (R216). -/
def tagCan (t : TagReq) (full : Bool) : Bool :=
  match t.op with
  | .ldf => full
  | .ldfe => full
  | .ste => !full
  | .stf => true

/-- A g register written, or poisoned with its data (R78). -/
def Ctx.load (x : Ctx) (r : Reg) (w : Word) (pois : Bool) : Ctx := if pois then (x.setG r w).poisG r else x.setG r w

/-- The issuer of a performed tagged operation moves on (R216). -/
def State.tagDone (s : State) (t : TagReq) (data : Word) (pois : Bool) : State :=
  let x := s.ctx t.issuer
  match x.wait with
  | .tagged id gd gt _ =>
    if id = t.id then
      let x := match gd with
        | some r => x.load r data pois
        | none => x
      let x := match gt with
        | some r => x.setG r 1
        | none => x
      (s.setCtx t.issuer x.advance).freeOut t.issuer t.id
    else s
  | _ => s

/-- The line of a stash window under a tagged request of the core itself, filled or made exclusive again where a recall came
first (R223): false where the issuer faults or parks instead. -/
def State.tagLine (s : State) (t : TagReq) : State × Bool :=
  if t.window then (s, true)
  else
    match { s with cur := t.issuer }.stashReady (word t.off) t.off (t.op == TagOp.ste || t.op == TagOp.stf) false with
    | (u, true) => ({ u with cur := s.cur }, true)
    | (u, false) => ({ u.freeOut t.issuer t.id with cur := s.cur }, false)

/-- The action of a tagged operation at its word (R216, R219). -/
def State.tagAct (s : State) (t : TagReq) : State :=
  let loc := localLoc t.core t.off
  let bad := s.poisAt loc 8
  let data := s.dword loc
  let note := fun (s : State) =>
    if bad then s.poisonRecord t.core.die (s.regionOf t.issuer) (s.corePa t.core t.off) 2 else s
  match t.op with
  | .ldf => (note s).tagDone t data bad
  | .ldfe => ((note s).setTag t.core t.off false).tagDone t data bad
  | .ste => ((s.pokeD loc t.data.toNat).setTag t.core t.off true).tagDone t 0 false
  | .stf => ((s.pokeD loc t.data.toNat).setTag t.core t.off true).tagDone t 0 false

/-- Perform a tagged operation at its word as one action. -/
def State.tagPerform (s : State) (t : TagReq) : State :=
  match s.tagLine t with
  | (s, true) => s.tagAct t
  | (s, false) => s

/-- Take a request out of the tag wait table. -/
def State.tagDrop (s : State) (t : TagReq) : State :=
  s.setCore t.core { s.core t.core with tagWaits := (s.core t.core).tagWaits.filter (fun u => u != t) }

/-- One pass over the waiting requests of a word, and whether it performed any (R217). -/
def State.tagPass (s : State) (k : CoreId) (off : Nat) : State × Bool :=
  ((s.core k).tagWaits.filter (fun t => t.off / 8 == off / 8)).foldl (fun r t =>
    if tagCan t (r.1.full k off) then ((r.1.tagDrop t).tagPerform t, true) else r) (s, false)

/-- Passes until one performs nothing (R217). -/
def State.tagExamine (s : State) (k : CoreId) (off : Nat) : Nat → State
  | 0 => s
  | n + 1 =>
    match s.tagPass k off with
    | (s, true) => s.tagExamine k off n
    | (s, false) => s

/-- A tag changed: the waiting requests of its word are examined (R217); the table has 32 entries. -/
def State.tagChanged (s : State) (k : CoreId) (off : Nat) : State := s.tagExamine k off 33

/-- Store bytes to the tag area (R214). -/
def State.tagStore (s : State) (k : CoreId) (t : Nat) (bs : List Byte) : State :=
  let offs := (upto 0 (8 * bs.length)).map (fun i => (64 * t + 8 * i, (bs.getD (i / 8) 0).getLsbD (i % 8)))
  let s := offs.foldl (fun s e => s.setTag k e.1 e.2) s
  offs.foldl (fun s e => if (s.core k).tagWaits.any (fun u => u.off / 8 == e.1 / 8) then s.tagChanged k e.1 else s) s

/-! ### Engine windows -/

/-- The totals of a port: command entries, reservations (R274). -/
def Core.portTotals (x : Core) (p : Nat) : Nat :=
  (((x.port p).cmds.filter (fun c => c.state != .started)).length)
    + 2 ^ 8 * ((x.port p).cmds.length + (x.port p).done.length)
/-- A doubleword of the engine windows. -/
def Core.engWindow (x : Core) (o : Nat) : Nat := if o % 1024 = 0 then x.portTotals (o / 1024) else 0

/-! ### The core control window (R66) -/

/-- Context x of a core. -/
def ctxAt (k : CoreId) (x : Nat) : CtxId := ⟨k, Fin.ofNat 6 x⟩

/-- A slot word in a slot that holds no task. -/
def State.deadSlotWord (s : State) (c : CtxId) (i : Nat) : Bool :=
  !c.isHandler && (s.ctx c).task.isNone && match cwInfo i with
    | some m => m.scope == .slot || m.scope == .both
    | none => false

/-- A doubleword of a context's register file: g, q, PC, the poison word, v. -/
def Ctx.regFile (x : Ctx) (handler : Bool) (p : Nat) : Word :=
  if p < 0x100 then x.greg (BitVec.ofNat 5 (p / 8))
  else if p < 0x140 then x.qreg (BitVec.ofNat 3 (p / 8))
  else if p = 0x140 then x.pc
  else if p = 0x148 then word ((x.gpois &&& 0xFFFFFFFE).toNat + 2 ^ 32 * (if handler then 0 else x.vpois.toNat))
  else if 0x400 ≤ p ∧ p < 0xC00 ∧ handler = false then
    ((x.vreg (BitVec.ofNat 5 ((p - 0x400) / 64))) >>> (64 * (p / 8 % 8))).setWidth 64
  else 0

/-- A doubleword of the core control window at offset o from its start (R66). -/
def State.ctlRead (s : State) (k : CoreId) (o : Nat) : Word :=
  if o < 0x6000 then
    let c := ctxAt k (o / 0x1000)
    let i := o % 0x1000 / 8
    if i < 0x1C0 ∧ s.deadSlotWord c i = false then s.cwRead c i else 0
  else if o < 0x6030 then (s.ctx (ctxAt k ((o - 0x6000) / 8))).cwv cwDBGST
  else if 0x8000 ≤ o ∧ o < 0xE000 then
    let c := ctxAt k ((o - 0x8000) / 0x1000)
    (s.ctx c).regFile c.isHandler (o % 0x1000)
  else 0

/-! ### Reads and writes at a core -/

/-- Read n bytes of a core at a local offset: the number and its poison (R86, R214, R252, R274, R66). -/
def State.bankRead (s : State) (k : CoreId) (off n : Nat) : List Byte × Bool :=
  match areaOf off with
  | .mem => (s.bytes (localLoc k off) n, s.poisAt (localLoc k off) n)
  | .tags => ((upto (off - 0x40000) n).map (s.tagByte k), false)
  | .ctrs => (leBytes n (s.ctr k ((off - 0x80000) / 4)).toNat, false)
  | .eng => (leBytes n ((s.core k).engWindow (off - 0xC0000)), false)
  | .ctl => (leBytes n (s.ctlRead k (off - 0x100000)).toNat, false)
  | .none => ([], false)

/-- Write bytes at a local offset of a core. -/
def State.bankWrite (s : State) (k : CoreId) (off : Nat) (bs : List Byte) (bad : Bool) : State :=
  match areaOf off with
  | .mem => s.poke (localLoc k off) bs bad
  | .tags => s.tagStore k (off - 0x40000) bs
  | .ctrs => s.setCtr k (BitVec.ofNat 6 ((off - 0x80000) / 4)) (BitVec.ofNat 32 (leNat bs))
  | .eng => s
  | .ctl => s.post (.controlWindowWrite k (BitVec.ofNat 16 (off - 0x100000)) (word (leNat bs)))
  | .none => s
/-- Write bytes of which some are poisoned at a local offset of a core. -/
def State.bankWriteMarked (s : State) (k : CoreId) (off : Nat) (bs : List Byte) (bad : Nat) : State :=
  match areaOf off with
  | .mem => s.pokeMarked (localLoc k off) bs bad
  | _ => s.bankWrite k off bs false

end Sys2Proof.Machine
end

