-- ==== Sys2Proof/Machine/Channel.lean ====
section
/-! DEFINITION. Writes to another device: plain ones, and those counted on a Manifest channel (R327, R330 to R335). -/

namespace Sys2Proof.Machine

/-- A send channel of a cluster. -/
def State.channel (s : State) (cl : ClusterId) (n : Nat) : Option Channel := tget none (s.cluster cl).channels n
/-- Replace a send channel. -/
def State.setChannel (s : State) (cl : ClusterId) (n : Nat) (x : Option Channel) : State :=
  s.setCluster cl { s.cluster cl with channels := tset none (s.cluster cl).channels n x }
/-- A channel whose open reply has come. -/
def Channel.isOpen (x : Channel) : Bool := x.opening.isNone

/-- An address on the destination die of a channel. -/
def Channel.covers (x : Channel) (pa : Nat) : Bool := paDev pa == x.dev && paDie pa == x.die
/-- Whether n more writes fit the window (R334). -/
def Channel.room (x : Channel) (n : Nat) : Bool := decide ((x.scnt + n + 65536 - x.fcnt) % 65536 ≤ 1024)

/-- What a channel says of writes to another device. -/
inductive ChanTest
  | go
  | stall
  | fault (v : Word)
  deriving DecidableEq, Repr

/-- The test of R334 and R335 for the writes of one store-class instruction or chunk, by their addresses on another
device. A channel with no flag outstanding cannot make room: that row stands before TRY. -/
def State.chanTest (s : State) (sel : Word) (region : Nat) (cl : ClusterId) (pas : List Nat) : ChanTest :=
  if pas = [] ∨ bit sel 63 = false then .go
  else match s.channel cl (bits sel 3 0) with
  | none => .fault sel
  | some x =>
    if x.isOpen = false ∨ x.region ≠ region then .fault sel
    else
      let n := (pas.filter x.covers).length
      if n = 0 ∨ x.room n then .go
      else if x.flags = [] then .fault 0x401
      else if bit sel 62 then .fault 0x400
      else .stall

/-- Address of the journal record of a sequence number (R331): memory key. -/
def State.journalLoc (s : State) (region : Nat) (cl : ClusterId) (ch n : Nat) : Nat :=
  dramLoc cl.die (bits (s.regEff region 18) 19 0 * 65536 + (16 * cl.cl.val + ch) * 81920 + n % 1024 * 80)

/-- A journal record (R332). -/
def journalRecord (seq op pa : Nat) (bs : List Byte) : List Byte :=
  leBytes 8 (seq + (bs.length - 1) * 2 ^ 16 + op * 2 ^ 24) ++ leBytes 8 pa ++ padTo 64 bs

/-- Give a write its sequence number, journal it and send it (R334). -/
def State.countedWrite (s : State) (cl : ClusterId) (ch : Nat) (x : Channel) (pa op : Nat) (bs : List Byte) (bad : Nat)
    (put : Option PutTag) : State :=
  let loc := s.journalLoc x.region cl ch x.scnt
  let s := if s.areaBacked loc 80 then
      ((s.homeAccess loc 80 x.region true none).poke loc (journalRecord x.scnt op pa bs) false).pokeMarked (loc + 16) bs bad
    else s
  let s := s.setChannel cl ch (some { x with scnt := (x.scnt + 1) % 65536, puts := tset none x.puts (x.scnt % 1024) put })
  s.fabric (.counted s.dev x.dev x.die x.state x.scnt pa op bs bad put)

/-- One write to another device, counted when the channel selected covers it (R333). -/
def State.farWrite (s : State) (sel : Word) (region : Nat) (c : CtxId) (pa op : Nat) (bs : List Byte) (bad : Nat)
    (put : Option PutTag := none) : State :=
  let cl := c.core.cluster
  let kind := match put with
    | some t => ReqKind.put bs bad t
    | none => if op = 0 then ReqKind.write bs bad else ReqKind.reduce op bs bad
  let plain := s.fabric (.request s.dev (paDev pa) ⟨c, 0, pa, kind, s.colourOf c, region, s.catOf c⟩)
  if bit sel 63 = false then plain
  else match s.channel cl (bits sel 3 0) with
  | none => plain
  | some x => if x.isOpen ∧ x.region = region ∧ x.covers pa then s.countedWrite cl (bits sel 3 0) x pa op bs bad put
    else plain

/-- The maximal runs of active bytes of a line: offset and length (R333). -/
def maskRuns (mask : BitVec 64) : List (Nat × Nat) :=
  (upto 0 64).foldl (fun l b =>
    if mask.getLsbD b then
      match l.getLast? with
      | some (o, n) => if o + n = b then l.dropLast ++ [(o, n + 1)] else l ++ [(b, 1)]
      | none => [(b, 1)]
    else l) []

/-- A store to another device: one write, or one for each run of a masked line. -/
def State.farStore (s : State) (sel : Word) (c : CtxId) (id pa : Nat) (kind : ReqKind) : State :=
  let region := s.regionOf c
  match kind with
  | .write bs bad => s.farWrite sel region c pa 0 bs bad
  | .masked mask bs =>
    (maskRuns mask).foldl (fun s r => s.farWrite sel region c (pa + r.1) 0 ((bs.drop r.1).take r.2) 0) s
  | k => s.fabric (.request s.dev (paDev pa) ⟨c, id, pa, k, s.colourOf c, region, s.catOf c⟩)

end Sys2Proof.Machine
end

