-- ==== Sys2Proof/Machine/Operands.lean ====
section
/-! DEFINITION. The operand forms of the scalar instructions: sources checked for poison (R76, R78), all read before gd
is written, g0 discarded (R58). -/

namespace Sys2Proof.Machine

/-- OP gd, ga, gb. -/
def op2 (s : State) (gd ga gb : Reg) (f : Word → Word → Word) : Out :=
  .next (s.guardP [ga, gb] [] (s.done gd (f (s.g ga) (s.g gb))))
/-- OP gd, ga and OP gd, ga, #imm. -/
def op1 (s : State) (gd ga : Reg) (f : Word → Word) : Out :=
  .next (s.guardP [ga] [] (s.done gd (f (s.g ga))))
/-- A branch OP sa, sb, label (R29, R89). -/
def opBranch (s : State) (sa sb : Reg) (disp : BitVec 16) (cond : Word → Word → Bool) : Out :=
  .next (s.guardP [sa, sb] []
    (if cond (s.g sa) (s.g sb) then s.jump (s.my.pc + 4 * sextW 16 disp) else s.advance))

/-- 1 or 0. -/
def ofBool (b : Bool) : Word := if b then 1 else 0
/-- A sign-extended immediate (R28). -/
def simm (i : BitVec 16) : Word := i.signExtend 64
/-- A zero-extended immediate (R28). -/
def zimm (i : BitVec 16) : Word := i.setWidth 64
/-- A shift amount: the low six bits. -/
def sham (b : Word) : Nat := bits b 5 0

/-- Signed and unsigned order. -/
def lts (a b : Word) : Bool := decide (a.toInt < b.toInt)
def ltu (a b : Word) : Bool := decide (a.toNat < b.toNat)

/-- DIV: toward zero; all ones for a zero divisor; -2^63 by -1 gives -2^63 (R81). -/
def divS (a b : Word) : Word := if b = 0 then BitVec.allOnes 64 else BitVec.ofInt 64 (a.toInt.tdiv b.toInt)
/-- DIVU. -/
def divU (a b : Word) : Word := if b = 0 then BitVec.allOnes 64 else word (a.toNat / b.toNat)
/-- REM: a - b × quotient; a for a zero divisor (R81). -/
def remS (a b : Word) : Word := if b = 0 then a else BitVec.ofInt 64 (a.toInt.tmod b.toInt)
/-- REMU. -/
def remU (a b : Word) : Word := if b = 0 then a else word (a.toNat % b.toNat)
/-- Set bits of the low n bits of a number. -/
def popN : Nat → Nat → Nat
  | 0, _ => 0
  | n + 1, x => x % 2 + popN n (x / 2)
/-- Significant bits of a number, counting at most n. -/
def lenN : Nat → Nat → Nat
  | 0, _ => 0
  | n + 1, x => if x = 0 then 0 else 1 + lenN n (x / 2)
/-- Leading zero bits. -/
def clzW (a : Word) : Word := word (64 - lenN 64 a.toNat)
/-- INSH.k: halfword k replaced (R83). -/
def insHalf (k : Nat) (a : Word) (i : BitVec 16) : Word := (a &&& ~~~((0xFFFF : Word) <<< (16 * k))) ||| (zimm i <<< (16 * k))

end Sys2Proof.Machine
end

