-- ==== Sys2Proof/Machine/Access.lean ====
section
/-! DEFINITION. One access of an instruction: its checks in the order of R76, stash fills (R223), migration (R317, R318),
watchpoints (R375), and the requests that leave the core (R69, R228, R327). -/

namespace Sys2Proof.Machine

/-- What an access asks: bytes (and alignment), reading, writing, ordinary (areas by width, R86) or local memory only,
whether a MIG page may ship the task (R317), and whether faults of a stash fill name the access itself, as those of a vector
lane do (R125). -/
structure Asked where
  size : Nat
  rd : Bool
  wr : Bool
  plain : Bool
  mig : Bool
  lane : Bool := false
  deriving DecidableEq, Repr

/-- Where a resolved access goes: the issuing core's own offset, a core of the device through the window, DRAM of the
device, another device. -/
inductive Where
  | own (off : Nat)
  | core (pa : Nat)
  | dram (pa : Nat)
  | far (pa : Nat)
  deriving DecidableEq, Repr

/-- The areas an access may reach, by its width (R86, R123, R252, R274, R66, R289). -/
def Asked.areaOk (a : Asked) (ar : Area) : Bool :=
  match ar with
  | .mem => true
  | .tags => a.plain
  | .ctrs => a.plain && a.size == 4
  | .eng => a.plain && a.size == 8
  | .ctl => a.plain && a.size == 8
  | .none => false

/-! ### Breakpoint table (R375, R376) -/

/-- Whether entry n of the table matches the current context. -/
def State.bpMatch (s : State) (n : Nat) : Bool :=
  let e := tget 0 s.plat.bpc n
  bit e 63 && (bit e 59 || bits e 47 0 == s.catOf s.cur)

/-- The lowest address of the accesses inside a watch range of 2^lg bytes around a. -/
def touched (a lg : Nat) (accs : List (Nat × Nat)) : Option Nat :=
  let lo := a / 2 ^ lg * 2 ^ lg
  let hi := lo + 2 ^ lg
  accs.foldl (fun m e =>
    if e.1 < hi ∧ lo < e.1 + e.2 then
      match m with
      | none => some (max lo e.1)
      | some v => some (min v (max lo e.1))
    else m) none

/-- The lowest-numbered watch entry that accesses hit, and the lowest address they touch in its range. -/
def State.watchHit (s : State) (accs : List (Nat × Nat)) (rd wr : Bool) : Option (Nat × Nat) :=
  if s.my.skipNow then none
  else (upto 0 8).findSome? (fun n =>
    let e := tget 0 s.plat.bpc n
    let kind := bits e 62 61
    if s.bpMatch n && (kind == 3 || (kind == 1 && rd) || (kind == 2 && wr)) then
      (touched (tget 0 s.plat.bpa n).toNat (bits e 51 48) accs).map (fun a => (n, a))
    else none)

/-- Record a hit in DBGST and act on it: fault 0x0E, or a debug stop (R376). A fault beside a live frame is taken when the frame has
ended: till then the instruction counts as not executed, so nothing is recorded (R54). -/
def State.breakHit (s : State) (n : Nat) (val : Word) (exec : Bool) : State :=
  let e := tget 0 s.plat.bpc n
  let x := s.my
  let d := (x.cwv cwDBGST &&& 0xC000000000000000) ||| word (8 + n)
  if bit e 60 then (s.setMy (x.setCw cwDBGST d)).post (.debugStop s.cur)
  else if x.frame.isSome && !x.onFrame then s.stall
  else
    let d := if exec then d ||| 0x4000000000000000 else d
    (s.setMy (x.setCw cwDBGST d)).raise 0x0E val

/-- Test the watchpoints, then go on (R375: after every other fault). -/
def State.watched (s : State) (accs : List (Nat × Nat)) (rd wr : Bool) (k : State) : State :=
  match s.watchHit accs rd wr with
  | some (n, a) => s.breakHit n (word a) false
  | none => k

/-! ### Migration (R317, R318) -/

/-- Whether a MIG page's home ships the current task. -/
def State.mayMigrate (s : State) (pa : Nat) : Bool :=
  let c := s.cur
  let x := s.my
  let k := s.myCore
  !c.isHandler && x.task.isSome && (paDev pa != s.dev || paDie pa != c.core.die) && k.slice.owner != some c.ctx.val
    && !(k.ports.any (fun e => e.2.cmds.any (fun d => d.ctx == c.ctx.val) || e.2.done.any (fun d => d.ctx == c.ctx.val)))
    && !x.tb && !bit (x.cwv cwMCHSEL) 63 && x.wait != .stayed

/-- The control words a context takes along: those of slot scope (R318). -/
def slotWords (t : Table Word) : Table Word :=
  t.filter (fun e => match cwInfo e.1 with
    | some m => m.scope == .slot || m.scope == .both
    | none => false)

/-- What ships (R318). GPOIS travels as control word 0x007. -/
def Ctx.shipment (x : Ctx) (t : Task) (handler : Bool) : Shipment :=
  { pc := x.pc, g := x.g, q := x.q, v := x.v, vpois := x.vpois,
    cw := tput (slotWords x.cw) 0x007 (x.gpois.setWidth 64), msg := t.msg, defer := t.defer, handler := handler }

/-- Start a migration to a page's home, once every older access has been performed (R318). -/
def State.migrate (s : State) (pa : Nat) : State :=
  let c := s.cur
  match s.my.task with
  | none => s
  | some t =>
    if s.anyOut c then s.stall
    else
      let sh := s.my.shipment t (smem t.msg.cat s.plat.faultHandlers)
      let s := s.setMy { s.my with wait := .migrating }
      if paDev pa = s.dev then
        match s.homeOf pa with
        | some cl => s.post (.migrationArrival c s.dev cl sh)
        | none => s
      else s.fabric (.migrate s.dev (paDev pa) c pa sh)

/-! ### Resolving an access -/

/-- Checks 6 to 9 of R76 for one address of the current context. None: the instruction goes no further, and the state
holds the fault, the park or the migration. -/
def State.resolve (s : State) (i : Instr) (va : Word) (a : Asked) : State × Option Where :=
  let c := s.cur
  match s.place va with
  | .bad => (s.raise 0x05 va, none)
  | .loc off =>
    if a.areaOk (areaOf off) = false then (s.raise 0x05 va, none)
    else if areaOf off = .ctl ∧ s.sup c = false then (s.raise 0x02 (insnWord i), none)
    else if areaOf off = .mem then
      match s.stashReady va off a.wr a.lane with
      | (s, true) => (s, some (.own off))
      | (s, false) => (s, none)
    else (s, some (.own off))
  | .win pa =>
    if a.areaOk (areaOf (paOff pa)) = false ∨ s.windowOk c pa = false then (s.raise 0x05 va, none)
    else if areaOf (paOff pa) = .ctl ∧ s.sup c = false then (s.raise 0x02 (insnWord i), none)
    else if s.colourKnown pa = false then (s.askColour pa, none)
    else (s, some (if paDev pa = s.dev then .core pa else .far pa))
  | .xl =>
    match s.translate c.core (s.regionOf c) va.toNat false with
    | (s, .absent) => (s.park va (if a.wr then 1 else 0), none)
    | (s, .fault e) => (s.raise e va, none)
    | (s, .ok pa e) =>
      if e.allows a.rd a.wr false (s.sup c) = false ∨ s.dramOk pa = false then (s.raise 0x05 va, none)
      else if a.mig && e.mig && s.mayMigrate pa then (if s.my.frame.isSome then s else s.migrate pa, none)
      else (s, some (if paDev pa = s.dev then .dram pa else .far pa))

/-- The counted writes a store makes at where it goes (R333): none on the issuing device. -/
def countedAt (w : Where) (ns : List Nat) : List Nat :=
  match w with
  | .far pa => ns.map (fun n => pa + n)
  | _ => []

/-- A store to another device meets its channel (R334, R335): true when it may go on. -/
def State.channelOk (s : State) (pas : List Nat) : State × Bool :=
  match s.chanTest (s.my.cwv cwMCHSEL) (s.regionOf s.cur) s.cur.core.cluster pas with
  | .go => (s, true)
  | .stall => (s.stallManifest, false)
  | .fault v => (s.raise 0x06 v, false)

/-- All checks of an aligned access but its sources: alignment, form, translation, the channel of a store,
watchpoints (R76, R87, R334). -/
def State.access (s : State) (i : Instr) (va : Word) (a : Asked) : State × Option Where :=
  if va.toNat % a.size ≠ 0 then (s.raise 0x03 va, none)
  else match s.resolve i va a with
  | (s, none) => (s, none)
  | (s, some w) =>
    match s.channelOk (if a.wr && !a.rd then countedAt w [0] else []) with
    | (s, false) => (s, none)
    | (s, true) =>
    match s.watchHit [(va.toNat, a.size)] a.rd a.wr with
    | some (n, t) => (s.breakHit n (word t) false, none)
    | none => (s, some w)

/-! ### Requests that leave the core -/

/-- Send a request of the current context to where a resolved access goes (R228, R327). Loads and atomics to another
device fall due as R329 gives. -/
def State.request (s : State) (w : Where) (id : Nat) (kind : ReqKind) (reply : Bool) : State :=
  let c := s.cur
  let r := fun pa => (⟨c, id, pa, kind, s.colourOf c, s.regionOf c, s.catOf c⟩ : Request)
  match w with
  | .own off => s.post (.memoryPortRequest (r (s.corePa c.core off)))
  | .core pa => s.post (.memoryPortRequest (r pa))
  | .dram pa => s.after 1 (.homeSliceRequest (r pa))
  | .far pa =>
    if reply then (s.fabric (.request s.dev (paDev pa) (r pa))).after (s.ftime c.core.cluster) (.replyTimeout c id)
    else (s.farStore (s.my.cwv cwMCHSEL) c id pa kind).post (.storeAcknowledgement c id)

/-- The global physical address of a resolved access. -/
def State.wherePa (s : State) (w : Where) : Nat :=
  match w with
  | .own off => s.corePa s.cur.core off
  | .core pa => pa
  | .dram pa => pa
  | .far pa => pa

/-- Issue a counted load by a request of some kind, whose data goes to `dest`, and move on (R68, R69). -/
def State.issueLoadAs (s : State) (w : Where) (n : Nat) (kind : ReqKind) (dest : Dest) : State :=
  if s.mayIssue s.cur 1 = false then s.stallOreq 1
  else
    let s := s.fresh
    let id := s.nextId
    ((s.addOut s.cur id true dest true false (s.wherePa w) n).request w id kind true).advance
/-- Issue a counted load of n bytes. -/
def State.issueLoad (s : State) (w : Where) (n : Nat) (dest : Dest) : State := s.issueLoadAs w n (.read n) dest

/-- Issue a counted store and move on (R69). -/
def State.issueStore (s : State) (w : Where) (kind : ReqKind) : State :=
  if s.mayIssue s.cur 1 = false then s.stallOreq 1
  else
    let s := s.fresh
    let id := s.nextId
    ((s.addOut s.cur id false .none true).request w id kind false).advance

/-! ### Operands of many lines (R69, R155, R225) -/

/-- A piece of an operand: where it lies, and its bytes. No piece crosses a 64-byte line. -/
abbrev Piece := Where × Nat

/-- Whether a place lies outside the issuing core's local range: its lines are requests (R69). -/
def Where.away (w : Where) : Bool :=
  match w with
  | .own _ => false
  | .core _ => true
  | .dram _ => true
  | .far _ => true
/-- The 64-byte line of a place. -/
def Where.line (w : Where) : Where :=
  match w with
  | .own off => .own (off / 64 * 64)
  | .core pa => .core (pa / 64 * 64)
  | .dram pa => .dram (pa / 64 * 64)
  | .far pa => .far (pa / 64 * 64)

/-- How many entries a context may take (R69). -/
def State.mayTake (s : State) (c : CtxId) : Nat :=
  let x := s.core c.core
  if c.isHandler then 64 - x.oreq else min (64 - x.oreq) (60 - x.oreqSlots)

/-- The bytes of a line that the pieces of an operand name. -/
def State.lineMask (s : State) (ps : List Piece) (pa : Nat) : BitVec 64 :=
  (ps.filter (fun p => p.1.away && s.wherePa p.1 / 64 * 64 == pa)).foldl
    (fun m p => m ||| BitVec.ofNat 64 ((2 ^ p.2 - 1) * 2 ^ (s.wherePa p.1 % 64))) 0
/-- The lines of an operand that have not arrived. -/
def State.missing (s : State) (ps : List Piece) : List Where :=
  ((ps.filter (fun p => p.1.away && !s.farHave (s.wherePa p.1) p.2)).map (fun p => p.1.line)).eraseDups
/-- Ask for the bytes of a line that an operand names. -/
def State.askLine (s : State) (counted : Bool) (ps : List Piece) (w : Where) : State :=
  let s := s.fresh
  let pa := s.wherePa w
  (s.addOut s.cur s.nextId true (.buf pa) counted false pa 64).request w s.nextId (.readActive (s.lineMask ps pa)) true
/-- Ask for the lines of an operand, as many at a time as there are entries; where `all` is false, for all of them under one entry.
False while any is to come. -/
def State.gather (s : State) (all : Bool) (ps : List Piece) : State × Bool :=
  match s.missing ps with
  | [] => (s, true)
  | l =>
    let n := s.mayTake s.cur
    if n = 0 then (s.stallOreq 1, false)
    else
      let l := if all then l.take n else l
      let s := ((upto 0 l.length).zip l).foldl (fun s e => s.askLine (all || e.1 == 0) ps e.2) s
      (s.setMy { s.my with wait := .remote }, false)

/-- Send a counted store of a piece, once: the context remembers that it was sent. False where no entry is free. -/
def State.sendPiece (s : State) (w : Where) (bs : List Byte) (bad : Bool) : State × Bool :=
  let pa := s.wherePa w
  if s.farHave pa 1 then (s, true)
  else if s.mayIssue s.cur 1 = false then (s.stallOreq 1, false)
  else
    let s := s.fresh
    let s := (s.addOut s.cur s.nextId false .none true).request w s.nextId (.write bs (if bad then 2 ^ bs.length - 1 else 0)) false
    (s.setMy { s.my with rbuf := tput s.my.rbuf pa 0 }, true)

/-- The poison record of a local word that a context reads (R378). -/
def State.localRecord (s : State) (k : CoreId) (off : Nat) (bad : Bool) : State :=
  if bad then s.poisonRecord k.die (s.regionOf s.cur) (s.corePa k off) 2 else s

/-- A value of n bytes, sign- or zero-extended. -/
def extend (bs : List Byte) (n : Nat) (signed : Bool) : Word :=
  let v := leNat bs
  if signed && v.testBit (8 * n - 1) then word (v + 2 ^ 64 - 2 ^ (8 * n)) else word v

/-- LD.x gd, [ga+imm] (R85 to R87): the local range answers at once, every other place by a reply. -/
def opLoad (s : State) (i : Instr) (gd ga : Reg) (imm : BitVec 16) (n : Nat) (signed : Bool) : Out :=
  .next (s.guardP [ga] []
    (let va := s.g ga + simm imm
     match s.access i va ⟨n, true, false, true, true, false⟩ with
     | (s, none) => s
     | (s, some (.own off)) =>
       let (bs, bad) := s.bankRead s.cur.core off n
       let s := s.localRecord s.cur.core off bad
       s.setMy (s.my.load gd (extend bs n signed) bad).advance
     | (s, some w) => s.issueLoad w n (.g gd n signed)))

/-- ST.x [ga+imm], gs (R85 to R87). -/
def opStore (s : State) (i : Instr) (gs ga : Reg) (imm : BitVec 16) (n : Nat) : Out :=
  .next (s.guardP [ga, gs] []
    (let va := s.g ga + simm imm
     match s.access i va ⟨n, false, true, true, true, false⟩ with
     | (s, none) => s
     | (s, some (.own off)) => (s.bankWrite s.cur.core off (leBytes n (s.g gs).toNat) false).advance
     | (s, some w) => s.issueStore w (.write (leBytes n (s.g gs).toNat) 0)))

end Sys2Proof.Machine
end

