-- ==== Sys2Proof/Machine/Float.lean ====
section
/-! DEFINITION. Floating-point arithmetic on exact dyadic numbers, rounded once (R98 to R115). A format is given by its
fraction bits p: 23 for FP32, 7 for BF16; both have 8 exponent bits and bias 127. -/

namespace Sys2Proof.Machine

/-- FFLAGS bits (R107). -/
def flNV : Nat := 1
def flOF : Nat := 2
def flUF : Nat := 4
def flDZ : Nat := 8
def flNX : Nat := 16

/-- A floating-point value: NaN (signalling or not), infinity, or m × 2^e with a sign (R99). -/
inductive FV
  | nan (sig : Bool)
  | inf (neg : Bool)
  | fin (neg : Bool) (m : Nat) (e : Int)
  deriving DecidableEq, Repr

/-- The value a bit pattern encodes (R98, R99). -/
def fval (p x : Nat) : FV :=
  let s := x.testBit (p + 8)
  let E := x / 2 ^ p % 256
  let F := x % 2 ^ p
  if E = 255 then (if F = 0 then .inf s else .nan (decide (F < 2 ^ (p - 1))))
  else if E = 0 then .fin s F (-126 - (p : Int))
  else .fin s (2 ^ p + F) ((E : Int) - 127 - p)

/-- The canonical NaN (R100). -/
def fNaN (p : Nat) : Nat := 255 * 2 ^ p + 2 ^ (p - 1)
/-- Infinity of a sign. -/
def fInf (p : Nat) (neg : Bool) : Nat := neg.toNat * 2 ^ (p + 8) + 255 * 2 ^ p
/-- Largest finite value of a sign. -/
def fMax (p : Nat) (neg : Bool) : Nat := neg.toNat * 2 ^ (p + 8) + 255 * 2 ^ p - 1
/-- Zero of a sign. -/
def fZero (p : Nat) (neg : Bool) : Nat := neg.toNat * 2 ^ (p + 8)
/-- NaN. -/
def FV.isNaN (v : FV) : Bool :=
  match v with
  | .nan _ => true
  | _ => false
/-- Signalling NaN. -/
def FV.isSig (v : FV) : Bool :=
  match v with
  | .nan s => s
  | _ => false

/-- What overflow delivers (R108). Modes: 0 nearest even, 1 toward zero, 2 up, 3 down. -/
def fOver (p rm : Nat) (neg : Bool) : Nat :=
  match rm with
  | 0 => fInf p neg
  | 1 => fMax p neg
  | 2 => if neg then fMax p true else fInf p false
  | _ => if neg then fInf p true else fMax p false

/-- Whether a discarded remainder r of 2^d rounds the quotient k away from zero. -/
def roundUp (rm : Nat) (neg : Bool) (k r d : Nat) : Bool :=
  match rm with
  | 0 => decide (2 ^ d < 2 * r) || (2 * r == 2 ^ d && k % 2 == 1)
  | 1 => false
  | 2 => r != 0 && !neg
  | _ => r != 0 && neg

/-- Round the exact value ± m × 2^e, m not zero, once (R108, R110): bits and flags. -/
def fround (p rm : Nat) (neg : Bool) (m : Nat) (e : Int) : Nat × Nat :=
  let top : Int := e + (Nat.log2 m : Int)
  let q : Int := max (top - p) (-126 - (p : Int))
  let d := (q - e).toNat
  let k := if q ≤ e then m * 2 ^ (e - q).toNat else m / 2 ^ d
  let r := if q ≤ e then 0 else m % 2 ^ d
  let k := if r != 0 && roundUp rm neg k r d then k + 1 else k
  let q' := if k = 2 ^ (p + 1) then q + 1 else q
  let k := if k = 2 ^ (p + 1) then 2 ^ p else k
  let sgn := neg.toNat * 2 ^ (p + 8)
  if 2 ^ p ≤ k ∧ 128 - (p : Int) ≤ q' then (fOver p rm neg, flOF + flNX)
  else
    let nx := if r != 0 then flNX else 0
    if k < 2 ^ p then (sgn + k, nx + (if r != 0 then flUF else 0))
    else (sgn + (q' + p + 127).toNat * 2 ^ p + (k - 2 ^ p), nx)

/-- A signed dyadic number. -/
structure Dy where
  m : Int
  e : Int
  deriving DecidableEq, Repr

/-- Exact sum. -/
def Dy.add (a b : Dy) : Dy :=
  let e := min a.e b.e
  ⟨a.m * 2 ^ (a.e - e).toNat + b.m * 2 ^ (b.e - e).toNat, e⟩
/-- Exact product. -/
def Dy.mul (a b : Dy) : Dy := ⟨a.m * b.m, a.e + b.e⟩
/-- a ≤ b. -/
def Dy.le (a b : Dy) : Bool := decide ((a.add ⟨-b.m, b.e⟩).m ≤ 0)
/-- The number of a finite value. -/
def dyOf (neg : Bool) (m : Nat) (e : Int) : Dy := ⟨if neg then -(m : Int) else m, e⟩

/-- Round a non-zero dyadic number. -/
def Dy.round (x : Dy) (p rm : Nat) : Nat × Nat := fround p rm (decide (x.m < 0)) x.m.natAbs x.e

/-! ### Sums of exact terms -/

/-- A term of a sum: the exact product of two values (R110, R111). -/
def fterm (neg : Bool) (a b : FV) : FV × Bool :=
  match a, b with
  | .nan s, .nan t => (.nan (s || t), false)
  | .nan s, _ => (.nan s, false)
  | _, .nan t => (.nan t, false)
  | .inf s, .inf t => (.inf ((s != t) != neg), false)
  | .inf s, .fin t m _ => if m = 0 then (.nan false, true) else (.inf ((s != t) != neg), false)
  | .fin s m _, .inf t => if m = 0 then (.nan false, true) else (.inf ((s != t) != neg), false)
  | .fin s m e, .fin t n f => (.fin ((s != t) != neg) (m * n) (e + f), false)

/-- The exact sum of finite terms. -/
def dySum : List FV → Dy
  | [] => ⟨0, 0⟩
  | .fin s m e :: t => (dyOf s m e).add (dySum t)
  | _ :: t => dySum t

/-- Every term is a zero of the sign given. -/
def allZero (neg : Bool) (l : List FV) : Bool :=
  l.all (fun v => match v with
    | .fin s m _ => m == 0 && s == neg
    | _ => false)

/-- The sum of terms rounded once (R108, R110, R111): a NaN term or infinities of both signs give the canonical NaN, an
infinite term its infinity, an exact zero its sign by R110. -/
def fsum (p rm : Nat) (l : List FV) (zeroInf : Bool) : Nat × Nat :=
  let sig := if l.any FV.isSig ∨ zeroInf then flNV else 0
  if l.any FV.isNaN || zeroInf then (fNaN p, sig)
  else
    let pos := l.contains (.inf false)
    let neg := l.contains (.inf true)
    if pos && neg then (fNaN p, flNV)
    else if pos then (fInf p false, 0)
    else if neg then (fInf p true, 0)
    else
      let x := dySum l
      if x.m = 0 then (fZero p (allZero true l || (rm == 3 && !allZero false l)), 0) else x.round p rm

/-- a + b (R110). -/
def fadd (p rm a b : Nat) : Nat × Nat := fsum p rm [fval p a, fval p b] false
/-- The opposite of a bit pattern. -/
def fneg (p a : Nat) : Nat := a ^^^ 2 ^ (p + 8)
/-- a - b. -/
def fsub (p rm a b : Nat) : Nat × Nat :=
  match fval p b with
  | .nan _ => fadd p rm a b
  | _ => fadd p rm a (fneg p b)
/-- a × b. -/
def fmul (p rm a b : Nat) : Nat × Nat :=
  match fterm false (fval p a) (fval p b) with
  | (.nan s, z) => (fNaN p, if s || z then flNV else 0)
  | (.inf s, _) => (fInf p s, 0)
  | (.fin s m e, _) => if m = 0 then (fZero p s, 0) else fround p rm s m e
/-- ± (a × b) + c, rounded once. -/
def ffma (p rm : Nat) (neg : Bool) (a b c : Nat) : Nat × Nat :=
  let (t, z) := fterm neg (fval p a) (fval p b)
  let va := fval p a
  let vb := fval p b
  let (r, f) := fsum p rm [t, fval p c] z
  (r, f ||| (if va.isSig || vb.isSig then flNV else 0))

/-! ### Order -/

/-- A number whose order is the value order with -0 below +0. -/
def fkey (p x : Nat) : Int :=
  let m := x % 2 ^ (p + 8)
  if x.testBit (p + 8) then -(m : Int) - 1 else m
/-- A number whose order is the value order with -0 equal to +0. -/
def fnum (p x : Nat) : Int :=
  let m := x % 2 ^ (p + 8)
  if x.testBit (p + 8) then -(m : Int) else m

/-- VFMIN, VFMAX and the nodes of VRMAX (R113): a NaN yields the other operand, two NaNs the canonical NaN. -/
def fminmax (p : Nat) (mx : Bool) (a b : Nat) : Nat × Nat :=
  let va := fval p a
  let vb := fval p b
  let fl := if va.isSig || vb.isSig then flNV else 0
  if va.isNaN && vb.isNaN then (fNaN p, fl)
  else if va.isNaN then (b, fl)
  else if vb.isNaN then (a, fl)
  else if mx then (if fkey p a < fkey p b then b else a, fl)
  else (if fkey p b < fkey p a then b else a, fl)

/-- EQ: -0 = +0, a NaN unequal, NV only for a signalling NaN (R130). -/
def feq (p a b : Nat) : Bool × Nat :=
  let va := fval p a
  let vb := fval p b
  (!va.isNaN && !vb.isNaN && fnum p a == fnum p b, if va.isSig || vb.isSig then flNV else 0)
/-- LT and LE: false with NV when an operand is a NaN (R130). -/
def flt (p : Nat) (orEq : Bool) (a b : Nat) : Bool × Nat :=
  if (fval p a).isNaN || (fval p b).isNaN then (false, flNV)
  else (decide (fnum p a < fnum p b) || (orEq && fnum p a == fnum p b), 0)

/-! ### Conversions (R115) -/

/-- VCVT.BF16.F32. -/
def cvtBf16 (rm a : Nat) : Nat × Nat :=
  match fval 23 a with
  | .nan s => (fNaN 7, if s then flNV else 0)
  | .inf s => (fInf 7 s, 0)
  | .fin s m e => if m = 0 then (fZero 7 s, 0) else fround 7 rm s m e
/-- VCVT.F32.I32. -/
def cvtF32 (rm : Nat) (x : Int) : Nat × Nat := if x = 0 then (0, 0) else fround 23 rm (decide (x < 0)) x.natAbs 0
/-- VCVT.I32.F32: a 32-bit pattern. -/
def cvtI32 (rm a : Nat) : Nat × Nat :=
  match fval 23 a with
  | .nan _ => (0, flNV)
  | .inf s => (if s then 0x80000000 else 0x7FFFFFFF, flNV)
  | .fin s m e =>
    let d := (-e).toNat
    let k := if 0 ≤ e then m * 2 ^ e.toNat else m / 2 ^ d
    let r := if 0 ≤ e then 0 else m % 2 ^ d
    let k := if r != 0 && roundUp rm s k r d then k + 1 else k
    if s then (if 2 ^ 31 < k then (0x80000000, flNV) else ((2 ^ 32 - k) % 2 ^ 32, if r != 0 then flNX else 0))
    else if 2 ^ 31 ≤ k then (0x7FFFFFFF, flNV)
    else (k, if r != 0 then flNX else 0)

/-! ### Approximate functions (R114) -/

/-- Integer square root by bits. -/
def isqrtN (x : Nat) : Nat → Nat → Nat
  | 0, r => r
  | n + 1, r =>
    let t := r + 2 ^ n
    isqrtN x n (if t * t ≤ x then t else r)
/-- The largest r with r × r ≤ x, for x below 2^400. -/
def isqrt (x : Nat) : Nat := isqrtN x 200 0

/-- One unit in the last place of a normal FP32 pattern, as a dyadic number. -/
def ulpOf (b : Nat) : Dy := ⟨1, (b / 2 ^ 23 % 256 : Int) - 150⟩
/-- The number of a finite pattern. -/
def dyBits (b : Nat) : Dy :=
  match fval 23 b with
  | .fin s m e => dyOf s m e
  | _ => ⟨0, 0⟩
/-- A normal FP32 pattern of a sign. -/
def normalOf (b : Nat) (neg : Bool) : Bool :=
  decide (1 ≤ b / 2 ^ 23 % 256) && decide (b / 2 ^ 23 % 256 ≤ 254) && b.testBit 31 == neg

/-- 1/|x| for x = m × 2^e rounded to nearest even, sticky below. -/
def rcpNear (neg : Bool) (m : Nat) (e : Int) : Nat :=
  (fround 23 0 neg (2 * (2 ^ 80 / m) + (if 2 ^ 80 % m = 0 then 0 else 1)) (-81 - e)).1
/-- Within 1 ulp of 1/|x|. -/
def rcpOk (near : Nat) (neg : Bool) (m : Nat) (e : Int) (c : Nat) : Bool :=
  let u := ulpOf near
  let v : Dy := ⟨(dyBits c).m.natAbs, (dyBits c).e⟩
  let x : Dy := ⟨m, e⟩
  normalOf c neg && ((v.add ⟨-u.m, u.e⟩).mul x).le ⟨1, 0⟩ && (⟨1, 0⟩ : Dy).le ((v.add u).mul x)

/-- VRCP (R114). -/
def fRcp (a : Nat) : Nat × Nat :=
  match fval 23 a with
  | .nan s => (fNaN 23, if s then flNV else 0)
  | .inf s => (fZero 23 s, 0)
  | .fin s m e =>
    if m = 0 then (fInf 23 s, flDZ)
    else
      let near := rcpNear s m e
      let pow2 := m == 2 ^ Nat.log2 m
      let n : Int := e + (Nat.log2 m : Int)
      if 126 < n ∨ (n = 126 ∧ pow2 = false) then (fZero 23 s, flUF + flNX)
      else if n < -128 ∨ (n = -128 ∧ pow2) then (fInf 23 s, flOF + flNX)
      else if pow2 then (near, 0)
      else
        let c := (Config.rcp (BitVec.ofNat 32 a)).toNat
        (if rcpOk near s m e c then c else near, flNX)

/-- 1/√(m × 2^e) rounded to nearest even. -/
def rsqNear (m : Nat) (e : Int) : Nat :=
  let m' := if e % 2 = 0 then m else 2 * m
  let t := (if e % 2 = 0 then e else e - 1) / 2
  let r := isqrt (2 ^ 160 / m')
  (fround 23 0 false (2 * r + (if r * r * m' = 2 ^ 160 then 0 else 1)) (-81 - t)).1
/-- Within 2 ulp of 1/√x. -/
def rsqOk (near m : Nat) (e : Int) (c : Nat) : Bool :=
  let u : Dy := ⟨2, (ulpOf near).e⟩
  let v := dyBits c
  let x : Dy := ⟨m, e⟩
  let lo := v.add ⟨-u.m, u.e⟩
  let hi := v.add u
  normalOf c false && ((lo.mul lo).mul x).le ⟨1, 0⟩ && (⟨1, 0⟩ : Dy).le ((hi.mul hi).mul x)

/-- VRSQ (R114). -/
def fRsq (a : Nat) : Nat × Nat :=
  match fval 23 a with
  | .nan s => (fNaN 23, if s then flNV else 0)
  | .inf s => if s then (fNaN 23, flNV) else (0, 0)
  | .fin s m e =>
    if m = 0 then (fInf 23 s, flDZ)
    else if s then (fNaN 23, flNV)
    else
      let near := rsqNear m e
      let n : Int := e + (Nat.log2 m : Int)
      let exact := m == 2 ^ Nat.log2 m && n % 2 == 0
      if exact && decide (-126 ≤ n) then (near, 0)
      else
        let c := (Config.rsq (BitVec.ofNat 32 a)).toNat
        let r := if rsqOk near m e c then c else near
        (r, if exact && r == near then 0 else flNX)

/-- 2^f for the fraction f of 64 bits, to 80 places: a product of square roots of square roots of 2. -/
def exp2Frac (f : Nat) : Nat → Nat → Nat → Nat
  | 0, _, acc => acc
  | n + 1, root, acc =>
    let root := isqrt (root * 2 ^ 80)
    exp2Frac f n root (if f.testBit n then acc * root / 2 ^ 80 else acc)

/-- Whether a candidate lies within 2 ulp of both ends of the interval in which 2^x lies: v × 2^(n-80) and 2^18 of those places
above (R114; log entry 8). -/
def exp2Ok (near v : Nat) (n : Int) (c : Nat) : Bool :=
  let e := (ulpOf near).e
  let x := dyBits c
  normalOf c false && (x.add ⟨-(v : Int), n - 80⟩).le ⟨2, e⟩ && (⟨-2, e⟩ : Dy).le (x.add ⟨-((v : Int) + 2 ^ 18), n - 80⟩)

/-- VEXP2 (R114). -/
def fExp2 (a : Nat) : Nat × Nat :=
  match fval 23 a with
  | .nan s => (fNaN 23, if s then flNV else 0)
  | .inf s => if s then (0, 0) else (fInf 23 false, 0)
  | .fin s m e =>
    if m = 0 then (0x3F800000, 0)
    else
      let x : Int := if 0 ≤ e then (if s then -1 else 1) * m * 2 ^ (min e.toNat 200) * 2 ^ 64
        else (((if s then -1 else 1) * (m : Int)) * 2 ^ 64).fdiv (2 ^ (-e).toNat)
      let n := x.fdiv (2 ^ 64)
      let f := (x - n * 2 ^ 64).toNat
      let whole := decide (0 ≤ e) || m % 2 ^ (-e).toNat == 0
      if 128 ≤ n then (fInf 23 false, flOF + flNX)
      else if n < -126 then (0, flUF + flNX)
      else if whole then ((n + 127).toNat * 2 ^ 23, 0)
      else
        let v := exp2Frac f 64 (2 * 2 ^ 80) (2 ^ 80)
        let near := (fround 23 0 false (2 * v + 1) (n - 81)).1
        let c := (Config.exp2 (BitVec.ofNat 32 a)).toNat
        (if exp2Ok near v n c then c else near, flNX)

end Sys2Proof.Machine
end

