-- ==== Sys2Proof/Machine/Flags.lean ====
section
/-! DEFINITION. FRM and FFLAGS (R106 to R110), lanes and predication (R102, R120, R121), and the forms of the vector
instructions: what they read, which lanes they write, what becomes of the poison bit (R117). -/

namespace Sys2Proof.Machine

/-- FRM.RM of the current context. -/
def State.frm (s : State) : Nat := bits (s.my.cwv cwFRM) 1 0
/-- Flags are sticky: add some (R107). -/
def State.addFlags (s : State) (fl : Nat) : State :=
  s.setMy (s.my.setCw cwFFLAGS (s.my.cwv cwFFLAGS ||| word (fl % 32)))

/-- Bits of an element width. -/
def wbits (w : Width) : Nat :=
  match w with
  | .i8 => 8 | .i16 => 16 | .i32 => 32 | .i64 => 64
/-- Fraction bits of a format. -/
def ffrac (f : FFmt) : Nat :=
  match f with
  | .f32 => 23 | .bf16 => 7
/-- Bits of a format. -/
def fbits (f : FFmt) : Nat :=
  match f with
  | .f32 => 32 | .bf16 => 16

/-- Lanes of width w of a register, lane 0 first. -/
def lanes (w : Nat) (v : VWord) : List Nat := (upto 0 (512 / w)).map (fun n => v.toNat / 2 ^ (w * n) % 2 ^ w)
/-- A register from its lanes. -/
def ofLanes (w : Nat) (l : List Nat) : VWord := BitVec.ofNat 512 (l.foldr (fun x a => x % 2 ^ w + 2 ^ w * a) 0)
/-- Activity of the lanes of width w under a predicate: bit B × n for lane n (R120). -/
def actives (w : Nat) (q : Word) : List Bool := (upto 0 (512 / w)).map (fun n => bit q (w / 8 * n))
/-- A lane as a signed number. -/
def slane (w x : Nat) : Int := if x.testBit (w - 1) then (x : Int) - 2 ^ w else x
/-- A signed number as a lane. -/
def ulane (w : Nat) (x : Int) : Nat := (x % 2 ^ w).toNat

/-- Write the active lanes of vd; the poison bit clears when every lane is written (R117, R121). -/
def State.setLanes (s : State) (vd : Reg) (w : Nat) (act : List Bool) (new : List Nat) : State :=
  let old := lanes w (s.v vd)
  let res := (act.zip (new.zip old)).map (fun e => if e.1 then e.2.1 else e.2.2)
  let x := s.my.setV vd (ofLanes w res)
  s.setMy (if act.all id then x.cleanV vd else x)

/-- OP vd, va, vb {, q} on lanes of width w (R127, R128). -/
def opVec2 (s : State) (i : Instr) (w : Nat) (vd va vb : Reg) (q : PReg) (f : Nat → Nat → Nat) : Out :=
  .next (s.slotOnly i (s.guardP [] [va, vb]
    ((s.setLanes vd w (actives w (s.q q)) (List.zipWith f (lanes w (s.v va)) (lanes w (s.v vb)))).advance)))
/-- OP vd, va {, q}. -/
def opVec1 (s : State) (i : Instr) (w : Nat) (vd va : Reg) (q : PReg) (f : Nat → Nat) : Out :=
  .next (s.slotOnly i (s.guardP [] [va]
    ((s.setLanes vd w (actives w (s.q q)) ((lanes w (s.v va)).map f)).advance)))

/-- Results and flags of lanes, flags of the active lanes only (R108). -/
def laneFlags (act : List Bool) (r : List (Nat × Nat)) : Nat :=
  (act.zip r).foldl (fun fl e => if e.1 then fl ||| e.2.2 else fl) 0

/-- A float form with results and flags per lane (R129). -/
def opFloat (s : State) (i : Instr) (w : Nat) (vd : Reg) (q : PReg) (srcs : List Reg) (r : List (Nat × Nat)) : Out :=
  .next (s.slotOnly i (s.guardP [] srcs
    (let act := actives w (s.q q)
     ((s.setLanes vd w act (r.map (fun e => e.1))).addFlags (laneFlags act r)).advance)))

/-- The predicate bits of a compare: each active lane's group of B bits takes the result, the others clear (R121). -/
def groupBits (w : Nat) (r : List Bool) : Word :=
  word (r.foldr (fun b a => (if b then 2 ^ (w / 8) - 1 else 0) + 2 ^ (w / 8) * a) 0)

/-- VCMP.cc qd, va, vb {, q} (R130). -/
def opCmp (s : State) (i : Instr) (w : Nat) (qd : PReg) (va vb : Reg) (q : PReg) (f : Nat → Nat → Bool × Nat) : Out :=
  .next (s.slotOnly i (s.guardP [] [va, vb]
    (let act := actives w (s.q q)
     let r := List.zipWith f (lanes w (s.v va)) (lanes w (s.v vb))
     let fl := (act.zip r).foldl (fun fl e => if e.1 then fl ||| e.2.2 else fl) 0
     ((s.setQ qd (groupBits w ((act.zip r).map (fun e => e.1 && e.2.1)))).addFlags fl).advance)))

end Sys2Proof.Machine
end

