-- ==== Sys2Proof/Machine/Atomics.lean ====
section
/-! DEFINITION. FENCE, LDA, STL, CAS and AMO (R283 to R289). What a context issues on its own device in a cycle is performed before
its next instructions issue, in the banks that cycle and at a home slice at the start of the next, so a release has nothing to
wait for there but the tile reads of a live frame, for which the store of an STL waits; toward another device a store is accepted as it is sent, and a release waits for no more (R281; log entry 6). -/

namespace Sys2Proof.Machine

/-- FENCE (R284): sets rr (bit 3), rw, wr, ww. One that names older loads waits for those of another device that are not performed
yet; every older store is performed, or accepted by the fabric port. -/
def execFence (_ : Scope) (sets : BitVec 4) (s : State) : Out :=
  .next (if (sets.getLsbD 3 || sets.getLsbD 2) && s.anyLoad s.cur then s else s.advance)

/-- Bytes of a width. -/
def memBytes (wd : MemW) : Nat :=
  match wd with
  | .b => 1 | .h => 2 | .w => 4 | .d => 8

/-- LDA.w.s gd, [ga] (R285, R289). -/
def execLda (wd : MemW) (sc : Scope) (gd ga : Reg) (s : State) : Out :=
  let n := memBytes wd
  .next (s.guardP [ga] []
    (match s.access (.lda wd sc gd ga) (s.g ga) ⟨n, true, false, false, true, false⟩ with
     | (s, none) => s
     | (s, some (.own off)) =>
       let (bs, bad) := s.bankRead s.cur.core off n
       let s := s.localRecord s.cur.core off bad
       s.setMy (s.my.load gd (extend bs n false) bad).advance
     | (s, some w) =>
       if s.mayIssue s.cur 1 = false then s.stallOreq 1
       else
         let s := s.fresh
         ((s.addOut s.cur s.nextId true (.g gd n false) true true (s.wherePa w) n).request w s.nextId (.read n) true).advance))

/-- Whether older tile reads of a frame, or an older store that waits for them, hold back the store of an STL (R280, R285). -/
def State.storeWaits (s : State) : Bool := s.my.tilesAhead || decide (0 < s.my.late)
/-- Whether the store of an STL may wait apart from its instruction: it has no stash line to keep and no channel to count on, whose
state could change meanwhile (log entry 6). -/
def State.mayHold (s : State) (w : Where) : Bool :=
  match w with
  | .own off => (s.myCore.stashAt off).isNone
  | .far _ => !bit (s.my.cwv cwMCHSEL) 63
  | _ => true
/-- Issue an STL whose store waits: it takes its entry, and younger instructions go on (R69, R285). -/
def State.lateStore (s : State) (w : Where) (bs : List Byte) : State :=
  let own := !w.away
  if s.mayHold w = false then s.stall
  else if !own && !s.mayIssue s.cur 1 then s.stallOreq 1
  else
    let s := s.fresh
    let r : Request := ⟨s.cur, s.nextId, s.wherePa w, .write bs 0, s.colourOf s.cur, s.regionOf s.cur, s.catOf s.cur⟩
    let s := if own then s else s.addOut s.cur s.nextId false .none true
    let s := s.setMy { s.my with late := s.my.late + 1 }
    (s.after 1 (.heldStore r own)).advance

/-- STL.w.s [ga], gb (R285, R289). -/
def execStl (wd : MemW) (sc : Scope) (ga gb : Reg) (s : State) : Out :=
  let n := memBytes wd
  .next (s.guardP [ga, gb] []
    (match s.access (.stl wd sc ga gb) (s.g ga) ⟨n, false, true, false, true, false⟩ with
     | (s, none) => s
     | (s, some w) =>
       let bs := leBytes n (s.g gb).toNat
       if s.storeWaits then s.lateStore w bs
       else match w with
       | .own off => (s.bankWrite s.cur.core off bs false).advance
       | w => s.issueStore w (.write bs 0)))

/-! ### Read-modify-writes -/

/-- The value an atomic writes on n bytes, none for a failed CAS (R288). -/
def amoNew (op : AmoOp) (n old a expected : Nat) : Option Nat :=
  let m := 2 ^ (8 * n)
  let a' := a % m
  let sg := slane (8 * n)
  match op with
  | .cas => if old = expected % m then some a' else none
  | .add => some ((old + a') % m)
  | .and => some (old &&& a')
  | .or => some (old ||| a')
  | .xor => some (old ^^^ a')
  | .min => some (if sg a' < sg old then a' else old)
  | .max => some (if sg old < sg a' then a' else old)
  | .minu => some (min old a')
  | .maxu => some (max old a')
  | .swap => some a'
  | .fadd => some (fadd 23 0 old (a % 2 ^ 32)).1

/-- Whether an atomic on a clean word writes. -/
def State.amoWrites (s : State) (loc : Nat) (op : AmoOp) (w32 : Bool) (a expected : Word) : Bool :=
  let n := if w32 then 4 else 8
  !s.readBad loc n && (amoNew op n (s.readLE loc n) a.toNat expected.toNat).isSome

/-- Perform an atomic on n bytes at a memory key: the old value and its poison; a poisoned word is not written (R288). -/
def State.amoAt (s : State) (loc : Nat) (op : AmoOp) (w32 : Bool) (a expected : Word) : State × Nat × Bool :=
  let n := if w32 then 4 else 8
  let old := s.readLE loc n
  if s.readBad loc n then (s, old, true)
  else match amoNew op n old a.toNat expected.toNat with
  | some v => (s.poke loc (leBytes n v) false, old, false)
  | none => (s, old, false)

/-- The old value as gd takes it: a poisoned one as it was read (R288). -/
def amoResult (w32 fadd : Bool) (old : Nat) (bad : Bool) : Word :=
  if w32 && !fadd && !bad then sextW 32 (BitVec.ofNat 32 old) else word old

/-- The Map L operation number (R41). -/
def amoCode (op : AmoOp) : Nat :=
  match op with
  | .cas => 3 | .add => 4 | .and => 5 | .or => 6 | .xor => 7 | .min => 8 | .max => 9 | .minu => 10 | .maxu => 11
  | .swap => 12 | .fadd => 13
/-- The operation of a number. -/
def amoOfCode (n : Nat) : Option AmoOp :=
  match n with
  | 3 => some .cas | 4 => some .add | 5 => some .and | 6 => some .or | 7 => some .xor | 8 => some .min | 9 => some .max
  | 10 => some .minu | 11 => some .maxu | 12 => some .swap | 13 => some .fadd | _ => none

/-- The atomic operation message that a fabric port hands to a core (R286). -/
def amoMessage (tag colour region cat off : Nat) (op : AmoOp) (w32 : Bool) (a expected : Word) : ActMsg :=
  { typ := 5, rcls := 0, colour := colour, region := region, tag := tag, cat := cat,
    entry := word (off + amoCode op * 2 ^ 32 + w32.toNat * 2 ^ 37), payload := [a, expected, 0, 0, 0, 0], raddr := 0,
    cv := false, cnt := 0, status := 0 }

/-- A fabric port takes a .sys atomic on a local word and hands it to the core (R286). -/
def State.sysAtomic (s : State) (src : Nat) (c : CtxId) (id pa colour region cat : Nat) (op : AmoOp) (w32 : Bool)
    (a expected : Word) : State :=
  let tag := s.plat.sysTag
  let s := { s with plat := { s.plat with sysTag := (tag + 1) % 65536, sysOps := s.plat.sysOps ++ [SysOp.mk tag c id src] } }
  s.post (.messageArrival (paCoreId pa) (s.routedMsg (paDie pa) (amoMessage tag colour region cat (paOff pa) op w32 a expected)))

/-- Rank of a scope (R276). -/
def scopeRank (sc : Scope) : Nat :=
  match sc with
  | .blk => 0 | .cls => 1 | .dev => 2 | .sys => 3

/-- The minimum scope for a location (R286): a translated address always names DRAM, whose minimum is .cls (R289); for local memory
of another device none is given, and its port takes every scope (R327). -/
def State.minScope (s : State) (w : Where) : Nat :=
  match w with
  | .own _ => 0
  | .core pa =>
    if paCoreId pa = s.cur.core then 0 else if (paCoreId pa).cluster = s.cur.core.cluster then 1 else 2
  | .dram _ => 1
  | .far pa => if paOnDie pa then 0 else 1

/-- Wait for an atomic's old value. -/
def State.awaitAtomic (s : State) (id : Nat) (gd : Reg) (w32 fadd : Bool) (va : Word) : State :=
  s.setMy { s.my with wait := .atomic id gd w32 fadd va }

/-- CAS and AMO (R286 to R289). -/
def opAtomic (s : State) (i : Instr) (op : AmoOp) (w32 : Bool) (sc : Scope) (gd ga gb : Reg) : Out :=
  let n := if w32 then 4 else 8
  let isF := op == .fadd
  .next (s.guardP (if op = .cas then [ga, gb, gd] else [ga, gb]) []
    (let va := s.g ga
      if va.toNat % n ≠ 0 then s.raise 0x03 va
      else match s.resolve i va ⟨n, true, true, false, true, false⟩ with
      | (s, none) => s
      | (s, some w) =>
        let a := s.g gb
        let e := if op = .cas then s.g gd else 0
        if scopeRank sc < s.minScope w then s.raise 0x05 va
        else s.watched [(va.toNat, n)] true true (
          let c := s.cur
          match w, sc with
          | .own off, .sys =>
            let s := s.fresh
            let s := (s.addOut c s.nextId true .none false false (s.corePa c.core off) n).awaitAtomic s.nextId gd w32 isF va
            (s.sysAtomic s.dev c s.nextId (s.corePa c.core off) (s.colourOf c) (s.regionOf c) (s.catOf c) op w32 a e).after
              (s.ftime c.core.cluster) (.replyTimeout c s.nextId)
          | .own off, _ =>
            let (s, old, bad) := s.amoAt (localLoc c.core off) op w32 a e
            let s := s.localRecord c.core off bad
            s.setMy (s.my.load gd (amoResult w32 isF old bad) bad).advance
          | w, sc =>
            if s.mayIssue c 1 = false then s.stallOreq 1
            else
              let s := s.fresh
              let id := s.nextId
              let s := (s.addOut c id true .none true false (s.wherePa w) n).awaitAtomic id gd w32 isF va
              match w, sc with
              | .core pa, .sys =>
                (s.sysAtomic s.dev c id pa (s.colourOf c) (s.regionOf c) (s.catOf c) op w32 a e).after
                  (s.ftime c.core.cluster) (.replyTimeout c id)
              | .dram pa, .cls =>
                s.post (.clusterUnitAtomic ⟨c, id, pa, .rmw op w32 a e, s.colourOf c, s.regionOf c, s.catOf c⟩)
              | .dram pa, .sys =>
                (s.post (.remoteRequest s.dev ⟨c, id, pa, .rmw op w32 a e, s.colourOf c, s.regionOf c, s.catOf c⟩)).after
                  (s.ftime c.core.cluster) (.replyTimeout c id)
              | w, _ => s.request w id (.rmw op w32 a e) true)))

/-- CAS. -/
def execCas (w32 : Bool) (sc : Scope) (gd ga gb : Reg) (s : State) : Out :=
  opAtomic s (.cas w32 sc gd ga gb) .cas w32 sc gd ga gb
/-- AMO.ADD. -/
def execAmoAdd (w32 : Bool) (sc : Scope) (gd ga gb : Reg) (s : State) : Out :=
  opAtomic s (.amoAdd w32 sc gd ga gb) .add w32 sc gd ga gb
/-- AMO.AND. -/
def execAmoAnd (w32 : Bool) (sc : Scope) (gd ga gb : Reg) (s : State) : Out :=
  opAtomic s (.amoAnd w32 sc gd ga gb) .and w32 sc gd ga gb
/-- AMO.OR. -/
def execAmoOr (w32 : Bool) (sc : Scope) (gd ga gb : Reg) (s : State) : Out :=
  opAtomic s (.amoOr w32 sc gd ga gb) .or w32 sc gd ga gb
/-- AMO.XOR. -/
def execAmoXor (w32 : Bool) (sc : Scope) (gd ga gb : Reg) (s : State) : Out :=
  opAtomic s (.amoXor w32 sc gd ga gb) .xor w32 sc gd ga gb
/-- AMO.MIN. -/
def execAmoMin (w32 : Bool) (sc : Scope) (gd ga gb : Reg) (s : State) : Out :=
  opAtomic s (.amoMin w32 sc gd ga gb) .min w32 sc gd ga gb
/-- AMO.MAX. -/
def execAmoMax (w32 : Bool) (sc : Scope) (gd ga gb : Reg) (s : State) : Out :=
  opAtomic s (.amoMax w32 sc gd ga gb) .max w32 sc gd ga gb
/-- AMO.MINU. -/
def execAmoMinu (w32 : Bool) (sc : Scope) (gd ga gb : Reg) (s : State) : Out :=
  opAtomic s (.amoMinu w32 sc gd ga gb) .minu w32 sc gd ga gb
/-- AMO.MAXU. -/
def execAmoMaxu (w32 : Bool) (sc : Scope) (gd ga gb : Reg) (s : State) : Out :=
  opAtomic s (.amoMaxu w32 sc gd ga gb) .maxu w32 sc gd ga gb
/-- AMO.SWAP. -/
def execAmoSwap (w32 : Bool) (sc : Scope) (gd ga gb : Reg) (s : State) : Out :=
  opAtomic s (.amoSwap w32 sc gd ga gb) .swap w32 sc gd ga gb
/-- AMO.FADD: always 32-bit. -/
def execAmoFadd (sc : Scope) (gd ga gb : Reg) (s : State) : Out :=
  opAtomic s (.amoFadd sc gd ga gb) .fadd true sc gd ga gb

end Sys2Proof.Machine
end

