-- ==== Sys2Proof/Machine/Branch.lean ====
section
/-! DEFINITION. Branches and jumps (R89 to R91). -/

namespace Sys2Proof.Machine

/-- BEQ (R29, R89). -/
def execBeq (sa sb : Reg) (disp : BitVec 16) (s : State) : Out := opBranch s sa sb disp (fun a b => a == b)
/-- BNE (R29, R89). -/
def execBne (sa sb : Reg) (disp : BitVec 16) (s : State) : Out := opBranch s sa sb disp (fun a b => a != b)
/-- BLT (R29, R89). -/
def execBlt (sa sb : Reg) (disp : BitVec 16) (s : State) : Out := opBranch s sa sb disp (fun a b => lts a b)
/-- BGE (R29, R89). -/
def execBge (sa sb : Reg) (disp : BitVec 16) (s : State) : Out := opBranch s sa sb disp (fun a b => !lts a b)
/-- BLTU (R29, R89). -/
def execBltu (sa sb : Reg) (disp : BitVec 16) (s : State) : Out := opBranch s sa sb disp (fun a b => ltu a b)
/-- BGEU (R29, R89). -/
def execBgeu (sa sb : Reg) (disp : BitVec 16) (s : State) : Out := opBranch s sa sb disp (fun a b => !ltu a b)
/-- J (R29, R90). -/
def execJ (disp : BitVec 26) (s : State) : Out := .next (s.jump (s.my.pc + 4 * sextW 26 disp))
/-- JAL: g1 takes the return address (R29, R90). -/
def execJal (disp : BitVec 26) (s : State) : Out :=
  .next ((s.setG 1 (s.my.pc + 4)).jump (s.my.pc + 4 * sextW 26 disp))
/-- JALR: a target that is not word-aligned raises fault 0x03 and leaves gd (R91). -/
def execJalr (gd ga : Reg) (s : State) : Out :=
  .next (s.guardP [ga] []
    (if bits (s.g ga) 1 0 != 0 then s.raise 0x03 (s.g ga) else (s.setG gd (s.my.pc + 4)).jump (s.g ga)))

end Sys2Proof.Machine
end

