-- ==== Sys2Proof/Machine/Counters.lean ====
section
/-! DEFINITION. Counter instructions and counter events (R252 to R258, R339). -/

namespace Sys2Proof.Machine

/-- The counter that a local offset of the counter area names. -/
def ctrNo (off : Nat) : BitVec 6 := BitVec.ofNat 6 ((off - 0x80000) / 4)

/-- The address checks of a counter instruction (R257 steps 3 and 4); `own` forms take the local range only. -/
def State.counterAt (s : State) (va : Word) (own : Bool) : State × Option Where :=
  if va.toNat % 4 ≠ 0 then (s.raise 0x03 va, none)
  else match s.place va with
  | .loc off => if areaOf off = .ctrs then (s, some (.own off)) else (s.raise 0x05 va, none)
  | .win pa =>
    if own ∨ areaOf (paOff pa) ≠ .ctrs ∨ s.windowOk s.cur pa = false then (s.raise 0x05 va, none)
    else if s.colourKnown pa = false then (s.askColour pa, none)
    else (s, some (if paDev pa = s.dev then .core pa else .far pa))
  | _ => (s.raise 0x05 va, none)

/-- Whether the region's MASK withholds a counter from a task-mode context (R253). -/
def State.masked (s : State) (n : BitVec 6) : Bool :=
  !s.sup s.cur && !bit s.basic.mask n.toNat

/-- MBINC{.R} ga, gb. Older stores of the context to this device have been performed, so .R waits for nothing (R258). -/
def execMbinc (_ : Bool) (ga gb : Reg) (s : State) : Out :=
  .next (s.guardP [ga, gb] []
    (let va := s.g ga
     let v := bits (s.g gb) 31 0
     match s.counterAt va false with
     | (s, none) => s
     | (s, some w) =>
       s.watched [(va.toNat, 4)] false true
         (match w with
          | .own off => (s.post (.counterChange s.cur.core (ctrNo off) false (BitVec.ofNat 32 v) false)).advance
          | w => s.issueStore w (.inc v false))))

/-- MBRD gd, ga. -/
def execMbrd (gd ga : Reg) (s : State) : Out :=
  .next (s.guardP [ga] []
    (let va := s.g ga
     match s.counterAt va false with
     | (s, none) => s
     | (s, some w) =>
       s.watched [(va.toNat, 4)] true false
         (match w with
          | .own off => s.done gd (word (s.ctr s.cur.core (ctrNo off).toNat).toNat)
          | w => s.issueLoad w 4 (.g gd 4 false))))

/-- MBSET ga, gb. -/
def execMbset (ga gb : Reg) (s : State) : Out :=
  .next (s.guardP [ga, gb] []
    (let va := s.g ga
     let v := BitVec.ofNat 32 (bits (s.g gb) 31 0)
     match s.counterAt va true with
     | (s, some (.own off)) =>
       if s.masked (ctrNo off) then s.raise 0x0B 4
       else s.watched [(va.toNat, 4)] false true ((s.setCtr s.cur.core (ctrNo off) v).advance)
     | (s, _) => s))

/-- A wait whose test held ends. -/
def State.endWait (s : State) (gd : Option Reg) : State :=
  match gd with
  | some r => s.done r 1
  | none => s.advance

/-- MBWAIT and MBWAIT.T (R256): the operands are sampled at issue; the wait ends once a test held. MPOIS is tested when
the test holds, before the watchpoints (R339, R375). -/
def opMbwait (s : State) (gd : Option Reg) (ga gb : Reg) : Out :=
  .next (match s.my.wait with
    | .counter _ _ _ gd' met => if met then s.endWait gd' else s
    | _ =>
      s.guardP [ga, gb] []
        (let va := s.g ga
         let t := BitVec.ofNat 32 (bits (s.g gb) 31 0)
         match s.counterAt va true with
         | (s, some (.own off)) =>
           let n := ctrNo off
           let holds := ctrTest (s.ctr s.cur.core n.toNat) t
           if s.masked n then s.raise 0x0B 4
           else if holds && bit (s.myCore.cwv cwMPOIS) n.toNat then s.raise 0x0F va
           else s.watched [(va.toNat, 4)] true false
             (if holds then s.endWait gd
              else
                let s := s.fresh
                let s := s.setMy { s.my with wait := .counter n t s.nextId gd false }
                if gd.isSome then s.after (bits (s.my.cwv cwMTIME) 31 0) (.mbwaitTimeout s.cur s.nextId) else s)
         | (s, _) => s))

/-- MBWAIT ga, gb. -/
def execMbwait (ga gb : Reg) (s : State) : Out := opMbwait s none ga gb
/-- MBWAIT.T gd, ga, gb. -/
def execMbwaitT (gd ga gb : Reg) (s : State) : Out := opMbwait s (some gd) ga gb

/-- MBWAIT_TIMEOUT: the deadline passes and the test does not hold (R256). -/
def execMbwaitTimeout (s : State) : Out :=
  .next (match s.event with
    | .mbwaitTimeout c id =>
      match (s.ctx c).wait with
      | .counter _ _ id' (some gd) false => if id' = id then s.setCtx c ((s.ctx c).setG gd 0).advance else s
      | _ => s
    | _ => s)

/-- COUNTER_CHANGE: an increment or a set at the counter's core; a poisoned increment marks MPOIS first (R254, R339). -/
def execCounterChange (s : State) : Out :=
  .next (match s.event with
    | .counterChange k n set v bad =>
      let x := s.core k
      let s := if bad then s.setCore k (x.setCw cwMPOIS (x.cwv cwMPOIS ||| word (2 ^ n.toNat))) else s
      s.setCtr k n (if set then v else s.ctr k n.toNat + v)
    | .counterFromAbove k n bad =>
      let x := s.core k
      let s := if bad then s.setCore k (x.setCw cwMPOIS (x.cwv cwMPOIS ||| word (2 ^ n.toNat))) else s
      s.setCtr k n (s.ctr k n.toNat + 1)
    | _ => s)

end Sys2Proof.Machine
end

