-- ==== Sys2Proof/Machine/Engines.lean ====
section
/-! DEFINITION. Engine ports, the copy engine e0 and the index engine e1 (R259 to R274). A started command runs chunk by
chunk in ascending order, and goes on later from the chunk at which it parked or waited (R268, R269). -/

namespace Sys2Proof.Machine

/-! ### Accepting commands (R259, R262, R266) -/

/-- Reservations a context holds on a port, and how many of them are unread completions. -/
def State.held (s : State) (c : CtxId) (p : Nat) : Nat × Nat :=
  let x := (s.core c.core).port p
  let done := (x.done.filter (fun d => d.ctx == c.ctx.val)).length
  ((x.cmds.filter (fun d => d.ctx == c.ctx.val)).length + done, done)
/-- The most reservations a context may hold on a port. -/
def portLimit (c : CtxId) : Nat := if c.isHandler then 2 else 3

/-- Four consecutive registers. -/
def reqRegs (ga : Reg) : List Reg := [ga, ga + 1, ga + 2, ga + 3]

/-- A command of the current context with what it samples at issue. -/
def State.newCommand (s : State) (ga : Reg) (kind : CmdKind) (st : CmdState) : Command :=
  { id := s.nextId, ctx := s.cur.ctx.val, orphan := false, kind := kind, state := st, w0 := s.g ga, w1 := s.g (ga + 1),
    w2 := s.g (ga + 2), w3 := s.g (ga + 3), mchsel := s.my.cwv cwMCHSEL, region := s.regionOf s.cur,
    colour := s.colourOf s.cur, sup := s.sup s.cur, cat := s.catOf s.cur, plim := (s.basicOf s.cur).plim }

/-- Take a reservation and a command entry, and start what may start (R259). -/
def State.accept (s : State) (p : Nat) (c : Command) : State :=
  let k := s.cur.core
  let x := s.myCore.port p
  (s.setPort k p { x with cmds := x.cmds ++ [c] }).pump k p 4

/-- The end of issue of an engine command: a full share faults, waits, or is told; else the command is accepted (R262,
R266 item 7). -/
def State.enqueue (s : State) (p : Nat) (ga : Reg) (kind : CmdKind) (st : CmdState) (gd : Option Reg) : State :=
  let h := s.held s.cur p
  if portLimit s.cur ≤ h.1 then
    match gd with
    | some r => s.done r 0
    | none => if portLimit s.cur ≤ h.2 then s.raise 0x0A 1 else s.stall
  else
    let s := s.fresh
    let s := s.accept p (s.newCommand ga kind st)
    match gd with
    | some r => s.done r 1
    | none => s.advance

/-- Word 3 of a request without RCV and RCN: NQ without LCV is malformed (R267). -/
def word3Ok (w : Word) : Bool := bits w 55 0 == 0 && (!bit w 62 || bit w 63)

/-- Whether a request's address form, as visible at issue, is allowed (R267): local range, window, translated. -/
def State.formOk (s : State) (va : Word) (n : Nat) (loc win xl : Bool) : Bool :=
  match s.place va with
  | .loc off => loc && decide (off + n ≤ 0x40000)
  | .win pa => win && areaOf (paOff pa) == .mem && decide (paOff pa + n ≤ 0x40000)
  | .xl => xl
  | .bad => false

/-- ROP codes 1 to 5 belong to the reducing OP, 0 to the others. -/
def ropOk (red : Bool) (rop : Nat) : Bool := if red then decide (1 ≤ rop ∧ rop ≤ 5) else rop == 0
/-- Bytes of an element of a reduction (R267). -/
def elemSize (rop : Nat) : Nat := if rop = 2 then 2 else 4

/-- The first malformed word of a copy request (R267). -/
def State.copyFault (s : State) (w0 src dst w3 : Word) : Option Nat :=
  let op := bits w0 63 60
  let rop := bits w0 59 56
  let n := bits w0 31 0
  let red := op == 3
  let z := if red then elemSize rop else 1
  if 3 < op ∨ bits w0 55 48 ≠ 0 ∨ ropOk red rop = false ∨ n % z ≠ 0 then some 0
  else if s.formOk src n (op != 1) (op == 1) (op == 0 || op == 3) = false ∨ src.toNat % z ≠ 0 then some 1
  else if s.formOk dst n (op == 0 || op == 1) (op == 2 || op == 3) (op == 0 || op == 3) = false ∨ dst.toNat % z ≠ 0 then
    some 2
  else if bits w3 47 0 ≠ 0 ∨ bit w3 54 ∨ (op ≠ 2 ∧ bit w3 55) ∨ (bit w3 62 && !bit w3 63) then some 3
  else none

/-- The first malformed word of an index request (R270). -/
def indexFault (w0 w1 w2 w3 : Word) : Option Nat :=
  let op := bits w0 63 60
  let n := bits w0 31 0
  let idx := bits w1 49 32
  let shape := bits w1 17 0
  if 2 < op ∨ bits w0 55 48 ≠ 0 ∨ ropOk (op == 2) (bits w0 59 56) = false ∨ 65536 < n then some 0
  else if bits w1 63 50 ≠ 0 ∨ bits w1 31 18 ≠ 0 ∨ idx % 4 ≠ 0 ∨ shape % 32 ≠ 0 ∨ 0x40000 < idx + 4 * n then some 1
  else if bits w2 63 18 ≠ 0 then some 2
  else if word3Ok w3 = false then some 3
  else none

/-- The counter that a triggered command waits on: an own-core counter in the local range (R266 item 5). -/
def trigCounter (w : Word) : Option (BitVec 6) :=
  if areaOf w.toNat = .ctrs ∧ w.toNat % 4 = 0 then some (ctrNo w.toNat) else none

/-- ENQ and ENQT. -/
def opEnq (s : State) (t : Bool) (port : BitVec 2) (gd : Option Reg) (ga : Reg) : Out :=
  let p := port.toNat
  .next (s.guardP (reqRegs ga) []
    (if 2 ≤ p then s.raise 0x0A 3
     else match (if p = 0 then s.copyFault (s.g ga) (s.g (ga + 1)) (s.g (ga + 2)) (s.g (ga + 3))
        else indexFault (s.g ga) (s.g (ga + 1)) (s.g (ga + 2)) (s.g (ga + 3))) with
     | some k => s.raise 0x0A (word (0x10 + k))
     | none =>
       if t then
         match trigCounter (s.my.cwv cwETRIG) with
         | none => s.raise 0x0A 0x20
         | some n =>
           let tgt := (s.my.cwv cwETGT).setWidth 32
           if s.masked n then s.raise 0x0B 4
           else s.enqueue p ga .engine (if ctrTest (s.ctr s.cur.core n.toNat) tgt then .queued else .armed n tgt) gd
       else s.enqueue p ga .engine .queued gd))

/-- ENQ{.T} ep, ga. -/
def execEnq (t : Bool) (port : BitVec 2) (ga : Reg) (s : State) : Out := opEnq s t port none ga
/-- ENQT{.T} gd, ep, ga. -/
def execEnqt (t : Bool) (port : BitVec 2) (gd ga : Reg) (s : State) : Out := opEnq s t port (some gd) ga

/-! ### Completions (R263) -/

/-- Remove or change the first completion of a context. -/
def onFirst (c : Nat) (f : Completion → List Completion) : List Completion → List Completion
  | [] => []
  | d :: t => if d.ctx = c then f d ++ t else d :: onFirst c f t

/-- Take up an unread completion: a first sight of STATUS 0x02 faults, else it is popped. -/
def State.popCompletion (s : State) (p : Nat) (gd : Reg) (d : Completion) : State :=
  let k := s.cur.core
  let x := s.myCore.port p
  let put := fun f => s.setPort k p { x with done := onFirst s.cur.ctx.val f x.done }
  if bits d.word 62 56 = 2 ∧ d.reported = false then
    let s := put (fun d => [{ d with reported := true }])
    (s.setMy { s.my with wait := .none }).raise 0x06 d.word
  else (put (fun _ => [])).done gd d.word

/-- DEQ and DEQT. A wait that its last command left without a completion word ends as the instruction does that finds none in
flight. -/
def opDeq (s : State) (port : BitVec 2) (gd : Reg) (timed : Bool) : Out :=
  let p := port.toNat
  .next (match s.unread s.cur p with
    | some d => s.popCompletion p gd d
    | none =>
      if s.inFlightOn s.cur p = false then
        if timed then s.done gd 0 else (s.setMy { s.my with wait := .none }).raise 0x0A 2
      else match s.my.wait with
        | .completion _ _ _ _ => s
        | _ =>
          let s := s.fresh
          let s := s.setMy { s.my with wait := .completion port s.nextId gd timed }
          if timed then s.after (bits (s.my.cwv cwETIME) 31 0) (.deqtTimeout s.cur s.nextId) else s)

/-- DEQ gd, ep. -/
def execDeq (port : BitVec 2) (gd : Reg) (s : State) : Out := opDeq s port gd false
/-- DEQT gd, ep. -/
def execDeqt (port : BitVec 2) (gd : Reg) (s : State) : Out := opDeq s port gd true

/-- DEQT_TIMEOUT: the deadline passes with no completion (R263). -/
def execDeqtTimeout (s : State) : Out :=
  .next (match s.event with
    | .deqtTimeout c id =>
      match (s.ctx c).wait with
      | .completion p id' gd true =>
        if id' = id ∧ (s.unread c p.toNat).isNone then s.setCtx c ((s.ctx c).setG gd 0).advance else s
      | _ => s
    | _ => s)

/-- TRIGGERED_COMMAND_START: the counter's test held (R262). -/
def execTriggeredCommandStart (s : State) : Out :=
  .next (match s.event with
    | .triggeredCommandStart k p id =>
      let x := (s.core k).port p.toNat
      (s.setPort k p.toNat (x.update id (fun c => match c.state with
        | .armed _ _ => { c with state := .queued }
        | _ => c))).pump k p.toNat 4
    | _ => s)

/-! ### What a started command does (R264, R268) -/

/-- A started command of a port. -/
def Port.running (x : Port) (id : Nat) : Option Command := x.cmds.find? (fun c => c.id == id && c.state == .started)
/-- Put a command back. -/
def State.putCmd (s : State) (k : CoreId) (p : Nat) (c : Command) : State :=
  s.setPort k p (((s.core k).port p).update c.id (fun _ => c))

/-- An access of a command meets a not-present page: it parks, or this was a failed retry (R264, R313, R315). -/
def State.engPark (s : State) (k : CoreId) (p : Nat) (c : Command) (va : Word) (kind aux : Nat) : State :=
  let pm := s.parkMax k.cluster
  let hold := fun (s : State) (interval failed : Nat) =>
    let c := { c with interval := interval, failed := failed, parkVa := va, due := s.time + interval }
    (s.putCmd k p c).after interval (s.cmdEvent k p c)
  if c.interval ≠ 0 ∧ c.parkVa = va then
    let s := if pm ≤ c.interval then s.pager k c.region va.toNat kind c.cat true else s
    let lim := c.plim
    if (lim ≠ 0 ∧ lim ≤ c.failed + 1) ∨ (lim = 0 ∧ pm ≤ c.interval) then s.complete k p c 0x03 aux
    else hold s (min (2 * c.interval) pm) (c.failed + 1)
  else hold ((s.count k 0x0C (some c.region) 1).pager k c.region va.toNat kind c.cat true) 256 0

/-- What becomes of the parts of a chunk's address range. -/
inductive Placed
  | ok (parts : List (Nat × Nat))
  | park (va : Word)
  | ask (pa : Nat)
  | stop
  deriving DecidableEq, Repr

/-- The parts of at most 64 bytes at va that lie in one 64-byte line. -/
def lineParts (va : Word) (n : Nat) : List (Word × Nat) :=
  let k := min n (64 - va.toNat % 64)
  if k = n then [(va, n)] else [(va, k), (va + word k, n - k)]

/-- Translate an address for a command; the retry of the address it is parked at walks from ROOT (R313). -/
def State.engTranslate (s : State) (k : CoreId) (c : Command) (va : Word) : State × Tr :=
  if c.interval ≠ 0 ∧ c.parkVa = va then s.rewalk k c.region va.toNat false else s.translate k c.region va.toNat false

/-- Whether a window address of another device passes R209 for a command, where it has heard of it (log entry 13). -/
def Command.heard (c : Command) (pa : Nat) : Option Bool := if c.colour = 0 then some true else colourHeard c.rbuf c.rpois pa
/-- Resolve parts for a command: its context's region, colour and mode (R264, R312). -/
def State.engPlaces (s : State) (k : CoreId) (c : Command) (rd wr loc : Bool) : List (Word × Nat) → State × Placed
  | [] => (s, .ok [])
  | (va, n) :: t =>
    let more := fun (s : State) (pa : Nat) =>
      match s.engPlaces k c rd wr loc t with
      | (s, .ok l) => (s, .ok ((pa, n) :: l))
      | r => r
    match s.place va with
    | .loc off => if loc && decide (off + n ≤ 0x40000) then more s (s.corePa k off) else (s, .stop)
    | .win pa =>
      if areaOf (paOff pa) = .mem ∧ paOff pa + n ≤ 0x40000 then
        match (if paDev pa = s.dev then some (s.colourOk (paCoreId pa) c.colour) else c.heard pa) with
        | some true => more s pa
        | some false => (s, .stop)
        | none => (s, .ask pa)
      else (s, .stop)
    | .xl =>
      match s.engTranslate k c va with
      | (s, .absent) => (s, .park va)
      | (s, .fault _) => (s, .stop)
      | (s, .ok pa e) => if e.allows rd wr false c.sup && s.dramOk pa then more s pa else (s, .stop)
    | .bad => (s, .stop)

/-- Bytes of another device that have arrived for a command. -/
def Command.has (c : Command) (pa n : Nat) : Bool := (upto pa n).all (fun a => (c.rbuf.find? (fun e => e.1 == a)).isSome)

/-- Ask another device for bytes of a command, kept from a key on (R327, R329). -/
def State.engAskTo (s : State) (k : CoreId) (p : Nat) (c : Command) (key pa n : Nat) (kind : ReqKind) : State :=
  let s := s.putCmd k p c
  let s := s.fresh
  let i := ctxAt k c.ctx
  let s := s.addOut i s.nextId true (.cmd (BitVec.ofNat 2 p) c.id key) false false pa n (some c.region) (some c.colour)
  let s := s.fabric (.request s.dev (paDev pa) ⟨i, s.nextId, pa, kind, c.colour, c.region, c.cat⟩)
  s.after (s.ftime k.cluster) (.replyTimeout i s.nextId)
/-- Ask another device for bytes of a command. -/
def State.engAsk (s : State) (k : CoreId) (p : Nat) (c : Command) (pa n : Nat) : State := s.engAskTo k p c pa pa n (.read n)

/-- Read one part: a byte and its poison for each address, with the poison record (R378). -/
def State.engRead1 (s : State) (k : CoreId) (c : Command) (pa n : Nat) : State × List (Byte × Bool) :=
  if paDev pa ≠ s.dev then (s, (upto pa n).map (fun a => (tget 0 c.rbuf a, smem a c.rpois)))
  else
    let loc := paLoc pa
    let dram := !paOnDie pa
    let s := if dram then s.homeRead pa n c.region (some k) else match s.badByte loc n with
      | some a => s.poisonRecord (paDie pa) c.region (paDev pa * 2 ^ 45 + a) 2
      | none => s
    let all := dram && s.vaultBad loc
    (s, (upto loc n).map (fun a => (s.byte a, all || smem (a / 8) s.pois)))

/-- Read parts in order. -/
def State.engRead (s : State) (k : CoreId) (c : Command) : List (Nat × Nat) → State × List (Byte × Bool)
  | [] => (s, [])
  | (pa, n) :: t =>
    let (s, a) := s.engRead1 k c pa n
    let (s, b) := s.engRead k c t
    (s, a ++ b)

/-- One element of a reduction (R268). -/
def reduceElem (rop old new : Nat) : Nat :=
  match rop with
  | 1 => (fadd 23 0 old new).1
  | 2 => (fadd 7 0 old new).1
  | 3 => (old + new) % 2 ^ 32
  | 4 => (fminmax 23 true old new).1
  | _ => (fminmax 23 false old new).1

/-- A reduction element by element: dst op src. -/
def reduceBytes (rop : Nat) : Nat → List Byte → List Byte → List Byte
  | 0, _, _ => []
  | fuel + 1, old, new =>
    if new = [] then []
    else
      let z := elemSize rop
      leBytes (min z new.length) (reduceElem rop (leNat (old.take z)) (leNat (new.take z)))
        ++ reduceBytes rop fuel (old.drop z) (new.drop z)

/-- Write one part on this device with the poison of each byte. -/
def State.engWrite1 (s : State) (k : CoreId) (c : Command) (pa : Nat) (bs : List (Byte × Bool)) : State :=
  let loc := paLoc pa
  let s := if paOnDie pa then s else s.homeAccess loc bs.length c.region true (some k)
  let s := s.poke loc (bs.map (fun e => e.1)) false
  { s with pois := markBytes s.pois loc (bs.map (fun e => e.2)) }

/-- The put that the chunks of a PUT to another device belong to. -/
def Command.putTag (c : Command) (k : CoreId) : PutTag :=
  { issuer := ctxAt k c.ctx, id := c.id, pa := c.w2.toNat % 2 ^ 56, len := bits c.w0 31 0,
    rcn := if bit c.w3 55 then some (bits c.w3 53 48) else none, colour := c.colour, cat := c.cat }

/-- Write parts: on this device at their home; to another device as plain or counted chunks (R269, R333). -/
def State.engWrite (s : State) (k : CoreId) (p : Nat) (c : Command) (rop : Nat) : List (Nat × Nat) → List (Byte × Bool) → State
  | [], _ => s
  | (pa, n) :: t, bs =>
    let b := bs.take n
    let s := if paDev pa = s.dev then s.engWrite1 k c pa b
      else s.farWrite c.mchsel c.region (ctxAt k c.ctx) pa rop (b.map (fun e => e.1)) (markBits (b.map (fun e => e.2)))
        (if c.kind == .engine && p == 0 && bits c.w0 63 60 == 2 then some (c.putTag k) else none)
    s.engWrite k p c rop t (bs.drop n)

/-- One action of a command: a chunk (no source: zeros), an index to skip, an index to stop at, a malformed shape. -/
inductive EAct
  | chunk (src : Option Word) (dst : Word) (n rop : Nat) (srcLoc dstLoc : Bool)
  | skip
  | stop (j : Nat)
  | bad
  deriving DecidableEq, Repr

/-- Give up one chunk because of where its bytes lie. -/
def State.engGive (s : State) (k : CoreId) (p : Nat) (c : Command) (r : Placed) (kind : Nat) : State :=
  match r with
  | .park va => s.engPark k p c va kind c.applied
  | .ask pa => s.engAskTo k p c (colourKey pa) pa 1 .colour
  | _ => s.complete k p c 0x04 c.applied

/-- Perform one chunk (R268). A full window makes it wait, whatever MCHSEL.TRY says (R334). None: the command parked, waits or stopped, as the state says. -/
def State.engChunk (s : State) (k : CoreId) (p : Nat) (c : Command) (src : Option Word) (dst : Word) (n rop : Nat)
    (srcLoc dstLoc : Bool) : State × Option Command :=
  match (match src with
    | some a => s.engPlaces k c true false srcLoc (lineParts a n)
    | none => (s, .ok [])) with
  | (s, .ok ps) =>
    match ps.find? (fun e => paDev e.1 != s.dev && !c.has e.1 e.2) with
    | some e => (s.engAsk k p c e.1 e.2, none)
    | none =>
      match s.engPlaces k c (rop != 0) true dstLoc (lineParts dst n) with
      | (s, .ok ds) =>
        match (if rop ≠ 0 ∧ 1 < ds.length then ds.find? (fun e => paDev e.1 != s.dev && !c.has e.1 e.2) else none) with
        | some e => (s.engAsk k p c e.1 e.2, none)
        | none =>
        match s.chanTest (c.mchsel &&& ~~~(1#64 <<< 62)) c.region k.cluster ((ds.map (fun e => e.1)).filter (fun a => paDev a != s.dev)) with
        | .stall => ((s.putCmd k p c).after 1 (s.cmdEvent k p c), none)
        | .fault _ => (s.complete k p c 0x04 c.applied, none)
        | .go =>
          let (s, got) := s.engRead k c ps
          let new := if src.isSome then got else List.replicate n (0, false)
          let s := if rop ≠ 0 ∧ (ds.all (fun e => paDev e.1 == s.dev) ∨ 1 < ds.length) then
              let (s, old) := s.engRead k c ds
              let r := reduceBytes rop (n + 1) (old.map (fun e => e.1)) (new.map (fun e => e.1))
              s.engWrite k p c 0 ds (r.zip (List.zipWith (fun a b => a.2 || b.2) old new))
            else s.engWrite k p c rop ds new
          let c := { c with applied := c.applied + n, pois := c.pois || new.any (fun e => e.2), interval := 0, failed := 0,
                            rbuf := [], rpois := [] }
          (s, some c)
      | (s, r) => (s.engGive k p c r 1, none)
  | (s, r) => (s.engGive k p c r 0, none)

/-- STATUS and AUX of a command that ran to its end (R260, R271). -/
def Command.outcome (c : Command) : Nat × Nat :=
  if c.pois then (0x05, c.skipped) else if 0 < c.skipped then (0x01, c.skipped) else (0x00, 0)

/-- Fire the armed entries of the destination core whose range holds a whole put (R226): each disarms and places an
arrival notice. -/
def State.fireArms (s : State) (t : PutTag) : State :=
  let k := paCoreId t.pa
  let off := paOff t.pa
  (upto 0 4).foldl (fun s e =>
    match (s.core k).firing e s.time with
    | none => s
    | some a =>
      if t.len ≠ 0 ∧ a.lbase ≤ off ∧ off + t.len ≤ a.lbase + 64 * a.lines then
        let x := s.core k
        let s := s.setCore k { x with arms := tset none x.arms e (some { a with off := some s.time, fired := true }) }
        s.post (.messageArrival k
          { typ := 11, rcls := 0, colour := t.colour, region := a.region, tag := 0, cat := t.cat, entry := a.entry,
            payload := [word off, word t.len, word e, word t.cat, 0, 0], raddr := 0, cv := false, cnt := 0, status := 0 })
      else s) s

/-- The whole payload of a put has been written at its destination core: its counter and its arms (R226, R267). -/
def State.putDone (s : State) (t : PutTag) : State :=
  (match t.rcn with
    | some n => s.post (.counterChange (paCoreId t.pa) (BitVec.ofNat 6 n) false 1 false)
    | none => s).fireArms t

/-- A chunk of n bytes of a put of another device has been written: with the last one the put is whole (R226). -/
def State.putChunk (s : State) (src : Nat) (t : PutTag) (n : Nat) : State :=
  let left := ((s.plat.puts.find? (fun e => e.1 == src && e.2.1 == t)).map (fun e => e.2.2)).getD t.len - n
  let others := s.plat.puts.filter (fun e => !(e.1 == src && e.2.1 == t))
  let s := { s with plat := { s.plat with puts := if left = 0 then others else others ++ [(src, t, left)] } }
  if left = 0 then s.putDone t else s

/-- The end of a PUT at its issuer: on this device the put is whole; an empty one to another device sends its increment
alone (R226, R267). -/
def State.endPut (s : State) (k : CoreId) (c : Command) : State :=
  let t := c.putTag k
  if paDev t.pa = s.dev then s.putDone t
  else match t.rcn with
  | some n =>
    if t.len = 0 then s.fabric (.request s.dev (paDev t.pa)
      ⟨s.cur, 0, t.pa / 2 ^ 30 * 2 ^ 30 + 0x80000 + 4 * n, .inc 1 false, c.colour, c.region, c.cat⟩)
    else s
  | none => s

/-- The home of a translated address as the TLBs and the table show it. -/
def State.homeSeen (s : State) (k : CoreId) (region : Nat) (va : Word) : Option ClusterId :=
  if inXl va then
    match s.translate k region va.toNat false with
    | (_, .ok pa _) => if paDev pa = s.dev then s.homeOf pa else none
    | _ => none
  else none
/-- The home slice that an action reaches: where it writes to DRAM, else where it reads it. -/
def State.actHome (s : State) (k : CoreId) (region : Nat) (a : EAct) : Option ClusterId :=
  match a with
  | .chunk src dst _ _ _ _ =>
    match s.homeSeen k region dst, src with
    | some cl, _ => some cl
    | none, some v => s.homeSeen k region v
    | none, none => none
  | _ => none
/-- Whether the next action reaches another home slice than the one before it: it does so in the next cycle (R292). -/
def State.leavesHome (s : State) (k : CoreId) (region : Nat) (a : EAct) (t : List EAct) : Bool :=
  match t with
  | [] => false
  | b :: _ => (s.actHome k region b).isSome && s.actHome k region b != s.actHome k region a

/-- Run the actions of a command that remain. -/
def State.engRun (s : State) (k : CoreId) (p : Nat) (put : Bool) : List EAct → Command → State
  | [], c =>
    let s := if put then s.endPut k c else s
    s.complete k p c c.outcome.1 c.outcome.2
  | .bad :: _, c => s.complete k p c 0x04 0
  | .stop j :: _, c => s.complete k p c 0x02 j
  | .skip :: t, c =>
    let x := s.core k
    let s := s.setCore k (x.setCw cwECNT (word (satAdd 32 (bits (x.cwv cwECNT) 31 0) 1)))
    s.engRun k p put t { c with skipped := c.skipped + 1, progress := c.progress + 1 }
  | .chunk src dst n rop a b :: t, c =>
    match s.engChunk k p c src dst n rop a b with
    | (s, none) => s
    | (s, some c) =>
      let c := { c with progress := c.progress + 1 }
      if s.leavesHome k c.region (.chunk src dst n rop a b) t then (s.putCmd k p c).after 1 (s.cmdEvent k p c)
      else s.engRun k p put t c

/-- The chunks of n bytes: each lies in one 64-byte line of the destination; an element of a reduction that two lines share is a chunk of
its own (R268). -/
def chunkList (src : Option Word) (rop : Nat) (a b : Bool) : Nat → Word → Nat → List EAct
  | 0, _, _ => []
  | fuel + 1, dst, n =>
    if n = 0 then []
    else
      let z := if rop = 0 then 1 else elemSize rop
      let left := 64 - dst.toNat % 64
      let k := min n (if left < z then z else left / z * z)
      .chunk src dst k rop a b :: chunkList (src.map (fun v => v + word k)) rop a b fuel (dst + word k) (n - k)

/-- The actions of a copy command (R267). -/
def Command.copyActs (c : Command) : List EAct :=
  let n := bits c.w0 31 0
  let rop := if bits c.w0 63 60 = 3 then bits c.w0 59 56 else 0
  chunkList (some c.w1) rop true true (n / 32 + 2) c.w2 n

/-- The actions of one index (R271). -/
def rowActs (op rop : Nat) (base stride : Word) (rows rowb : Nat) (dense j : Nat) (x : BitVec 32) : List EAct :=
  let d := word (dense + j * rowb)
  let fuel := rowb / 32 + 2
  if x.msb ∨ rows ≤ x.toNat then
    if op = 0 then .skip :: chunkList none 0 true true fuel d rowb else [.skip]
  else
    let row := base + word x.toNat * stride
    if op = 0 then chunkList (some row) 0 false true fuel d rowb
    else chunkList (some d) rop true false fuel row rowb

/-- The actions of an index list, from number j on; an out-of-range index stops when the shape record asks for it. -/
def indexActs (op rop : Nat) (base stride : Word) (rows rowb : Nat) (fb : Bool) (dense : Nat) : Nat → List (BitVec 32) →
    List EAct
  | _, [] => []
  | j, x :: t =>
    if fb ∧ (x.msb ∨ rows ≤ x.toNat) then [.stop j]
    else rowActs op rop base stride rows rowb dense j x ++ indexActs op rop base stride rows rowb fb dense (j + 1) t

/-- Whether an address is of the local range. -/
def isLocal (va : Word) : Bool := decide (va.toNat < 0x200000)

/-- The actions of an index command, from the shape record and list read at its start (R270, R271). -/
def Command.rowsActs (c : Command) : List EAct :=
  let base := word (leNat (c.xv.take 8))
  let w1 := word (leNat ((c.xv.drop 8).take 8))
  let stride := word (leNat ((c.xv.drop 16).take 8))
  let w3 := word (leNat ((c.xv.drop 24).take 8))
  let rows := bits w1 63 32
  let rowb := bits w1 31 0
  let n := bits c.w0 31 0
  let op := bits c.w0 63 60
  let dense := bits c.w2 17 0
  let list := (upto 0 n).map (fun j => BitVec.ofNat 32 (leNat ((c.xv.drop (32 + 4 * j)).take 4)))
  if rowb % 4 ≠ 0 ∨ rowb < 4 ∨ 65536 < rowb ∨ bits w3 63 1 ≠ 0 ∨ isLocal base ∨ 0x40000 < dense + n * rowb then [.bad]
  else indexActs op (if op = 2 then bits c.w0 59 56 else 0) base stride rows rowb (bit w3 0) dense 0 list

/-- Run a started copy command with the OP given. -/
def State.runCopy (s : State) (k : CoreId) (id op : Nat) : State :=
  match ((s.core k).port 0).running id with
  | some c => if bits c.w0 63 60 = op then s.engRun k 0 (op == 2) (c.copyActs.drop c.progress) c else s
  | none => s

/-- Run a started index command with the OP given. -/
def State.runIndex (s : State) (k : CoreId) (id op : Nat) : State :=
  match ((s.core k).port 1).running id with
  | some c => if bits c.w0 63 60 = op then s.engRun k 1 false (c.rowsActs.drop c.progress) c else s
  | none => s

/-- COPY. -/
def execCopy (s : State) : Out :=
  .next (match s.event with
    | .copy k id => s.runCopy k id 0
    | _ => s)
/-- GET. -/
def execGet (s : State) : Out :=
  .next (match s.event with
    | .get k id => s.runCopy k id 1
    | _ => s)
/-- PUT. -/
def execPut (s : State) : Out :=
  .next (match s.event with
    | .put k id => s.runCopy k id 2
    | _ => s)
/-- RCOPY. -/
def execRcopy (s : State) : Out :=
  .next (match s.event with
    | .rcopy k id => s.runCopy k id 3
    | _ => s)
/-- GATHER. -/
def execGather (s : State) : Out :=
  .next (match s.event with
    | .gather k id => s.runIndex k id 0
    | _ => s)
/-- SCATTER. -/
def execScatter (s : State) : Out :=
  .next (match s.event with
    | .scatter k id => s.runIndex k id 1
    | _ => s)
/-- SCATTER_REDUCTION. -/
def execScatterReduction (s : State) : Out :=
  .next (match s.event with
    | .scatterReduction k id => s.runIndex k id 2
    | _ => s)

end Sys2Proof.Machine
end

