-- ==== Sys2Proof/Machine/Tile.lean ====
section
/-! DEFINITION. The arithmetic of matrix slices and carrels (R103 to R105, R111, R112, R150 to R152). -/

namespace Sys2Proof.Machine

/-- A BF16 multiplicand: a subnormal is a zero of its sign (R109). -/
def fvalMul (p x : Nat) : FV :=
  if p = 7 ∧ x / 128 % 256 = 0 then .fin (x.testBit 15) 0 0 else fval p x

/-- Exact products of a K step, and whether one is 0 × ∞ (R111). -/
def products (p : Nat) (a b : List Nat) : List (FV × Bool) :=
  List.zipWith (fun x y => fterm false (fvalMul p x) (fvalMul p y)) a b

/-- c plus the products of a K step, rounded once to nearest even (R111). -/
def macFloat (p c : Nat) (a b : List Nat) : Nat :=
  let ps := products p a b
  (fsum 23 0 (fval 23 c :: ps.map (fun t => t.1)) (ps.any (fun t => t.2))).1

/-- An INT8 value. -/
def int8 (x : Nat) : Int := slaneI 8 x
where
  /-- A number of w bits read as two's complement. -/
  slaneI (w x : Nat) : Int := if (x % 2 ^ w).testBit (w - 1) then ((x % 2 ^ w : Nat) : Int) - 2 ^ w else ((x % 2 ^ w : Nat) : Int)

/-- Weight s of column n of a block, read with k planes (R103, R104). -/
def npi (block : Nat → Byte) (k n s : Nat) : Int :=
  let i := 32 * n + s
  let v := (upto 0 k).foldl (fun v j => v + ((block (64 * j + i / 8)).getLsbD (i % 8)).toNat * 2 ^ (7 - j)) 0
  int8 v + (if k < 8 then (2 ^ (7 - k) : Int) else 0)

/-- The exact dot product of a scale group (R112). -/
def dotInt (w x : List Int) : Int := (List.zipWith (· * ·) w x).foldl (· + ·) 0

/-- An integer as a floating-point value. -/
def fvInt (x : Int) : FV := .fin (decide (x < 0)) x.natAbs 0

/-- c plus the scaled sum of a group, rounded twice (R112). `scale` is BF16, `act` FP32. -/
def macPlane (c : Nat) (sum : Int) (scale act : Nat) : Nat :=
  let t := fterm false (fvInt sum) (fvalMul 7 scale)
  let u := fterm false t.1 (fval 23 act)
  let y := (fsum 23 0 [u.1] (t.2 || u.2)).1
  (fadd 23 0 c y).1

/-- Positions of the set bits of a metadata byte, as K positions of group g (R151). -/
def maskPos (g b : Nat) : List Nat := ((upto 0 8).filter (fun i => b.testBit i)).map (fun i => 8 * g + i)

/-- Logical K positions of column n: groups of metadata, or none for a dense form (R151). -/
def positions (sparse : Bool) (groups : Nat) (mdata : List Nat) (n stored : Nat) : List Nat :=
  if sparse then (upto 0 groups).flatMap (fun g => maskPos g (mdata.getD (groups * n + g) 0)) else upto 0 stored

/-- The number at a position of a row of n-byte elements. -/
def elemAt (row : List Byte) (n i : Nat) : Nat := leNat ((row.drop (n * i)).take n)

/-! ### Forms (R147, R151) -/

/-- Sparse forms. -/
def formSparse (f : GangForm) : Bool := f == .sbf16 || f == .sp
/-- Plane forms. -/
def formPlane (f : GangForm) : Bool := f == .p || f == .sp
/-- The stationary format a form needs: 1 BF16, 2 F32, 3 P. -/
def formFmt (f : GangForm) : Nat :=
  match f with
  | .bf16 => 1 | .f32 => 2 | .p => 3 | .sbf16 => 1 | .sp => 3
/-- Bytes of an activation row. -/
def formRow (f : GangForm) : Nat :=
  match f with
  | .bf16 => 32 | .f32 => 64 | .p => 32 | .sbf16 => 64 | .sp => 64
/-- Metadata bytes of a column: groups of eight K positions. -/
def formGroups (f : GangForm) : Nat :=
  match f with
  | .sbf16 => 4 | .sp => 8 | _ => 0
/-- Slice cycles of a form with kk planes. -/
def formCycles (f : GangForm) (kk : Nat) : Nat :=
  match f with
  | .bf16 => 16 | .f32 => 64 | .sbf16 => 16 | .p => 4 * kk | .sp => 4 * kk

/-- One column of one row of a multiply (R150). -/
def mulElem (f : GangForm) (k : Nat) (wa : Plane) (mdata : List Nat) (act : Nat) (row : List Byte) (c n : Nat) : Nat :=
  let col := fun o => tget 0 wa.cols o
  let pos := positions (formSparse f) (formGroups f) mdata n (if formPlane f then 32 else 16)
  if formPlane f then
    let kk := min k wa.planes
    let w := (upto 0 32).map (npi col kk n)
    let x := pos.map (fun q => int8 (elemAt row 1 q))
    macPlane c (dotInt w x) (leNat [tget 0 wa.scales (2 * n), tget 0 wa.scales (2 * n + 1)]) act
  else
    let b := if formFmt f = 2 then 4 else 2
    let p := if formFmt f = 2 then 23 else 7
    let w := (upto 0 16).map (fun s => leNat ((upto (16 * b * n + b * s) b).map col))
    macFloat p c (pos.map (elemAt row b)) w

/-- One row of 16 results added into an accumulator row (R150). -/
def mulRow (f : GangForm) (k : Nat) (wa : Plane) (mdata : List Nat) (act : Nat) (row : List Byte) (acc : VWord) : VWord :=
  ofLanes32 ((upto 0 16).map (fun n => mulElem f k wa mdata act row (acc.toNat / 2 ^ (32 * n) % 2 ^ 32) n))
where
  /-- A register from its sixteen 32-bit lanes. -/
  ofLanes32 (l : List Nat) : VWord := BitVec.ofNat 512 (l.foldr (fun x a => x % 2 ^ 32 + 2 ^ 32 * a) 0)

/-- The lowest metadata byte without exactly four set bits, and its value (R152). -/
def badMeta : Nat → List Nat → Option (Nat × Nat)
  | _, [] => none
  | i, b :: t => if (maskPos 0 b).length = 4 then badMeta (i + 1) t else some (i, b)

end Sys2Proof.Machine
end

