-- ==== Sys2Proof/Machine/Carrel.lean ====
section
/-! DEFINITION. BMV, BFENCE and the turns of a carrel (R295 to R302). -/

namespace Sys2Proof.Machine

/-- Layout fields of a leaf (R309): CLAY, CPL, CK, CSO. -/
def TlbEntry.clay (e : TlbEntry) : Nat := bits e.attr 1 0
def TlbEntry.cpl (e : TlbEntry) : Nat := bits e.attr 4 2
def TlbEntry.ck (e : TlbEntry) : Nat := bits e.attr 9 5
def TlbEntry.cso (e : TlbEntry) : Nat := bits e.attr 24 10

/-- Bytes of a row tile (R296). -/
def tileSize (clay cpl ck : Nat) : Nat := if clay = 1 then 2 * (cpl + 1) * (128 * (ck + 1)) else 32 * (128 * (ck + 1))
/-- Bytes of x (R299). -/
def xSize (clay ck : Nat) : Nat := if clay = 1 then 128 * (ck + 1) else 256 * (ck + 1)

/-- The first word that breaks a field rule of R297. -/
def bmvFault (w1 w2 w3 : Word) : Option Nat :=
  if bits w1 63 48 ≠ 0 ∨ bits w1 31 18 ≠ 0 ∨ bits w1 17 0 % 64 ≠ 0 then some 1
  else if bit w2 31 ∨ bits w2 27 26 ≠ 0 ∨ bits w2 17 0 % 64 ≠ 0 ∨ 0x40000 < bits w2 17 0 + 64 * (bits w2 25 18 + 1) then
    some 2
  else if word3Ok w3 = false then some 3
  else none

/-- A page with a valid carrel layout: fields of R295, a size R295 allows, in the linear part of a vault. -/
def State.carrelPage (s : State) (e : TlbEntry) : Bool :=
  let ok := (e.clay == 1 && e.cpl != 0) || (e.clay == 2 && e.cpl == 0 && e.cso == 0)
  ok && e.size != 3 && (paDev e.pa != s.dev || decide ((s.die (paDie e.pa)).linb ≤ paDram e.pa))

/-- The page checks of R299 step 7. -/
def State.bmvPage (s : State) (e : TlbEntry) (off : Nat) (w1 w2 : Word) : Option Nat :=
  let st := tileSize e.clay e.cpl e.ck
  if s.carrelPage e = false then some 0x30
  else if off % st ≠ 0 ∨ 2 ^ pageShift e.size < off + st * (bits w2 25 18 + 1) then some 0x31
  else if paDev e.pa ≠ s.dev ∨ paDie e.pa ≠ s.cur.core.die then some 0x32
  else if (e.clay = 1 ∧ bits w2 30 28 = 0) ∨ (e.clay = 2 ∧ bits w2 30 28 ≠ 0) then some 0x12
  else if 0x40000 < bits w1 17 0 + xSize e.clay e.ck then some 0x11
  else none

/-- BMV e2, ga (R297 to R299). -/
def execBmv (ga : Reg) (s : State) : Out :=
  .next (s.guardP (reqRegs ga) []
    (let va := s.g ga
     let w1 := s.g (ga + 1)
     let w2 := s.g (ga + 2)
     match bmvFault w1 w2 (s.g (ga + 3)) with
     | some k => s.raise 0x0A (word (0x10 + k))
     | none =>
       match s.place va with
       | .xl =>
         match s.translate s.cur.core (s.regionOf s.cur) va.toNat false with
         | (s, .absent) => s.park va 0
         | (s, .fault e) => s.raise e va
         | (s, .ok pa e) =>
           if e.allows true false false (s.sup s.cur) = false ∨ s.dramOk pa = false then s.raise 0x05 va
           else match s.bmvPage e (va.toNat % 2 ^ pageShift e.size) w1 w2 with
           | some v => s.raise 0x0A (word v)
           | none => s.enqueue 2 ga (.bmv pa e.pa e.clay e.cpl e.ck e.cso) .queued none
       | _ => s.raise 0x05 va))

/-- BFENCE (R301): every older BMV of the context has written all its chunks. -/
def execBfence (s : State) : Out :=
  .next (if (s.myCore.port 2).cmds.any (fun c => c.ctx == s.cur.ctx.val) then s else s.advance)

/-! ### Row tiles (R296, R298) -/

/-- Read n bytes of a carrel page at its home slice. -/
def State.carrelRead (s : State) (k : CoreId) (region pa n : Nat) : State × List Byte × Bool :=
  let loc := paLoc pa
  let s := s.homeRead pa n region (some k) true
  (s, s.bytes loc n, s.readBad loc n)

/-- One step of sixteen outputs: a scale group of an NPI page, or a K step of a BF16 page. `blk` holds the block's bytes
read, `sc` the sixteen scales. -/
def carrelStep (clay kk act : Nat) (blk sc : List Byte) (x : List Byte) (y : List Nat) : List Nat :=
  if clay = 1 then
    let t := tableOf blk
    let xs := (upto 0 32).map (fun i => int8 (elemAt x 1 i))
    (upto 0 16).map (fun n =>
      macPlane (y.getD n 0) (dotInt ((upto 0 32).map (npi (tget 0 t) kk n)) xs) (elemAt sc 2 n) act)
  else
    let xs := (upto 0 16).map (elemAt x 2)
    (upto 0 16).map (fun n => macFloat 7 (y.getD n 0) xs ((upto 0 16).map (fun i => elemAt (blk.drop (32 * n)) 2 i)))
where
  /-- Bytes as a table from 0 on. -/
  tableOf (bs : List Byte) : Table Byte := memPuts [] 0 bs

/-- The blocks of a row tile, in ascending K: read, multiply, add. -/
def State.carrelBlocks (s : State) (k : CoreId) (c : Command) (page clay pl kk cso : Nat) : Nat → Nat → Nat → Nat →
    List Nat → Bool → State × List Nat × Bool
  | 0, _, _, _, y, bad => (s, y, bad)
  | fuel + 1, b, pa, g, y, bad =>
    let (s, blk, b1) := s.carrelRead k c.region pa (if clay = 1 then 64 * kk else 512)
    let (s, sc, b2) := if clay = 1 then s.carrelRead k c.region (page + 64 * cso + 32 * b) 32 else (s, [], false)
    let x := (c.xv.drop (32 * g)).take 32
    let y := carrelStep clay kk (bits c.w2 63 32) blk sc x y
    s.carrelBlocks k c page clay pl kk cso fuel (b + 1) (pa + (if clay = 1 then 64 * pl else 512)) (g + 1) y
      (bad || b1 || b2)

/-- Compute and write one row tile of a BMV (R298). -/
def State.carrelTile (s : State) (k : CoreId) (c : Command) (pa page clay cpl ck cso : Nat) : State × Command :=
  let st := tileSize clay cpl ck
  let a := pa + c.progress * st
  let blocks := if clay = 1 then 4 * (ck + 1) else 8 * (ck + 1)
  let kk := min (bits c.w2 30 28 + 1) (cpl + 1)
  let (s, y, bad) := s.carrelBlocks k c page clay (cpl + 1) kk cso blocks ((a - page) / st * blocks) a 0
    (List.replicate 16 0) c.xpois
  let s := s.poke (localLoc k (bits c.w2 17 0 + 64 * c.progress)) (y.flatMap (leBytes 4)) bad
  let s := s.count k 0x12 (some c.region) 1
  (s, { c with progress := c.progress + 1, applied := max c.applied (c.progress + 1), pois := c.pois || bad })

/-- Up to n row tiles of a BMV; the command ends with its last (R298). -/
def State.carrelTiles (s : State) (k : CoreId) (pa page clay cpl ck cso : Nat) : Nat → Command → State
  | 0, c => s.putCmd k 2 c
  | n + 1, c =>
    let (s, c) := s.carrelTile k c pa page clay cpl ck cso
    if bits c.w2 25 18 < c.progress then s.complete k 2 c (if c.pois then 0x05 else 0x00) 0
    else s.carrelTiles k pa page clay cpl ck cso n c

/-- One turn of a core's oldest started BMV: its page is looked up again, and a page gone parks it (R264, R298). -/
def State.carrelServe (s : State) (cl : ClusterId) (k : CoreId) (c : Command) : State :=
  match c.kind with
  | .bmv pa page clay cpl ck cso =>
    if (s.cluster cl).vaultFailed then s.complete k 2 c 0x04 c.applied
    else match s.engTranslate k c c.w0 with
    | (s, .absent) => s.engPark k 2 { c with progress := 0 } c.w0 0 c.applied
    | (s, .fault _) => s.complete k 2 c 0x04 c.applied
    | (s, .ok pa' e) =>
      if e.allows true false false c.sup = false then s.complete k 2 c 0x04 c.applied
      else
        let page := page + pa' - pa
        let c := { c with interval := 0, failed := 0, kind := .bmv pa' page clay cpl ck cso }
        s.carrelTiles k pa' page clay cpl ck cso (max 1 (bits ((s.cluster cl).cwv cwCARQ) 7 0)) c
  | _ => s

/-- The core whose turn it is: the first after the core served last, round the device's order (R302). -/
def nextTurn (last : Nat) (l : List (Nat × Nat)) : Option (Nat × Nat) :=
  match l.find? (fun e => decide (last < e.1)) with
  | some e => some e
  | none => l.head?

/-- CARREL_TURN (R302). -/
def execCarrelTurn (s : State) : Out :=
  .next (match s.event with
    | .carrelTurn cl =>
      match nextTurn (s.cluster cl).carrelLast (s.bmvsDue cl) with
      | none => s
      | some (core, id) =>
        let k := CoreId.ofKey core
        let s := s.setCluster cl { s.cluster cl with carrelLast := core }
        match ((s.core k).port 2).running id with
        | none => s
        | some c =>
          let s := s.carrelServe cl k c
          if s.bmvsDue cl = [] ∨ s.agenda.contains (.ev (.carrelTurn cl)) then s else s.post (.carrelTurn cl)
    | _ => s)

end Sys2Proof.Machine
end

