-- ==== Sys2Proof/Machine/VecMem.lean ====
section
/-! DEFINITION. Vector memory, map G (R122 to R126). -/

namespace Sys2Proof.Machine

/-- Write the active bytes of an aligned 64-byte line: an 8-byte word wholly written loses its poison mark (R210). -/
def State.pokeMasked (s : State) (loc : Nat) (mask : BitVec 64) (bs : List Byte) : State :=
  (upto 0 8).foldl (fun s w =>
    let act := (upto (8 * w) 8).filter (fun b => mask.getLsbD b)
    if act.length = 8 then s.poke (loc + 8 * w) ((bs.drop (8 * w)).take 8) false
    else act.foldl (fun s b => s.poke (loc + b) [bs.getD b 0] false) s) s

/-- Poison of the active bytes of a line, from marks of its 8-byte words. -/
def maskedBad (mask : BitVec 64) (bad : Nat) : Bool :=
  (upto 0 64).any (fun b => mask.getLsbD b && bad.testBit (b / 8))

/-- Marks of the 8-byte words that n bytes touch, as a reader gets them: bit i for the i-th word. -/
def State.marks (s : State) (loc n : Nat) : Nat :=
  let all := !loc.testBit 42 && s.vaultBad loc
  (wordsAt loc n).foldr (fun w a => (if all || smem w s.pois then 1 else 0) + 2 * a) 0

/-- Give the active bytes of a vector register their loaded values, and the register its poison bit (R117). -/
def Ctx.loadV (x : Ctx) (vd : Reg) (mask : BitVec 64) (bs : List Byte) (bad : Bool) : Ctx :=
  let old := lanes 8 (x.vreg vd)
  let res := (upto 0 64).map (fun b => if mask.getLsbD b then (bs.getD b 0).toNat else old.getD b 0)
  let x := x.setV vd (ofLanes 8 res)
  if bad then x.poisV vd else if mask = BitVec.allOnes 64 then x.cleanV vd else x

/-- The bytes of the active I32 lanes of a predicate. -/
def laneMask (q : Word) : BitVec 64 :=
  word ((upto 0 16).foldl (fun a n => if bit q (4 * n) then a + 15 * 2 ^ (4 * n) else a) 0)
/-- Four bytes at every lane. -/
def repeat16 (bs : List Byte) : List Byte := (upto 0 16).flatMap (fun _ => bs)
/-- The bytes of a register. -/
def vbytes (v : VWord) : List Byte := leBytes 64 v.toNat

/-- Byte accesses of the active bytes of a line. -/
def maskAccs (va : Nat) (mask : BitVec 64) : List (Nat × Nat) :=
  ((upto 0 64).filter (fun b => mask.getLsbD b)).map (fun b => (va + b, 1))

/-- A resolved place `f` bytes lower. -/
def Where.back (w : Where) (f : Nat) : Where :=
  match w with
  | .own off => .own (off - f)
  | .core pa => .core (pa - f)
  | .dram pa => .dram (pa - f)
  | .far pa => .far (pa - f)

/-- Checks of VLD, VST and VLDB (R123 to R125); a store's runs are what it would count on a channel (R333). Faults name the
first byte accessed, the lowest active lane. -/
def State.vecAccess (s : State) (i : Instr) (va : Word) (n : Nat) (wr : Bool) (accs : List (Nat × Nat))
    (runs : List Nat) : State × Option Where :=
  let f := (accs.headD (va.toNat, 0)).1 - va.toNat
  if va.toNat % n ≠ 0 then (s.raise 0x03 (va + word f), none)
  else match s.resolve i (va + word f) ⟨n, !wr, wr, false, true, true⟩ with
  | (s, none) => (s, none)
  | (s, some w') =>
    let w := w'.back f
    match s.channelOk (if wr then countedAt w runs else []) with
    | (s, false) => (s, none)
    | (s, true) =>
    match s.watchHit accs (!wr) wr with
    | some (e, t) => (s.breakHit e (word t) false, none)
    | none => (s, some w)

/-- VLD vd, [ga+gb] {, q}. -/
def execVld (vd ga gb : Reg) (q : PReg) (s : State) : Out :=
  let i := Instr.vld vd ga gb q
  .next (s.slotOnly i (s.guardP [ga, gb] []
    (let mask := s.q q
     let va := s.g ga + s.g gb
     if mask = 0 then s.advance
     else match s.vecAccess i va 64 false (maskAccs va.toNat mask) [] with
     | (s, none) => s
     | (s, some (.own off)) =>
       let loc := localLoc s.cur.core off
       let bad := maskedBad mask (s.marks loc 64)
       let s := s.localRecord s.cur.core (((upto off 64).find? (fun a => mask.getLsbD (a - off)
         && s.poisAt (localLoc s.cur.core a) 1)).getD off) bad
       s.setMy (s.my.loadV vd mask (s.bytes loc 64) bad).advance
     | (s, some w) => s.issueLoadAs w 64 (.readActive mask) (.v vd mask))))

/-- VST [ga+gb], vs {, q}. -/
def execVst (vs ga gb : Reg) (q : PReg) (s : State) : Out :=
  let i := Instr.vst vs ga gb q
  .next (s.slotOnly i (s.guardP [ga, gb] [vs]
    (let mask := s.q q
     let va := s.g ga + s.g gb
     if mask = 0 then s.advance
     else match s.vecAccess i va 64 true (maskAccs va.toNat mask) ((maskRuns mask).map (fun r => r.1)) with
     | (s, none) => s
     | (s, some (.own off)) => (s.pokeMasked (localLoc s.cur.core off) mask (vbytes (s.v vs))).advance
     | (s, some w) => s.issueStore w (.masked mask (vbytes (s.v vs))))))

/-- VLDB vd, [ga+gb] {, q}: four bytes to every active lane. -/
def execVldb (vd ga gb : Reg) (q : PReg) (s : State) : Out :=
  let i := Instr.vldb vd ga gb q
  .next (s.slotOnly i (s.guardP [ga, gb] []
    (let mask := laneMask (s.q q)
     let va := s.g ga + s.g gb
     if mask = 0 then s.advance
     else match s.vecAccess i va 4 false [(va.toNat, 4)] [] with
     | (s, none) => s
     | (s, some (.own off)) =>
       let loc := localLoc s.cur.core off
       let bad := s.poisAt loc 4
       let s := s.localRecord s.cur.core off bad
       s.setMy (s.my.loadV vd mask (repeat16 (s.bytes loc 4)) bad).advance
     | (s, some w) => s.issueLoad w 4 (.bcast vd mask))))

/-! ### The element forms: the local range only (R123) -/

/-- The mapped address of a stash line of the current core. -/
def State.stashVa (s : State) (key : Nat) : Word := (s.myCore.swv (key / 4096)) + word (64 * (key % 4096))

/-- Translate the invalid stash lines of some offsets, in lane order, before any permission is tested: what they give, or none where
the instruction goes no further (R125; log entry 63). -/
def State.stashTranslate (s : State) (write : Bool) : List Nat → State × Option (List (Nat × Nat × TlbEntry))
  | [] => (s, some [])
  | off :: t =>
    match s.myCore.stashAt off with
    | none => s.stashTranslate write t
    | some key =>
      if (tget none s.myCore.stash key).isSome then s.stashTranslate write t
      else match s.translate s.cur.core (s.regionOf s.cur) (s.stashVa key).toNat false with
      | (s, .absent) => (s.parkAs (s.stashVa key) (word off) (if write then 1 else 0) (s.regionOf s.cur), none)
      | (s, .fault e) => (s.raise e (word off), none)
      | (s, .ok pa e) =>
        match s.stashTranslate write t with
        | (s, some l) => (s, some ((off, pa, e) :: l))
        | r => r

/-- Make the stash lines of some offsets ready, in order. -/
def State.stashAll (s : State) (write : Bool) : List Nat → State × Bool
  | [] => (s, true)
  | off :: t =>
    match s.stashReady (word off) off write true with
    | (s, true) => s.stashAll write t
    | (s, false) => (s, false)

/-- Whether an offset lies in a stash window of another region. -/
def State.foreignStash (s : State) (off : Nat) : Bool :=
  match s.myCore.stashAt off with
  | some key => s.myCore.stashRegion key != s.regionOf s.cur
  | none => false

/-- Check every active element address, then go on (R124, R125): the highest-priority fault over all lanes, with the
address of the lowest lane that has it; no line is filled before every check has passed. -/
def State.elemChecked (s : State) (eas : List Word) (wr : Bool) (k : State → State) : State :=
  match eas.find? (fun a => a.toNat % 4 != 0) with
  | some a => s.raise 0x03 a
  | none =>
  match eas.find? (fun a => decide (0x40000 ≤ a.toNat) || s.foreignStash a.toNat) with
  | some a => s.raise 0x05 a
  | none =>
    let offs := eas.map (fun a => a.toNat)
    match s.stashTranslate wr offs with
    | (s, none) => s
    | (s, some l) =>
      match l.find? (fun e => e.2.2.allows (!wr) wr false (s.sup s.cur) == false || s.dramOk e.2.1 == false
          || paDev e.2.1 != s.dev) with
      | some e => s.raise 0x05 (word e.1)
      | none =>
        match s.stashAll wr offs with
        | (s, false) => s
        | (s, true) => s.watched (offs.map (fun a => (a, 4))) (!wr) wr (k s)

/-- Element addresses of the active lanes. -/
def activeLanes (q : Word) (ea : Nat → Word) : List (Nat × Word) :=
  ((upto 0 16).filter (fun n => bit q (4 * n))).map (fun n => (n, ea n))

/-- A strided or indexed load. -/
def opGatherV (s : State) (i : Instr) (gs vs : List Reg) (vd : Reg) (q : PReg) (ea : Nat → Word) : Out :=
  .next (s.slotOnly i (s.guardP gs vs
    (let l := activeLanes (s.q q) ea
     if l = [] then s.advance
     else s.elemChecked (l.map (fun e => e.2)) false (fun s =>
       let k := s.cur.core
       let bad := l.any (fun e => s.poisAt (localLoc k e.2.toNat) 4)
       let s := s.localRecord k (((l.find? (fun e => s.poisAt (localLoc k e.2.toNat) 4)).getD (0, 0)).2.toNat) bad
       let data := (upto 0 16).flatMap (fun n => match l.find? (fun e => e.1 == n) with
         | some e => s.bytes (localLoc k e.2.toNat) 4
         | none => [0, 0, 0, 0])
       s.setMy (s.my.loadV vd (laneMask (s.q q)) data bad).advance))))

/-- A strided or indexed store, lanes in ascending order. -/
def opScatterV (s : State) (i : Instr) (gs vs : List Reg) (v : Reg) (q : PReg) (ea : Nat → Word) : Out :=
  .next (s.slotOnly i (s.guardP gs vs
    (let l := activeLanes (s.q q) ea
     if l = [] then s.advance
     else s.elemChecked (l.map (fun e => e.2)) true (fun s =>
       (l.foldl (fun s e =>
         s.poke (localLoc s.cur.core e.2.toNat) (leBytes 4 ((lanes 32 (s.v v)).getD e.1 0)) false) s).advance))))

/-- VLDS vd, [ga], gb {, q}. -/
def execVlds (vd ga gb : Reg) (q : PReg) (s : State) : Out :=
  opGatherV s (.vlds vd ga gb q) [ga, gb] [] vd q (fun n => s.g ga + word n * s.g gb)
/-- VSTS [ga], gb, vs {, q}. -/
def execVsts (vs ga gb : Reg) (q : PReg) (s : State) : Out :=
  opScatterV s (.vsts vs ga gb q) [ga, gb] [vs] vs q (fun n => s.g ga + word n * s.g gb)
/-- VLDX vd, [ga+vb] {, q}. -/
def execVldx (vd ga vb : Reg) (q : PReg) (s : State) : Out :=
  opGatherV s (.vldx vd ga vb q) [ga] [vb] vd q (fun n => s.g ga + word ((lanes 32 (s.v vb)).getD n 0))
/-- VSTX [ga+vb], vs {, q}. -/
def execVstx (vs ga vb : Reg) (q : PReg) (s : State) : Out :=
  opScatterV s (.vstx vs ga vb q) [ga] [vb, vs] vs q (fun n => s.g ga + word ((lanes 32 (s.v vb)).getD n 0))

end Sys2Proof.Machine
end

