-- ==== Sys2Proof/Machine/Matrix.lean ====
section
/-! DEFINITION. The matrix slice (R139 to R164). The effects of a matrix instruction are performed at its issue, one of the
timings R145 and R158 allow (log entry 33); it stays in the slice queue for its slice cycles. -/

namespace Sys2Proof.Machine

/-- The slice of the current core. -/
def State.slice (s : State) : Slice := s.myCore.slice
/-- Replace the slice of a core. -/
def State.setSlice (s : State) (k : CoreId) (x : Slice) : State := s.setCore k { s.core k with slice := x }

/-- What every map H instruction but MFREE begins with (R140, R155): legality, poisoned sources, then the slice, taken
when it is free and waited for when another slot owns it. -/
def State.withSlice (s : State) (i : Instr) (gs vs : List Reg) (k : State → State) : State :=
  s.slotOnly i (s.guardP gs vs
    (match s.slice.owner with
     | none =>
       if s.slice.queue = [] then k (s.setSlice s.cur.core { s.slice with owner := some s.cur.ctx.val }) else s.stall
     | some o => if o = s.cur.ctx.val ∧ s.slice.queue.length < 8 then k s else s.stall))

/-- A matrix instruction that waits until the slice queue is empty (R159, R162). -/
def State.withDrained (s : State) (i : Instr) (gs vs : List Reg) (k : State → State) : State :=
  s.withSlice i gs vs (fun s => if s.slice.queue = [] then k s else s.stall)

/-- A matrix instruction enters the slice queue of a core: it takes its cycles when the older ones have taken theirs
(R145). -/
def State.sliceBusy (s : State) (k : CoreId) (region cycles : Nat) : State :=
  let x := (s.core k).slice
  s.setSlice k { x with queue := x.queue ++ [(x.queue.foldl (fun m e => max m e.1) s.time + cycles, region)] }

/-- A matrix instruction has issued. -/
def State.sliceDone (s : State) (cycles : Nat) : State := (s.sliceBusy s.cur.core (s.regionOf s.cur) cycles).advance

/-! ### Tiles (R146) -/

/-- Base of a tile. -/
def tileBase (w : Word) : Nat := bits w 17 5 * 32
/-- Stride between rows of a tile of the current context. -/
def State.tileStride (s : State) (row : Nat) : Nat :=
  let a := bits (s.my.cwv 0x040) 12 0 * 32
  if a = 0 then row else a
/-- Local offsets of the bytes of row i of a tile. -/
def rowOffs (base stride len i : Nat) : List Nat := (upto 0 len).map (fun b => (base + i * stride + b) % 2 ^ 18)
/-- A row as the core's local memory holds it. -/
def State.tileRow (s : State) (k : CoreId) (base stride len i : Nat) : List Byte :=
  (rowOffs base stride len i).map (fun o => s.byte (localLoc k o))
/-- The lowest-numbered poisoned byte of a row, if any. -/
def State.rowBad (s : State) (k : CoreId) (base stride len i : Nat) : Option Nat :=
  (rowOffs base stride len i).find? (fun o => s.poisAt (localLoc k o) 1)
/-- Write the poison record of each row read with an uncorrectable error (R157, R78), and say whether there was one. -/
def State.tileBad (s : State) (k : CoreId) (region base stride len : Nat) : List Nat → State × Bool
  | [] => (s, false)
  | i :: t =>
    match s.rowBad k base stride len i with
    | none => s.tileBad k region base stride len t
    | some o => (((s.poisonRecord k.die region (s.corePa k o) 2).tileBad k region base stride len t).1, true)

/-! ### Memory operands (R155) -/

/-- Form and area of an address (R155 step 4). -/
def State.matForm (s : State) (va : Word) : Bool :=
  match s.place va with
  | .bad => false
  | .loc off => areaOf off == .mem
  | .win pa => areaOf (paOff pa) == .mem && s.windowOk s.cur pa
  | .xl => true

/-- The window addresses of an operand. -/
def State.matWindows (s : State) (ps : List (Word × Nat)) : List Nat :=
  ps.filterMap (fun p => match s.place p.1 with
    | .win pa => if areaOf (paOff pa) = .mem then some pa else none
    | _ => none)

/-- Translate every address before any permission is tested (R155 step 5). -/
def State.matPages (s : State) (wr : Bool) : List Word → State × Bool
  | [] => (s, true)
  | va :: t =>
    match s.place va with
    | .xl =>
      match s.translate s.cur.core (s.regionOf s.cur) va.toNat false with
      | (s, .absent) => (s.park va (if wr then 1 else 0), false)
      | (s, _) => s.matPages wr t
    | _ => s.matPages wr t

/-- Resolve every piece (R155 step 6). -/
def State.matResolve (s : State) (i : Instr) (wr : Bool) : List (Word × Nat) → State × Option (List Piece)
  | [] => (s, some [])
  | (va, n) :: t =>
    match s.resolve i va ⟨n, !wr, wr, false, false, false⟩ with
    | (s, none) => (s, none)
    | (s, some w) =>
      match s.matResolve i wr t with
      | (s, some l) => (s, some ((w, n) :: l))
      | (s, none) => (s, none)

/-- The address checks of a matrix memory operand given by its pieces (R155 steps 4 to 6). -/
def State.matOperand (s : State) (i : Instr) (wr : Bool) (ps : List (Word × Nat)) : State × Option (List Piece) :=
  match ps.find? (fun p => !s.matForm p.1), s.unasked (s.matWindows ps) with
  | some p, none => (s.raise 0x05 p.1, none)
  | _, some pa => (s.askColour pa, none)
  | none, none =>
    match s.matPages wr (ps.map (fun p => p.1)) with
    | (s, false) => (s, none)
    | (s, true) => s.matResolve i wr ps

/-- n pieces of z bytes from va on. -/
def piecesAt (va : Word) (z n : Nat) : List (Word × Nat) := (upto 0 n).map (fun j => (va + word (z * j), z))

/-- Read one piece: its bytes and poison, with the poison record; one outside the local range has arrived (R155). -/
def State.matReadOne (s : State) (p : Piece) : State × List Byte × Bool :=
  match p.1 with
  | .own off =>
    let loc := localLoc s.cur.core off
    let bad := s.poisAt loc p.2
    (s.localRecord s.cur.core off bad, s.bytes loc p.2, bad)
  | w => (s, s.farBytes (s.wherePa w) p.2, s.farBad (s.wherePa w) p.2)

/-- Read every piece, in order: each piece's bytes and poison. -/
def State.matRead (s : State) : List Piece → State × List (List Byte × Bool)
  | [] => (s, [])
  | p :: t =>
    let (s, bs, bad) := s.matReadOne p
    let (s, l) := s.matRead t
    (s, (bs, bad) :: l)

/-- The pieces on other devices that are still to be written. -/
def State.farPieces (s : State) (ps : List Piece) : List Nat :=
  ps.filterMap (fun p => match p.1 with
    | .far pa => if s.farHave pa 1 then none else some pa
    | _ => none)

/-- Send the store of every piece outside the local range, in order; false where one still waits for an entry (R69, R155). -/
def State.matSend (s : State) (bad : Bool) : List Piece → List Byte → State × Bool
  | [], _ => (s, true)
  | p :: t, bs =>
    if p.1.away then
      match s.sendPiece p.1 (bs.take p.2) bad with
      | (s, true) => s.matSend bad t (bs.drop p.2)
      | (s, false) => (s, false)
    else s.matSend bad t (bs.drop p.2)
/-- Write every piece in the local range, in order. -/
def State.matPoke (s : State) (bad : Bool) : List Piece → List Byte → State
  | [], _ => s
  | (.own off, n) :: t, bs => (s.poke (localLoc s.cur.core off) (bs.take n) bad).matPoke bad t (bs.drop n)
  | p :: t, bs => s.matPoke bad t (bs.drop p.2)
/-- Write every piece; false where one still waits for an entry. -/
def State.matWrite (s : State) (bad : Bool) (ps : List Piece) (bs : List Byte) : State × Bool :=
  match s.matSend bad ps bs with
  | (s, true) => (s.matPoke bad ps bs, true)
  | r => r

/-- All bytes read, and whether any was poisoned. -/
def joined (l : List (List Byte × Bool)) : List Byte × Bool := (l.flatMap (fun e => e.1), l.any (fun e => e.2))

/-- Bytes as a canonical table from 0 on. -/
def tableOf (bs : List Byte) : Table Byte := memPuts [] 0 bs

/-! ### Stationary weights (R148, R149) -/

/-- The kind check of a form (R155): a float slice takes the float forms, a plane slice the plane forms. -/
def State.kindOk (s : State) (plane : Bool) : Bool := planeCluster s.cur.core.cluster == plane

/-- Load wb from pieces, after the checks: kind, then the data. `cols` bytes are columns, the rest scales. -/
def State.loadWb (s : State) (plane : Bool) (fmt planes cols cycles : Nat) (ps : List Piece) (sptr : Option Word) : State :=
  if s.kindOk plane = false then s.raise 0x07 1
  else match s.gather true ps with
  | (s, false) => s
  | (s, true) =>
    let (s, l) := s.matRead ps
    let (bs, bad) := joined l
    let wb : Plane := ⟨fmt, planes, tableOf (bs.take cols), tableOf (bs.drop cols), bad⟩
    let s := s.setSlice s.cur.core { s.slice with wb := wb }
    let s := match sptr with
      | some p => s.setMy (s.my.setCw cwSCLB p)
      | none => s
    s.sliceDone cycles

/-- MLDW.BF16 and MLDW.F32: sixteen columns of z bytes at the column stride of FMTB. -/
def opMldw (s : State) (i : Instr) (ga : Reg) (fmt z cycles : Nat) : State :=
  s.withSlice i [ga] [] (fun s =>
    let ea := s.g ga
    let w := bits (s.my.cwv 0x041) 12 0 * 32
    let cs := if w = 0 then z else w
    if ea.toNat % 32 ≠ 0 then s.raise 0x03 ea
    else match s.matOperand i false ((upto 0 16).flatMap (fun n => piecesAt (ea + word (n * cs)) 32 (z / 32))) with
    | (s, none) => s
    | (s, some ps) => s.loadWb false fmt 0 (16 * z) cycles ps none)

/-- MLDW.BF16 [ga]. -/
def execMldwBf16 (ga : Reg) (s : State) : Out := .next (opMldw s (.mldwBf16 ga) ga 1 32 8)
/-- MLDW.F32 [ga]. -/
def execMldwF32 (ga : Reg) (s : State) : Out := .next (opMldw s (.mldwF32 ga) ga 2 64 16)

/-- MLDW.P [ga], #k: 64 × k bytes of a block and the sixteen scales at SPTR, which moves on by 32. -/
def execMldwP (ga : Reg) (pl : BitVec 3) (s : State) : Out :=
  let i := Instr.mldwP ga pl
  .next (s.withSlice i [ga] [] (fun s =>
    let k := pl.toNat + 1
    let ea := s.g ga
    let sp := s.my.cwv cwSCLB
    if ea.toNat % 64 ≠ 0 then s.raise 0x03 ea
    else if sp.toNat % 2 ≠ 0 then s.raise 0x03 sp
    else match s.matOperand i false (piecesAt ea 64 k ++ piecesAt sp 2 16) with
    | (s, none) => s
    | (s, some ps) => s.loadWb true 3 k (64 * k) (k + 1) ps (some (sp + 32))))

/-- MSWAP. -/
def execMswap (s : State) : Out :=
  .next (s.withSlice .mswap [] [] (fun s =>
    (s.setSlice s.cur.core { s.slice with wa := s.slice.wb, wb := s.slice.wa }).sliceDone 1))

/-! ### Multiply-accumulate (R150 to R152) -/

/-- Registers that hold the metadata of a form. -/
def metaRegs (f : GangForm) (v : Reg) : List Reg :=
  match f with
  | .sbf16 => [v] | .sp => [v, v + 1] | _ => []
/-- The metadata bytes of a form. -/
def State.metaOf (s : State) (f : GangForm) (v : Reg) : List Nat :=
  (metaRegs f v).flatMap (fun r => (vbytes (s.v r)).map (fun b => b.toNat))

/-- Add the products of sixteen rows into accumulator m of a core's slice. -/
def State.mulInto (s : State) (k : CoreId) (a : GangArrival) (rows : List (List Byte)) (bad : Bool) : State :=
  let x := (s.core k).slice
  let acc := ((upto 0 16).zip rows).foldl (fun acc e =>
    tset 0 acc (16 * a.m + e.1) (mulRow a.form a.k x.wa a.mdata a.scale e.2 (tget 0 acc (16 * a.m + e.1)))) x.acc
  let p : BitVec 4 := if bad || x.wa.pois then 1#4 <<< a.m else 0
  s.setSlice k { x with acc := acc, mpois := x.mpois ||| p }

/-- The checks 0x07 and 0x08 of a multiply, then go on with the sampled operands. -/
def State.mulChecked (s : State) (f : GangForm) (m : Acc) (v ga : Reg) (pl : BitVec 3) (go : GangArrival → State) : State :=
  let wa := s.slice.wa
  let mdata := s.metaOf f v
  if s.kindOk (formPlane f) = false then s.raise 0x07 1
  else if wa.fmt ≠ formFmt f then s.raise 0x07 2
  else match badMeta 0 mdata with
  | some (b, x) => s.raise 0x08 (word (b + 256 * x))
  | none =>
    go ⟨s.cur.ctx.val, f, pl.toNat + 1, m.toNat, tileBase (s.g ga), s.tileStride (formRow f), mdata,
      bits (s.my.cwv cwSCLA) 31 0⟩

/-- MMA and MMAS. -/
def opMma (s : State) (i : Instr) (f : GangForm) (m : Acc) (v ga : Reg) (pl : BitVec 3) : Out :=
  .next (s.withSlice i [ga] (metaRegs f v) (fun s =>
    s.mulChecked f m v ga pl (fun a =>
      let k := s.cur.core
      let len := formRow f
      let rows := (upto 0 16).map (s.tileRow k a.base a.stride len)
      let (s, bad) := s.tileBad k (s.regionOf s.cur) a.base a.stride len (upto 0 16)
      (s.mulInto k a rows bad).sliceDone (formCycles f (min a.k s.slice.wa.planes)))))

/-- MMA.BF16 md, [ga]. -/
def execMmaBf16 (m : Acc) (ga : Reg) (s : State) : Out := opMma s (.mmaBf16 m ga) .bf16 m 0 ga 0
/-- MMA.F32 md, [ga]. -/
def execMmaF32 (m : Acc) (ga : Reg) (s : State) : Out := opMma s (.mmaF32 m ga) .f32 m 0 ga 0
/-- MMA.P md, [ga], #k. -/
def execMmaP (m : Acc) (ga : Reg) (pl : BitVec 3) (s : State) : Out := opMma s (.mmaP m ga pl) .p m 0 ga pl
/-- MMAS.BF16 md, vm, [ga]. -/
def execMmasBf16 (m : Acc) (v ga : Reg) (s : State) : Out := opMma s (.mmasBf16 m v ga) .sbf16 m v ga 0
/-- MMAS.P md, vm, [ga], #k. -/
def execMmasP (m : Acc) (v ga : Reg) (pl : BitVec 3) (s : State) : Out := opMma s (.mmasP m v ga pl) .sp m v ga pl

/-! ### Accumulators (R153, R154) -/

/-- Rows of an accumulator. -/
def Slice.rows (x : Slice) (m : Nat) : List VWord := (upto (16 * m) 16).map (tget 0 x.acc)
/-- Set the rows of an accumulator. -/
def Slice.setRows (x : Slice) (m : Nat) (r : List VWord) : Slice :=
  { x with acc := ((upto (16 * m) 16).zip r).foldl (fun a e => tset 0 a e.1 e.2) x.acc }
/-- Set the poison bit of an accumulator. -/
def Slice.setPois (x : Slice) (m : Nat) (b : Bool) : Slice :=
  { x with mpois := (x.mpois &&& ~~~(1#4 <<< m)) ||| (if b then 1#4 <<< m else 0) }

/-- MZERO md. -/
def execMzero (m : Acc) (s : State) : Out :=
  .next (s.withSlice (.mzero m) [] [] (fun s =>
    (s.setSlice s.cur.core ((s.slice.setRows m.toNat (List.replicate 16 0)).setPois m.toNat false)).sliceDone 1))

/-- MSCALE md, ga. -/
def execMscale (m : Acc) (ga : Reg) (s : State) : Out :=
  .next (s.withSlice (.mscale m ga) [ga] [] (fun s =>
    let f := bits (s.g ga) 31 0
    let r := (s.slice.rows m.toNat).map (fun v => ofLanes 32 ((lanes 32 v).map (fun c => (fmul 23 0 c f).1)))
    (s.setSlice s.cur.core (s.slice.setRows m.toNat r)).sliceDone 16))

/-- A 64-byte register from bytes. -/
def vofBytes (bs : List Byte) : VWord := BitVec.ofNat 512 (leNat bs)
/-- Sixteen rows from 1,024 bytes. -/
def rowsOf : Nat → List Byte → List VWord
  | 0, _ => []
  | n + 1, bs => vofBytes (bs.take 64) :: rowsOf n (bs.drop 64)

/-- MLDACC md, [ga]. -/
def execMldacc (m : Acc) (ga : Reg) (s : State) : Out :=
  let i := Instr.mldacc m ga
  .next (s.withSlice i [ga] [] (fun s =>
    let ea := s.g ga
    if ea.toNat % 64 ≠ 0 then s.raise 0x03 ea
    else match s.matOperand i false (piecesAt ea 64 16) with
    | (s, none) => s
    | (s, some ps) =>
      match s.gather true ps with
      | (s, false) => s
      | (s, true) =>
        let (s, l) := s.matRead ps
        let (bs, bad) := joined l
        (s.setSlice s.cur.core ((s.slice.setRows m.toNat (rowsOf 16 bs)).setPois m.toNat bad)).sliceDone 16))

/-- MSTACC [ga], md with the bytes of each row given. -/
def opMstacc (s : State) (i : Instr) (m : Acc) (ga : Reg) (n cycles : Nat) (row : VWord → List Byte) : Out :=
  .next (s.withSlice i [ga] [] (fun s =>
    let ea := s.g ga
    if ea.toNat % 64 ≠ 0 then s.raise 0x03 ea
    else match s.matOperand i true (piecesAt ea 64 n) with
    | (s, none) => s
    | (s, some ps) =>
      match s.channelOk (s.farPieces ps) with
      | (s, false) => s
      | (s, true) =>
        match s.matWrite (s.slice.mpois.getLsbD m.toNat) ps ((s.slice.rows m.toNat).flatMap row) with
        | (s, false) => s
        | (s, true) => s.sliceDone cycles))

/-- MSTACC [ga], md. -/
def execMstacc (m : Acc) (ga : Reg) (s : State) : Out := opMstacc s (.mstacc m ga) m ga 16 16 vbytes
/-- MSTACC.BF16 [ga], md: each element rounded to nearest even. -/
def execMstaccBf16 (m : Acc) (ga : Reg) (s : State) : Out :=
  opMstacc s (.mstaccBf16 m ga) m ga 8 8 (fun v => (lanes 32 v).flatMap (fun c => leBytes 2 (cvtBf16 0 c).1))

/-! ### Gang issue (R159 to R161) -/

/-- The cores of the row of a core. -/
def rowCores (k : CoreId) : List CoreId := (upto (k.core.val / 4 * 4) 4).map k.cluster.coreAt

/-- A member of a released gang multiplies the assembled tile. -/
def State.gangMember (s : State) (k : CoreId) (a : GangArrival) (rows : List (List Byte)) (bad : Bool) : State :=
  let c := ctxAt k a.slot
  let s := s.mulInto k a rows bad
  let s := s.sliceBusy k (s.regionOf c) (formCycles a.form (min a.k (s.core k).slice.wa.planes))
  let x := s.ctx c
  s.setCtx c (x.setCw cwGSTAT 0).advance

/-- The rows that a member supplies: 4c to 4c + 3 of its own tile. -/
def State.gangRows (s : State) (k : CoreId) (a : GangArrival) : List (List Byte) :=
  (upto (4 * (k.core.val % 4)) 4).map (s.tileRow k a.base a.stride (formRow a.form))
/-- Whether any of them is poisoned, with the records. -/
def State.gangBad (s : State) (k : CoreId) (a : GangArrival) : State × Bool :=
  s.tileBad k (s.regionOf (ctxAt k a.slot)) a.base a.stride (formRow a.form) (upto (4 * (k.core.val % 4)) 4)

/-- The members present at the barrier of a row. -/
def State.members (s : State) (k : CoreId) : List (CoreId × GangArrival) :=
  (rowCores k).filterMap (fun c => ((s.core c).gangAt).map (fun a => (c, a)))

/-- Take the members away from the barrier. -/
def State.leaveBarrier (s : State) (k : CoreId) : State :=
  (rowCores k).foldl (fun s c => s.setCore c { s.core c with gangAt := none }) s

/-- Four members are present: the barrier releases (R159). -/
def State.gangRelease (s : State) (ms : List (CoreId × GangArrival)) : State :=
  let s := s.leaveBarrier s.cur.core
  let same := match ms with
    | [] => true
    | (_, a) :: _ => ms.all (fun e => e.2.form == a.form && e.2.k == a.k)
  if same then
    let rows := ms.flatMap (fun e => s.gangRows e.1 e.2)
    let (s, bad) := ms.foldl (fun r e => ((r.1.gangBad e.1 e.2).1, r.2 || (r.1.gangBad e.1 e.2).2)) (s, false)
    ms.foldl (fun s e => s.gangMember e.1 e.2 rows bad) s
  else ms.foldl (fun s e => s.as (ctxAt e.1 e.2.slot) (fun s => (s.setMy { s.my with wait := .none }).raise 0x07 5)) s

/-- GANG and GANG.T. -/
def opGang (s : State) (i : Instr) (timed : Bool) (f : GangForm) (m : Acc) (v ga : Reg) (pl : BitVec 3) : Out :=
  .next (s.withDrained i [ga] (metaRegs f v) (fun s =>
    s.mulChecked f m v ga pl (fun a =>
      let s := s.setMyCore { s.myCore with gangAt := some a }
      let ms := s.members s.cur.core
      if ms.length = 4 then s.gangRelease ms
      else
        let s := s.fresh
        let s := s.setMy { s.my with wait := .gang s.nextId }
        if timed then s.after (bits (s.my.cwv cwGTIME) 31 0) (.gangTimeout s.cur s.nextId) else s)))

/-- GANG.x md, {vm,} [ga] {, #k}. -/
def execGang (f : GangForm) (m : Acc) (v ga : Reg) (pl : BitVec 3) (s : State) : Out :=
  opGang s (.gang f m v ga pl) false f m v ga pl
/-- GANG.T.x. -/
def execGangT (f : GangForm) (m : Acc) (v ga : Reg) (pl : BitVec 3) (s : State) : Out :=
  opGang s (.gangT f m v ga pl) true f m v ga pl

/-- GANG_TIMEOUT: a member whose time is over withdraws (R159, R160). -/
def execGangTimeout (s : State) : Out :=
  .next (match s.event with
    | .gangTimeout c id =>
      if (s.ctx c).wait = .gang id then
        let s := s.setCore c.core { s.core c.core with gangAt := none }
        s.as c (fun s =>
          let s := s.setMy { s.my with wait := .none }
          let t := s.my.cwv cwGTIME
          if bit t 63 then s.raise 0x10 (word (bits t 31 0))
          else s.setMy (s.my.setCw cwGSTAT 1).advance)
      else s
    | _ => s)

/-! ### Context images (R162 to R164) -/

/-- Bytes of a plane's columns that an image holds. -/
def Plane.used (x : Plane) : Nat :=
  match x.fmt with
  | 1 => 512 | 2 => 1024 | 3 => 64 * x.planes | _ => 0
/-- The 1,088 bytes of a plane in an image. -/
def Plane.image (x : Plane) : List Byte :=
  (upto 0 1024).map (fun o => if o < x.used then tget 0 x.cols o else 0)
    ++ (upto 0 64).map (fun o => if x.fmt = 3 ∧ o < 32 then tget 0 x.scales o else 0)
/-- The 6,336-byte image of a slice and its four control words (R162). -/
def Slice.image (x : Slice) (plane : Bool) (cw : List Word) : List Byte :=
  leBytes 8 (2 ^ 48 + x.mstate plane) ++ wordBytes cw ++ List.replicate 24 0 ++ x.wa.image ++ x.wb.image
    ++ (upto 0 4).flatMap (fun m => (x.rows m).flatMap vbytes)

/-- A plane from an image: format, plane count less one, its bytes, poison. -/
def planeOf (fmt pl : Nat) (bs : List Byte) (pois : Bool) : Plane :=
  let x : Plane := ⟨fmt, if fmt = 3 then pl + 1 else 0, [], [], pois⟩
  { x with cols := tableOf ((bs.take 1024).take x.used),
           scales := if fmt = 3 then tableOf ((bs.drop 1024).take 32) else [] }

/-- What is wrong with an image header (R163). -/
def imageFault (h : Word) (plane : Bool) : Option Nat :=
  let f := fun lo => bits h (lo + 1) lo
  let okFmt := fun fmt pl => (fmt == 3 || pl == 0) && (fmt != 3 || pl != 0) && (plane || fmt != 3)
    && (!plane || fmt == 0 || fmt == 3)
  if bit h 1 != plane then some 3
  else if bits h 55 48 ≠ 1 ∨ bits h 63 56 ≠ 0 ∨ bits h 47 30 ≠ 0 ∨ bit h 0 then some 4
  else if okFmt (f 4) (bits h 10 8) && okFmt (f 12) (bits h 18 16) then none
  else some 4

/-- The slice of an image; `bad` says of each 64-byte line of it whether it arrived with an error: those the header marks
unused are not read (R163). What a line that arrives with an error does is the model's choice (log entry 34): the plane or
accumulator it belongs to is poisoned, and everything when it is the header's. -/
def sliceOf (owner : Option Nat) (bs : List Byte) (bad : List Bool) : Slice :=
  let h := word (leNat (bs.take 8))
  let any := fun lo n => (bad.headD false) || ((bad.drop lo).take n).any id
  let wa := planeOf (bits h 5 4) (bits h 10 8) (bs.drop 64) (bit h 28)
  let wb := planeOf (bits h 13 12) (bits h 18 16) (bs.drop 1152) (bit h 29)
  let hit := fun (x : Plane) lo => any lo (x.used / 64) || (x.fmt == 3 && any (lo + 16) 1)
  let wa : Plane := { wa with pois := wa.pois || hit wa 1 }
  let wb : Plane := { wb with pois := wb.pois || hit wb 18 }
  let acc := ((upto 0 64).zip (rowsOf 64 (bs.drop 2240))).foldl (fun a e => tset 0 a e.1 e.2) []
  let p := (upto 0 4).foldl (fun n m => n + (bit h (24 + m) || any (35 + 16 * m) 16).toNat * 2 ^ m) 0
  { owner := owner, acc := acc, mpois := BitVec.ofNat 4 p, wa := wa, wb := wb }

/-- Whether the line of an image is one that its header marks used (R162, R163): the header's own, the columns and scales
that the formats of the planes take, the accumulators. -/
def imageLine (h : Word) (j : Nat) : Bool :=
  let used := fun f p lo =>
    let fmt := bits h (f + 1) f
    let x : Plane := { fmt := fmt, planes := bits h (p + 2) p + 1 }
    (decide (lo ≤ j) && decide (j < lo + x.used / 64)) || (fmt == 3 && j == lo + 16)
  j == 0 || used 4 8 1 || used 12 16 18 || decide (35 ≤ j)

/-- The lines of an image that are read, in order, among its pieces. -/
def imagePieces (h : Word) (ps : List Piece) : List Piece :=
  (((upto 0 ps.length).zip ps).filter (fun e => imageLine h e.1)).map (fun e => e.2)

/-- The 99 lines of an image from those read: the others count as zero. -/
def imageFill (h : Word) : List Nat → List (List Byte × Bool) → List (List Byte × Bool)
  | [], _ => []
  | j :: t, l =>
    if imageLine h j then l.headD ([], false) :: imageFill h t l.tail else (List.replicate 64 0, false) :: imageFill h t l

/-- FMTA, FMTB, SCLA, SCLB of a context. -/
def Ctx.matWords (x : Ctx) : List Word := (upto 0x040 4).map x.cwv

/-- MSAVE [ga]. -/
def execMsave (ga : Reg) (s : State) : Out :=
  let i := Instr.msave ga
  .next (s.withDrained i [ga] [] (fun s =>
    let ea := s.g ga
    if ea.toNat % 64 ≠ 0 then s.raise 0x03 ea
    else match s.matOperand i true (piecesAt ea 64 99) with
    | (s, none) => s
    | (s, some ps) =>
      match s.channelOk (s.farPieces ps) with
      | (s, false) => s
      | (s, true) =>
        match s.matWrite false ps (s.slice.image (planeCluster s.cur.core.cluster) s.my.matWords) with
        | (s, false) => s
        | (s, true) => s.sliceDone 99))

/-- MREST [ga]. -/
def execMrest (ga : Reg) (s : State) : Out :=
  let i := Instr.mrest ga
  .next (s.withDrained i [ga] [] (fun s =>
    let ea := s.g ga
    if ea.toNat % 64 ≠ 0 then s.raise 0x03 ea
    else match s.matOperand i false (piecesAt ea 64 99) with
    | (s, none) => s
    | (s, some ps) =>
      match s.gather true (ps.take 1) with
      | (s, false) => s
      | (s, true) =>
        let h := word (leNat ((joined (s.matRead (ps.take 1)).2).1.take 8))
        match imageFault h (planeCluster s.cur.core.cluster) with
        | some v => s.raise 0x07 (word v)
        | none =>
        match s.gather true (imagePieces h ps) with
        | (s, false) => s
        | (s, true) =>
          let (t, l) := s.matRead (imagePieces h ps)
          let l := imageFill h (upto 0 99) l
          let bs := (joined l).1
          let s := t.setSlice t.cur.core (sliceOf (some t.cur.ctx.val) bs (l.map (fun e => e.2)))
          let s := (upto 0 4).foldl (fun s n => s.cwWrite s.cur (0x040 + n) (word (leNat ((bs.drop (8 + 8 * n)).take 8)))) s
          s.sliceDone 99))

/-- MFREE: clears the slice and gives it up; nothing for a slot that does not own it (R164). -/
def execMfree (s : State) : Out :=
  .next (s.slotOnly .mfree
    (if s.slice.owner ≠ some s.cur.ctx.val then (s.count s.cur.core 0x07 (some (s.regionOf s.cur)) 1).advance
     else if s.slice.queue = [] then ((s.count s.cur.core 0x07 (some (s.regionOf s.cur)) 1).releaseSlice s.cur).advance
     else s.stall))

end Sys2Proof.Machine
end

