-- ==== Sys2Proof/Machine/Replies.lean ====
section
/-! DEFINITION. Memory requests at home slices, memory ports, cluster units and the fabric port, and what comes back from
them (R69, R209, R223, R229, R286, R292, R303, R327, R329); tagged requests at their banks (R217, R218). -/

namespace Sys2Proof.Machine

/-! ### Replies to a request -/

/-- Free bytes, for data the spec leaves open (log entry 11). -/
def freeBytes (k n : Nat) : List Byte := (upto 0 n).map (fun i => Config.freeByte (256 * k + i))
/-- Marks on every word of n bytes at an address. -/
def allMarks (a n : Nat) : Nat := 2 ^ (wordsAt a n).length - 1

/-- Answer a load: to a context of this device, or to another device. -/
def State.answer (s : State) (src : Nat) (r : Request) (bytes : List Byte) (bad : Nat) (refused : Bool) : State :=
  if src = s.dev then s.post (.loadReply r.issuer r.id bytes bad)
  else s.fabric (.reply s.dev src r.issuer r.id bytes bad refused)
/-- Acknowledge a store: another device expects no reply (R327). -/
def State.acknowledge (s : State) (src : Nat) (r : Request) : State :=
  if src = s.dev then s.post (.storeAcknowledgement r.issuer r.id) else s
/-- A CWB or CINV is performed: another device hears of it, so that its issuer can go on (R303). -/
def State.lineDone (s : State) (src : Nat) (r : Request) : State :=
  if src = s.dev then s.acknowledge src r else s.answer src r [0] 0 false
/-- Answer an atomic with the old value. -/
def State.answerAmo (s : State) (src : Nat) (c : CtxId) (id : Nat) (old n : Nat) (bad refused : Bool) : State :=
  if src = s.dev then s.post (.atomicReply c id (word old) bad refused)
  else s.fabric (.reply s.dev src c id (leBytes n old) bad.toNat refused)

/-! ### At a home slice (R292) -/

/-- The core whose counters a request of this device counts in. -/
def State.askCore (s : State) (src : Nat) (r : Request) : Option CoreId := if src = s.dev then some r.issuer.core else none

/-- Bytes of a line under a mask: inactive ones are not read and come as zero (R121). -/
def activeBytes (m : BitVec 64) (bs : List Byte) : List Byte :=
  ((upto 0 64).zip bs).map (fun e => if m.getLsbD e.1 then e.2 else 0)
/-- Marks of the words of a line that have an active byte. -/
def activeMarks (m : BitVec 64) (bad : Nat) : Nat :=
  (upto 0 8).foldl (fun n i => if bad.testBit i && (m >>> (8 * i)).setWidth 8 != (0 : BitVec 8) then n + 2 ^ i else n) 0
/-- The words of a line that have an active byte, read at the home slice as one access: the first poisoned active byte is
recorded. -/
def State.activeReads (s : State) (r : Request) (m : BitVec 64) (k : Option CoreId) : State :=
  let loc := paLoc r.pa
  let src := s.poisonSource loc
  let filled := s.fillBad loc 64 r.region k
  let s := s.homeAccess loc 64 r.region false k
  match (upto 0 64).find? (fun i => m.getLsbD i && s.readBad (loc + i) 1) with
  | some i => s.poisonRecord (paDie r.pa) r.region (r.pa + i) src
  | none => s.fillRecord filled r.region

/-- Perform a request at its home slice. -/
def State.atHome (s : State) (src : Nat) (r : Request) : State :=
  let loc := paLoc r.pa
  let k := s.askCore src r
  match r.kind with
  | .read n =>
    let s := s.homeRead r.pa n r.region k
    s.answer src r (s.bytes loc n) (s.marks loc n) false
  | .readActive m =>
    let s := s.activeReads r m k
    s.answer src r (activeBytes m (s.bytes loc 64)) (activeMarks m (s.marks loc 64)) false
  | .write bs bad => ((s.homeAccess loc bs.length r.region true k).pokeMarked loc bs bad).acknowledge src r
  | .put bs bad _ => ((s.homeAccess loc bs.length r.region true k).pokeMarked loc bs bad).acknowledge src r
  | .masked m bs => ((s.homeAccess loc 64 r.region true k).pokeMasked loc m bs).acknowledge src r
  | .reduce rop bs bad =>
    let src' := s.poisonSource loc
    let s := s.homeAccess loc bs.length r.region true k
    let old := s.bytes loc bs.length
    let s := if s.readBad loc bs.length then s.poisonRecord (paDie r.pa) r.region r.pa src' else s
    let was := (upto 0 bs.length).map (fun i => s.readBad (loc + i) 1)
    (s.pokeMarked loc (reduceBytes rop (bs.length + 1) old bs) (bad ||| markBits was)).acknowledge src r
  | .rmw op w32 a e =>
    let n := if w32 then 4 else 8
    let src' := s.poisonSource loc
    let filled := s.fillBad loc n r.region k
    let s := s.homeTake loc n r.region (s.amoWrites loc op w32 a e) k
    let (s, old, bad) := s.amoAt loc op w32 a e
    let s := if bad then s.poisonRecord (paDie r.pa) r.region r.pa src' else s.fillRecord filled r.region
    s.answerAmo src r.issuer r.id old n bad false
  | .inc _ _ => s.acknowledge src r
  | .clean => ((s.recall loc true none).cleanLine loc).lineDone src r
  | .discard =>
    let s := (s.holders loc).foldl (fun s e => s.setStash (CoreId.ofKey e.1) e.2 none) s
    (s.discardLine loc r.region k).lineDone src r
  | .fill => s.prefetch r.pa r.region k
  | .arm _ | .cancel _ | .colour => s

/-! ### At a core's memory port (R229) -/

/-- Perform a request at the banks of the core it names. -/
def State.atPort (s : State) (src : Nat) (r : Request) : State :=
  let k := paCoreId r.pa
  let off := paOff r.pa
  let loc := localLoc k off
  match r.kind with
  | .read n =>
    let (bs, b) := s.bankRead k off n
    let bad := if areaOf off = .mem then s.marks loc n else b.toNat
    let s := if bad ≠ 0 then s.poisonRecord k.die r.region (s.corePa k ((s.badByte loc n).getD loc - localLoc k 0)) 2 else s
    s.answer src r bs bad false
  | .readActive m =>
    let bad := activeMarks m (s.marks loc 64)
    let s := match (upto 0 64).find? (fun i => m.getLsbD i && s.poisAt (loc + i) 1) with
      | some i => s.poisonRecord k.die r.region (r.pa + i) 2
      | none => s
    s.answer src r (activeBytes m (s.bytes loc 64)) bad false
  | .write bs bad => (s.bankWriteMarked k off bs bad).acknowledge src r
  | .put bs bad t => ((s.bankWriteMarked k off bs bad).putChunk src t bs.length).acknowledge src r
  | .masked m bs => (s.pokeMasked loc m bs).acknowledge src r
  | .reduce rop bs bad =>
    let old := s.bytes loc bs.length
    let s := if s.poisAt loc bs.length then s.poisonRecord k.die r.region r.pa 2 else s
    let was := (upto 0 bs.length).map (fun i => s.poisAt (loc + i) 1)
    (s.pokeMarked loc (reduceBytes rop (bs.length + 1) old bs) (bad ||| markBits was)).acknowledge src r
  | .rmw op w32 a e =>
    let (s, old, bad) := s.amoAt loc op w32 a e
    let s := if bad then s.poisonRecord k.die r.region r.pa 2 else s
    s.answerAmo src r.issuer r.id old (if w32 then 4 else 8) bad false
  | .inc v bad => (s.post (.counterChange k (ctrNo off) false (BitVec.ofNat 32 v) bad)).acknowledge src r
  | .clean => s.acknowledge src r
  | .discard => s.acknowledge src r
  | .fill | .arm _ | .cancel _ | .colour => s

/-- HOME_SLICE_REQUEST; and the records of a line that was written back poisoned or filled poisoned (R294). -/
def execHomeSliceRequest (s : State) : Out :=
  .next (match s.event with
    | .homeSliceRequest r => s.as r.issuer (fun s => s.atHome s.dev r)
    | .fillRecord n region => s.poisonRecord (paDie (64 * n)) region (s.dev * 2 ^ 45 + 64 * n) 1
    | .lineRecord c n owner => s.recordFault owner 6 0x0D (s.dev * 2 ^ 45 + 64 * n) 0 [] c 0
    | _ => s)
/-- Send the request of a store that waited (R285). -/
def State.sendHeld (s : State) (r : Request) : State :=
  if paDev r.pa ≠ s.dev then (s.fabric (.request s.dev (paDev r.pa) r)).post (.storeAcknowledgement r.issuer r.id)
  else if paOnDie r.pa then s.post (.memoryPortRequest r)
  else s.after 1 (.homeSliceRequest r)
/-- The store of an STL that waited for tile reads: it waits on while any is to come, else it is performed or leaves the core (R280,
R285). -/
def State.heldStore (s : State) (r : Request) (own : Bool) : State :=
  let x := s.ctx r.issuer
  if x.tilesAhead && decide (0 < x.late) then s.after 1 (.heldStore r own)
  else
    let s := s.setCtx r.issuer { x with late := x.late - 1 }
    match r.kind, own with
    | .write bs _, true => s.bankWrite r.issuer.core (paOff r.pa) bs false
    | _, _ => s.sendHeld r

/-- MEMORY_PORT_REQUEST; and the store of an STL that waited. -/
def execMemoryPortRequest (s : State) : Out :=
  .next (match s.event with
    | .memoryPortRequest r => s.atPort s.dev r
    | .heldStore r own => s.heldStore r own
    | _ => s)
/-- CLUSTER_UNIT_ATOMIC: the unit obtains the line exclusively, performs the atomic and releases the line, as one action (R286;
log entry 32). -/
def execClusterUnitAtomic (s : State) : Out :=
  .next (match s.event with
    | .clusterUnitAtomic r => s.atHome s.dev r
    | _ => s)

/-! ### At the fabric port (R286, R327) -/

/-- Turn a request away: an access that the destination does not allow. A load comes back poisoned (log entry 13). -/
def State.turnAway (s : State) (src : Nat) (r : Request) : State :=
  match r.kind with
  | .read n => (s.freeNext).answer src r (freeBytes s.free n) (allMarks r.pa n) true
  | .readActive _ => (s.freeNext).answer src r (freeBytes s.free 64) (allMarks r.pa 64) true
  | .rmw _ w32 _ _ => s.answerAmo src r.issuer r.id 0 (if w32 then 4 else 8) false true
  | _ => s

/-! ### At the issuer (R68, R69, R288, R329) -/

/-- Bytes arriving from an address on. -/
def putBytes (t : Table Byte) (pa : Nat) (bs : List Byte) : Table Byte :=
  ((upto pa bs.length).zip bs).foldl (fun t e => tput t e.1 e.2) t
/-- The poisoned ones among them. -/
def putPois (p : List Nat) (pa n bad : Nat) : List Nat :=
  (upto pa n).foldl (fun p a => if bad.testBit (a / 8 - pa / 8) then sins a p else p) p

/-- Give a load's data to its destination; a discarded entry only frees (R68, R79). -/
def State.deliverLoad (s : State) (c : CtxId) (o : Outstanding) (bytes : List Byte) (bad : Nat) : State :=
  let s := s.freeOut c o.id
  let x := s.ctx c
  match o.dest with
  | .none => s
  | .g r n sg => if o.discard then s else s.setCtx c (x.load r (extend bytes n sg) (bad != 0))
  | .v r m => if o.discard then s else s.setCtx c (x.loadV r m bytes (maskedBad m bad))
  | .bcast r m => if o.discard then s else s.setCtx c (x.loadV r m (repeat16 bytes) (bad != 0))
  | .buf pa =>
    if o.discard then s
    else
      let more := (s.core c.core).outs.any (fun p => p.ctx == c.ctx.val && !p.discard && match p.dest with
        | .buf _ => true
        | _ => false)
      s.setCtx c { x with rbuf := putBytes x.rbuf pa bytes, rpois := putPois x.rpois pa bytes.length bad,
                          wait := if more then x.wait else if x.wait = .remote then .none else x.wait }
  | .cmd p id pa =>
    let port := (s.core c.core).port p.toNat
    match port.running id with
    | none => s
    | some d =>
      let d := { d with rbuf := putBytes d.rbuf pa bytes, rpois := putPois d.rpois pa bytes.length bad }
      (s.putCmd c.core p.toNat d).launch c.core p.toNat d

/-- LOAD_REPLY. -/
def execLoadReply (s : State) : Out :=
  .next (match s.event with
    | .loadReply c id bytes bad =>
      match s.findOut c id with
      | some o => s.deliverLoad c o bytes bad
      | none => s
    | _ => s)

/-- STORE_ACKNOWLEDGEMENT. -/
def execStoreAcknowledgement (s : State) : Out :=
  .next (match s.event with
    | .storeAcknowledgement c id => s.freeOut c id
    | _ => s)

/-- The answer about a task armed on a counter of another device, 0, or the TVAL of fault 0x0B (R170), or the count of a TCANCEL
there; `bad` says that no answer came in time: the task then counts as sent (log entry 15). -/
def State.toldEnd (s : State) (c : CtxId) (gd : Reg) (m : Option TaskMsg) (old : Word) (bad : Bool) : State :=
  match m with
  | some m =>
    let s := s.liveDown m.region
    if old = 0 ∨ bad then s.setCtx c ((s.ctx c).setG gd (word m.cat)).advance
    else s.as c (fun s => (s.setMy { s.my with wait := .none }).raise 0x0B old)
  | none => s.setCtx c ((s.ctx c).load gd old bad).advance

/-- The old value of an atomic reaches its issuer: gd is written, poisoned or not, or fault 0x05 is raised (R288). -/
def State.deliverAmo (s : State) (c : CtxId) (id : Nat) (old : Word) (bad refused : Bool) : State :=
  match (s.ctx c).wait with
  | .atomic id' gd w32 fadd va =>
    if id' = id then
      let s := s.freeOut c id
      if refused then s.as c (fun s => (s.setMy { s.my with wait := .none }).raise 0x05 va)
      else s.setCtx c ((s.ctx c).load gd (amoResult w32 fadd old.toNat bad) bad).advance
    else s
  | .told id' gd m => if id' = id then (s.freeOut c id).toldEnd c gd m old bad else s
  | _ => s.freeOut c id

/-- ATOMIC_REPLY. -/
def execAtomicReply (s : State) : Out :=
  .next (match s.event with
    | .atomicReply c id old bad refused => s.deliverAmo c id old bad refused
    | _ => s)

/-- REPLY_TIMEOUT: the access completes with poisoned data, and the region gets a record (R329). -/
def execReplyTimeout (s : State) : Out :=
  .next (match s.event with
    | .replyTimeout c id =>
      match s.findOut c id with
      | none => s
      | some o =>
        let s := s.poisonRecord c.core.die o.region o.pa 4
        let f := s.free
        let s := s.freeNext
        match (s.ctx c).wait with
        | .atomic id' _ _ _ _ | .told id' _ _ =>
          if id' = id then s.deliverAmo c id (Config.freeWord f) true false
          else s.deliverLoad c o (freeBytes f o.len) (allMarks o.pa o.len)
        | _ => s.deliverLoad c o (freeBytes f o.len) (allMarks o.pa o.len)
    | _ => s)

/-- STASH_RECALL: the home slice takes back a line at its own time (R223). -/
def execStashRecall (s : State) : Out :=
  .next (match s.event with
    | .stashRecall k line invalidate =>
      ((s.core k).stash.filterMap (fun e => match e.2 with
        | some l => if lineNo l.pa = line then some e.1 else none
        | none => none)).foldl (fun s key => s.recallOne k key invalidate) s
    | _ => s)

/-- PARK_RETRY: the timer of a parked access expires, and it walks again from ROOT. A page still absent is a failed retry; else
the access goes on at once (R313, R315). -/
def execParkRetry (s : State) : Out :=
  .next (match s.event with
    | .parkRetry c id =>
      match (s.ctx c).wait with
      | .parked id' va kind i f tval region =>
        if id' = id then s.as c (fun s =>
          match s.rewalk c.core region va.toNat (kind == 2) with
          | (s, .absent) => s.parkAs va tval kind region
          | (s, _) => { s.setMy { s.my with wait := .parked 0 va kind i f tval region } with agenda := s.agenda ++ [.issue c] })
        else s
      | _ => s
    | _ => s)

/-! ### Tagged requests (R217, R218) -/

/-- Whether the issuer still waits for a tagged request. -/
def State.tagWaiting (s : State) (t : TagReq) : Bool :=
  match (s.ctx t.issuer).wait with
  | .tagged id _ _ _ => id == t.id
  | _ => false

/-- TAGGED_REQUEST_ARRIVAL. -/
def execTaggedRequestArrival (s : State) : Out :=
  .next (match s.event with
    | .taggedRequestArrival t =>
      if s.tagWaiting t = false then s
      else
        let was := s.full t.core t.off
        if tagCan t was then
          let s := s.tagPerform t
          if s.full t.core t.off = was then s else s.tagChanged t.core t.off
        else if (s.core t.core).tagWaits.length < 32 then
          s.setCore t.core { s.core t.core with tagWaits := (s.core t.core).tagWaits ++ [t] }
        else s.after 64 (.taggedRequestResend t)
    | _ => s)

/-- TAGGED_REQUEST_RESEND. -/
def execTaggedRequestResend (s : State) : Out :=
  .next (match s.event with
    | .taggedRequestResend t => if s.tagWaiting t then s.post (.taggedRequestArrival t) else s
    | _ => s)

/-- TAGGED_WAIT_TIMEOUT: the timed form reports 0 (R216, R218), also where the request was returned for a full wait table and its tag would
allow it by now (log entry 68). -/
def execTaggedWaitTimeout (s : State) : Out :=
  .next (match s.event with
    | .taggedWaitTimeout k c id =>
      match (s.ctx c).wait with
      | .tagged id' _ (some gt) _ =>
        if id' = id then
          let x := s.core k
          let s := s.setCore k { x with tagWaits := x.tagWaits.filter (fun t => !(t.issuer == c && t.id == id)) }
          let s := s.freeOut c id
          s.setCtx c ((s.ctx c).setG gt 0).advance
        else s
      | _ => s
    | _ => s)

end Sys2Proof.Machine
end

