-- ==== Sys2Proof/Machine/Messages.lean ====
section
/-! DEFINITION. Active messages: sends and their queues, arrival, the inbox and its spill ring, handlers, replies, atomic
operation messages (R232 to R251, R286). -/

namespace Sys2Proof.Machine

/-! ### Send queues (R239) -/

/-- g10 to g15. -/
def argRegs : List Reg := [10, 11, 12, 13, 14, 15]
/-- The values of g10 to g15. -/
def State.args (s : State) : List Word := argRegs.map s.g

/-- A send finds queue 1 (requests) or 2 (replies) full: a slot stalls, a handler takes trap 0x0C. -/
def State.queueFull (s : State) (q : Nat) : State :=
  let s := if s.my.wait = .full then s else s.count s.cur.core 0x15 (some (s.regionOf s.cur)) 1
  if s.cur.isHandler then s.raise 0x0C (word q) else s.setMy { s.my with wait := .full }

/-- Whether the request queue of the current core is full. -/
def State.requestsFull (s : State) : Bool := decide (16 ≤ s.myCore.sendReq.length)
/-- Put a packet in the request queue. -/
def State.queueRequest (s : State) (p : OutPkt) : State :=
  (s.setMyCore { s.myCore with sendReq := s.myCore.sendReq ++ [p] }).post (.sendQueueInjection s.cur.core false)
/-- Put a packet in the reply queue. -/
def State.queueReply (s : State) (p : OutPkt) : State :=
  (s.setMyCore { s.myCore with sendReply := s.myCore.sendReply ++ [p] }).post (.sendQueueInjection s.cur.core true)

/-- Send a reply from a core to its line (R246, R247). -/
def State.passReply (s : State) (m : ActMsg) (replier : Nat) : State :=
  if paDev m.raddr = s.dev then s.post (.replySink (paCoreId m.raddr) m replier)
  else s.fabric (.answer s.dev (paDev m.raddr) m replier)

/-- The cluster an on-die address lies in. -/
def paCluster (pa : Nat) : ClusterId := (paCoreId pa).cluster

/-- The number under which a SPAWNTRIG waits for the answer about a task. -/
def Wait.tells (w : Wait) (cat : Nat) : Option Nat :=
  match w with
  | .told id _ (some m) => if m.cat = cat then some id else Option.none
  | _ => Option.none

/-- What becomes of a packet that has left its core, with the route kind recorded in its header (R230). An armed task for another
device goes there as a request that its cluster answers (log entry 15). -/
def State.inject (s : State) (k : CoreId) (p : OutPkt) : State :=
  match p with
  | .msg m dests => s.deliverAll dests (s.routedMsg k.die m)
  | .reply m r => s.passReply (s.routedMsg k.die m) r
  | .spawn m => s.post (.taskPlacement k.cluster m 0)
  | .armed m =>
    let m := s.routed k.die m
    if paDev m.trig = s.dev then s.post (.armedTaskArrival (paCluster m.trig) m)
    else match (coreCtxs k).findSome? (fun c => (s.ctx c).wait.tells m.cat |>.map (fun id => (c, id))) with
    | some (c, id) =>
      (s.fabric (.request s.dev (paDev m.trig) ⟨c, id, m.trig, .arm m, m.colour, m.region, m.cat⟩)).after (s.ftime k.cluster)
        (.replyTimeout c id)
    | none => s
  | .spawnat m pa id =>
    match (coreCtxs k).find? (fun c => match (s.ctx c).wait with
      | .spawnat i _ _ _ => i == id
      | _ => false) with
    | some c =>
      let m := s.routed k.die m
      if paDev pa = s.dev then s.post (.spawnatOutcome (paCoreId pa) c id m)
      else s.fabric (.spawnat s.dev (paDev pa) (paCoreId pa) c id m)
    | none => s

/-- SEND_QUEUE_INJECTION: the oldest packet of a queue leaves the core (R239). -/
def execSendQueueInjection (s : State) : Out :=
  .next (match s.event with
    | .sendQueueInjection k reply =>
      let x := s.core k
      match (if reply then x.sendReply else x.sendReq) with
      | [] => s
      | p :: t =>
        (s.setCore k (if reply then { x with sendReply := t } else { x with sendReq := t })).inject k p
    | _ => s)

/-! ### SEND, SENDH, SENDT (R243 to R246) -/

/-- The addresses of the cores that a destination word names (R244). -/
def destsOf (d : Word) : List Nat :=
  let m := bits d 29 14
  if m = 0 then [destPa d] else (snake.filter (fun n => m.testBit n)).map (fun n => destPa d + n * 2 ^ 30)

/-- A destination word or SRPLY that R245 step 4 refuses. -/
def sendBad (d r : Word) : Bool :=
  let m := bits d 29 14
  bits d 13 3 != 0 || (m != 0 && bits d 33 30 != 0) || (m != 0 && bit r 63) || (bit r 63 && bits r 5 0 != 0)

/-- The message a send of the current context makes (R244). -/
def State.sendMsg (s : State) (typ : Nat) (entry d r : Word) : ActMsg :=
  { typ := typ, rcls := bits d 2 0, colour := s.colourOf s.cur, region := s.regionOf s.cur,
    tag := s.myCore.sendCount.toNat, cat := s.catOf s.cur, entry := entry, payload := s.args,
    raddr := if bit r 63 then s.corePa s.cur.core (bits r 17 0) else 0, cv := bit r 63 && bit r 62,
    cnt := if bit r 63 then bits r 61 56 else 0, status := 0 }

/-- SEND and SENDH. -/
def opSend (s : State) (typ : Nat) (gd ga gb : Reg) : Out :=
  .next (s.guardP ([ga, gb] ++ argRegs) []
    (let d := s.g gb
     let e := s.g ga
     let r := s.my.cwv cwSRPLY
     if bits e 1 0 ≠ 0 then s.raise 0x03 e
     else if sendBad d r then s.raise 0x06 d
     else if s.destOk d = false then s.raise 0x05 d
     else if s.requestsFull then s.queueFull 1
     else
       let m := s.sendMsg typ e d r
       let s := s.setMyCore { s.myCore with sendCount := s.myCore.sendCount + 1 }
       (s.queueRequest (.msg m (destsOf d))).done gd (word m.tag)))

/-- SEND gd, ga, gb. -/
def execSend (gd ga gb : Reg) (s : State) : Out := opSend s 8 gd ga gb
/-- SENDH gd, ga, gb. -/
def execSendh (gd ga gb : Reg) (s : State) : Out := opSend s 9 gd ga gb

/-- A reply to a message, by route class and colour of that message (R246). -/
def replyTo (m : ActMsg) (region status : Nat) (payload : List Word) : ActMsg :=
  { m with typ := 10, region := region, entry := 0, payload := payload, status := status }

/-- SENDT gd. -/
def execSendt (gd : Reg) (s : State) : Out :=
  .next (if s.cur.isHandler = false then s.illegal (.sendt gd)
    else s.guardP argRegs []
      (match s.my.handled with
       | none => s.done gd 0
       | some h =>
         if h.msg.raddr = 0 ∨ h.replied then s.done gd 0
         else if 16 ≤ s.myCore.sendReply.length then s.queueFull 2
         else
           let s := s.setMy { s.my with handled := some { h with replied := true } }
           (s.queueReply (.reply (replyTo h.msg (s.regionOf s.cur) 0 s.args) (s.corePa s.cur.core 0))).done gd 1))

/-! ### HEND, masks (R248 to R250) -/

/-- HEND. -/
def execHend (s : State) : Out := .next (if s.cur.isHandler then s.endHandler s.cur else s.illegal .hend)

/-- Change CLMASK and give its old value (R249). -/
def opClassMask (s : State) (i : Instr) (gd ga : Reg) (f : Nat → Nat → Nat) : Out :=
  .next (s.supOnly i (s.guardP [ga] []
    (let old := s.myCore.cwv cwCLMASK
     let s' := s.setMyCore (s.myCore.setCw cwCLMASK (word (f (bits old 7 0) (bits (s.g ga) 7 0))))
     (s'.post (.handlerStart s.cur.core false)).done gd old)))

/-- CMASK gd, ga. -/
def execCmask (gd ga : Reg) (s : State) : Out := opClassMask s (.cmask gd ga) gd ga (fun m b => m ||| b)
/-- CUNMASK gd, ga. -/
def execCunmask (gd ga : Reg) (s : State) : Out := opClassMask s (.cunmask gd ga) gd ga (fun m b => m &&& (255 - b))

/-- HMASK. -/
def execHmask (s : State) : Out :=
  .next (if s.cur.ctx.val ≠ 4 then s.illegal .hmask
    else if s.myCore.winOpen then s.advance
    else (s.setMyCore { s.myCore with winOpen := true, winLeft := 256 }).advance)
/-- HUNMASK. -/
def execHunmask (s : State) : Out :=
  .next (if s.cur.ctx.val ≠ 4 then s.illegal .hunmask
    else if s.myCore.winOpen then
      ((s.setMyCore { s.myCore with winOpen := false, winLeft := 0 }).post (.handlerStart s.cur.core true)).advance
    else s.advance)

/-- MASKED_WINDOW_CLOSE (R250). -/
def execMaskedWindowClose (s : State) : Out :=
  .next (match s.event with
    | .maskedWindowClose k =>
      let x := s.core k
      if x.winOpen ∧ x.winLeft = 0 then (s.setCore k { x with winOpen := false }).post (.handlerStart k true) else s
    | _ => s)

/-! ### The inbox and its spill ring (R235) -/

/-- High-priority type. -/
def isHigh (typ : Nat) : Bool := typ == 9

/-- Inbox entries in use: waiting messages and those being handled (R238). -/
def State.inboxUsed (s : State) (k : CoreId) : Nat :=
  (s.core k).inbox.length + (s.ctx ⟨k, 4⟩).handled.isSome.toNat + (s.ctx ⟨k, 5⟩).handled.isSome.toNat

/-- MSGS of the service region of a core. -/
def State.msgs (s : State) (k : CoreId) : Word := s.regEff (s.core k).svc 22
/-- INDEPTH. -/
def State.ringDepth (s : State) (k : CoreId) : Nat := bits (s.msgs k) 47 40
/-- Memory key of a record slot of a core's spill ring. -/
def State.ringLoc (s : State) (k : CoreId) (i : Nat) : Nat :=
  dramLoc k.die (bits (s.msgs k) 35 0 + (16 * k.cl.val + k.core.val) * s.ringDepth k * 128 + 128 * i)
/-- Whether the record of a slot is of high priority. -/
def State.ringHigh (s : State) (k : CoreId) (i : Nat) : Bool := isHigh (bits (s.dword (s.ringLoc k i)) 63 60)
/-- The record slots in use that hold records of a priority. -/
def State.ringSlots (s : State) (k : CoreId) (high : Bool) : List Nat :=
  (s.core k).spillSlots.filter (fun i => s.ringHigh k i == high)
/-- The oldest of some record slots: by arrival time, the lower slot first. -/
def State.ringOldest (s : State) (k : CoreId) : List Nat → Option Nat
  | [] => none
  | i :: t =>
    match s.ringOldest k t with
    | none => some i
    | some j =>
      let a := (s.dword (s.ringLoc k i + 96)).toNat
      let b := (s.dword (s.ringLoc k j + 96)).toNat
      if a < b ∨ (a = b ∧ i ≤ j) then some i else some j

/-- Whether the storage rules let a message of a priority take an inbox entry, but for the ring. -/
def State.inboxRoom (s : State) (k : CoreId) (high : Bool) : Bool := decide (s.inboxUsed k ≤ if high then 31 else 27)

/-- Take one record back from the ring when an entry is free (R235). -/
def State.refillInbox (s : State) (k : CoreId) : State :=
  let take := fun (i : Nat) =>
    let loc := s.ringLoc k i
    let s := s.homeAccess loc 128 (s.core k).svc false (some k)
    let m := actOfWords (wordsOf 12 (s.bytes loc 96))
    let x := s.core k
    s.setCore k { x with inbox := x.inbox ++ [⟨m, (s.dword (loc + 96)).toNat⟩], spillSlots := sdel i x.spillSlots }
  match s.ringOldest k (s.ringSlots k true), s.ringOldest k (s.ringSlots k false) with
  | some i, _ => if s.inboxRoom k true then take i else s
  | none, some i => if s.inboxRoom k false then take i else s
  | none, none => s

/-- Add to a half of NCNT, saturating: DROP or REJ. -/
def State.ncnt (s : State) (k : CoreId) (drop : Bool) : State :=
  let x := s.core k
  let n := x.cwv cwNCNT
  s.setCore k (x.setCw cwNCNT (if drop then word (bits n 31 0 + 2 ^ 32 * satAdd 32 (bits n 63 32) 1)
    else word (satAdd 32 (bits n 31 0) 1 + 2 ^ 32 * bits n 63 32)))

/-- Reply on the network interface's own account, when a reply is wanted (R234, R235). -/
def State.niReply (s : State) (k : CoreId) (m : ActMsg) (status : Nat) : State :=
  if m.raddr = 0 then s
  else s.passReply (s.routedMsg k.die (replyTo m (s.core k).svc status (List.replicate 6 0))) (s.corePa k 0)

/-- Store an accepted message: in the inbox, in the ring where that is backed (R10; log entry 70), or nowhere (R235). -/
def State.storeMsg (s : State) (k : CoreId) (m : ActMsg) : State :=
  let high := isHigh m.typ
  let x := s.core k
  if s.inboxRoom k high ∧ s.ringSlots k high = [] then
    ((s.setCore k { x with inbox := x.inbox ++ [⟨m, s.time⟩] }).count k 0x13 (some x.svc) 1).post (.handlerStart k high)
  else
    let s := s.count k 0x14 (some x.svc) 1
    match (if s.areaBacked (s.ringLoc k 0) (128 * s.ringDepth k) then (upto 0 (s.ringDepth k)).find? (fun i => !smem i x.spillSlots)
      else none) with
    | some i =>
      let loc := s.ringLoc k i
      let s := s.homeAccess loc 128 x.svc true (some k)
      let s := s.poke loc (wordBytes (actWords m) ++ leBytes 8 s.time ++ List.replicate 24 0) false
      s.setCore k { s.core k with spillSlots := sins i x.spillSlots }
    | none =>
      let s := s.ncnt k true
      if m.typ = 5 then s.after 64 (.atomicOperationResend k m) else s.niReply k m 2

/-- The tests of R234. -/
def State.accepts (s : State) (k : CoreId) (m : ActMsg) : Bool :=
  let h := (s.core k).cwv (cwHTAB + m.rcls % 8)
  bit h 63 && m.entry.toNat % 4 == 0 && decide (bits h 17 0 ≤ m.entry.toNat) && decide (m.entry.toNat < bits h 49 32)
    && (m.typ != 9 || bit h 62) && (m.colour == 0 || s.colourOk k m.colour || bits ((s.core k).cwv cwLMCOL) 5 0 == 0)

/-- MESSAGE_ARRIVAL. -/
def execMessageArrival (s : State) : Out :=
  .next (match s.event with
    | .messageArrival k m =>
      if m.typ = 5 ∨ m.typ = 11 ∨ s.accepts k m then s.storeMsg k m
      else (s.ncnt k false).niReply k m 1
    | _ => s)

/-! ### Handlers (R236 to R238) -/

/-- Whether a low-priority message may start (R236). -/
def Core.startable (x : Core) (m : ActMsg) : Bool :=
  !isHigh m.typ && (m.typ == 5 || m.typ == 11 || !bit (x.cwv cwCLMASK) m.rcls)

/-- The oldest eligible message of a priority. -/
def Core.waiting (x : Core) (high : Bool) : Option InMsg :=
  x.inbox.find? (fun e => if high then isHigh e.msg.typ else x.startable e.msg)

/-- Take the first such message out of the inbox. -/
def Core.takeMsg (x : Core) (e : InMsg) : Core := { x with inbox := x.inbox.erase e }

/-- A bank at the start of a handler (R236): TVEC, TMASK and HSP are kept. -/
def Ctx.handlerStart (x : Ctx) (m : ActMsg) : Ctx :=
  let y : Ctx := { cw := x.cw.filter (fun e => e.1 == cwTVEC || e.1 == cwTMASK || e.1 == cwHSP), pc := m.entry,
                   handled := some ⟨m, false⟩ }
  let y := y.setCw cwSTATUS (statusOf true true false)
  let y := (argRegs.zip m.payload).foldl (fun y e => y.setG e.1 e.2) y
  let w := actWords m
  ((y.setG 2 (word (bits (x.cwv cwHSP) 17 0))).setG 8 (w.getD 0 0)).setG 9 (w.getD 9 0)

/-- HANDLER_START. -/
def execHandlerStart (s : State) : Out :=
  .next (match s.event with
    | .handlerStart k high =>
      let s := s.refillInbox k
      let c : CtxId := if high then ⟨k, 5⟩ else ⟨k, 4⟩
      let x := s.core k
      if (s.ctx c).handled.isSome ∨ (high ∧ x.winOpen) then s
      else match x.waiting high with
      | none => s
      | some e =>
        if e.msg.typ = 5 then s.post (.atomicOperationMessage k)
        else
          let s := s.setCore k (x.takeMsg e)
          s.setCtx c ((s.ctx c).handlerStart e.msg)
    | _ => s)

/-! ### Replies and atomic operation messages (R247, R286) -/

/-- REPLY_SINK. -/
def execReplySink (s : State) : Out :=
  .next (match s.event with
    | .replySink k m replier =>
      if areaOf (paOff m.raddr) ≠ .mem then s
      else
        let line := wordBytes m.payload ++ leBytes 8 (m.tag + m.status * 2 ^ 16) ++ leBytes 8 replier
        let s := s.poke (localLoc k (paOff m.raddr)) line false
        if m.cv then s.postInc k m.cnt else s
    | _ => s)

/-- Perform a .sys atomic that the fabric port handed to a core, and give the port its result (R286, R288). -/
def State.builtIn (s : State) (k : CoreId) (m : ActMsg) : State :=
  match s.plat.sysOps.find? (fun o => o.tag == m.tag), amoOfCode (bits m.entry 36 32) with
  | some o, some op =>
    let s := { s with plat := { s.plat with sysOps := s.plat.sysOps.erase o } }
    let w32 := bit m.entry 37
    let n := if w32 then 4 else 8
    let off := bits m.entry 29 0
    if s.colourOk k m.colour = false then s.answerAmo o.src o.issuer o.id 0 n false true
    else
      let (s, old, bad) := s.amoAt (localLoc k off) op w32 (m.payload.getD 0 0) (m.payload.getD 1 0)
      let s := if bad then s.poisonRecord k.die m.region (s.corePa k off) 2 else s
      s.answerAmo o.src o.issuer o.id old n bad false
  | _, _ => s

/-- ATOMIC_OPERATION_MESSAGE. -/
def execAtomicOperationMessage (s : State) : Out :=
  .next (match s.event with
    | .atomicOperationMessage k =>
      let x := s.core k
      match x.waiting false with
      | some e =>
        if e.msg.typ = 5 ∧ (s.ctx ⟨k, 4⟩).handled.isNone then
          ((s.setCore k (x.takeMsg e)).builtIn k e.msg).post (.handlerStart k false)
        else s
      | none => s
    | _ => s)

/-- ATOMIC_OPERATION_RESEND. -/
def execAtomicOperationResend (s : State) : Out :=
  .next (match s.event with
    | .atomicOperationResend k m => s.post (.messageArrival k m)
    | _ => s)

end Sys2Proof.Machine
end

