-- ==== Sys2Proof/Machine/Rank.lean ====
section
/-! DEFINITION. The order of what happens in one cycle (R185, R193, R195, R218, R250, R254, R256, R285, R287, R292, R311, R360; log
entry 1), and the packets that the routers hold (R190, R228). -/

namespace Sys2Proof.Machine

/-! ### Where things arrive -/

/-- Place of what arrives at the banks of a core: from its own core 160, else 161 + port (R287). -/
def bankRank (src dst : CoreId) : Nat := if src = dst then 160 else 161 + arrivalPort src.cluster dst.cluster
/-- Place of what another device sends to an address: its packets come by the up port. -/
def farRank (pa : Nat) : Nat := if paOnDie pa then 166 else 69

/-- The action that a started command performs next. -/
def Command.nextAct (c : Command) (p : Nat) : Option EAct :=
  ((if p = 0 then c.copyActs else c.rowsActs).drop c.progress).head?
/-- Place of a command at an address: a home slice, the banks of a core. -/
def State.addrRank (s : State) (k : CoreId) (region : Nat) (va : Word) : Nat :=
  match s.homeSeen k region va, s.place va with
  | some cl, _ => 64 + arrivalPort k.cluster cl
  | none, .win pa => if paDev pa = s.dev then bankRank k (paCoreId pa) else 160
  | _, _ => 160
/-- Place of a command of an engine port: that of its next action at the home slice it reaches, else at the banks (log entry 71). -/
def State.engineRank (s : State) (k : CoreId) (p id : Nat) : Nat :=
  match ((s.core k).port p).running id with
  | none => 160
  | some c =>
    match c.nextAct p with
    | some (.chunk src dst _ _ _ _) =>
      match s.addrRank k c.region dst, src.map (s.addrRank k c.region) with
      | d, some a => if d < 160 then d else if a < 160 then a else max d a
      | d, none => d
    | some _ => 160
    | none => if p = 0 then s.addrRank k c.region c.w2 else 160
/-- Place of an operation on the directory of a die: its entry lies in the slice that its number selects (log entry 72). -/
def dirRank (k : CoreId) (block : Nat) : Nat := 64 + arrivalPort k.cluster ⟨k.die, Fin.ofNat 192 block⟩

/-! ### The phases of a cycle -/

/-- The place of an event among those of its cycle: 32 × phase + port. The phases are: releases of armed tasks (1), requests at
home slices and cluster units, the control port and the carrel after them (2), retries of parked accesses (3), instructions, and
before them what the ones before it left to be done (4), what reaches the banks of a core (5), everything else, timers of replies
and holds last (6), the tests of counters (7), withdrawals (8), placement (9), dispatch (10), deadlines (11), the field tick (12)
and the adaptive loop (13). -/
def State.eventRank (s : State) (e : Event) : Nat :=
  match e with
  | .armedRelease _ _ => 32
  | .homeSliceRequest r => 64 + arrivalPort r.issuer.core.cluster (s.homeOr r.pa)
  | .clusterUnitAtomic r => 64 + r.issuer.core.core.val
  | .directoryOperation k id =>
    match ((s.core k).port 3).running id with
    | some c => dirRank k (bits c.w0 63 32)
    | none => 64
  | .identity _ | .attest _ | .firmware _ | .status _ | .write _ | .read _ _ | .launch _ | .close _ | .partition _ | .breakpoint _
  | .telemetry _ | .management _ | .reset _ | .unknownFrame _ => 70
  | .carrelTurn _ => 95
  | .parkRetry _ _ => 96
  | .heldStore _ _ | .maskedWindowClose _ => 127
  | .memoryPortRequest r => bankRank r.issuer.core (paCoreId r.pa)
  | .taggedRequestArrival t => bankRank t.issuer.core t.core
  | .taggedRequestResend t => bankRank t.issuer.core t.core
  | .counterChange _ _ _ _ _ => 160
  | .copy k id | .get k id | .put k id | .rcopy k id => s.engineRank k 0 id
  | .gather k id | .scatter k id | .scatterReduction k id => s.engineRank k 1 id
  | .remoteRequest _ r => farRank r.pa
  | .countedWriteArrival _ _ _ _ pa _ _ _ _ => farRank pa
  | .homeAcknowledge _ _ _ => 69
  | .flagArrival _ _ f => farRank f.addr
  | .counterFromAbove _ _ _ => 166
  | .replySink k _ r => if paDev r = s.dev then bankRank (paCoreId r) k else 166
  | .replyTimeout _ _ | .holdTimerExpiry _ _ _ => 208
  | .debugStop _ | .slotSave _ => 256
  | .taskPlacement _ _ port => 288 + port.val
  | .dispatch _ | .taskPreemption _ => 320
  | .mbwaitTimeout _ _ | .deqtTimeout _ _ | .taggedWaitTimeout _ _ _ | .gangTimeout _ _ => 352
  | .fieldTick => 384
  | .adaptiveLoop _ => 416
  | _ => 192

/-- The place of an act among those of its cycle. -/
def State.rank (s : State) (a : Act) : Nat :=
  match a with
  | .ev e => s.eventRank e
  | .issue _ | .seq _ | .pair _ _ _ => 128
  | .test _ _ => 224

/-- The act of an agenda that comes first: of those of least rank, the one put there first; and the agenda without it. -/
def State.firstAct (s : State) : List Act → Option (Act × List Act)
  | [] => none
  | a :: t =>
    match s.firstAct t with
    | none => some (a, t)
    | some (b, r) => if s.rank a ≤ s.rank b then some (a, t) else some (b, a :: r)

/-! ### Packets in flight (R190, R228) -/

/-- The colour that the packets of an entry carry. -/
def State.outColour (s : State) (c : CtxId) (id : Nat) : Nat := ((s.findOut c id).map (fun o => o.colour)).getD 0

/-- The router that holds the packet an event stands for, and the packet's colour. -/
def State.packetAt (s : State) (e : Event) : Option (ClusterId × Nat) :=
  match e with
  | .homeSliceRequest r => some (s.homeOr r.pa, r.colour)
  | .memoryPortRequest r => some ((paCoreId r.pa).cluster, r.colour)
  | .remoteRequest _ r => some (if paOnDie r.pa then (paCoreId r.pa).cluster else s.homeOr r.pa, r.colour)
  | .clusterUnitAtomic r => some (r.issuer.core.cluster, r.colour)
  | .loadReply c id _ _ | .storeAcknowledgement c id | .atomicReply c id _ _ _ => some (c.core.cluster, s.outColour c id)
  | .taggedRequestArrival t => some (t.core.cluster, t.colour)
  | .messageArrival k m => some (k.cluster, m.colour)
  | .replySink k m _ => some (k.cluster, m.colour)
  | .taskPlacement cl m port => if port = 0 then none else some (cl, m.colour)
  | .armedTaskArrival cl m => some (cl, m.colour)
  | .spawnatOutcome k _ _ m => some (k.cluster, m.colour)
  | _ => none

/-- The packets of a colour that the router of a cluster holds: its in-flight counter. -/
def State.inFlight (s : State) (cl : ClusterId) (colour : Nat) : Nat :=
  ((s.agenda.filterMap (fun a => match a with
      | .ev e => s.packetAt e
      | _ => none) ++ s.timers.filterMap (fun t => s.packetAt t.2)).filter (fun p => p == (cl, colour))).length

end Sys2Proof.Machine
end

