-- ==== Sys2Proof/Machine/Rpt.lean ====
section
/-! DEFINITION. The repeat frame: capturable words, strided fields, the checks of R53 and R57, RPT (R49 to R57). -/

namespace Sys2Proof.Machine

/-- The last register of the file each strided field names, none where the field names no register (R51). -/
structure Strides where
  d : Option Nat
  a : Option Nat
  b : Option Nat
  deriving DecidableEq, Repr

/-- Fields of three registers of the g or v files. -/
def st3 : Option Strides := some ⟨some 31, some 31, some 31⟩
/-- Fields of two registers. -/
def st2 : Option Strides := some ⟨some 31, some 31, none⟩

/-- The strided fields of a capturable instruction; none when it is not capturable (R51). -/
def strides (i : Instr) : Option Strides :=
  match i with
  | .add _ _ _ | .sub _ _ _ | .and _ _ _ | .or _ _ _ | .xor _ _ _ | .andn _ _ _ | .sll _ _ _ | .srl _ _ _
  | .sra _ _ _ | .clt _ _ _ | .cltu _ _ _ | .min _ _ _ | .max _ _ _ | .minu _ _ _ | .maxu _ _ _ | .mul _ _ _
  | .mulh _ _ _ | .mulhu _ _ _ | .div _ _ _ | .divu _ _ _ | .rem _ _ _ | .remu _ _ _ | .sel _ _ _ _ => st3
  | .clz _ _ | .popc _ _ => st2
  | .addi _ _ _ | .andi _ _ _ | .ori _ _ _ | .xori _ _ _ | .clti _ _ _ | .cltiu _ _ _ | .insh0 _ _ _ | .insh1 _ _ _
  | .insh2 _ _ _ | .insh3 _ _ _ | .slli _ _ _ | .srli _ _ _ | .srai _ _ _ => st2
  | .vadd _ _ _ _ _ | .vsub _ _ _ _ _ | .vmul _ _ _ _ _ | .vadds _ _ _ _ _ | .vsubs _ _ _ _ _ | .vmin _ _ _ _ _
  | .vmax _ _ _ _ _ | .vminu _ _ _ _ _ | .vmaxu _ _ _ _ _ | .vsll _ _ _ _ _ | .vsrl _ _ _ _ _ | .vsra _ _ _ _ _
  | .vand _ _ _ _ | .vor _ _ _ _ | .vxor _ _ _ _ | .vandn _ _ _ _ | .vsel _ _ _ _ => st3
  | .vabs _ _ _ _ => st2
  | .vfadd _ _ _ _ _ | .vfsub _ _ _ _ _ | .vfmul _ _ _ _ _ | .vfma _ _ _ _ _ | .vfnma _ _ _ _ _
  | .vfmin _ _ _ _ _ | .vfmax _ _ _ _ _ => st3
  | .vfabs _ _ _ _ | .vfneg _ _ _ _ | .vexp2 _ _ _ | .vrcp _ _ _ | .vrsq _ _ _ => st2
  | .vcmpEq _ _ _ _ _ | .vcmpNe _ _ _ _ _ | .vcmpLt _ _ _ _ _ | .vcmpLe _ _ _ _ _ | .vcmpLtu _ _ _ _ _
  | .vcmpLeu _ _ _ _ _ => some ⟨some 7, some 31, some 31⟩
  | .qand _ _ _ | .qor _ _ _ | .qxor _ _ _ | .qandn _ _ _ => some ⟨some 7, some 7, some 7⟩
  | .qnot _ _ => some ⟨some 7, some 7, none⟩
  | .qcnt _ _ | .qtog _ _ => some ⟨some 31, some 7, none⟩
  | .qfromg _ _ => some ⟨some 7, some 31, none⟩
  | .vrsumF32 _ _ _ | .vrmaxF32 _ _ _ | .vrsumI32 _ _ _ | .vrmaxI32 _ _ _ | .vbcast _ _ _ | .vcompress _ _
  | .vcvtF32Bf16 _ _ _ _ | .vcvtBf16F32 _ _ _ _ | .vcvtF32I32 _ _ _ | .vcvtI32F32 _ _ _ | .vcvtI8I32 _ _ _ _
  | .vcvtUi8I32 _ _ _ _ | .vcvtI32I8 _ _ _ _ => st2
  | .vextr _ _ _ _ | .vins _ _ _ _ | .vperm _ _ _ _ | .vslide _ _ _ _ | .vtopk _ _ _ _ | .vtopkNz _ _ _ _ => st3
  | .mmaBf16 _ _ | .mmaF32 _ _ | .mmaP _ _ _ | .mscale _ _ => some ⟨some 3, none, some 31⟩
  | .mmasBf16 _ _ _ | .mmasP _ _ _ _ => some ⟨some 3, some 31, some 31⟩
  | .mzero _ => some ⟨some 3, none, none⟩
  | _ => none

/-- The base numbers of the strided fields of a word: matrix format or the others (R51). -/
def strideBase (w : IWord) : Nat × Nat × Nat :=
  if fMaj w = 0x30 then ((fM w).toNat, (fV w).toNat, (fG w).toNat) else ((fA w).toNat, (fB w).toNat, (fC w).toNat)

/-- The word of iteration i: each strided field that names a register is raised by i × its stride (R51, R52). -/
def strideWord (w : IWord) (st : Strides) (sd sa sb i : Nat) : IWord :=
  let d := if st.d.isSome then i * sd else 0
  let a := if st.a.isSome then i * sa else 0
  let b := if st.b.isSome then i * sb else 0
  if fMaj w = 0x30 then w + BitVec.ofNat 32 (d * 2 ^ 24 + a * 2 ^ 19 + b * 2 ^ 14)
  else w + BitVec.ofNat 32 (d * 2 ^ 21 + a * 2 ^ 16 + b * 2 ^ 11)

/-- Check 5 of R53 for one field: the last number stays in the file. -/
def strideFits (limit : Option Nat) (base stride count : Nat) : Bool :=
  match limit with
  | none => true
  | some l => stride == 0 || decide (base + (count - 1) * stride ≤ l)

/-- Check 3 of R53. -/
def chkLegal (w : IWord) : Bool := (decode w).isSome
/-- Check 4 of R53. -/
def chkCapturable (w : IWord) : Bool :=
  match decode w with
  | some i => (strides i).isSome
  | none => false
/-- Check 5 of R53. -/
def chkRange (w : IWord) (sd sa sb count : Nat) : Bool :=
  match (decode w).bind strides with
  | none => true
  | some st =>
    let b := strideBase w
    decide (count ≤ 1) || (strideFits st.d b.1 sd count && strideFits st.a b.2.1 sa count && strideFits st.b b.2.2 sb count)
/-- Check 6 of R53. Check 5 leaves at most 32 iterations that differ. -/
def chkStrided (w : IWord) (sd sa sb count : Nat) : Bool :=
  match (decode w).bind strides with
  | none => true
  | some st => (upto 1 (min (count - 1) 31)).all (fun i => (decode (strideWord w st sd sa sb i)).isSome)

/-- The first captured word that fails a check, with its position. -/
def firstBad (ok : IWord → Bool) : Nat → List IWord → Option Nat
  | _, [] => none
  | j, w :: t => if ok w then firstBad ok (j + 1) t else some j

/-- Checks 3 to 6 of R53 in their order over all words: code and position. -/
def frameFault (ws : List IWord) (sd sa sb count : Nat) : Option (Nat × Nat) :=
  match firstBad chkLegal 0 ws with
  | some j => some (0x01, j)
  | none =>
  match firstBad chkCapturable 0 ws with
  | some j => some (0x09, j)
  | none =>
  match firstBad (fun w => chkRange w sd sa sb count) 0 ws with
  | some j => some (0x09, j)
  | none => (firstBad (fun w => chkStrided w sd sa sb count) 0 ws).map (fun j => (0x09, j))

/-- Fetch n captured words (R52): the words, or the state that holds the fault or the park. -/
def fetchWords (s : State) (va : Word) : Nat → State × Option (List IWord)
  | 0 => (s, some [])
  | n + 1 =>
    match s.fetch va with
    | (s, .wait) => (s, none)
    | (s, .fault e) => (s.raise e va, none)
    | (s, .word w p) =>
      if p then (s.raise 0x0D va, none)
      else match fetchWords s (va + 4) n with
      | (s, some ws) => (s, some (w :: ws))
      | (s, none) => (s, none)

/-- RPT (R52, R53): fetch, check, then the frame is live and the scalar stream goes on after the captured words. -/
def opRpt (s : State) (i : Instr) (len : BitVec 4) (sd sa sb : BitVec 2) (count : Nat) : State :=
  s.slotOnly i
    (let n := len.toNat + 1
     let pc := s.my.pc
     match fetchWords s (pc + 4) n with
     | (s, none) => s
     | (s, some ws) =>
       match frameFault ws sd.toNat sa.toNat sb.toNat count with
       | some (code, j) => s.raise code (pc + 4 + word (4 * j))
       | none =>
         let x := { s.my.leave with pc := pc + word (4 * (n + 1)) }
         s.setMy (if count = 0 then x
           else { x with heldTrap := none, frame := some ⟨ws, sd.toNat, sa.toNat, sb.toNat, count, 0, 0⟩ }))

/-- RPT #count (R50). -/
def execRptImmediate (len : BitVec 4) (sd sa sb : BitVec 2) (count : BitVec 15) (s : State) : Out :=
  .next (opRpt s (.rptImmediate len sd sa sb count) len sd sa sb count.toNat)
/-- RPT ga: the count is bits [31:0] of ga (R50). -/
def execRptRegister (len : BitVec 4) (sd sa sb : BitVec 2) (ga : Reg) (s : State) : Out :=
  .next (if s.cur.isHandler then s.illegal (.rptRegister len sd sa sb ga)
    else s.guardP [ga] [] (opRpt s (.rptRegister len sd sa sb ga) len sd sa sb (bits (s.g ga) 31 0)))

/-! ### Resuming a frame (R57) -/

/-- The frame that RPTST, RPTCNT and the RPTW words hold. -/
def Ctx.savedFrame (x : Ctx) : Frame :=
  let st := x.cwv cwRPTST
  let n := bits st 58 55 + 1
  { words := (upto 0 n).map (fun j =>
      BitVec.ofNat 32 ((x.cwv (cwRPTW + j / 2)).toNat / 2 ^ (32 * (j % 2)))),
    sd := bits st 54 53, sa := bits st 52 51, sb := bits st 50 49, count := bits (x.cwv cwRPTCNT) 31 0,
    iter := bits st 31 0, pos := bits st 62 59 }

/-- All four checks of R57 on one word. -/
def wordOk (f : Frame) (w : IWord) : Bool :=
  chkLegal w && chkCapturable w && chkRange w f.sd f.sa f.sb f.count && chkStrided w f.sd f.sa f.sb f.count

/-- The control-word index that the first failing check of R57 names. -/
def Frame.resumeFault (f : Frame) : Option Nat :=
  if f.words.length ≤ f.pos ∨ f.count ≤ f.iter then some cwRPTST
  else (firstBad (wordOk f) 0 f.words).map (fun j => cwRPTW + j / 2)

/-- Take up a saved frame when RPTST.V is set (R55, R94). -/
def Ctx.resumeFrame (x : Ctx) : Ctx :=
  if bit (x.cwv cwRPTST) 63 then { x with frame := some x.savedFrame, heldTrap := none } else x

end Sys2Proof.Machine
end

