-- ==== Sys2Proof/Machine/Queue.lean ====
section
/-! DEFINITION. The ready queue of a cluster: enqueue, spill and refill, dispatch, saving and restoring slots, pre-emption,
migration, armed tasks (R59, R69, R77, R170 to R174, R188, R189, R265, R318, R319). -/

namespace Sys2Proof.Machine

/-! ### Which clusters work (R187) -/

/-- A cluster of a die by number. -/
def clusterAt (d : Fin 4) (c : Nat) : ClusterId := ⟨d, Fin.ofNat 192 c⟩
/-- The dies but one, lowest first. -/
def siblings (d : Option (Fin 4)) : List (Fin 4) := ([0, 1, 2, 3] : List (Fin 4)).filter (fun y => d != some y)
/-- The lowest-numbered working cluster of a die. -/
def State.workingOn (s : State) (d : Fin 4) : Option ClusterId :=
  if (s.die d).failed then none
  else ((upto 0 192).find? (fun c => !(s.cluster (clusterAt d c)).failed)).map (clusterAt d)
/-- The cluster that writes the records of failed parts of a die. -/
def State.workingFor (s : State) (d : Fin 4) : ClusterId :=
  ((s.workingOn d).orElse (fun _ => (siblings none).findSome? s.workingOn)).getD (clusterAt d 0)

/-! ### Ends before a task runs (R173, R200, R202) -/

/-- End a task that does not run: a record of the type given, and its charge is returned. -/
def State.endUnrun (s : State) (m : TaskMsg) (typ : Nat) (cl : ClusterId) : State :=
  let handler := smem m.cat s.plat.faultHandlers
  let s := s.taskRecord m typ 0 0 0 cl
  if handler then { s with plat := { s.plat with faultHandlers := sdel m.cat s.plat.faultHandlers } }
  else s.liveDown m.region

/-- A task leaves the device: its region's TASKS falls, and a fault handler's mark goes with it (R187). -/
def State.leaveDevice (s : State) (region cat : Nat) : State :=
  if smem cat s.plat.faultHandlers then
    { s with plat := { s.plat with faultHandlers := sdel cat s.plat.faultHandlers } }
  else s.liveDown region
/-- A task comes to the device: it is charged to its region, but for a fault handler (R170, R187). -/
def State.enterDevice (s : State) (region cat : Nat) (handler : Bool) : State :=
  if handler then { s with plat := { s.plat with faultHandlers := sins cat s.plat.faultHandlers } }
  else s.liveUp region

/-! ### Slots -/

/-- Slots of a cluster that hold tasks of a region (R170). -/
def State.slotsUsed (s : State) (cl : ClusterId) (r : Nat) : Nat :=
  (((clusterCores cl).flatMap coreSlots).filter (fun c => match (s.ctx c).task with
    | some t => t.msg.region == r
    | none => false)).length
/-- Whether a region is below its SLOTS limit in a cluster. -/
def State.belowSlots (s : State) (cl : ClusterId) (r : Nat) : Bool :=
  s.budgetSlots r == 0 || decide (s.slotsUsed cl r < s.budgetSlots r)

/-- A slot that may take a task: empty, its requests and reservations gone (R69, R265), its core working. -/
def State.slotFree (s : State) (c : CtxId) : Bool :=
  (s.ctx c).task.isNone && !(s.core c.core).failed && !(s.core c.core).outs.any (fun o => o.ctx == c.ctx.val)
    && (upto 0 4).all (fun p => (s.held c p).1 == 0)
/-- The free slots of a core, lowest first. -/
def State.freeSlots (s : State) (k : CoreId) : List CtxId := (coreSlots k).filter s.slotFree
/-- The lowest free slot of the core with the most free slots, the lower core on a tie (R172). -/
def State.bestSlot (s : State) (cl : ClusterId) : Option CtxId :=
  ((clusterCores cl).foldl (fun (best : List CtxId) k =>
    let f := s.freeSlots k
    if best.length < f.length then f else best) []).head?

/-! ### Save records (R188, R189) -/

/-- Memory key of block i of a region's save area. -/
def State.saveLoc (s : State) (r i : Nat) : Nat := paLoc (s.regOwn r 10).toNat + 16384 * i
/-- Whether save record i is in use. -/
def State.saveUsed (s : State) (r i : Nat) : Bool := (s.byte (s.saveLoc r 0 + i / 8)).getLsbD (i % 8)
/-- Mark save record i used or free, at the home slice of the bitmap. -/
def State.saveMark (s : State) (r i : Nat) (b : Bool) : State :=
  let a := s.saveLoc r 0 + i / 8
  let s := s.homeAccess a 1 r true none
  let m := (1 : Byte) <<< (i % 8)
  s.poke a [if b then s.byte a ||| m else s.byte a &&& ~~~m] false
/-- The lowest free save record of a region; none when its save area lies on another device (log entry 27), or is not backed (R10; log
entry 70). -/
def State.saveFind (s : State) (r : Nat) : Option Nat :=
  if paDev (s.regOwn r 10).toNat ≠ s.dev ∨ s.areaBacked (s.saveLoc r 0) (16384 * (bits (s.regOwn r 11) 15 0 + 1)) = false then none
  else (upto 1 (bits (s.regOwn r 11) 15 0)).find? (fun i => !s.saveUsed r i)

/-- Whether a control word is saved with a slot. -/
def slotScope (i : Nat) : Bool :=
  match cwInfo i with
  | some m => m.scope == .slot || m.scope == .both
  | none => false

/-- The bytes of a save record before the matrix image (R189). -/
def State.saveBytes (s : State) (c : CtxId) (owner : Bool) : List Byte :=
  let x := s.ctx c
  wordBytes ([x.pc, word owner.toNat, word x.vpois.toNat] ++ List.replicate 5 0)
    ++ wordBytes ((upto 0 32).map (fun n => x.greg (BitVec.ofNat 5 n)))
    ++ wordBytes ((upto 0 8).map (fun n => x.qreg (BitVec.ofNat 3 n)))
    ++ wordBytes ((upto 0 0x1C0).map (fun i => if slotScope i then s.cwRead c i else 0))
    ++ (upto 0 32).flatMap (fun n => leBytes 64 (x.vreg (BitVec.ofNat 5 n)).toNat)

/-- Take up a frame that a pre-emption saved: V is set and PC is the TPC written then (R55). -/
def Ctx.resumeSaved (x : Ctx) : Ctx := if x.pc = x.cwv cwTPC then x.resumeFrame else x

/-- Interrupt a live frame at a debug stop, and remember it: TPC takes the address after the frame (R55). -/
def Ctx.suspendFrame (x : Ctx) : Ctx :=
  if x.frame.isSome then { x.interruptFrame.setCw cwTPC x.pc with suspended := true } else x
/-- A slot as a save finds it: of a frame that is live, or that a debug stop suspended, TPC names where the scalar stream
goes on, also after a debugger wrote PC (R55). -/
def Ctx.saveFrame (x : Ctx) : Ctx :=
  let x := x.suspendFrame
  if x.suspended then { x.setCw cwTPC x.pc with suspended := false } else x
/-- The end of a debug stop resumes the frame it suspended, and the scalar stream at PC (R55, R377). -/
def Ctx.resumeStopped (x : Ctx) : Ctx := if x.suspended then { x.resumeFrame with suspended := false } else x

/-- Take a control word that a save record or a shipment gives: the bits its map names (R7; log entry 62). -/
def Ctx.takeCw (x : Ctx) (i : Nat) (w : Word) : Ctx :=
  if i = cwSTATUS then x.setCw cwSTATUS (w &&& 7)
  else if i = 0x007 then { x with gpois := w.setWidth 32 &&& 0xFFFFFFFE }
  else if w &&& cwNamed i = cwReset i then x
  else x.setCw i (w &&& cwNamed i)
/-- Restore the control words of a save record: doublewords by index. -/
def Ctx.restoreCw (x : Ctx) (ws : List Word) : Ctx :=
  ((upto 0 0x1C0).zip ws).foldl (fun x e => if slotScope e.1 then x.takeCw e.1 e.2 else x) x

/-- The mode bits and the TVEC of a context. -/
def Ctx.modes (x : Ctx) : Word × Word := (x.cwv cwSTATUS &&& 3, x.cwv cwTVEC)
/-- A context whose record gives it no mode that the task did not have, and no other TVEC (R10; log entry 70). -/
def Ctx.within (x : Ctx) (m : Word × Word) : Ctx :=
  (x.setCw cwSTATUS (x.cwv cwSTATUS &&& (m.1 ||| 4))).setCw cwTVEC m.2
/-- Keep the modes of a task that is saved. -/
def State.keepModes (s : State) (cat : Nat) (x : Ctx) : State :=
  { s with plat := { s.plat with savedModes := tput s.plat.savedModes cat x.modes } }
/-- Take the modes kept for a task back. -/
def State.dropModes (s : State) (cat : Nat) : State :=
  { s with plat := { s.plat with savedModes := tdel s.plat.savedModes cat } }

/-- The registers of a save record. -/
def Ctx.restoreRegs (x : Ctx) (bs : List Byte) : Ctx :=
  let ws := wordsOf 104 bs
  let x := { x with pc := ws.getD 0 0, vpois := (ws.getD 2 0).setWidth 32 }
  let x := (upto 1 31).foldl (fun x n => { x with g := tput x.g n (ws.getD (8 + n) 0) }) x
  let x := (upto 1 7).foldl (fun x n => { x with q := tput x.q n (ws.getD (40 + n) 0) }) x
  (upto 0 32).foldl (fun x n =>
    { x with v := tput x.v n (BitVec.ofNat 512 (leNat ((bs.drop (0xF80 + 64 * n)).take 64))) }) x

/-! ### Enqueue and spill (R171, R173) -/

/-- SPDEPTH of a region. -/
def State.spillDepth (s : State) (r : Nat) : Nat := bits (s.regEff r 15) 47 40
/-- Memory key of record slot i of a region's ring for a cluster. -/
def State.spillLoc (s : State) (cl : ClusterId) (r i : Nat) : Nat :=
  dramLoc cl.die (bits (s.regEff r 15) 35 0 + cl.cl.val * s.spillDepth r * 128 + 128 * i)
/-- A region's ring for a cluster. -/
def State.ring (s : State) (cl : ClusterId) (r : Nat) : Ring := tget {} (s.cluster cl).rings r
/-- Replace a ring. -/
def State.setRing (s : State) (cl : ClusterId) (r : Nat) (x : Ring) : State :=
  s.setCluster cl { s.cluster cl with rings := tput (s.cluster cl).rings r x }

/-- Add a cost to a cluster's pressure (R192). -/
def State.press (s : State) (cl : ClusterId) (cost : Nat) : State :=
  s.setCluster cl { s.cluster cl with sum := (s.cluster cl).sum + cost }

/-- Append an entry to its region's ring, or end the task when the ring is full, or not backed (R10; log entry 70). `cost` is what joins
the pressure. -/
def State.spill (s : State) (cl : ClusterId) (e : QEntry) (cost : Nat) : State :=
  let r := e.msg.region
  let n := s.spillDepth r
  let x := s.ring cl r
  if n ≤ x.held ∨ s.areaBacked (s.spillLoc cl r 0) (128 * n) = false then
    let s := if cost = 0 then s.unpress cl e.msg.cost else s
    s.endUnrun e.msg 3 cl
  else
    let loc := s.spillLoc cl r x.tail
    let s := s.homeAccess loc 128 r true none
    let s := s.poke loc (wordBytes (taskWords e.msg) ++ leBytes 8 e.stamp
      ++ leBytes 8 ((e.defer + 1) % 256 + e.save * 2 ^ 16)) false
    (s.setRing cl r { x with tail := (x.tail + 1) % n, held := x.held + 1,
                             entries := x.entries ++ [{ e with defer := (e.defer + 1) % 256, core := 0 }] }).press cl cost

/-- Enqueue an entry of a cluster, or spill it (R173). -/
def State.queueEntry (s : State) (cl : ClusterId) (e : QEntry) (cost : Nat) : State :=
  let x := s.cluster cl
  if 256 ≤ x.queue.length ∨ 0 < (s.ring cl e.msg.region).held then s.spill cl e cost
  else ((s.setCluster cl { x with queue := x.queue ++ [e] }).press cl cost).post (.dispatch cl)

/-- Enqueue a task that stays in a cluster, stamped with the time base (R171). -/
def State.enqueueTask (s : State) (cl : ClusterId) (m : TaskMsg) : State :=
  s.queueEntry cl ⟨m, s.time, 0, 0, 0, s.time⟩ m.cost

/-- Enqueue a pinned task, which never spills: it waits while no entry is free (R173, R393). A cluster that has failed ends it as it
ends its other tasks; one that is closed takes no task, so it ends as one that no cluster takes (R200, R202; log entry 29). -/
def State.enqueuePinned (s : State) (cl : ClusterId) (m : TaskMsg) : State :=
  let x := s.cluster cl
  if x.failed then s.endUnrun m 5 (s.workingFor cl.die)
  else if x.closed then s.endUnrun m 4 cl
  else if 256 ≤ x.queue.length then s.after 1 (.taskPlacement cl m 0)
  else ((s.setCluster cl { x with queue := x.queue ++ [⟨m, s.time, 0, 0, 0, s.time⟩] }).press cl m.cost).post (.dispatch cl)

/-- The oldest record of each non-empty ring of a cluster: stamp and region. -/
def State.ringHeads (s : State) (cl : ClusterId) : List (Nat × Nat) :=
  (s.cluster cl).rings.filterMap (fun e => e.2.entries.head?.map (fun q => (q.stamp, e.1)))

/-- The entry with the least first part, the earlier on a tie: of two rings whose oldest records have one stamp, that of the
lower-numbered region (log entry 64). -/
def leastFst : List (Nat × Nat) → Option (Nat × Nat)
  | [] => none
  | e :: t =>
    match leastFst t with
    | none => some e
    | some f => if e.1 ≤ f.1 then some e else some f

/-- The entry that the record in slot i of a region's ring holds, appended as `e`. Of a record that software wrote over, the task
takes only what the region could itself have given it: entry, arguments and join word, and a fault handler not even those
(R10; log entry 28). -/
def State.spillRecord (s : State) (cl : ClusterId) (r i : Nat) (e : QEntry) : QEntry :=
  let m := taskOfWords (wordsOf 12 (s.bytes (s.spillLoc cl r i) 96))
  { e with msg := if smem e.msg.cat s.plat.faultHandlers then e.msg
                  else { e.msg with entry := m.entry, args := m.args, join := m.join }, since := s.time }

/-- Refill a freed entry from the ring whose oldest record is oldest (R173). -/
def State.refill (s : State) (cl : ClusterId) : State :=
  if 256 ≤ (s.cluster cl).queue.length then s
  else match leastFst (s.ringHeads cl) with
  | none => s
  | some (_, r) =>
    let x := s.ring cl r
    let s := s.homeAccess (s.spillLoc cl r x.head) 128 r false none
    match x.entries with
    | [] => s
    | e :: t =>
      let e := s.spillRecord cl r x.head e
      let s := s.setRing cl r { x with head := (x.head + 1) % s.spillDepth r, held := x.held - 1, entries := t }
      s.setCluster cl { s.cluster cl with queue := (s.cluster cl).queue ++ [e] }

/-- Free an entry of a cluster's queue. -/
def State.unqueue (s : State) (cl : ClusterId) (e : QEntry) : State :=
  (s.setCluster cl { s.cluster cl with queue := (s.cluster cl).queue.erase e }).refill cl

/-! ### Dispatch (R59, R168, R172) -/

/-- The task of a slot that takes a message now. -/
def State.taskOf (s : State) (m : TaskMsg) (defer : Nat) : Task :=
  ⟨m, s.schedSup m.region || smem m.cat s.plat.faultHandlers, s.schedExpert m.region, s.schedPreempt m.region, defer,
    s.basicNow m.region⟩

/-- A slot set up for a task: registers by R59, stack top, mode, TVEC and TMASK by R168, the stamps of R177. -/
def State.setUp (s : State) (c : CtxId) (m : TaskMsg) (stamp defer : Nat) : Ctx :=
  let t := s.taskOf m defer
  let lay := s.regEff m.region 12
  let x : Ctx := { pc := m.entry, task := some t }
  let x := (argRegs.zip m.args).foldl (fun x e => x.setG e.1 e.2) x
  let x := x.setG 2 (word (bits lay 17 0) - word (c.ctx.val * bits lay 35 20))
  let x := x.setCw cwSTATUS (statusOf t.sup t.sup false)
  let x := x.setCw cwTVEC (s.regEff m.region 3 &&& 0xFFFFFFFFFFFFFFFC)
  let x := x.setCw cwTMASK (s.regEff m.region 4 &&& 0x1FFFE)
  ((x.setCw cwTJOIN m.join).setCw cwTENQ (word stamp)).setCw cwTDISP (word s.time)

/-- What a dispatch adds to the adaptive loop's period (R205). -/
def State.adaptCount (s : State) (cl : ClusterId) (stamp : Nat) : State :=
  let x := s.cluster cl
  if bit (x.cwv cwADAPT) 63 then
    s.setCluster cl { x with adaptN := x.adaptN + 1, adaptSum := x.adaptSum + (s.time - stamp) }
  else s

/-- A context enters a slot; its start implies IFENCE (R71, R96). -/
def State.enterSlot (s : State) (c : CtxId) (x : Ctx) (region stamp : Nat) : State :=
  let s := s.setCore c.core { s.core c.core with lineBuf := [] }
  ((s.setCtx c x).count c.core 0x16 (some region) 1).adaptCount c.core.cluster stamp

/-- Completions saved in ECS words go back to the FIFOs of a core (R265). The word holds no mark of a report (R263), so one with STATUS
0x02 counts as not reported (log entry 69). -/
def State.restoreEcs (s : State) (c : CtxId) : State :=
  let x := s.ctx c
  let s := (upto 0 12).foldl (fun s j =>
    let w := x.cwv (cwECS + j)
    if w = 0 then s
    else
      let p := (s.core c.core).port (j / 3)
      s.setPort c.core (j / 3) { p with done := p.done ++ [⟨c.ctx.val, w, false, x.stopped⟩] }) s
  s.setCtx c ((upto 0 12).foldl (fun x j => x.setCw (cwECS + j) 0) (s.ctx c))

/-- Restore a saved task into a slot from save record i of its region (R189). A SKIP in force goes on, but not in a trap handler,
whose TRET comes first (R376; log entry 51). -/
def State.restore (s : State) (c : CtxId) (e : QEntry) : State :=
  let r := e.msg.region
  let loc := s.saveLoc r e.save
  let s := s.homeAccess loc 12352 r false none
  let bs := s.bytes loc 6016
  let s := s.saveMark r e.save false
  let x : Ctx := { task := some (s.taskOf e.msg e.defer) }
  let x := ((x.restoreRegs bs).restoreCw (wordsOf 448 (bs.drop 0x180))).within (tget (0, 0) s.plat.savedModes e.msg.cat)
  let s := s.dropModes e.msg.cat
  let x := x.setCw cwTDISP (word s.time)
  let x := { x.resumeSaved with skipNow := bit (x.cwv cwDBGST) 62 && !x.tb, img := if (bs.getD 8 0).getLsbD 0 then s.bytes (loc + 0x1780) 6336 else [] }
  (s.enterSlot c x r e.stamp).restoreEcs c

/-- Dispatch an entry into a slot. -/
def State.place1 (s : State) (c : CtxId) (e : QEntry) : State :=
  if e.msg.typ = 3 then s.restore c e
  else s.enterSlot c (s.setUp c e.msg e.stamp e.defer) e.msg.region e.stamp

/-- Whether an entry may be dispatched, but for a free slot (R172, R190). -/
def State.ready (s : State) (cl : ClusterId) (e : QEntry) : Bool :=
  (e.msg.typ == 0 || e.msg.typ == 2 || e.msg.typ == 3) && s.belowSlots cl e.msg.region
    && !s.plat.stopped.getLsbD e.msg.colour && !(s.cluster cl).failed
/-- The slot an entry would take (R172). -/
def State.slotFor (s : State) (cl : ClusterId) (e : QEntry) : Option CtxId :=
  if e.msg.typ = 2 then (s.freeSlots (cl.coreAt e.core)).head? else s.bestSlot cl

/-- The order of R172: PRIO, then stamp, then catalogue number. -/
def QEntry.before (a b : QEntry) : Bool :=
  decide (b.msg.prio < a.msg.prio) || (a.msg.prio == b.msg.prio &&
    (decide (a.stamp < b.stamp) || (a.stamp == b.stamp && decide (a.msg.cat < b.msg.cat))))
/-- The first of some entries in that order. -/
def firstEntry : List QEntry → Option QEntry
  | [] => none
  | e :: t =>
    match firstEntry t with
    | none => some e
    | some f => if f.before e then some f else some e

/-- DISPATCH: at most one entry of a cluster in a cycle. -/
def execDispatch (s : State) : Out :=
  .next (match s.event with
    | .dispatch cl =>
      if (s.cluster cl).dispatched = some s.time then s
      else match firstEntry ((s.cluster cl).queue.filter (fun e => s.ready cl e && (s.slotFor cl e).isSome)) with
      | none => s
      | some e =>
        match s.slotFor cl e with
        | none => s
        | some c =>
          let s := (s.place1 c e).unqueue cl e
          s.setCluster cl { s.cluster cl with dispatched := some s.time }
    | _ => s)

/-! ### Pre-emption (R77, R188, R190) -/

/-- The running tasks of a cluster, with their slots. -/
def State.running (s : State) (cl : ClusterId) : List (CtxId × Task) :=
  ((clusterCores cl).flatMap coreSlots).filterMap (fun c => (s.ctx c).task.map (fun t => (c, t)))

/-- Whether task a is a better victim than b: lower PRIO, later dispatch, higher catalogue number. -/
def State.worse (s : State) (a b : CtxId × Task) : Bool :=
  let da := ((s.ctx a.1).cwv cwTDISP).toNat
  let db := ((s.ctx b.1).cwv cwTDISP).toNat
  decide (a.2.msg.prio < b.2.msg.prio) || (a.2.msg.prio == b.2.msg.prio &&
    (decide (db < da) || (da == db && decide (b.2.msg.cat < a.2.msg.cat))))
/-- The victim among some tasks. -/
def State.victimOf (s : State) : List (CtxId × Task) → Option (CtxId × Task)
  | [] => none
  | e :: t =>
    match s.victimOf t with
    | none => some e
    | some f => if s.worse f e then some f else some e

/-- PWAIT.CYC of a cluster. -/
def State.pwait (s : State) (cl : ClusterId) : Nat := bits ((s.cluster cl).cwv cwPWAIT) 31 0

/-- The highest priority among entries that have waited long enough without a slot. -/
def State.pressing (s : State) (cl : ClusterId) : Option Nat :=
  ((s.cluster cl).queue.filter (fun e => s.ready cl e && (s.slotFor cl e).isNone
    && decide (e.since + s.pwait cl ≤ s.time))).foldl (fun m e => match m with
      | none => some e.msg.prio
      | some p => some (max p e.msg.prio)) none

/-- Whether a saved task of a region would find an entry or ring room in a cluster. -/
def State.roomToSave (s : State) (cl : ClusterId) (r : Nat) : Bool :=
  decide ((s.cluster cl).queue.length < 256) || decide ((s.ring cl r).held < s.spillDepth r)

/-- TASK_PREEMPTION. -/
def execTaskPreemption (s : State) : Out :=
  .next (match s.event with
    | .taskPreemption cl =>
      match (s.cluster cl).saving, s.pressing cl with
      | none, some p =>
        match s.victimOf ((s.running cl).filter (fun e => e.2.preempt && decide (e.2.msg.prio < p))) with
        | none => s
        | some (c, t) =>
          if (s.saveFind t.msg.region).isNone ∨ s.roomToSave cl t.msg.region = false then s
          else
            let s := s.setCluster cl { s.cluster cl with saving := some c }
            s.setCtx c { s.ctx c with saveReq := true }
      | _, _ => s
    | _ => s)

/-- Give up a save that cannot be made; a task of a stopped colour keeps its request (R190). -/
def State.saveNot (s : State) (c : CtxId) (t : Task) : State :=
  let cl := c.core.cluster
  let s := if (s.cluster cl).saving = some c then s.setCluster cl { s.cluster cl with saving := none } else s
  if s.plat.stopped.getLsbD t.msg.colour then s else s.setCtx c { s.ctx c with saveReq := false }

/-- A wait that a pre-emption or debug stop cannot withdraw. -/
def State.bound (s : State) (c : CtxId) : Bool :=
  match (s.ctx c).wait with
  | .atomic _ _ _ _ _ => true
  | .migrating => true
  | .told _ _ _ => true
  | .recalled _ _ _ _ => true
  | _ => false

/-- Whether a slot can be saved now: loads have written their registers, started commands have completed, its slice queue
has drained (R77, R141, R265). -/
def State.canSave (s : State) (c : CtxId) : Bool :=
  let x := (s.core c.core).slice
  !s.bound c && !s.anyLoad c && (x.owner != some c.ctx.val || x.queue == []) && (upto 0 4).all (fun p => ((s.core c.core).port p).cmds.all (fun d =>
    d.ctx != c.ctx.val || match d.state with
      | .armed _ _ => true
      | _ => false))

/-- The unread completions of a slot go to its ECS words (R265). -/
def State.saveEcs (s : State) (c : CtxId) : State :=
  let ws := (upto 0 4).flatMap (fun p =>
    let d := (((s.core c.core).port p).done.filter (fun d => d.ctx == c.ctx.val)).map (fun d => d.word)
    (d ++ List.replicate 3 0).take 3)
  s.setCtx c (((upto 0 12).zip ws).foldl (fun x e => x.setCw (cwECS + e.1) e.2) (s.ctx c))

/-- Save a slot to record i of its region (R189), and leave it empty. -/
def State.saveTo (s : State) (c : CtxId) (t : Task) (i : Nat) : State :=
  let cl := c.core.cluster
  let r := t.msg.region
  let s := s.withdraw c
  let s := (s.cancelArmed c).saveEcs c
  let s := s.setCtx c (s.ctx c).saveFrame
  let x := s.ctx c
  let owner := (s.core c.core).slice.owner == some c.ctx.val || x.img != []
  let img := if x.img = [] then (s.core c.core).slice.image (planeCluster cl) x.matWords else x.img
  let loc := s.saveLoc r i
  let s := s.homeAccess loc 12352 r true none
  let s := s.poke loc (s.saveBytes c owner) false
  let s := if owner then s.poke (loc + 0x1780) img false else s
  let s := (s.saveMark r i true).keepModes t.msg.cat x
  let s := (s.releaseSlice c).orphan c
  let s := s.annals c.core.die r 3 [t.msg.cat, (x.cwv cwTDISP).toNat, i]
  let s := s.setCtx c { s.ctx c with task := none, frame := none, wait := .none, fq := [], rbuf := [], rpois := [],
                                     saveReq := false, stopReq := false, img := [] }
  let s := if (s.cluster cl).saving = some c then s.setCluster cl { s.cluster cl with saving := none } else s
  s.queueEntry cl ⟨{ t.msg with typ := 3 }, (x.cwv cwTENQ).toNat, t.defer + 1, i, 0, s.time⟩ 0

/-- SLOT_SAVE. -/
def execSlotSave (s : State) : Out :=
  .next (match s.event with
    | .slotSave c =>
      match (s.ctx c).task with
      | none => s
      | some t =>
        if s.recalls c then (s.recallSpawn c).setCtx c { (s.recallSpawn c).ctx c with saveReq := true }
        else if s.canSave c = false ∨ s.waitMet c then s.setCtx c { s.ctx c with saveReq := true }
        else match s.saveFind t.msg.region with
        | none => s.saveNot c t
        | some i => if s.roomToSave c.core.cluster t.msg.region then s.saveTo c t i else s.saveNot c t
    | _ => s)

/-! ### Migration (R318, R319) -/

/-- A context as a shipment gives it; a fault handler is in supervisor mode here too (R187). -/
def State.landed (s : State) (sh : Shipment) : Ctx :=
  let k := s.taskOf sh.msg sh.defer
  let x : Ctx := { pc := sh.pc, g := sh.g, q := sh.q, v := sh.v, vpois := sh.vpois, task := some { k with sup := k.sup || sh.handler } }
  let x := sh.cw.foldl (fun x e => x.takeCw e.1 e.2) x
  { x with skipNow := bit (x.cwv cwDBGST) 62 && !x.tb }

/-- Place an arriving context: the core it reached, or the cluster's first core for a save record; none is a refusal. A context of a
stopped colour is to be saved (R190). -/
def State.receive (s : State) (cl : ClusterId) (sh : Shipment) : State × Option CoreId :=
  let r := sh.msg.region
  let x := s.landed sh
  let stamp := (x.cwv cwTENQ).toNat
  if s.regValid r = false ∨ (s.cluster cl).failed ∨ (s.cluster cl).closed then (s, none)
  else match (if s.belowSlots cl r then s.bestSlot cl else none) with
  | some c =>
    let y := { x.setCw cwTDISP (word s.time) with saveReq := s.plat.stopped.getLsbD sh.msg.colour }
    let s := s.enterSlot c y r stamp
    (s.press cl sh.msg.cost, some c.core)
  | none =>
    match s.saveFind r with
    | none => (s, none)
    | some i =>
      if s.roomToSave cl r = false then (s, none)
      else
        let c : CtxId := ⟨cl.coreAt 0, 0⟩
        let bytes := (s.setCtx c x).saveBytes c false
        let loc := s.saveLoc r i
        let s := (s.homeAccess loc 6016 r true none).poke loc bytes false
        let s := (s.saveMark r i true).keepModes sh.msg.cat x
        (s.queueEntry cl ⟨{ sh.msg with typ := 3 }, stamp, sh.defer, i, 0, s.time⟩ sh.msg.cost, some c.core)

/-- The source of a migration learns its answer: the slot is freed, or the access is performed remotely. -/
def State.departed (s : State) (c : CtxId) (dest : Option Nat) : State :=
  match (s.ctx c).wait, (s.ctx c).task with
  | .migrating, some t =>
    match dest with
    | none => s.setCtx c { s.ctx c with wait := .stayed }
    | some pa =>
      let s := s.unpress c.core.cluster t.msg.cost
      let s := (s.count c.core 0x18 (some t.msg.region) 1).annals c.core.die t.msg.region 7 [t.msg.cat, pa]
      let s := s.setCtx c { s.ctx c with task := none, frame := none, wait := .none, fq := [], rbuf := [], rpois := [],
                                         stopReq := false, saveReq := false }
      let s := if (s.cluster c.core.cluster).saving = some c then
          s.setCluster c.core.cluster { s.cluster c.core.cluster with saving := none } else s
      s.post (.dispatch c.core.cluster)
  | _, _ => s

/-- MIGRATION_ARRIVAL: at the home cluster, and at the source when the home lies on another device. -/
def execMigrationArrival (s : State) : Out :=
  .next (match s.event with
    | .migrationArrival c src cl sh =>
      match s.receive cl sh with
      | (s, some k) =>
        if src = s.dev then s.departed c (some (s.corePa k 0))
        else (s.enterDevice sh.msg.region sh.msg.cat sh.handler).fabric (.migrateReply s.dev src c (some (s.corePa k 0)))
      | (s, none) => if src = s.dev then s.departed c none else s.fabric (.migrateReply s.dev src c none)
    | .migrationAnswer c dest =>
      match (s.ctx c).wait, (s.ctx c).task with
      | .migrating, some t => if dest.isSome then (s.departed c dest).leaveDevice t.msg.region t.msg.cat else s.departed c none
      | _, _ => s
    | _ => s)

/-! ### Armed tasks (R170, R174) -/

/-- Armed entries of a cluster. -/
def Cluster.armed (x : Cluster) : List QEntry := x.queue.filter (fun e => e.msg.typ == 1)
/-- Armed entries of a region in a cluster. -/
def Cluster.armedOf (x : Cluster) (r : Nat) : Nat := (x.armed.filter (fun e => e.msg.region == r)).length
/-- The armed tasks on their way to a cluster: they have passed its limits already (R170). -/
def State.armsComing (s : State) (cl : ClusterId) : List TaskMsg :=
  let here := fun (e : Event) => match e with
    | .armedTaskArrival k m => if k = cl then some m else none
    | _ => none
  s.agenda.filterMap (fun a => match a with
    | .ev e => here e
    | _ => none) ++ s.timers.filterMap (fun t => here t.2)
    ++ s.cores.flatMap (fun e => e.2.sendReq.filterMap (fun p => match p with
      | .armed m => if paDev m.trig = s.dev ∧ paCluster m.trig = cl then some m else none
      | _ => none))
/-- What ARMMAX of a region bounds in a cluster (R170). -/
def State.armsOf (s : State) (cl : ClusterId) (r : Nat) : Nat :=
  (s.cluster cl).armedOf r + ((s.armsComing cl).filter (fun m => m.region == r)).length
/-- What the armed capacity of a cluster bounds (R170). -/
def State.armsIn (s : State) (cl : ClusterId) : Nat := (s.cluster cl).armed.length + (s.armsComing cl).length

/-- ARMED_TASK_ARRIVAL: a full queue makes the message wait (log entry 14). A task that comes from another device is charged to
its region here, or ended where that region is not valid (R201). A closed cluster arms it, and in a failed one it ends with a
record of type 5 (R187; log entry 29). -/
def execArmedTaskArrival (s : State) : Out :=
  .next (match s.event with
    | .armedTaskArrival cl m =>
      let x := s.cluster cl
      let far := decide (m.cat / 2 ^ 37 ≠ s.dev)
      if far && !s.regValid m.region then s.notice 0x05 (leBytes 8 m.region ++ leBytes 8 m.cat)
      else if x.failed then (if far then s.liveUp m.region else s).endUnrun m 5 (s.workingFor cl.die)
      else if 256 ≤ x.queue.length ∨ 128 ≤ x.armed.length then s.after 1 (.armedTaskArrival cl m)
      else
        let s := s.setCluster cl { x with queue := x.queue ++ [⟨m, s.time, 0, 0, 0, s.time⟩] }
        let s := (if far then s.liveUp m.region else s).armUp m.region
        if ctrTest (s.ctr (paCoreId m.trig) ((paOff m.trig - 0x80000) / 4)) (BitVec.ofNat 32 m.target) then
          s.after 1 (.armedRelease cl m.cat)
        else s
    | _ => s)

/-- ARMED_RELEASE: the entry passes through the placement rule as a task of type 0 (R174); it keeps its trigger for the
record of a fatal fault (R410). -/
def execArmedRelease (s : State) : Out :=
  .next (match s.event with
    | .armedRelease cl cat =>
      match (s.cluster cl).queue.find? (fun e => e.msg.typ == 1 && e.msg.cat == cat) with
      | none => s
      | some e =>
        let s := (s.unqueue cl e).armDown e.msg.region
        s.post (.taskPlacement cl { e.msg with typ := 0 } 0)
    | _ => s)

end Sys2Proof.Machine
end

