-- ==== Sys2Proof/Machine/Orrery.lean ====
section
/-! DEFINITION. Placement by gradient: pressure, distance fields, the placement rule, switches, the adaptive loop, PRD, and
what becomes of failed clusters, cores, dies and vaults (R192 to R207, R379). -/

namespace Sys2Proof.Machine

/-! ### Geometry (R13, R14) -/

/-- A field: domain d and kind k. -/
def fieldNo (d : Nat) (plane : Bool) : Nat := 2 * d + plane.toNat
/-- Mesh distance of two clusters of a die. -/
def meshDist (a b : Nat) : Nat :=
  (a / 16 - b / 16) + (b / 16 - a / 16) + ((a % 16 - b % 16) + (b % 16 - a % 16))
/-- The mesh neighbours of a cluster in the order north, east, south, west. -/
def neighbours (c : Nat) : List Nat :=
  (if 16 ≤ c then [c - 16] else []) ++ (if c % 16 < 15 then [c + 1] else [])
    ++ (if c < 176 then [c + 16] else []) ++ (if 0 < c % 16 then [c - 1] else [])
/-- A router with an up port (R195). -/
def perimeter (c : Nat) : Bool := c < 16 || 176 ≤ c || c % 16 == 0 || c % 16 == 15

/-! ### Values in force (R195, R204) -/

/-- PDMASK as it governs until the next tick. -/
def Cluster.maskInForce (x : Cluster) : Nat := x.maskNow.getD (bits (x.cwv cwPDMASK) 7 0)
/-- PDMASK as the coming tick takes it. -/
def Cluster.maskAtTick (x : Cluster) : Nat := x.maskUsed.getD (bits (x.cwv cwPDMASK) 7 0)
/-- LOW as the coming tick takes it. -/
def Cluster.lowAtTick (x : Cluster) : Nat := x.lowUsed.getD (bits (x.cwv cwLOW) 15 0)
/-- STAY. -/
def Cluster.stay (x : Cluster) : Nat := bits (x.cwv cwSTAY) 15 0
/-- STAY as it governs a placement decision of a cycle: a write governs the cycles after its own (R204). -/
def Cluster.stayAt (x : Cluster) (now : Nat) : Nat :=
  match x.stayOld with
  | some (t, w) => if t = now then w else x.stay
  | none => x.stay
/-- Whether the cluster publishes a pressure at or below min(LOW, STAY), both as a tick in the cycle given takes them; an infinite one
never is (R195). -/
def Cluster.isLow (x : Cluster) (now : Nat) : Bool :=
  x.pressure != 0xFFFF && decide (x.pressure ≤ min x.lowAtTick (x.stayAt now))

/-- A router's own field as latched at the last tick. -/
def Die.field (x : Die) (c f : Nat) : Nat := (tget [] x.fields c).getD f 63
/-- The up-port value of a die as latched at the last tick. -/
def Die.upVal (x : Die) (f : Nat) : Nat := tget 63 x.up f
/-- What the neighbour n of a router reports: its field, or 63 outside the domain, closed or failed (R195, R202). -/
def State.report (s : State) (d : Fin 4) (n f : Nat) : Nat :=
  let x := s.cluster (clusterAt d n)
  if x.maskInForce.testBit (f / 2) && !x.closed && !x.failed then (s.die d).field n f else 63
/-- What the up port of a router reports. -/
def State.upReport (s : State) (d : Fin 4) (c f : Nat) : Nat := if perimeter c then (s.die d).upVal f else 63

/-! ### The placement rule (R198, R200) -/

/-- Where the rule sends a task. -/
inductive Verdict
  | stay
  | mesh (n : Nat)
  | up
  | fallback
  deriving DecidableEq, Repr

/-- Condition ok of R198. -/
def State.mayStay (s : State) (cl : ClusterId) (m : TaskMsg) : Bool :=
  let x := s.cluster cl
  x.maskInForce.testBit (s.schedDom m.region) && planeCluster cl == m.kind && x.pressure != 0xFFFF

/-- The score of a mesh port less the pull of the cluster itself: report + PULL × (h(n) − h(c)). -/
def portScore (rep pull hn hc : Nat) : Int := (rep : Int) + (pull : Int) * ((hn : Int) - (hc : Int))

/-- The ports of a router with their reports and distances, in tie order. -/
def State.ports (s : State) (cl : ClusterId) (m : TaskMsg) : List (Verdict × Nat × Nat) :=
  let f := fieldNo (s.schedDom m.region) m.kind
  let home := m.hdev == s.dev && m.hdie == cl.die.val
  let h := fun n => if home then meshDist n m.hcls else 0
  (neighbours cl.cl.val).map (fun n => (Verdict.mesh n, s.report cl.die n f, h n))
    ++ (if home then [(Verdict.up, s.upReport cl.die cl.cl.val f, 27)] else [])

/-- The best port whose score is below a bound; the first in order on a tie. -/
def bestPort (pull hc : Nat) : Int → Option Verdict → List (Verdict × Nat × Nat) → Option Verdict
  | _, best, [] => best
  | bound, best, p :: t =>
    let sc := portScore p.2.1 pull p.2.2 hc
    if p.2.1 < 63 ∧ sc < bound then bestPort pull hc sc (some p.1) t else bestPort pull hc bound best t

/-- The placement of a task at a cluster (R198). -/
def State.verdict (s : State) (cl : ClusterId) (m : TaskMsg) : Verdict :=
  let ok := s.mayStay cl m
  let x := s.cluster cl
  if ok && decide (x.pressure + m.cost ≤ x.stayAt s.time) then .stay
  else if m.hops = 0 then (if ok then .stay else .fallback)
  else
    let own := (s.die cl.die).field cl.cl.val (fieldNo (s.schedDom m.region) m.kind)
    let hc := if m.hdev == s.dev && m.hdie == cl.die.val then meshDist cl.cl.val m.hcls else 0
    match bestPort m.pull hc (own : Int) none (s.ports cl m) with
    | some v => v
    | none => if ok then .stay else .fallback

/-- The fallback cluster of a task on a die (R200). -/
def State.fallbackOf (s : State) (d : Fin 4) (m : TaskMsg) : Option ClusterId :=
  let ok := fun c => s.mayStay (clusterAt d c) m
  if m.hdev = s.dev ∧ m.hdie = d.val ∧ m.hcls < 192 ∧ ok m.hcls then some (clusterAt d m.hcls)
  else ((upto 0 192).find? ok).map (clusterAt d)

/-- A task one hop further. -/
def hopOn (m : TaskMsg) : TaskMsg := { m with hops := m.hops - 1, hopt := min 31 (m.hopt + 1) }

/-- Send a task to its fallback cluster, or end it with a record of type 4. -/
def State.fallBack (s : State) (cl : ClusterId) (m : TaskMsg) : State :=
  match s.fallbackOf cl.die m with
  | some f => s.enqueueTask f m
  | none => s.endUnrun m 4 cl

/-- The port through which cluster `n` receives what its neighbour `c` forwards: 1 north, 2 east, 3 south, 4 west. -/
def portFrom (c n : Nat) : Fin 6 :=
  if c + 16 = n then 1 else if c = n + 1 then 2 else if c = n + 16 then 3 else 4

/-- A task leaves a cluster for where the placement rule sends it, or is enqueued. -/
def State.placeBy (s : State) (cl : ClusterId) (m : TaskMsg) : Verdict → State
  | .stay => s.enqueueTask cl m
  | .mesh n => s.post (.taskPlacement (clusterAt cl.die n) (s.routed cl.die (hopOn m)) (portFrom cl.cl.val n))
  | .up => s.post (.switchForward (some cl.die) (s.routed cl.die (hopOn m)) (smem m.cat s.plat.faultHandlers))
  | .fallback => s.fallBack cl m

/-- TASK_PLACEMENT: a cluster unit takes one decision in a cycle, in the order of the ports; a further one waits (R193). A pinned
task is not placed but enqueued (R198, R393). -/
def execTaskPlacement (s : State) : Out :=
  .next (match s.event with
    | .taskPlacement cl m port =>
      let x := s.cluster cl
      if m.typ = 2 then s.enqueuePinned cl m
      else if x.placed = some s.time then s.after 1 (.taskPlacement cl m port)
      else
        let s := s.setCluster cl { x with placed := some s.time }
        s.placeBy cl m (s.verdict cl m)
    | _ => s)

/-! ### The hub (R197, R201) -/

/-- Whether a die's summary of a field is set. -/
def State.dieLow (s : State) (d : Fin 4) (f : Nat) : Bool :=
  !(s.die d).failed && (tget none (s.die d).low f).isSome
/-- S of a die: 0 or 63. -/
def State.dieS (s : State) (d : Fin 4) (f : Nat) : Nat := if s.dieLow d f then 0 else 63

/-- Deliver a task that comes down to a die: to the low cluster of its summary, or to its fallback cluster, and place it
there (R201). The hub injects it on that die, whose RTCFG gives its route kind (R230). -/
def State.deliverTask (s : State) (d : Fin 4) (m : TaskMsg) : State :=
  let f := fieldNo (s.schedDom m.region) m.kind
  match (tget none (s.die d).low f).map (clusterAt d) with
  | some c => s.post (.taskPlacement c (s.routed d m) 5)
  | none =>
    match s.fallbackOf d m with
    | some c => s.post (.taskPlacement c (s.routed d m) 5)
    | none => s.endUnrun m 4 (clusterAt d 0)

/-- SWITCH_FORWARD: the package hub sends on a task from a die, or one that came down to the device (R201). -/
def execSwitchForward (s : State) : Out :=
  .next (match s.event with
    | .switchForward from? m handler =>
      let f := fieldNo (s.schedDom m.region) m.kind
      let low := (siblings from?).find? (fun y => s.dieLow y f)
      match from? with
      | some x =>
        let m' := hopOn m
        match low with
        | some y => s.deliverTask y m'
        | none =>
          if tget 63 s.plat.upDev f < 63 then
            (s.fabric (.task s.dev s.dev m' handler)).leaveDevice m.region m.cat
          else s.deliverTask x m'
      | none =>
        if s.regValid m.region = false then s.notice 0x05 (leBytes 8 m.region ++ leBytes 8 m.cat)
        else
          let s := s.enterDevice m.region m.cat handler
          s.deliverTask (low.getD (((siblings none).find? (fun y => !(s.die y).failed)).getD 0)) (hopOn m)
    | _ => s)

/-! ### Field ticks (R195, R197, R205, R231) -/

/-- The 16 fields of a router at a tick. -/
def State.tickFields (s : State) (d : Fin 4) (c : Nat) : List Nat :=
  let x := s.cluster (clusterAt d c)
  (upto 0 16).map (fun f =>
    if (s.die d).clear.getLsbD (f / 2) then 63
    else if x.maskAtTick.testBit (f / 2) && (planeCluster (clusterAt d c) == (f % 2 == 1)) && x.isLow s.time then 0
    else min 63 (1 + (neighbours c).foldl (fun m n => min m (s.report d n f)) (s.upReport d c f)))

/-- The lowest low cluster of a die for a field. -/
def State.tickLow (s : State) (d : Fin 4) (f : Nat) : Option Nat :=
  (upto 0 192).find? (fun c =>
    let x := s.cluster (clusterAt d c)
    x.maskAtTick.testBit (f / 2) && (planeCluster (clusterAt d c) == (f % 2 == 1)) && x.isLow s.time)

/-- An edge cost; values above 63 act as 63. -/
def State.edgeCost (s : State) (lo : Nat) : Nat := min 63 (bits s.plat.edge (lo + 7) lo)

/-- The up value of a die from the inputs of the previous tick. -/
def State.tickUp (s : State) (d : Fin 4) (f : Nat) : Nat :=
  min 63 (s.edgeCost 0 + (siblings (some d)).foldl (fun m y => min m (s.dieS y f)) (tget 63 s.plat.upDev f))

/-- A die after a tick. -/
def State.tickDie (s : State) (d : Fin 4) : Die :=
  let x := s.die d
  { x with
    fields := (upto 0 192).filterMap (fun c =>
      let l := s.tickFields d c
      if l.all (fun v => v == 63) then none else some (c, l)),
    up := (upto 0 16).filterMap (fun f => if s.tickUp d f = 63 then none else some (f, s.tickUp d f)),
    low := (upto 0 16).filterMap (fun f => (s.tickLow d f).map (fun c => (f, some c))),
    clear := x.clearNext, clearNext := 0,
    rtcfg := x.rtcfgNext, rtcfgNext := x.rtcfgDue.getD x.rtcfgNext, rtcfgDue := none }

/-- The up values of the levels above the device, and the summary of the device that its hub sends to the board switch; `outer` holds what siblings outside the device report, 16 entries a
level. -/
def State.tickOuter (s : State) : Platform :=
  let p := s.plat
  let lv := fun lo (up : Table Nat) base => (upto 0 16).filterMap (fun f =>
    let v := min 63 (s.edgeCost lo + min (tget 63 p.outer (base + f)) (tget 63 up f))
    if v = 63 then none else some (f, v))
  { p with upDev := lv 8 p.upBoard 0, upBoard := lv 16 p.upRack 16, upRack := lv 24 [] 32,
           summary := (upto 0 16).filterMap (fun f =>
             ((siblings none).find? (fun d => s.dieS d f == 0)).map (fun d => (f, d.val))) }

/-- A cluster after a tick: what the tick took is in force, and the adaptive period advances; the second part says that
its period ends now. -/
def Cluster.tick (x : Cluster) : Cluster × Bool :=
  let y := { x with maskNow := x.maskUsed, maskUsed := none, lowUsed := none, adaptLate := false }
  let a := x.cwv cwADAPT
  if bit a 63 && !x.adaptLate then
    let per := max 1 (bits a 31 24)
    if per ≤ x.adaptTicks + 1 then
      if x.lowUsed.isSome then ({ y with adaptTicks := 0, adaptN := 0, adaptSum := 0 }, false)
      else ({ y with adaptTicks := 0 }, true)
    else ({ y with adaptTicks := x.adaptTicks + 1 }, false)
  else (y, false)

/-- FIELD_TICK; and the reports of the switches above the device, which the next tick takes (R197). -/
def execFieldTick (s : State) : Out :=
  .next (match s.event with
    | .summaries outer => { s with plat := { s.plat with outer := outer } }
    | _ =>
    let ds := (siblings none).map (fun d => (d, s.tickDie d))
    let p := s.tickOuter
    let cs : List (Nat × Cluster × Bool) := s.clusters.map (fun e => (e.1, e.2.tick))
    let t := { s with clusters := cs.map (fun (e : Nat × Cluster × Bool) => (e.1, e.2.1)), plat := p }
    let t := ds.foldl (fun t e => t.setDie e.1 e.2) t
    t.posts ((cs.filter (fun (e : Nat × Cluster × Bool) => e.2.2)).map
      (fun (e : Nat × Cluster × Bool) => Event.adaptiveLoop (ClusterId.ofKey e.1))))

/-- ADAPTIVE_LOOP (R205). The STAY tested is that of the tick: a write in the cycle of the update comes after it (log entry 67). -/
def execAdaptiveLoop (s : State) : Out :=
  .next (match s.event with
    | .adaptiveLoop cl =>
      let x := s.cluster cl
      let a := x.cwv cwADAPT
      let y := { x with adaptN := 0, adaptSum := 0 }
      if x.adaptN = 0 ∨ bit a 63 = false then s.setCluster cl y
      else
        let w := x.adaptSum / (64 * x.adaptN)
        let low := bits (x.cwv cwLOW) 15 0
        let tgt := bits a 47 32
        s.setCluster cl
          (if 5 * tgt < 4 * w ∧ bits a 15 0 < low then y.setCw cwLOW (word (low - 1))
           else if 4 * w < 3 * tgt ∧ low < x.stayAt s.time then y.setCw cwLOW (word (low + 1))
           else y)
    | _ => s)

/-! ### PRD (R207) -/

/-- The value of an item of a cluster. -/
def State.prdItem (s : State) (cl : ClusterId) (item : Nat) : Word :=
  let pack := fun (v : Nat → Nat) => word ((upto 0 8).foldl (fun n d => n + v d * 2 ^ (6 * d)) 0)
  match item with
  | 0 => word (s.cluster cl).pstat
  | 1 => pack (fun d => (s.die cl.die).field cl.cl.val (fieldNo d false))
  | 2 => pack (fun d => (s.die cl.die).field cl.cl.val (fieldNo d true))
  | 3 => pack (fun d => s.upReport cl.die cl.cl.val (fieldNo d false))
  | _ => pack (fun d => s.upReport cl.die cl.cl.val (fieldNo d true))

/-- PRD gd, ga, gb. -/
def execPrd (gd ga gb : Reg) (s : State) : Out :=
  .next (s.guardP [ga, gb] []
    (let a := (s.g ga).toNat
     let i := (s.g gb).toNat
     if 191 < a then s.raise 0x06 (s.g ga)
     else if 4 < i then s.raise 0x06 (s.g gb)
     else s.done gd (s.prdItem (clusterAt s.cur.core.die a) i)))

/-! ### Failures (R187, R202, R379) -/

/-- End the running tasks of some contexts with records of type 5. -/
def State.failSlots (s : State) (w : ClusterId) (cs : List CtxId) : State :=
  cs.foldl (fun s c => match (s.ctx c).task with
    | none => s
    | some t =>
      (s.taskRecord t.msg 5 0 0 0 w).endTask c) s

/-- End a queue entry of a failed part with a record of type 5. -/
def State.failEntry (s : State) (cl w : ClusterId) (e : QEntry) : State :=
  let s := if e.msg.typ = 1 then s.armDown e.msg.region else s.unpress cl e.msg.cost
  s.endUnrun e.msg 5 w

/-- Take every spilled record of a cluster's rings. -/
def State.drainRings (s : State) (cl : ClusterId) : State × List QEntry :=
  ((s.cluster cl).rings).foldl (fun r e =>
    let n := s.spillDepth e.1
    let es := ((upto 0 e.2.held).zip e.2.entries).map (fun f => s.spillRecord cl e.1 ((e.2.head + f.1) % n) f.2)
    (r.1.setRing cl e.1 {}, r.2 ++ es)) (s, [])

/-- A cluster fails: it publishes infinite pressure, and each of its tasks ends (R202). -/
def State.failCluster (s : State) (cl : ClusterId) : State :=
  let s := s.setCluster cl { s.cluster cl with failed := true, rreq := true }
  let w := s.workingFor cl.die
  let s := s.failSlots w ((clusterCores cl).flatMap coreSlots)
  let q := (s.cluster cl).queue
  let s := s.setCluster cl { s.cluster cl with queue := [], saving := none }
  let (s, spilled) := s.drainRings cl
  (q ++ spilled).foldl (fun s e => s.failEntry cl w e) s

/-- CLUSTER_FAILURE. -/
def execClusterFailure (s : State) : Out :=
  .next (match s.event with
    | .clusterFailure cl =>
      if (s.cluster cl).failed then s else (s.failCluster cl).replaceNotice 2 cl.die.val cl.cl.val 0 0 0
    | _ => s)

/-- CORE_FAILURE: the core is closed, its tasks and those pinned to it end (R379). The cluster that spawns the fault handlers of their
records, which R187 does not name, is the core's own (log entry 66). -/
def execCoreFailure (s : State) : Out :=
  .next (match s.event with
    | .coreFailure k =>
      if (s.core k).failed then s
      else
        let cl := k.cluster
        let s := s.setCore k { s.core k with failed := true }
        let s := s.setCluster cl { s.cluster cl with rreq := true }
        let s := s.failSlots cl (coreSlots k)
        let pinned := (s.cluster cl).queue.filter (fun e => e.msg.typ == 2 && e.core == k.core.val)
        let s := pinned.foldl (fun s e => (s.unqueue cl e).failEntry cl cl e) s
        s.replaceNotice 1 cl.die.val cl.cl.val k.core.val 0 0
    | _ => s)

/-- DIE_FAILURE: the die counts as 63 at the hub, and all its clusters fail (R202). -/
def execDieFailure (s : State) : Out :=
  .next (match s.event with
    | .dieFailure d =>
      if (s.die d).failed then s
      else
        let s := s.setDie d { s.die d with failed := true }
        ((upto 0 192).foldl (fun s c =>
          if (s.cluster (clusterAt d c)).failed then s else s.failCluster (clusterAt d c)) s).replaceNotice 3 d.val 0 0 0 0
    | _ => s)

/-- VAULT_FAILURE: the offsets of the vault deliver poison (R379). -/
def execVaultFailure (s : State) : Out :=
  .next (match s.event with
    | .vaultFailure cl =>
      if (s.cluster cl).vaultFailed then s
      else
        (s.setCluster cl { s.cluster cl with vaultFailed := true, rreq := true }).replaceNotice 4 cl.die.val cl.cl.val 0 0 0
    | _ => s)

end Sys2Proof.Machine
end

