-- ==== Sys2Proof/Machine/Debug.lean ====
section
/-! DEFINITION. Debug stops, resumes and debugger writes, writes to the core control window, the scrub (R66, R77, R79,
R376 to R378). -/

namespace Sys2Proof.Machine

/-! ### The scrub (R378) -/

/-- The cluster in which an error is found: a line's home, a register's own. -/
def State.eccCluster (s : State) (p : EccAt) : ClusterId :=
  match p with
  | .line loc => s.homeOr loc
  | .dram loc => s.homeOr loc
  | .bank k _ => k.cluster
  | .greg c _ => c.core.cluster
  | .vreg c _ => c.core.cluster
  | .other cl => cl

/-- An uncorrectable error in the line its home slice holds: a clean line is dropped, and the next access refills it; the
word of a dirty one is poisoned, and the line is written back poisoned when it leaves (R294). -/
def State.lineSpoiled (s : State) (loc : Nat) : State :=
  let c := s.homeOr loc
  match tget none (s.cluster c).lines (lineNo loc) with
  | none => s
  | some l =>
    if l.dirty then { s with pois := sins (loc / 8) s.pois }.putLine c (lineNo loc) { l with bad := true }
    else s.dropLine c (lineNo loc)

/-- An uncorrectable error in DRAM, found as the word is read: a line that the home slice holds does not read it. -/
def State.dramSpoiled (s : State) (loc : Nat) : State :=
  if (tget none (s.cluster (s.homeOr loc)).lines (lineNo loc)).isSome then s else { s with pois := sins (loc / 8) s.pois }

/-- ECC finds an error: a correctable one is counted, an uncorrectable one also poisons (R78, R117, R294, R378). -/
def State.eccFound (s : State) (p : EccAt) (found : ScrubFind) : State :=
  match found with
  | .clean => s
  | .correctable => s.errs (s.eccCluster p) 1 0
  | .uncorrectable =>
    let s := s.errs (s.eccCluster p) 0 1
    match p with
    | .line loc => s.lineSpoiled loc
    | .dram loc => s.dramSpoiled loc
    | .bank k w => { s with pois := sins (localLoc k (8 * w.toNat) / 8) s.pois }
    | .greg c r => s.setCtx c ((s.ctx c).poisG r)
    | .vreg c r => s.setCtx c ((s.ctx c).poisV r)
    | .other _ => s

/-- SCRUB: what the background scrub finds at a local word, or ECC elsewhere. -/
def execScrub (s : State) : Out :=
  .next (match s.event with
    | .scrub k w found =>
      let off := 8 * w.toNat
      match found with
      | .clean => s
      | .correctable => (s.errs k.cluster 1 0).count k 0x19 none 1
      | .uncorrectable =>
        let s := { s with pois := sins (localLoc k off / 8) s.pois }
        let s := s.errs k.cluster 0 1
        s.recordFault (s.core k).svc 6 0x0D (s.corePa k off) 0 [] k.cluster 0
    | .eccError p found => s.eccFound p found
    | _ => s)

/-! ### Debug stops (R77, R377) -/

/-- The notice of a debug stop (R392 code 0x03). -/
def State.stopNotice (s : State) (c : CtxId) : State :=
  s.notice 0x03 (wordBytes [word (s.catOf c), word (s.corePa c.core 0), word c.ctx.val, (s.ctx c).cwv cwDBGST])

/-- A context that holds a task or a handler and is not stopped. -/
def Ctx.running (x : Ctx) : Bool := x.live && !x.stopped

/-- DEBUG_STOP: a running context stops at its boundary; waits are withdrawn, a frame is saved, the control node is told. What
cannot be withdrawn, and a wait that was met in this cycle, ends first. -/
def execDebugStop (s : State) : Out :=
  .next (match s.event with
    | .debugStop c =>
      if (s.ctx c).running = false then s
      else if s.recalls c then (s.recallSpawn c).setCtx c { (s.recallSpawn c).ctx c with stopReq := true }
      else if s.bound c || s.waitMet c then s.setCtx c { s.ctx c with stopReq := true }
      else
        let s := s.withdraw c
        let x := if c.isHandler then s.ctx c else (s.ctx c).suspendFrame
        let x := { x.setCw cwDBGST (x.cwv cwDBGST ||| 0x8000000000000000) with stopReq := false }
        (s.setCtx c x).stopNotice c
    | _ => s)

/-- DBGCTL_STOP: bit 0 of DBGCTL asks for a stop (R66). -/
def execDbgctlStop (s : State) : Out :=
  .next (match s.event with
    | .dbgctlStop c => if (s.ctx c).running then s.setCtx c { s.ctx c with stopReq := true } else s
    | _ => s)

/-- Completions written during a stop show from its end on (R377). -/
def State.unhide (s : State) (c : CtxId) : State :=
  let k := s.core c.core
  s.setCore c.core { k with ports := k.ports.map (fun e =>
    (e.1, { e.2 with done := e.2.done.map (fun d => if d.ctx = c.ctx.val then { d with hidden := false } else d) })) }

/-- DBGCTL_RESUME: bit 1 of DBGCTL resumes a stopped context, bit 2 sets SKIP (R66, R377). -/
def execDbgctlResume (s : State) : Out :=
  .next (match s.event with
    | .dbgctlResume c skip =>
      if (s.ctx c).stopped && (s.ctx c).live then
        let s := s.unhide c
        let x := s.ctx c
        let d := x.cwv cwDBGST &&& 0x7FFFFFFFFFFFFFFF
        let x := { x.setCw cwDBGST (if skip then d ||| 0x4000000000000000 else d) with skipNow := x.skipNow || skip }
        s.setCtx c (if c.isHandler then x else x.resumeStopped)
      else s
    | _ => s)

/-! ### Writes to the core control window (R66) -/

/-- Data of outstanding loads to a register is discarded when it arrives (R79). -/
def State.discardTo (s : State) (c : CtxId) (hits : Dest → Bool) : State :=
  let k := s.core c.core
  s.setCore c.core { k with outs := k.outs.map (fun o => if o.ctx = c.ctx.val ∧ hits o.dest then { o with discard := true } else o) }

/-- Replace doubleword j of a vector register. -/
def putLane (v : VWord) (j : Nat) (w : Word) : VWord :=
  (v &&& ~~~((0xFFFFFFFFFFFFFFFF : VWord) <<< (64 * j))) ||| (w.setWidth 512 <<< (64 * j))

/-- A debugger write at offset p of the register file of a stopped context (R66, R79). -/
def State.regFileWrite (s : State) (c : CtxId) (p : Nat) (w : Word) : State :=
  let x := s.ctx c
  if p < 0x100 then
    let r : Reg := BitVec.ofNat 5 (p / 8)
    (s.setCtx c (x.setG r w)).discardTo c (fun d => match d with
      | .g r' _ _ => r' == r
      | _ => false)
  else if p < 0x140 then s.setCtx c (x.setQ (BitVec.ofNat 3 (p / 8)) w)
  else if p = 0x140 then s.setCtx c { x with pc := w }
  else if p = 0x148 then
    s.setCtx c { x with gpois := w.setWidth 32 &&& 0xFFFFFFFE,
                        vpois := if c.isHandler then x.vpois else (w >>> 32).setWidth 32 }
  else if 0x400 ≤ p ∧ p < 0xC00 ∧ c.isHandler = false then
    let r : Reg := BitVec.ofNat 5 ((p - 0x400) / 64)
    (s.setCtx c ((x.setV r (putLane (x.vreg r) (p / 8 % 8) w)).cleanV r)).discardTo c (fun d => match d with
      | .v r' _ => r' == r
      | .bcast r' _ => r' == r
      | _ => false)
  else s

/-- DEBUGGER_WRITE: a write to the register file of a context takes effect only while it is stopped. -/
def execDebuggerWrite (s : State) : Out :=
  .next (match s.event with
    | .debuggerWrite c off w => if (s.ctx c).stopped && (s.ctx c).live then s.regFileWrite c off.toNat w else s
    | _ => s)

/-- Put events at the head of the agenda. -/
def State.first (s : State) (es : List Event) : State := { s with agenda := es.map .ev ++ s.agenda }

/-- A write to DBGCTL of a context. -/
def State.dbgctl (s : State) (c : CtxId) (w : Word) : State :=
  s.first ((if bit w 0 then [.dbgctlStop c] else []) ++ (if bit w 1 then [.dbgctlResume c (bit w 2)] else []))

/-- Whether control word i is a slot's own, and the slot is inside an instruction that is not withdrawn (R66). -/
def State.midInstruction (s : State) (c : CtxId) (i : Nat) : Bool :=
  s.bound c && match cwInfo i with
    | some m => m.scope == .slot || m.scope == .both
    | none => false

/-- CONTROL_WINDOW_WRITE: a doubleword written at an offset of a core's control window. A slot's word takes it at the next
instruction boundary. -/
def execControlWindowWrite (s : State) : Out :=
  .next (match s.event with
    | .controlWindowWrite k off w =>
      let o := off.toNat
      if o < 0x6000 then
        let c := ctxAt k (o / 0x1000)
        let i := o % 0x1000 / 8
        if s.midInstruction c i then s.after 1 (.controlWindowWrite k off w)
        else if i < 0x1C0 ∧ s.deadSlotWord c i = false then s.cwWrite c i w else s
      else if o < 0x6030 then s.dbgctl (ctxAt k ((o - 0x6000) / 8)) w
      else if 0x8000 ≤ o ∧ o < 0xE000 then
        s.first [.debuggerWrite (ctxAt k ((o - 0x8000) / 0x1000)) (BitVec.ofNat 12 (o % 0x1000)) w]
      else s
    | _ => s)

end Sys2Proof.Machine
end

