-- ==== Sys2Proof/Machine/Keys.lean ====
section
/-! DEFINITION. The identity key pair at work: decryption of a session secret and signature of a report (R384, R385). -/

namespace Sys2Proof

/-- A number raised to the private exponent of the identity key. -/
def Config.privately (x : Nat) : Nat :=
  Machine.powMod Config.modulus.toNat 3072 x (Machine.privateExp Config.primeP Config.primeQ)

/-- What 384 bytes encrypted with the public identity key under RSAES-OAEP decrypt to; none when they do not (R385). -/
def Config.decrypt (e : List Byte) : Option (List Byte) :=
  if Machine.beNat e < Config.modulus.toNat then Machine.oaepDecode (Machine.beBytes 384 (Config.privately (Machine.beNat e)))
  else none

/-- The RSASSA-PSS signature of a byte string under the identity key (R385). -/
def Config.sign (m : List Byte) : BitVec 3072 :=
  BitVec.ofNat 3072 (Config.privately (Machine.beNat (Machine.pssEncode m (Machine.beBytes 32 (Config.signSalt m).toNat))))

end Sys2Proof
end

