-- ==== Sys2Proof/Machine/ControlPort.lean ====
section
/-! DEFINITION. The control port: the frames of the control node and their replies, notices, Telemetry, Hold (R383 to R393,
R424). -/

namespace Sys2Proof.Machine

/-! ### Hold and failures of start-up (R383, R387, R424) -/

/-- Enter Hold: everything is clear, and the control port alone is live. What the port keeps, the rails and the trip output
outlast it. -/
def State.enterHold (s : State) : State :=
  let p := s.plat
  { State.reset with
    nextId := s.nextId, free := s.free,
    plat := { portUp := p.portUp, sent := p.sent, kept := p.kept, lost := p.lost, discarded := p.discarded,
              vaux := p.vaux, vlinkMem := p.vlinkMem, vdie := p.vdie, trip := p.trip, moduleHeld := p.moduleHeld } }

/-- The doubleword of the Status reply (R387). -/
def Platform.statusWord (p : Platform) : Nat :=
  p.phase + p.failPhase * 2 ^ 4 + p.cause * 2 ^ 8 + p.failedDies.toNat * 2 ^ 16

/-- A start-up phase ends, with cause 0 when it completed; the control node is told (R383, R392 code 0x07, R424). A failure
in phase 2 leaves the device in Hold. -/
def State.phaseEnd (s : State) (phase cause : Nat) : State :=
  let p := { s.plat with phase := if phase = 2 ∧ cause ≠ 0 then 1 else phase,
                         failPhase := if cause = 0 then 0 else phase, cause := cause }
  { s with plat := p }.notice 0x07 (leBytes 8 p.statusWord)

/-- Whether the device may leave Hold: every rail good, no trip, no module fault (R399 to R401). -/
def Platform.mayLeaveHold (p : Platform) : Bool := p.vaux && p.vlinkMem && p.vdie && !p.trip && !p.moduleHeld

/-- The cause that phase 2 finds in an image (R383, R424); 0 is none. -/
def Firmware.cause (f : Firmware) : Nat :=
  if f.wellFormed = false then 0x21 else if f.signed = false then 0x22
  else if f.rollback < Config.rollbackMin.toNat then 0x23 else 0

/-! ### Frames and replies (R386 to R389) -/

/-- Set the sequence number expected. -/
def State.setSeq (s : State) (n : Nat) : State := { s with plat := { s.plat with expSeq := n } }

/-- The reply to a frame (R388). -/
def Platform.reply (p : Platform) (f : CFrame) (status : Nat) (payload : List Byte) : OutFrame :=
  { typ := f.typ % 0x8000 + 0x8000, seq := f.seq, addr := status + p.phase * 2 ^ 8, payload := payload }
/-- Send a reply, under the session in which its frame arrived (log entry 9). -/
def State.replyTo (s : State) (z : Option Session) (f : CFrame) (status : Nat) (payload : List Byte) : State :=
  { s with plat := { s.plat with
    sent := s.plat.sent ++ [{ s.plat with session := z }.sealed 2 (s.plat.reply f status payload)] } }

/-- Whether the tag of a frame of the control node verifies (R385, R386); outside a session there is none. `len` is LEN. -/
def Platform.authentic (p : Platform) (typ : Nat) (f : CFrame) (len : Nat) : Bool :=
  match p.session with
  | none => true
  | some z => f.tag == gcmTag z.n2d (frameNonce 1 f.seq) (frameHeader typ f.flags len f.seq f.addr) f.payload

/-- A frame of the control node in clear (R386). -/
def Platform.opened (p : Platform) (f : CFrame) : CFrame :=
  match p.session with
  | none => f
  | some z => { f with payload := gcmCrypt z.n2d (frameNonce 1 f.seq) f.payload }

/-- Frame types that are always answered (R388). -/
def alwaysAnswered (typ : Nat) : Bool := [0x01, 0x02, 0x04, 0x11, 0x20, 0x30, 0x40].elem typ
/-- Frame types performed without a session (R389). -/
def openTypes : List Nat := [0x01, 0x02, 0x03, 0x04, 0x3F]
/-- The phases in which a frame type is performed (R389): Write and Read need a trained DRAM, Launch, Close, Partition and
Breakpoint a device that is Ready. -/
def Platform.phaseOk (p : Platform) (typ : Nat) : Bool :=
  if typ = 0x03 then p.phase == 1
  else if typ = 0x10 ∨ typ = 0x11 then decide (4 ≤ p.phase)
  else if [0x20, 0x21, 0x22, 0x23].elem typ then p.phase == 5 && p.failPhase == 0
  else true

/-- Events that belong to frames: the frames, and the writes of one to a control window. -/
def Event.ofPort (e : Event) : Bool :=
  match e with
  | .identity _ | .attest _ | .firmware _ | .status _ | .write _ | .read _ _ | .launch _ | .close _ | .partition _ | .breakpoint _
  | .telemetry _ | .management _ | .reset _ | .unknownFrame _ | .controlWindowWrite _ _ _ => true
  | _ => false
/-- Whether an earlier frame is not complete yet, or waits itself: a later one is performed only after it (R387). -/
def State.portBusy (s : State) : Bool :=
  s.timers.any (fun t => Event.ofPort t.2) || s.agenda.any (fun a => match a with
    | .ev (.controlWindowWrite _ _ _) => true
    | _ => false)

/-- Perform a frame (R385 to R389) when the one before it is complete: one that fails authentication is discarded and counted; one out of order, malformed, or
not allowed is refused; otherwise `k` gives the state, the status and the payload of the reply. `lenOk` says that LEN suits
the TYPE, `len` is LEN. -/
def State.frame (s : State) (typ : Nat) (f : CFrame) (len : Nat) (lenOk : Bool)
    (k : CFrame → State → State × Nat × List Byte) : State :=
  let p := s.plat
  let f := { f with typ := typ }
  if p.portUp = false ∨ p.vaux = false then s
  else if s.portBusy then s.after 1 s.event
  else if p.authentic typ f len = false then { s with plat := { p with discarded := satAdd 32 p.discarded 1 } }
  else if f.seq ≠ p.expSeq then s.replyTo p.session f 0x01 []
  else
    let s := s.setSeq (p.expSeq + 1)
    if p.session.isNone ∧ openTypes.elem f.typ = false then s.replyTo p.session f 0x02 []
    else if 2 ≤ f.flags ∨ 0x100000 < len ∨ lenOk = false then s.replyTo p.session f 0x03 []
    else if p.phaseOk f.typ = false then s.replyTo p.session f 0x02 []
    else match k (p.opened f) s with
    | (t, st, out) =>
      if alwaysAnswered f.typ || f.flags == 1 || (st != 0 && st != 4) then t.replyTo p.session f st out else t

/-- A frame whose LEN is the length of its payload. -/
def State.frameLen (s : State) (typ : Nat) (f : CFrame) (lens : List Nat) (k : CFrame → State → State × Nat × List Byte) :
    State :=
  s.frame typ f f.payload.length (lens.elem f.payload.length) k

/-- IDENTITY (R384). -/
def execIdentity (s : State) : Out :=
  .next (match s.event with
    | .identity f => s.frameLen 0x01 f [0] (fun _ s =>
        let c := Config.certificate
        (s, 0, leBytes 8 (Config.productForm.toNat + Config.rollbackMin.toNat * 2 ^ 16 + c.length % 2 ^ 16 * 2 ^ 48)
          ++ leBytes 4 65537 ++ leBytes 4 0 ++ beBytes 384 Config.modulus.toNat ++ c))
    | _ => s)

/-- The Attest report but for its signature (R385). -/
def State.attestReport (s : State) (nonce e : List Byte) : List Byte :=
  let p := s.plat
  nonce ++ sha256 Config.bootRom ++ p.digest ++ sha256 e
    ++ leBytes 8 (if p.joined then p.dev else 0x7FF)
    ++ leBytes 8 (Config.productForm.toNat + Config.rollbackMin.toNat * 2 ^ 16 + p.imgRollback % 2 ^ 16 * 2 ^ 32)

/-- The session of a nonce and a secret, with the keys of both directions (R385). -/
def sessionOf (n secret : List Byte) : Session :=
  ⟨n, secret, hkdf n secret ("DARIF-CTL-N2D".toList.map (fun c => BitVec.ofNat 8 c.toNat)),
   hkdf n secret ("DARIF-CTL-D2N".toList.map (fun c => BitVec.ofNat 8 c.toNat))⟩

/-- What E decrypts to, when that is a secret of 32 bytes (R385). -/
def secretOf (e : List Byte) : Option (List Byte) :=
  match Config.decrypt e with
  | some k => if k.length = 32 then some k else none
  | none => none

/-- ATTEST (R385, R389): the hub decrypts E, signs its report and starts a session. -/
def execAttest (s : State) : Out :=
  .next (match s.event with
    | .attest f => s.frameLen 0x02 f [416] (fun f s =>
        match secretOf (f.payload.drop 32) with
        | none => (s, 0x07, [])
        | some k =>
          let n := f.payload.take 32
          let r := s.attestReport n (f.payload.drop 32)
          ({ s with plat := { s.plat with session := some (sessionOf n k), expSeq := 0, noticeSeq := 0 } }, 0,
           r ++ beBytes 384 (Config.sign r).toNat))
    | _ => s)

/-- FIRMWARE: phase 2 on the image the frame carries (R383, R387). -/
def execFirmware (s : State) : Out :=
  .next (match s.event with
    | .firmware f => s.frame 0x03 f f.payload.length true (fun f s =>
        let c := Firmware.cause (Config.imageOf f.payload)
        (s.first [.verify f.payload], if c = 0 then 0 else if c = 0x21 then 0x03 else 0x06, []))
    | _ => s)

/-- STATUS (R387). -/
def execStatus (s : State) : Out :=
  .next (match s.event with
    | .status f => s.frameLen 0x04 f [0] (fun _ s => (s, 0, leBytes 8 s.plat.statusWord))
    | _ => s)

/-! ### Write and Read (R387, R388) -/

/-- The areas that Write and Read reach: DRAM, a core's local memory, its control window. -/
inductive PortArea | dram | loc | ctl
  deriving DecidableEq, Repr

/-- The one area that n bytes at an address lie in; none where the range is refused. -/
def State.portArea (s : State) (pa n : Nat) : Option PortArea :=
  let last := pa + max n 1 - 1
  if s.plat.joined = false ∨ paDev pa ≠ s.dev ∨ 2 ^ 56 ≤ pa ∨ last / 2 ^ 36 ≠ pa / 2 ^ 36 then none
  else if paOnDie pa then
    if s.onDieOk pa = false ∨ last / 2 ^ 30 ≠ pa / 2 ^ 30 ∨ areaOf (paOff last) ≠ areaOf (paOff pa) then none
    else match areaOf (paOff pa) with
    | .mem => some .loc
    | .ctl => if pa % 8 = 0 ∧ n % 8 = 0 then some .ctl else none
    | _ => none
  else if s.dramOk pa ∧ s.dramOk last then some .dram
  else none

/-- The doublewords of a Write to a control window, as events. -/
def ctlWrites (k : CoreId) (o : Nat) : List Word → List Event
  | [] => []
  | w :: t => .controlWindowWrite k (BitVec.ofNat 16 o) w :: ctlWrites k (o + 8) t

/-- WRITE: plain writes of region 0. -/
def execWrite (s : State) : Out :=
  .next (match s.event with
    | .write f => s.frame 0x10 f f.payload.length true (fun f s =>
        let pa := f.addr
        let n := f.payload.length
        match s.portArea pa n with
        | none => (s, 0x03, [])
        | some .dram => (((s.homeAccess (paLoc pa) n 0 true none).poke (paLoc pa) f.payload false).regSync (paLoc pa) n, 0, [])
        | some .loc => (s.poke (paLoc pa) f.payload false, 0, [])
        | some .ctl => (s.first (ctlWrites (paCoreId pa) (paOff pa - 0x100000) (wordsOf (n / 8) f.payload)), 0, []))
    | _ => s)

/-- The words of a Read from memory: bytes, and whether each 8-byte word is poisoned; such a word reads as zero. -/
def State.portWords (s : State) (loc : Nat) : Nat → Nat → List (List Byte × Bool)
  | 0, _ => []
  | k + 1, n =>
    let m := min 8 n
    let bad := s.readBad loc m
    (if bad then List.replicate m 0 else s.bytes loc m, bad) :: s.portWords (loc + 8) k (n - 8)

/-- The poison map of a Read reply (R388). -/
def poisonMap : Nat → List Bool → List Byte
  | 0, _ => []
  | k + 1, l => BitVec.ofNat 8 (((upto 0 8).zip l).foldl (fun n e => n + e.2.toNat * 2 ^ e.1) 0) :: poisonMap k (l.drop 8)

/-- The payload of a Read reply and its status. -/
def readReply (ws : List (List Byte × Bool)) : Nat × List Byte :=
  (if ws.any (fun w => w.2) then 0x04 else 0,
   ws.flatMap (fun w => w.1) ++ poisonMap ((ws.length + 7) / 8) (ws.map (fun w => w.2)))

/-- Poison records of the words of a Read that are poisoned (R378). -/
def State.portRecords (s : State) (pa source : Nat) (ws : List (List Byte × Bool)) : State :=
  ((upto 0 ws.length).zip ws).foldl (fun s e => if e.2.2 then s.poisonRecord (paDie pa) 0 (pa + 8 * e.1) source else s) s

/-- READ. -/
def execRead (s : State) : Out :=
  .next (match s.event with
    | .read f n => s.frame 0x11 f n (f.payload == []) (fun f s =>
        let pa := f.addr
        match s.portArea pa n with
        | none => (s, 0x03, [])
        | some .ctl =>
          let k := paCoreId pa
          (s, readReply ((upto 0 (n / 8)).map (fun i => (leBytes 8 (s.ctlRead k (paOff pa - 0x100000 + 8 * i)).toNat, false))))
        | some a =>
          let s := if a = .dram then s.homeAccess (paLoc pa) n 0 false none else s
          let ws := s.portWords (paLoc pa) ((n + 7) / 8) n
          (s.portRecords pa (if a = .dram then 1 else 2) ws, readReply ws))
    | _ => s)

/-! ### Launch, Close, Partition, Breakpoint (R190, R202, R375, R393) -/

/-- The cluster that the ADDR of a Launch or Close names; none where it is malformed. -/
def State.portCluster (s : State) (pa : Nat) : Option ClusterId :=
  if 2 ^ 56 ≤ pa ∨ paDev pa ≠ s.dev ∨ s.onDieOk pa = false ∨ pa % 2 ^ 34 ≠ 0 then none
  else some ⟨paDie pa, Fin.ofNat 192 (paCl pa)⟩

/-- Whether a Launch payload is well formed. -/
def launchOk (ws : List Word) : Bool :=
  ws.getD 0 0 &&& ~~~(0x3FF0FFF : Word) == 0 && bits (ws.getD 0 0) 23 16 != 0 && bits (ws.getD 9 0) 63 32 == 0

/-- The task message of a Launch, but for its catalogue number: words 2 to 11 follow the launch doubleword. -/
def State.launchMsg (s : State) (cl : ClusterId) (ws : List Word) (cat : Nat) : TaskMsg :=
  let w := ws.getD 0 0
  let r := bits w 11 0
  s.taskMsg r (if bit w 25 then 2 else 0) (bits w 23 16) (bit w 24) (s.schedHops r) 0 (s.dev, cl.die.val, cl.cl.val) cat
    (ws.getD 1 0) ((ws.drop 2).take 6) (ws.getD 8 0).toNat (bits (ws.getD 9 0) 31 0) (ws.getD 10 0)

/-- LAUNCH (R393). -/
def execLaunch (s : State) : Out :=
  .next (match s.event with
    | .launch f => s.frameLen 0x20 f [88] (fun f s =>
        let ws := wordsOf 11 f.payload
        match s.portCluster f.addr with
        | none => (s, 0x03, [])
        | some cl =>
          if launchOk ws = false then (s, 0x03, [])
          else if (s.cluster cl).closed ∨ (s.cluster cl).failed then (s, 0x05, [])
          else
            let (s, cat) := s.allotCat cl
            let m := s.launchMsg cl ws cat
            let s := s.liveUp m.region
            (s.post (.taskPlacement cl m 0), 0, leBytes 8 cat))
    | _ => s)

/-- CLOSE (R202). -/
def execClose (s : State) : Out :=
  .next (match s.event with
    | .close f => s.frameLen 0x21 f [0] (fun f s =>
        match s.portCluster f.addr with
        | none => (s, 0x03, [])
        | some cl =>
          let x := s.cluster cl
          if x.closed ∨ x.failed then (s, 0x05, []) else (s.setCluster cl { x with closed := true }, 0, []))
    | _ => s)

/-- Ask for the save of a slot whose task has a colour, or withdraw the request. -/
def Ctx.partition (x : Ctx) (colour : Nat) (stop : Bool) : Ctx :=
  match x.task with
  | some t => if t.msg.colour = colour then { x with saveReq := stop } else x
  | none => x

/-- Stop or restart a job colour (R190). -/
def State.partition (s : State) (colour : Nat) : State :=
  let stop := !s.plat.stopped.getLsbD colour
  let bits := if stop then s.plat.stopped ||| 1#64 <<< colour else s.plat.stopped &&& ~~~(1#64 <<< colour)
  { s with plat := { s.plat with stopped := bits }, ctxs := s.ctxs.map (fun e => (e.1, e.2.partition colour stop)),
           clusters := if stop then s.clusters else s.clusters.map (fun e => (e.1, match e.2.saving with
             | some c => if s.colourOf c = colour then { e.2 with saving := none } else e.2
             | none => e.2)) }

/-- What the control node reads as "stop pending" (R190): a task of a stopped colour still runs. -/
def State.stopPending (s : State) (colour : Nat) : Bool :=
  s.plat.stopped.getLsbD colour && s.ctxs.any (fun e => match e.2.task with
    | some t => t.msg.colour == colour
    | none => false)

/-- PARTITION: ADDR names a colour, which stops when it runs and restarts when it is stopped (log entry 16). -/
def execPartition (s : State) : Out :=
  .next (match s.event with
    | .partition f => s.frameLen 0x22 f [0] (fun f s => if 63 < f.addr then (s, 0x03, []) else (s.partition f.addr, 0, []))
    | _ => s)

/-- BREAKPOINT: ADDR names an entry, the payload holds BPC and BPA (R375; log entry 17). -/
def execBreakpoint (s : State) : Out :=
  .next (match s.event with
    | .breakpoint f => s.frameLen 0x23 f [16] (fun f s =>
        let ws := wordsOf 2 f.payload
        if 7 < f.addr ∨ bits (ws.getD 0 0) 58 52 ≠ 0 then (s, 0x03, [])
        else ({ s with plat := { s.plat with bpc := tput s.plat.bpc f.addr (ws.getD 0 0),
                                             bpa := tput s.plat.bpa f.addr (ws.getD 1 0) } }, 0, []))
    | _ => s)

/-! ### Telemetry (R390) -/

/-- A temperature in units of 0.1 °C as Telemetry and notices carry it: 16 bits, signed (R390). -/
def tempBits (t : Int) : Nat := (BitVec.ofInt 16 t).toNat

/-- The clusters of a die. -/
def dieClusters (d : Fin 4) : List ClusterId := (upto 0 192).map (clusterAt d)

/-- The device record. -/
def State.deviceRecord (s : State) : List Byte :=
  let p := s.plat
  let dies := (upto 0 4).foldl (fun n d => n + (s.die (Fin.ofNat 4 d)).failed.toNat * 2 ^ d) 0
  padTo 64 (leBytes 8 s.time ++ leBytes 4 p.power ++ leBytes 4 3400 ++ leBytes 2 (if p.joined then p.dev else 0xFFFF)
    ++ leBytes 1 (dies + p.rreq.toNat * 16) ++ leBytes 1 p.phase ++ leBytes 4 p.discarded ++ leBytes 4 p.lost)

/-- A die record. -/
def State.dieRecord (s : State) (d : Fin 4) : List Byte :=
  let cs := (dieClusters d).map s.cluster
  let sum := fun (g : Word → Nat) => cs.foldl (fun n x => satAdd 32 n (g (x.cwv cwERRCNT))) 0
  padTo 32 (leBytes 4 (tget 0 s.plat.diePower d.val) ++ leBytes 2 (tempBits (cs.foldl (fun n x => max n x.temp) (-32768)))
    ++ leBytes 2 (tempBits (tget 0 s.plat.dramTemp d.val)) ++ leBytes 4 (sum (fun e => bits e 31 0)) ++ leBytes 4 (sum (fun e => bits e 63 32))
    ++ leBytes 2 (tget 0 s.plat.vdieMv d.val))

/-- A cluster record. -/
def Cluster.record (x : Cluster) : List Byte :=
  padTo 32 (leBytes 4 x.power ++ leBytes 1 x.duty
    ++ leBytes 1 (x.closed.toNat + 2 * x.failed.toNat + 4 * x.tripped.toNat + 8 * x.persisted.toNat + 16 * x.rreq.toNat)
    ++ leBytes 2 x.flux ++ leBytes 2 (tempBits x.temp) ++ leBytes 2 x.pressure ++ leBytes 4 x.budget ++ leBytes 8 (x.cwv cwERRCNT).toNat)

/-- A link record. -/
def Link.record (x : Link) : List Byte :=
  padTo 16 (leBytes 1 (x.up.toNat + 2 * x.training.toNat) ++ leBytes 1 (if x.up then x.width else 0)
    ++ leBytes 2 x.retired.toNat ++ leBytes 4 (min x.failedChecks (2 ^ 32 - 1)) ++ leBytes 4 (min x.resent (2 ^ 32 - 1))
    ++ leBytes 2 x.margin)

/-- The payload of a Telemetry reply. -/
def State.telemetry (s : State) : List Byte :=
  s.deviceRecord ++ (siblings none).flatMap s.dieRecord
    ++ (siblings none).flatMap (fun d => (dieClusters d).flatMap (fun c => (s.cluster c).record))
    ++ (upto 0 18).flatMap (fun l => (tget {} s.plat.links l).record)

/-- TELEMETRY. -/
def execTelemetry (s : State) : Out :=
  .next (match s.event with
    | .telemetry f => s.frameLen 0x30 f [0] (fun _ s => (s, 0, s.telemetry))
    | _ => s)

/-! ### Management, Reset, unknown frames (R387, R391) -/

/-- A management register by number. -/
def mgmtReg (r : Nat) : Option Config.MgmtReg := Config.mgmtRegs.find? (fun m => m.number.toNat == r)
/-- The entry of a register in the catalogue (R391). -/
def mgmtEntry (m : Config.MgmtReg) : List Byte :=
  leBytes 4 m.number.toNat ++ leBytes 2 m.width.toNat ++ [Config.mgmtCode m.access, 0] ++ padTo 56 m.name
/-- The catalogue: register 0 itself, read-only, and the others. -/
def mgmtCatalogue : List Byte :=
  mgmtEntry ⟨0, Config.catalogueWidth, .ro, Config.catalogueName, .other⟩
    ++ (Config.mgmtRegs.filter (fun m => m.number != 0)).flatMap mgmtEntry
/-- Whether what a register governs lies within the limits of R399 and R400: rails in µV, clocks in kHz, a trip point in 0.001 °C. -/
def mgmtWithin (g : Config.Governs) (n : Nat) : Bool :=
  match g with
  | .other => true
  | .clock => n == 3300000
  | .vdie => decide (600000 ≤ n) && decide (n ≤ 900000) && n % 5000 == 0
  | .vmem => decide (1067000 ≤ n) && decide (n ≤ 1133000)
  | .vlink => decide (824500 ≤ n) && decide (n ≤ 875500)
  | .vaux => decide (1710000 ≤ n) && decide (n ≤ 1890000)
  | .trip => decide (n ≤ 105000)
/-- What a register holds after a write by its access code (R6); none when the write is refused (R391). -/
def mgmtAfter (m : Config.MgmtReg) (old v : Word) : Option Word :=
  let low := word (2 ^ min 64 m.width.toNat - 1)
  let new := match m.access with
    | .rw => v &&& low
    | .w1c => old &&& ~~~v
    | .ro | .wo => old
  if m.access = .rw ∧ mgmtWithin m.governs (Config.mgmtMeans m.number new) = false then none else some new

/-- A management register's value as it stands. -/
def State.mgmtValue (s : State) (r : Nat) : Word := tget (Config.mgmtReset r) s.plat.mgmt r

/-- What a Management frame does (log entry 24): register 0 is the catalogue, and a write to it is ignored (R6). -/
def State.management (s : State) (f : CFrame) : State × Nat × List Byte :=
  let r := f.addr % 2 ^ 32
  let write := f.addr.testBit 32
  if 2 ^ 33 ≤ f.addr ∨ f.payload.length ≠ (if write then 8 else 0) then (s, 0x03, [])
  else if r = 0 then (s, 0, if write then [] else mgmtCatalogue)
  else match mgmtReg r with
  | none => (s, 0x03, [])
  | some m =>
    if write then
      match mgmtAfter m (s.mgmtValue r) (word (leNat f.payload)) with
      | none => (s, 0x03, [])
      | some v => ({ s with plat := { s.plat with mgmt := tput s.plat.mgmt r v } }, 0, [])
    else (s, 0, leBytes 8 (if m.access = .wo then 0 else s.mgmtValue r).toNat)

/-- MANAGEMENT. -/
def execManagement (s : State) : Out :=
  .next (match s.event with
    | .management f => s.frameLen 0x40 f [0, 8] (fun f s => s.management f)
    | _ => s)

/-- RESET: the device returns to Hold; all running, queued and in-flight work is discarded. -/
def execReset (s : State) : Out :=
  .next (match s.event with
    | .reset f => s.frameLen 0x3F f [0] (fun _ s => (s.enterHold, 0, []))
    | _ => s)

/-- UNKNOWN_FRAME: an unknown TYPE, a reply TYPE or 0x50 is refused with status 0x03, or 0x02 without a session (R389). -/
def execUnknownFrame (s : State) : Out :=
  .next (match s.event with
    | .unknownFrame f =>
      let p := s.plat
      if p.portUp = false ∨ p.vaux = false then s
      else if s.portBusy then s.after 1 s.event
      else if p.authentic f.typ f f.payload.length = false then { s with plat := { p with discarded := satAdd 32 p.discarded 1 } }
      else if f.seq ≠ p.expSeq then s.replyTo p.session f 0x01 []
      else (s.setSeq (p.expSeq + 1)).replyTo p.session f (if p.session.isNone then 0x02 else 0x03) []
    | _ => s)

/-! ### The port itself (R392) -/

/-- CONTROL_PORT_DOWN. -/
def execControlPortDown (s : State) : Out := .next { s with plat := { s.plat with portUp := false } }

/-- Give notices their numbers as they are sent. -/
def numbered : Nat → List OutFrame → List OutFrame
  | _, [] => []
  | n, f :: t => { f with seq := n } :: numbered (n + 1) t

/-- CONTROL_PORT_UP: the notices kept are sent in order. -/
def execControlPortUp (s : State) : Out :=
  let p := s.plat
  .next { s with plat := { p with portUp := true, sent := p.sent ++ (numbered p.noticeSeq p.kept).map (p.sealed 3), kept := [],
                                  noticeSeq := p.noticeSeq + p.kept.length } }

end Sys2Proof.Machine
end

