-- ==== Sys2Proof/Machine/Lines.lean ====
section
/-! DEFINITION. CWB, CINV and CPF (R303), TLBINV and PROBE (R323 to R325). -/

namespace Sys2Proof.Machine

/-- The line of another device: a counted request that the context waits for, since it is performed there before any younger
access of the context (R303). -/
def State.farLine (s : State) (pa : Nat) (kind : ReqKind) : State :=
  if s.farHave pa 1 then s.advance
  else if s.mayIssue s.cur 1 = false then s.stallOreq 1
  else s.farAskAs pa 1 kind true

/-- A line instruction on a translated address: permission, translation, and a counted request (R303). -/
def opLine (s : State) (ga : Reg) (wr : Bool) (kind : ReqKind) : State :=
  let va := s.g ga
  match s.place va with
  | .xl =>
    match s.translate s.cur.core (s.regionOf s.cur) va.toNat false with
    | (s, .absent) => s.park va (if wr then 1 else 0)
    | (s, .fault e) => s.raise e va
    | (s, .ok pa e) =>
      if e.allows (!wr) wr false (s.sup s.cur) = false ∨ s.dramOk pa = false then s.raise 0x05 va
      else if paDev pa = s.dev then s.issueStore (.dram pa) kind
      else s.farLine pa kind
  | _ => s.raise 0x05 va

/-- CWB [ga]. -/
def execCwb (ga : Reg) (s : State) : Out := .next (s.guardP [ga] [] (opLine s ga false .clean))
/-- CINV [ga], supervisor only. -/
def execCinv (ga : Reg) (s : State) : Out :=
  .next (s.supOnly (.cinv ga) (s.guardP [ga] [] (opLine s ga true .discard)))

/-- CPF [ga]: the home slice is asked to fill the line where nothing would fault or park (R303). -/
def execCpf (ga : Reg) (s : State) : Out :=
  .next (s.guardP [ga] []
    (let va := s.g ga
     let region := s.regionOf s.cur
     match s.place va with
     | .xl =>
       match s.translate s.cur.core region va.toNat false with
       | (s, .ok pa e) =>
         if e.allows true false false (s.sup s.cur) ∧ s.dramOk pa ∧ s.wayMask region (some s.cur.core) ≠ 0 then
           if paDev pa = s.dev then (s.prefetch pa region (some s.cur.core)).advance
           else (s.fabric (.request s.dev (paDev pa) ⟨s.cur, 0, pa, .fill, s.colourOf s.cur, region, s.catOf s.cur⟩)).advance
         else s.advance
       | _ => s.advance
     | _ => s.advance))

/-- Whether TLBINV drops an entry (R324). -/
def invMatch (e : TlbEntry) (mode region va : Nat) : Bool :=
  match mode with
  | 0 => e.hits region va
  | 1 => e.region == region
  | _ => true

/-- TLBINV ga, gb (R324): every TLB of the device. No access translated by an entry it drops is still to be performed when the next
instruction of the context issues (log entry 6). -/
def execTlbinv (ga gb : Reg) (s : State) : Out :=
  .next (s.supOnly (.tlbinv ga gb) (s.guardP [ga, gb] []
    (let ctl := s.g gb
     let mode := bits ctl 13 12
     let region := bits ctl 11 0
     if mode = 3 ∨ bits ctl 63 14 ≠ 0 then s.raise 0x06 ctl
     else if s.mayIssue s.cur 1 = false then s.stallOreq 1
     else
       let keep := fun (l : List TlbEntry) => l.filter (fun e => !invMatch e mode region (s.g ga).toNat)
       let s := { s with
         cores := s.cores.map (fun (e : Nat × Core) => (e.1, { e.2 with dtlb := keep e.2.dtlb, itlb := keep e.2.itlb })),
         clusters := s.clusters.map (fun (e : Nat × Cluster) =>
           (e.1, { e.2 with tlb := keep e.2.tlb, tlbBig := keep e.2.tlbBig })) }
       s.advance)))

/-- The word PROBE writes (R325). -/
def probeWord (ok : Bool) (pa outcome size flags : Nat) : Word :=
  word (ok.toNat * 2 ^ 63 + pa / 4096 * 4096 + outcome * 2 ^ 8 + size * 2 ^ 6 + flags)

/-- PROBE gd, ga, gb (R325): no park, no fault on translation. -/
def execProbe (gd ga gb : Reg) (s : State) : Out :=
  .next (s.guardP [ga, gb] []
    (let va := s.g ga
     let kind := s.g gb
     if 2 < kind.toNat then s.raise 0x06 kind
     else match s.place va with
     | .xl =>
       match s.translate s.cur.core (s.regionOf s.cur) va.toNat (kind == 2) with
       | (s, .absent) => s.done gd (probeWord false 0 1 0 0)
       | (s, .fault _) => s.done gd (probeWord false 0 3 0 0)
       | (s, .ok pa e) =>
         let out := if s.dramOk pa = false then 3
           else if e.allows (kind == 0) (kind == 1) (kind == 2) (s.sup s.cur) = false then 2 else 0
         s.done gd (probeWord (out == 0) e.pa out e.size (bits e.flags 5 0))
     | _ => s.done gd (probeWord false 0 3 0 0)))

end Sys2Proof.Machine
end

