-- ==== Sys2Proof/Machine/LocalMem.lean ====
section
/-! DEFINITION. Tagged instructions (R215 to R219), stash windows (R221 to R224), MFILL (R225) and ARMH (R226). -/

namespace Sys2Proof.Machine

/-! ### Tagged instructions -/

/-- Where a tagged instruction's word lies: core and offset, and whether it is reached through the window (R219). The
state holds the fault or the stash fill otherwise. -/
def State.tagged (s : State) (i : Instr) (va : Word) (rd wr : Bool) : State × Option (CoreId × Nat × Bool) :=
  match s.access i va ⟨8, rd, wr, false, false, false⟩ with
  | (s, some (.own off)) => (s, some (s.cur.core, off, false))
  | (s, some (.core pa)) => (s, some (paCoreId pa, paOff pa, true))
  | (s, _) => (s, none)

/-- A word of local memory of this device, by the local range or the window: other addresses raise 0x05 (R219). -/
def State.taggedForm (s : State) (va : Word) : Bool :=
  match s.place va with
  | .loc off => areaOf off == .mem
  | .win pa => areaOf (paOff pa) == .mem && paDev pa == s.dev
  | _ => false

/-- LDF, LDFE, STE, STF and the timed forms: a request goes to the banks and the context waits for it (R216, R217). -/
def opTagged (s : State) (i : Instr) (op : TagOp) (gd : Option Reg) (gt : Option Reg) (ga : Reg) (gs : Option Reg) : Out :=
  .next (s.guardP (match gs with
      | some r => [ga, r]
      | none => [ga]) []
    (let va := s.g ga
     let wr := op == .ste || op == .stf
     if va.toNat % 8 ≠ 0 then s.raise 0x03 va
     else if s.taggedForm va = false then s.raise 0x05 va
     else match s.tagged i va (!wr) wr with
     | (s, none) => s
     | (s, some (k, off, window)) =>
       let c := s.cur
       if window && s.mayIssue c 1 == false then s.stallOreq 1
       else
         let s := s.fresh
         let id := s.nextId
         let cyc := bits (s.my.cwv cwLTIME) 31 0
         let dl := if gt.isSome then some (s.time + cyc) else none
         let data := match gs with
           | some r => s.g r
           | none => 0
         let s := s.addOut c id false .none window
         let s := s.setMy { s.my with wait := .tagged id gd gt dl }
         let s := if gt.isSome then s.after cyc (.taggedWaitTimeout k c id) else s
         s.post (.taggedRequestArrival ⟨c, id, k, off, op, data, dl, window, s.colourOf c⟩)))

/-- LDF gd, [ga]. -/
def execLdf (gd ga : Reg) (s : State) : Out := opTagged s (.ldf gd ga) .ldf (some gd) none ga none
/-- LDFE gd, [ga]. -/
def execLdfe (gd ga : Reg) (s : State) : Out := opTagged s (.ldfe gd ga) .ldfe (some gd) none ga none
/-- STE [ga], gs. -/
def execSte (gs ga : Reg) (s : State) : Out := opTagged s (.ste gs ga) .ste none none ga (some gs)
/-- STF [ga], gs. -/
def execStf (gs ga : Reg) (s : State) : Out := opTagged s (.stf gs ga) .stf none none ga (some gs)
/-- LDF.T gd, [ga], gt. -/
def execLdfT (gd ga gt : Reg) (s : State) : Out := opTagged s (.ldfT gd ga gt) .ldf (some gd) (some gt) ga none
/-- LDFE.T gd, [ga], gt. -/
def execLdfeT (gd ga gt : Reg) (s : State) : Out := opTagged s (.ldfeT gd ga gt) .ldfe (some gd) (some gt) ga none
/-- STE.T [ga], gs, gt. -/
def execSteT (gs ga gt : Reg) (s : State) : Out := opTagged s (.steT gs ga gt) .ste none (some gt) ga (some gs)

/-- TAGRD gd, [ga]. -/
def execTagrd (gd ga : Reg) (s : State) : Out :=
  .next (s.guardP [ga] []
    (let va := s.g ga
     if va.toNat % 8 ≠ 0 then s.raise 0x03 va
     else if s.taggedForm va = false then s.raise 0x05 va
     else match s.tagged (.tagrd gd ga) va true false with
     | (s, none) => s
     | (s, some (k, off, window)) =>
       if window && s.mayIssue s.cur 1 == false then s.stallOreq 1 else s.done gd (ofBool (s.full k off))))

/-- TAGWR [ga], gs. -/
def execTagwr (gs ga : Reg) (s : State) : Out :=
  .next (s.guardP [ga, gs] []
    (let va := s.g ga
     if va.toNat % 8 ≠ 0 then s.raise 0x03 va
     else if s.taggedForm va = false then s.raise 0x05 va
     else match s.tagged (.tagwr gs ga) va false true with
     | (s, none) => s
     | (s, some (k, off, window)) =>
       if window && s.mayIssue s.cur 1 == false then s.stallOreq 1
       else (((s.setTag k off (bit (s.g gs) 0)).tagChanged k off)).advance))

/-! ### Stash windows -/

/-- Whether a range of local offsets overlaps a mapped window (R222). -/
def Core.overlaps (x : Core) (lo n : Nat) : Bool :=
  (upto 0 8).any (fun k => bit (x.swl k) 63 && decide (lo < bits (x.swl k) 17 0 + 64 * bits (x.swl k) 44 32)
    && decide (bits (x.swl k) 17 0 < lo + n))

/-- The stash lines of a window. -/
def Core.windowLines (x : Core) (win : Nat) : List Nat :=
  (x.stash.filter (fun e => e.1 / 4096 == win && e.2.isSome)).map (fun e => e.1)

/-- SMAP gd, ga, gb (R221, R222): nothing is translated. An LBASE that is not a multiple of 64, for which R222 names no fault,
raises 0x06 with TVAL d (log entry 31). -/
def execSmap (gd ga gb : Reg) (s : State) : Out :=
  .next (s.guardP [ga, gb] []
    (let d := s.g ga
     let va := s.g gb
     let n := bits d 44 32
     let lo := bits d 17 0
     if va.toNat % 64 ≠ 0 then s.raise 0x03 va
     else if s.place va ≠ .xl then s.raise 0x05 va
     else if n = 0 ∨ 0x40000 < lo + 64 * n ∨ lo % 64 ≠ 0 ∨ bits d 63 45 ≠ 0 ∨ bits d 31 18 ≠ 0
         ∨ s.myCore.overlaps lo (64 * n) then s.raise 0x06 d
     else match (upto 0 8).find? (fun k => !bit (s.myCore.swl k) 63) with
     | none => s.done gd (BitVec.allOnes 64)
     | some k =>
       let x := s.myCore.setCw (cwSWL + k) (word (2 ^ 63 + s.regionOf s.cur * 2 ^ 48 + n * 2 ^ 32 + lo))
       let x := x.setCw (cwSWV + k) va
       (s.setMyCore { x with stash := x.stash.filter (fun e => e.1 / 4096 != k) }).done gd (word k)))

/-- The checks of SUNMAP and SFLUSH (R224), then go on with the window number. -/
def State.windowOp (s : State) (i : Instr) (gs : List Reg) (ga : Reg) (k : Nat → State) : State :=
  s.guardP gs []
    (let w := (s.g ga).toNat
     if 7 < w ∨ bit (s.myCore.swl w) 63 = false then s.raise 0x06 (s.g ga)
     else if bits (s.myCore.swl w) 59 48 ≠ s.regionOf s.cur ∧ s.sup s.cur = false then s.raise 0x02 (insnWord i)
     else k w)

/-- Write back lines of a window, lowest first, and drop them, or keep them clean (R224). The page of a dirty line is walked: one
that is absent parks the instruction, which resumes at that line; false then. -/
def State.flushLines (s : State) (drop : Bool) : List Nat → State × Bool
  | [] => (s, true)
  | key :: t =>
    let k := s.cur.core
    match tget none (s.core k).stash key with
    | none => s.flushLines drop t
    | some l =>
      let lva := (s.core k).swv (key / 4096) + word (64 * (key % 4096))
      let region := (s.core k).stashRegion key
      match (if l.dirty then s.translate k region lva.toNat false else (s, .fault 0)) with
      | (s, .absent) => (s.parkAs lva lva 1 region, false)
      | (s, _) => ((s.stashWriteBack k key l).setStash k key (if drop then none else some { l with dirty := false })).flushLines drop t
/-- Write back every dirty line of a window. -/
def State.flushWindow (s : State) (win : Nat) (drop : Bool) : State × Bool := s.flushLines drop (s.myCore.windowLines win)

/-- SUNMAP ga. -/
def execSunmap (ga : Reg) (s : State) : Out :=
  .next (s.windowOp (.sunmap ga) [ga] ga (fun w =>
    match s.flushWindow w true with
    | (s, false) => s
    | (s, true) => (s.setMyCore (s.myCore.setCw (cwSWL + w) (s.myCore.swl w &&& 0x7FFFFFFFFFFFFFFF))).advance))

/-- SFLUSH ga, gb: bit 0 of gb also makes every line invalid. -/
def execSflush (ga gb : Reg) (s : State) : Out :=
  .next (s.windowOp (.sflush ga gb) [ga, gb] ga (fun w =>
    match s.flushWindow w (bit (s.g gb) 0) with
    | (s, false) => s
    | (s, true) => s.advance))

/-! ### MFILL -/

/-- The lines of a translated range, once every page is present and readable (R225): physical address of each. -/
def State.rangePas (s : State) (va : Word) : Nat → State × Option (List Nat)
  | 0 => (s, some [])
  | n + 1 =>
    match s.place va with
    | .xl =>
      match s.translate s.cur.core (s.regionOf s.cur) va.toNat false with
      | (s, .absent) => (s.park va 0, none)
      | (s, .fault e) => (s.raise e va, none)
      | (s, .ok pa e) =>
        if e.allows true false false (s.sup s.cur) = false ∨ s.dramOk pa = false then (s.raise 0x05 va, none)
        else match s.rangePas (va + 64) n with
        | (s, some l) => (s, some (pa :: l))
        | (s, none) => (s, none)
    | _ => (s.raise 0x05 va, none)

/-- The cores of a mask, in snake order (R232). -/
def maskCores (cl : ClusterId) (mask : Nat) : List CoreId :=
  (snake.filter (fun i => mask.testBit i)).map cl.coreAt

/-- Send a line, with its poisoned bytes, to the bank of a core at an offset: a plain write of the context (R225). -/
def State.fillLine (s : State) (k : CoreId) (off : Nat) (bs : List Byte) (bad : Nat) : State :=
  s.post (.memoryPortRequest ⟨s.cur, 0, s.corePa k off, .write bs bad, s.colourOf s.cur, s.regionOf s.cur, s.catOf s.cur⟩)

/-- Deliver each line that has arrived to every core of the mask, lines ascending. -/
def State.deliverLines (s : State) (cores : List CoreId) : Nat → List Nat → State
  | _, [] => s
  | off, pa :: t =>
    let bad := markBits ((upto 0 64).map (fun i => s.farBad (pa + i) 1))
    (cores.foldl (fun s k => s.fillLine k off (s.farBytes pa 64) bad) s).deliverLines cores (off + 64) t

/-- MFILL gd, ga, gb (R225): the lines are read at their homes under one entry, then delivered; gd is written when the last delivery
has been performed. A LOFF that is not a multiple of 64, for which R225 names no fault, raises 0x06 with TVAL g[gb] (log entry 31). -/
def execMfill (gd ga gb : Reg) (s : State) : Out :=
  .next (s.guardP [ga, gb] []
    (let va := s.g ga
     let d := s.g gb
     let n := bits d 44 32
     let lo := bits d 17 0
     let mask := bits d 63 48
     if va.toNat % 64 ≠ 0 then s.raise 0x03 va
     else if n = 0 ∨ 0x40000 < lo + 64 * n ∨ lo % 64 ≠ 0 ∨ bits d 47 45 ≠ 0 ∨ bits d 31 18 ≠ 0 then s.raise 0x06 d
     else if mask = 0 then s.done gd 0
     else match s.rangePas va n with
     | (s, none) => s
     | (s, some pas) =>
       let cores := maskCores s.cur.core.cluster mask
       if cores.any (fun k => !s.colourOk k (s.colourOf s.cur)) then s.raise 0x05 d
       else
         match s.gather false (pas.map (fun pa => (if paDev pa = s.dev then Where.dram pa else Where.far pa, 64))) with
         | (s, false) => s
         | (s, true) =>
           if s.mayIssue s.cur 1 = false then s.stallOreq 1
           else
             let s := (s.deliverLines cores lo pas).fresh
             let s := s.addOut s.cur s.nextId true (.g gd 8 false) true
             (s.post (.loadReply s.cur s.nextId (leBytes 8 n) 0)).advance))

/-! ### ARMH -/

/-- ARMH gd, ga, gb (R226). An LBASE that is not a multiple of 64 with EN = 1, for which R226 names no fault, raises 0x06 with TVAL
g[ga] (log entry 31). -/
def execArmh (gd ga gb : Reg) (s : State) : Out :=
  .next (s.guardP [ga, gb] []
    (let d := s.g ga
     let h := s.g gb
     let en := bit d 63
     let n := bits d 44 32
     let lo := bits d 17 0
     if en ∧ h.toNat % 4 ≠ 0 then s.raise 0x03 h
     else if bit d 62 ∨ bits d 59 45 ≠ 0 ∨ bits d 31 18 ≠ 0 ∨ (en ∧ (n = 0 ∨ lo % 64 ≠ 0 ∨ 0x40000 < lo + 64 * n)) then
       s.raise 0x06 d
     else
       let e := bits d 61 60
       let old := ofBool (s.myCore.wasArmed e s.time)
       let a := if en then some ({ lbase := lo, lines := n, entry := h, region := s.regionOf s.cur } : Arm)
         else (s.myCore.armed e).map (fun (a : Arm) => { a with off := some s.time })
       (s.setMyCore { s.myCore with arms := tset none s.myCore.arms e a }).done gd old))

end Sys2Proof.Machine
end

