-- ==== Sys2Proof/Machine/Tasks.lean ====
section
/-! DEFINITION. Spawning, ending and naming tasks; regions (R178 to R186). -/

namespace Sys2Proof.Machine

/-! ### Spawn (R179, R180) -/

/-- Reserved bits of a spawn control word, or COST 0. -/
def spawnBad (w : Word) : Bool := bits w 7 0 == 0 || bits w 15 9 != 0 || bits w 31 22 != 0
/-- Reserved bits of a SPAWNAT target word, or COST 0. -/
def spawnatBad (w : Word) : Bool := bits w 7 0 == 0 || bits w 29 9 != 0

/-- Home of SPHOME.HPA: device, die and cluster of a DRAM line that the spawning die backs, else the spawning cluster. -/
def State.spawnHome (s : State) : Nat × Nat × Nat :=
  let cl := s.cur.core.cluster
  let own := (s.dev, cl.die.val, cl.cl.val)
  let hpa := if s.cur.isHandler then 0 else bits (s.my.cwv cwSPHOME) 55 0
  if hpa = 0 ∨ paOnDie hpa ∨ s.dlim ≤ paDev hpa ∨ bitsN hpa 41 36 ≠ 0 then own
  else match (s.die cl.die).vault (paDram hpa) with
  | some v => (paDev hpa, (paDie hpa).val, v)
  | none => own

/-- A slot word of the current context as an operand: zero in a handler bank (R176). -/
def State.slotWord (s : State) (i : Nat) : Word := if s.cur.isHandler then 0 else s.my.cwv i

/-- The address of a mailbox counter in the local range or the window (R177, R185). -/
def State.counterPa (s : State) (va : Word) : Option Nat :=
  if va.toNat % 4 ≠ 0 then none
  else match s.place va with
  | .loc off => if areaOf off = .ctrs then some (s.corePa s.cur.core off) else none
  | .win pa => if areaOf (paOff pa) = .ctrs then some pa else none
  | _ => none

/-- The message of a spawn of the current context, but for its catalogue number. -/
def State.spawnMsg (s : State) (typ : Nat) (entry ctl : Word) (trig target : Nat) : TaskMsg :=
  let r := s.regionOf s.cur
  let hops := if typ ≠ 2 ∧ bit ctl 21 then bits ctl 20 16 else s.schedHops r
  s.taskMsg r typ (bits ctl 7 0) (bit ctl 8) hops (if typ = 2 then 0 else min 7 (bits ctl 63 32 / 65536)) s.spawnHome 0
    entry s.args trig target (s.slotWord cwSPJOIN)

/-- The checks that the three spawns share, up to the fault 0x05 of their own; then go on (R180, R182). -/
def State.spawnChecks (s : State) (ga gb : Reg) (bad : Word → Bool) (k : Word → Word → State) : State :=
  s.guardP ([ga, gb] ++ argRegs) []
    (let e := s.g ga
     let ctl := s.g gb
     if bits e 1 0 ≠ 0 then s.raise 0x03 e
     else if bad ctl then s.raise 0x06 ctl
     else k e ctl)

/-- TMAX of the current region is reached (R170). -/
def State.tasksFull (s : State) : Bool :=
  decide (s.budgetTmax (s.regionOf s.cur) ≤ s.liveTasks (s.regionOf s.cur))

/-- Allot a catalogue number and charge the region. -/
def State.allot (s : State) (m : TaskMsg) : State × TaskMsg :=
  let (s, cat) := s.allotCat s.cur.core.cluster
  (s.liveUp m.region, { m with cat := cat })

/-- SPAWN gd, ga, gb. A task that stays in the spawning cluster takes no send queue entry. -/
def execSpawn (gd ga gb : Reg) (s : State) : Out :=
  .next (s.spawnChecks ga gb spawnBad (fun e ctl =>
    if s.tasksFull then s.raise 0x0B 1
    else
      let m := s.spawnMsg 0 e ctl 0 0
      let stays := s.verdict s.cur.core.cluster m == .stay
      if stays = false ∧ s.requestsFull then s.queueFull 1
      else
        let (s, m) := s.allot m
        let s := if stays then s.post (.taskPlacement s.cur.core.cluster m 0) else s.queueRequest (.spawn m)
        s.done gd (word m.cat)))

/-- A request to the cluster of a counter of another device, whose answer the current context waits for (log entry 15). -/
def State.tell (s : State) (gd : Reg) (pa : Nat) (m : Option TaskMsg) : State :=
  let s := s.fresh
  (s.addOut s.cur s.nextId false .none false false pa).setMy { s.my with wait := .told s.nextId gd m }

/-- SPAWNTRIG gd, ga, gb. The cluster that holds a counter of another device tests the limits there, and the instruction waits for
its answer (log entry 15). -/
def execSpawntrig (gd ga gb : Reg) (s : State) : Out :=
  .next (s.spawnChecks ga gb spawnBad (fun e ctl =>
    let t := s.slotWord cwSPTRIG
    match s.counterPa t with
    | none => s.raise 0x05 t
    | some pa =>
      let r := s.regionOf s.cur
      let cl := paCluster pa
      let here := paDev pa == s.dev
      if s.tasksFull then s.raise 0x0B 1
      else if here && decide (s.budgetArm r ≤ s.armsOf cl r) then s.raise 0x0B 2
      else if here && decide (128 ≤ s.armsIn cl) then s.raise 0x0B 3
      else
        let own := here && cl == s.cur.core.cluster
        if own = false ∧ s.requestsFull then s.queueFull 1
        else
          let (s, m) := s.allot (s.spawnMsg 1 e ctl pa (bits (s.slotWord cwSPTGT) 31 0))
          if own then (s.post (.armedTaskArrival cl m)).done gd (word m.cat)
          else if here then (s.queueRequest (.armed m)).done gd (word m.cat)
          else (s.tell gd pa (some m)).queueRequest (.armed m)))

/-- SPAWNAT gd, ga, gb: younger instructions wait for the outcome (R181). -/
def execSpawnat (gd ga gb : Reg) (s : State) : Out :=
  match s.my.wait with
  | .spawnat _ _ _ _ => .next s
  | _ =>
  .next (s.spawnChecks ga gb spawnatBad (fun e ctl =>
    if s.destOk ctl = false then s.raise 0x05 ctl
    else if s.tasksFull then s.raise 0x0B 1
    else
      let pa := destPa ctl
      let own := paDev pa == s.dev && paCluster pa == s.cur.core.cluster
      if own = false ∧ s.requestsFull then s.queueFull 1
      else
        let (s, m) := s.allot (s.spawnMsg 2 e ctl 0 0)
        let s := s.fresh
        let id := s.nextId
        let s := s.setMy { s.my with wait := .spawnat id pa m gd }
        if own then s.post (.spawnatOutcome (paCoreId pa) s.cur id m) else s.queueRequest (.spawnat m pa id)))

/-! ### The outcome of SPAWNAT (R181) -/

/-- The SPAWNAT that a context waits for, recalled or not: its number, the core named, its message and gd. -/
def Wait.spawned (w : Wait) : Option (Nat × Nat × TaskMsg × Reg) :=
  match w with
  | .spawnat id pa m gd | .recalled id pa m gd => some (id, pa, m, gd)
  | _ => Option.none

/-- A caller learns an outcome: 0 slot, 1 queued, 2 inline. -/
def State.spawnatEnd (s : State) (c : CtxId) (outcome : Nat) : State :=
  match (s.ctx c).wait.spawned with
  | some (_, pa, m, gd) =>
    let x := s.ctx c
    let far := paDev pa != s.dev
    if outcome = 2 then
      let s := s.liveDown m.region
      let x := x.setG gd 0
      let x := if c.isHandler then x
        else (x.setCw cwTSTAT 6).setCw cwTINRET (x.pc + 4)
      s.setCtx c { x.leave with pc := m.entry }
    else
      let s := if far then s.liveDown m.region else s
      let x := x.setG gd (word m.cat)
      let x := if c.isHandler then x else x.setCw cwTSTAT (x.cwv cwTSTAT &&& 4 ||| word outcome)
      s.setCtx c x.advance
  | none => s

/-- The outcome at the named core: none stands for inline. The task is dispatched or queued there. -/
def State.spawnatAt (s : State) (k : CoreId) (m : TaskMsg) : State × Option Nat :=
  let cl := k.cluster
  let x := s.cluster cl
  if x.failed ∨ x.closed ∨ (s.core k).failed then (s, none)
  else
    let slot := if s.belowSlots cl m.region && !s.plat.stopped.getLsbD m.colour then (s.freeSlots k).head? else none
    match slot with
    | some c => ((s.enterSlot c (s.setUp c m s.time 0) m.region s.time).press cl m.cost, some 0)
    | none =>
      if x.queue.length < 256 then
        (((s.setCluster cl { x with queue := x.queue ++ [⟨m, s.time, 0, 0, k.core.val, s.time⟩] }).press cl m.cost).post
          (.dispatch cl), some 1)
      else (s, none)

/-- Whether a context waits for the outcome of a SPAWNAT. -/
def State.awaits (s : State) (c : CtxId) (id : Nat) : Bool :=
  (s.ctx c).wait.spawned.any (fun w => w.1 == id)

/-- Key of a caller of another device. -/
def callerKey (src : Nat) (c : CtxId) : Nat := src * 2 ^ 20 + c.key
/-- Note that a SPAWNAT of another device is decided here. -/
def State.decided (s : State) (src : Nat) (c : CtxId) (id : Nat) : State :=
  { s with plat := { s.plat with answered := tput s.plat.answered (callerKey src c) id } }
/-- The recall of a SPAWNAT of another device: what is decided stands, and its answer is on the way; else the message is discarded
when it comes, and the caller hears that it is withdrawn (R181; log entry 30). -/
def State.spawnatBack (s : State) (src : Nat) (c : CtxId) (id : Nat) : State :=
  if tget 0 s.plat.answered (callerKey src c) = id then s
  else { s with plat := { s.plat with withdrawn := s.plat.withdrawn ++ [(src, id)] } }.fabric (.spawnatReply s.dev src c id 3)
/-- A SPAWNAT that was recalled is withdrawn: the charge is returned, and the instruction counts as not executed (R181). -/
def State.abandon (s : State) (c : CtxId) : State :=
  match (s.ctx c).wait.spawned with
  | some (_, _, m, _) => (s.liveDown m.region).setCtx c { s.ctx c with wait := .none }
  | none => s
/-- Whether a context is in an inline child (R181). -/
def State.inlineNow (s : State) (c : CtxId) : Bool := !c.isHandler && bit ((s.ctx c).cwv cwTSTAT) 2
/-- Whether a context has recalled its SPAWNAT. -/
def Wait.isRecalled (w : Wait) : Bool :=
  match w with
  | .recalled _ _ _ _ => true
  | _ => false

/-- SPAWNAT_OUTCOME: at the named core, at the core of another device's caller, and at a caller that learns it. A region whose
block is not valid on the other device makes the outcome inline. An answer that comes to a recalled SPAWNAT stands; but one that
could not run inline is withdrawn (log entry 30). -/
def execSpawnatOutcome (s : State) : Out :=
  .next (match s.event with
    | .spawnatOutcome k c id m =>
      if s.awaits c id = false then s
      else match s.spawnatAt k m with
      | (s, some o) => s.spawnatEnd c o
      | (s, none) =>
        if s.inlineNow c then s.after 1 (.spawnatOutcome k c id m)
        else s.spawnatEnd c 2
    | .spawnatRemote src k c id m =>
      if s.plat.withdrawn.elem (src, id) then { s with plat := { s.plat with withdrawn := s.plat.withdrawn.erase (src, id) } }
      else if s.regValid m.region = false then (s.decided src c id).fabric (.spawnatReply s.dev src c id 2)
      else match (s.decided src c id).spawnatAt k m with
      | (s, some o) => (s.liveUp m.region).fabric (.spawnatReply s.dev src c id o)
      | (s, none) => s.fabric (.spawnatReply s.dev src c id 2)
    | .spawnatAnswer c id o =>
      if s.awaits c id = false then s
      else if (s.ctx c).wait.isRecalled ∧ (o = 3 ∨ (o = 2 ∧ s.inlineNow c)) then s.abandon c
      else if o = 2 ∧ s.inlineNow c then
        match (s.ctx c).wait with
        | .spawnat _ pa m _ => s.fabric (.spawnat s.dev (paDev pa) (paCoreId pa) c id m)
        | _ => s
      else s.spawnatEnd c o
    | .spawnatCancel src _ c id _ => s.spawnatBack src c id
    | _ => s)

/-! ### EXIT, TID, RGID (R183, R184) -/

/-- The task end record (R373). -/
def State.endRecord (s : State) (c : CtxId) (t : Task) : State :=
  let x := s.ctx c
  s.annals c.core.die t.msg.region 2 [t.msg.cat, (x.cwv cwTENQ).toNat, (x.cwv cwTDISP).toNat, x.tacct]

/-- EXIT. -/
def execExit (s : State) : Out :=
  .next (if s.cur.isHandler then s.illegal .exit
    else if bit (s.my.cwv cwTSTAT) 2 then
      let x := s.my
      (s.setMy (x.setCw cwTSTAT (x.cwv cwTSTAT &&& 3))).jump (x.cwv cwTINRET)
    else match s.my.task with
    | none => s
    | some t => ((s.endRecord s.cur t).count s.cur.core 0x17 (some t.msg.region) 1).endTask s.cur)

/-- TID gd. -/
def execTid (gd : Reg) (s : State) : Out := .next (s.done gd (word (s.catOf s.cur)))
/-- RGID gd. -/
def execRgid (gd : Reg) (s : State) : Out := .next (s.done gd (word (s.regionOf s.cur)))

/-- TFATAL: a write while TB = 1 ends the task with its current TCAUSE, TVAL and TPC (R65, R74). -/
def execTfatal (s : State) : Out :=
  .next (match s.event with
    | .tfatal c =>
      let x := s.ctx c
      s.fatal c (x.cwv cwTCAUSE).toNat (x.cwv cwTVAL) (x.cwv cwTPC)
    | _ => s)

/-! ### TCANCEL (R185) -/

/-- Some entries by rising catalogue number. -/
def byCat (l : List QEntry) : List QEntry :=
  l.foldr (fun e t => (t.takeWhile (fun f => decide (f.msg.cat < e.msg.cat))) ++ e
    :: t.dropWhile (fun f => decide (f.msg.cat < e.msg.cat))) []

/-- Cancel the armed entries on a counter that a catalogue number (0 all) and a region's subtree name: how many (R185). -/
def State.cancelArms (s : State) (pa cat region : Nat) : State × Nat :=
  let cl := paCluster pa
  let es := byCat ((s.cluster cl).armed.filter (fun e => e.msg.trig == pa && (cat == 0 || e.msg.cat == cat)
    && s.inSubtree region e.msg.region))
  let t := es.foldl (fun t e => ((t.unqueue cl e).armDown e.msg.region).liveDown e.msg.region) s
  (if es = [] then t else t.post (.dispatch cl), es.length)

/-- TCANCEL gd, ga, gb. The cluster of a counter of another device cancels there, and the instruction waits for its count (log entry
15). -/
def execTcancel (gd ga gb : Reg) (s : State) : Out :=
  .next (s.supOnly (.tcancel gd ga gb) (s.guardP [ga, gb] []
    (let c := s.g gb
     match s.counterPa c with
     | none => s.raise 0x05 c
     | some pa =>
       let own := s.regionOf s.cur
       if paDev pa = s.dev then
         let (t, n) := s.cancelArms pa (s.g ga).toNat own
         t.done gd (word n)
       else
         let c := s.cur
         let t := s.tell gd pa none
         (t.fabric (.request s.dev (paDev pa) ⟨c, t.nextId, pa, .cancel (s.g ga).toNat, s.colourOf c, own, s.catOf c⟩)).after
           (s.ftime c.core.cluster) (.replyTimeout c t.nextId))))

/-! ### Region control blocks (R186) -/

/-- The bits of doubleword k that a field names (R168 and the chapters it cites). -/
def regionBits (k : Nat) : Nat :=
  match k with
  | 0 => 0x8000000007FFFFFF
  | 1 => 0xFFFFFFFF
  | 2 => 0x0000071F07073F07
  | 6 => 0x1FF
  | 11 => 0xFFFF
  | 12 => 0xFFFF3FFFF
  | 13 => 0xFF00FFFFFF
  | 15 => 0xFF0FFFFFFFFF
  | 16 => 0xFFFF
  | 18 => 0x001F03FF000FFFFF
  | 19 => 0xFFFFFFF8000FFFFF
  | 20 => 0xFFF0FFFF000FFFFF
  | 21 => 0xFFFFFFFFFFC00000
  | 22 => 0xFF0FFFFFFFFF
  | _ => if k < 23 then all64 else 0

/-- The checks of RGRD and RGWR, in the order of R186; then go on with region and index. -/
def State.regionOp (s : State) (i : Instr) (gs : List Reg) (ga gb : Reg) (k : Nat → Nat → State) : State :=
  let r := (s.g ga).toNat
  let n := (s.g gb).toNat
  if r ≤ 4095 ∧ s.inSubtree (s.regionOf s.cur) r = false then s.raise 0x02 (insnWord i)
  else s.guardP gs []
    (if 4095 < r ∨ 31 < n then s.raise 0x06 (s.g gb)
     else if n ≠ 0 ∧ s.regValid r = false then s.raise 0x06 (s.g gb)
     else k r n)

/-- RGRD gd, ga, gb. -/
def execRgrd (gd ga gb : Reg) (s : State) : Out :=
  .next (s.regionOp (.rgrd gd ga gb) [ga, gb] ga gb (fun r k => s.done gd (s.regRead r k)))

/-- Forget what the device holds of a region that becomes valid: rings and record sequence (R173, R187). -/
def State.newRegion (s : State) (r : Nat) : State :=
  { s with recSeq := tdel s.recSeq r, clusters := s.clusters.map (fun e => (e.1, { e.2 with rings := tdel e.2.rings r })) }

/-- A write of HDR: the new word, or none where a rule is broken (R186). -/
def State.headerAfter (s : State) (r : Nat) (v : Word) : Option Nat :=
  let old := s.regOwn r 0
  let p := bits v 23 12
  if r = 0 then
    some (if bit old 63 then old.toNat else bits old 63 24 * 2 ^ 24 + p * 2 ^ 12 + bits old 11 0)
  else match bit old 63, bit v 63 with
  | true, true => some old.toNat
  | true, false => if s.regOwn r 14 = 0 then some (old &&& 0x7FFFFFFFFFFFFFFF).toNat else none
  | false, false => some (bits old 63 24 * 2 ^ 24 + p * 2 ^ 12 + bits old 11 0)
  | false, true =>
    if s.regValid p ∧ s.regDepth p ≤ 6 then some (2 ^ 63 + (s.regDepth p + 1) * 2 ^ 24 + p * 2 ^ 12 + r) else none

/-- The doubleword k of a region after a write of v: fields that ignore writes keep their bits (R169, R186). -/
def State.regionAfter (s : State) (r k : Nat) (v : Word) : Nat :=
  let old := s.regOwn r k
  let keep : Word := match k with
    | 2 => 0x3F00
    | 9 => 0xFFFFFFFF00000000
    | 14 => 0xFFFFFFFFFFFFFFFF
    | _ => 0
  ((old &&& keep) ||| (v &&& ~~~keep)).toNat

/-- RGWR gs, ga, gb. -/
def execRgwr (gs ga gb : Reg) (s : State) : Out :=
  let i := Instr.rgwr gs ga gb
  .next (s.supOnly i (s.regionOp i [gs, ga, gb] ga gb (fun r k =>
    let v := s.g gs
    if v &&& ~~~(word (regionBits k)) ≠ 0 then s.raise 0x06 (s.g gb)
    else if k = 0 then
      match s.headerAfter r v with
      | none => s.raise 0x06 (s.g gb)
      | some h =>
        let s := if bit (s.regOwn r 0) 63 = false ∧ bit (word h) 63 then s.newRegion r else s
        (s.regPut r 0 h).advance
    else (s.regPut r k (s.regionAfter r k v)).advance)))

end Sys2Proof.Machine
end

