-- ==== Sys2Proof/Machine/Manifest.lean ====
section
/-! DEFINITION. The Manifest: channels, receive states, counted writes, flags, RECOUNT and replay (R330 to R348), and the
links of the fabric (R350 to R353). -/

namespace Sys2Proof.Machine

/-- Difference of two counts modulo 2^16. -/
def cdiff (a b : Nat) : Nat := (a + 65536 - b % 65536) % 65536

/-- A field of MCNT of a cluster, 16 bits at `lo`, counts one more, saturating (R342). -/
def State.mcnt (s : State) (cl : ClusterId) (lo : Nat) : State :=
  let x := s.cluster cl
  let w := x.cwv cwMCNT
  let f := bits w (lo + 15) lo
  s.setCluster cl (x.setCw cwMCNT (word (w.toNat - f * 2 ^ lo + satAdd 16 f 1 * 2 ^ lo)))

/-- MCHSTAT of a channel (R347). -/
def Channel.stat (x : Channel) : Word :=
  if x.isOpen then
    word (2 ^ 63 + x.perr.toNat * 2 ^ 62 + (if x.flags = [] then 0 else 2 ^ 61) + x.state * 2 ^ 52 + x.dev * 2 ^ 40
      + x.die.val * 2 ^ 38 + x.scnt * 2 ^ 16 + x.fcnt)
  else 0

/-! ### Instructions (R344 to R347) -/

/-- MCHOPEN gd, ga. -/
def execMchopen (gd ga : Reg) (s : State) : Out :=
  .next (s.guardP [ga] []
    (let v := s.g ga
     let dev := bits v 55 45
     let cl := s.cur.core.cluster
     let r := s.regionOf s.cur
     let mine := ((s.cluster cl).channels.filter (fun e => match e.2 with
       | some x => x.region == r
       | none => false)).length
     if s.dlim ≤ dev ∨ dev = s.dev then s.raise 0x05 v
     else if bits (s.regEff r 18) 52 48 ≤ mine then s.raise 0x0B 5
     else match (upto 0 16).find? (fun n => (s.channel cl n).isNone) with
     | none => s.done gd (word (2 ^ 63 + 1))
     | some n =>
       if s.mayIssue s.cur 1 = false then s.stallOreq 1
       else
         let s := s.fresh
         let id := s.nextId
         let c := s.cluster cl
         let mh := max 4096 (bits (c.cwv cwMHOLD) 31 0)
         let mt := max 1 (bits (c.cwv cwMTRIES) 3 0)
         let x : Channel := { region := r, dev := dev, die := Fin.ofNat 4 (bits v 44 43), state := 0, scnt := 0, fcnt := 0,
                              perr := false, lastRel := 0, mhold := mh, mtries := mt, flags := [],
                              opening := some (s.cur, id, gd) }
         let s := s.setChannel cl n (some x)
         let s := s.addOut s.cur id true (.g gd 8 false) true
         let s := s.fabric (.openReq s.dev dev x.die cl n id r mh mt)
         (s.after (s.ftime cl) (.openReply cl n id 4 true true)).advance))

/-- The channel that a context's MCHSEL selects, when it is open and the region's. -/
def State.selected (s : State) : Option (Nat × Channel) :=
  let sel := s.my.cwv cwMCHSEL
  match s.channel s.cur.core.cluster (bits sel 3 0) with
  | some x => if bit sel 63 && x.isOpen && x.region == s.regionOf s.cur then some (bits sel 3 0, x) else none
  | none => none

/-- Whether a command of port e0 or e1 may write to the destination die of a channel: COPY, PUT and RCOPY to a window address on
it or to a translated one; SCATTER and its reduction, whose rows are translated (R267, R271, R333). -/
def State.maySequence (s : State) (x : Channel) (p : Nat) (d : Command) : Bool :=
  let op := bits d.w0 63 60
  if p = 0 then op != 1 && match s.place d.w2 with
    | .win pa => x.covers pa
    | .xl => true
    | _ => false
  else op != 0

/-- Whether an engine command of the current context may still make counted writes on channel n (R345). -/
def State.engineOn (s : State) (n : Nat) (x : Channel) : Bool :=
  (upto 0 2).any (fun p => (s.myCore.port p).cmds.any (fun d =>
    d.ctx == s.cur.ctx.val && !d.orphan && bit d.mchsel 63 && bits d.mchsel 3 0 == n && s.maySequence x p d))

/-- A counter operand of MREL: 0, or the window address of a counter on the channel's die (R345). -/
def State.relCounter (s : State) (x : Channel) (v : Word) : Bool :=
  v == 0 || match s.place v with
    | .win pa => areaOf (paOff pa) == .ctrs && x.covers pa && s.windowOk s.cur pa
    | _ => false

/-- The window addresses of MREL on the channel's die. -/
def State.relWindows (s : State) (x : Channel) (va ctr : Word) : List Nat :=
  (match s.place va with
    | .win pa => if areaOf (paOff pa) = .mem ∧ x.covers pa then [pa] else []
    | _ => []) ++
  (match s.place ctr with
    | .win pa => if areaOf (paOff pa) = .ctrs ∧ x.covers pa then [pa] else []
    | _ => [])

/-- Where MREL writes its flag: none when the instruction goes no further (R346 steps 5 to 8). -/
def State.relFlag (s : State) (x : Channel) (va ctr : Word) : State × Option Nat :=
  match s.unasked (s.relWindows x va ctr) with
  | some pa => (s.askColour pa, none)
  | none =>
  let bad := fun (v : Word) => (s.raise 0x05 v, (none : Option Nat))
  match s.place va with
  | .win pa =>
    if areaOf (paOff pa) ≠ .mem ∨ x.covers pa = false ∨ s.windowOk s.cur pa = false then bad va
    else if s.relCounter x ctr = false then bad ctr
    else (s, some pa)
  | .xl =>
    if s.relCounter x ctr = false then bad ctr
    else match s.translate s.cur.core (s.regionOf s.cur) va.toNat false with
    | (s, .absent) => (s.park va 1, none)
    | (s, .fault e) => (s.raise e va, none)
    | (s, .ok pa e) =>
      if e.allows false true false (s.sup s.cur) = false ∨ s.dramOk pa = false ∨ x.covers pa = false then
        (s.raise 0x05 va, none)
      else (s, some pa)
  | _ => bad va

/-- Send a flag, and send it again when no notice comes (R340, R345). -/
def State.sendFlag (s : State) (cl : ClusterId) (n : Nat) (x : Channel) (f : Flag) : State :=
  (s.fabric (.flag s.dev x.dev x.die x.state f)).after (2 * x.mhold) (.flagResend cl n f.id)

/-- MREL gs, ga, gb. -/
def execMrel (gs ga gb : Reg) (s : State) : Out :=
  .next (s.guardP [gs, ga, gb] []
    (match s.selected with
     | none => s.raise 0x06 (s.my.cwv cwMCHSEL)
     | some (n, x) =>
       if (s.g ga).toNat % 8 ≠ 0 then s.raise 0x03 (s.g ga)
       else if (s.g gb).toNat % 4 ≠ 0 then s.raise 0x03 (s.g gb)
       else match s.relFlag x (s.g ga) (s.g gb) with
       | (s, none) => s
       | (s, some pa) =>
         if s.engineOn n x || decide (4 ≤ x.flags.length) then s.stallManifest
         else
           let cl := s.cur.core.cluster
           let s := s.fresh
           let f : Flag := { id := s.nextId, addr := pa, word := (s.g gs &&& 0xFFFFFFFFFFFF0000) ||| word x.scnt,
                             counter := if s.g gb = 0 then none else some (bits (s.g gb) 55 0), count := x.scnt }
           let s := s.setChannel cl n (some { x with flags := x.flags ++ [⟨f, 1⟩], lastRel := x.scnt })
           (s.sendFlag cl n x f).advance))

/-- MCHCLOSE gd, ga. -/
def execMchclose (gd ga : Reg) (s : State) : Out :=
  .next (s.guardP [ga] []
    (let v := s.g ga
     let cl := s.cur.core.cluster
     let n := bits v 3 0
     match s.channel cl n with
     | none => s.raise 0x06 v
     | some x =>
       if x.isOpen = false ∨ x.region ≠ s.regionOf s.cur ∨ x.scnt ≠ x.lastRel then s.raise 0x06 v
       else if x.flags ≠ [] then s.stallManifest
       else
         let s := s.fabric (.closeReq s.dev x.dev x.die x.state)
         (s.setChannel cl n none).done gd (word x.perr.toNat)))

/-- MCHSTAT gd, ga. -/
def execMchstat (gd ga : Reg) (s : State) : Out :=
  .next (s.guardP [ga] []
    (s.done gd (match s.channel s.cur.core.cluster (bits (s.g ga) 3 0) with
      | some x => x.stat
      | none => 0)))

/-! ### Opening and closing (R344, R347) -/

/-- A receive state of a die. -/
def State.recv (s : State) (d : Fin 4) (r : Nat) : Option RecvState := tget none (s.die d).recv r
/-- Replace a receive state. -/
def State.setRecv (s : State) (d : Fin 4) (r : Nat) (x : Option RecvState) : State :=
  s.setDie d { s.die d with recv := tset none (s.die d).recv r x }

/-- The receive states of a die in use. -/
def Die.states (x : Die) : List (Nat × RecvState) := x.recv.filterMap (fun e => e.2.map (fun r => (e.1, r)))

/-- OPEN_REQUEST: the destination hub allots a receive state, or refuses. -/
def execOpenRequest (s : State) : Out :=
  .next (match s.event with
    | .openRequest src d cl ch req region mhold mtries =>
      let answer := fun (s : State) v no => s.fabric (.openReply s.dev src cl ch req v no)
      let inUse := ((s.die d).states.filter (fun e => e.2.region == region)).length
      if (s.die d).failed then answer s 4 true
      else if s.regValid region = false then answer s 3 true
      else if bits (s.regEff region 18) 41 32 ≤ inUse then answer s 2 true
      else match (upto 0 512).find? (fun r => (s.recv d r).isNone) with
      | none => answer s 2 true
      | some r =>
        let x : RecvState := { src := src, cl := cl, ch := ch, req := req, region := region, base := 0, window := 0, pending := [],
                               held := [], last := [], gen := 0, expiries := 0, mhold := max 4096 mhold,
                               mtries := max 1 mtries }
        answer (s.setRecv d r (some x)) r false
    | _ => s)

/-- OPEN_REPLY: the channel is bound or freed, and gd is written. A timeout is a refusal for reason 4, and closes the
request; a reply to another request than the one awaited does nothing. -/
def execOpenReply (s : State) : Out :=
  .next (match s.event with
    | .openReply cl n req result refused timeout =>
      match s.channel cl n with
      | none => s
      | some x =>
        match x.opening with
        | none => s
        | some (c, id, _) =>
          if req ≠ id then s
          else
            let v := if refused then 2 ^ 63 + result else result * 2 ^ 16 + n
            let s := if refused then s.setChannel cl n none
              else s.setChannel cl n (some { x with opening := none, state := result })
            let s := if timeout then s.fabric (.closeOpen s.dev x.dev x.die cl n id) else s
            match s.findOut c id with
            | some o => s.deliverLoad c o (leBytes 8 v) 0
            | none => s
    | _ => s)

/-- CHANNEL_CLOSE. -/
def execChannelClose (s : State) : Out :=
  .next (match s.event with
    | .channelClose d r => s.setRecv d r none
    | .openClose src d cl ch req =>
      match (s.die d).states.find? (fun e => e.2.src == src && e.2.cl == cl && e.2.ch == ch && e.2.req == req) with
      | some e => s.setRecv d e.1 none
      | none => s
    | _ => s)

/-! ### Receiving (R336, R337) -/

/-- ACNT: the lowest sequence number at or above BASE whose bit is clear. -/
def RecvState.acnt (x : RecvState) : Nat :=
  (x.base + ((upto 0 1024).find? (fun i => !x.window.getLsbD i)).getD 1024) % 65536

/-- The held flag of least count. -/
def RecvState.oldest (x : RecvState) : Option Flag :=
  x.held.foldl (fun m f => match m with
    | none => some f
    | some g => if cdiff f.count x.base < cdiff g.count x.base then some f else some g) none

/-- Start or restart the hold timer of a receive state (R338). -/
def State.startHold (s : State) (d : Fin 4) (r : Nat) (expiries : Nat) : State :=
  match s.recv d r with
  | none => s
  | some x =>
    let s := s.fresh
    (s.setRecv d r (some { x with gen := s.nextId, expiries := expiries })).after x.mhold (.holdTimerExpiry d r s.nextId)

/-- Whether a Manifest access for a region may reach an on-die address: the colour rule of R209, with the job colour that the
region's block gives on this device. LMCOL may have changed since the issuer asked (log entry 13). -/
def State.manifestOk (s : State) (region pa : Nat) : Bool :=
  !paOnDie pa || s.colourOk (paCoreId pa) (s.schedColour region)

/-- Complete a held flag: the flag word, its counter, BASE and the notice (R337, R338). A flag whose word or counter R209 does
not allow is not performed, and its notice says poisoned (log entry 13). -/
def State.completeFlag (s : State) (d : Fin 4) (r : Nat) (x : RecvState) (f : Flag) (bad : Bool) : State :=
  let loc := paLoc f.addr
  let ok := s.manifestOk x.region f.addr && (match f.counter with
    | some pa => s.manifestOk x.region pa
    | none => true)
  let s := if !ok || paOnDie f.addr then s else s.homeAccess loc 8 x.region true none
  let s := if ok then s.poke loc (leBytes 8 f.word.toNat) bad else s
  let s := match f.counter with
    | some pa => if ok then s.post (.counterFromAbove (paCoreId pa) (ctrNo (paOff pa)) bad) else s
    | none => s
  let bad := bad || !ok
  let n := cdiff f.count x.base
  let y := { x with base := f.count, window := x.window >>> n, held := x.held.filter (fun g => g.id != f.id),
                    pending := x.pending.filter (fun p => decide (cdiff p f.count < 32768)),
                    last := (x.last ++ [(f.id, bad)]).drop (x.last.length - 7) }
  let s := s.setRecv d r (some y)
  let s := if y.held = [] then s.setRecv d r (some { y with gen := 0 }) else s.startHold d r 0
  s.fabric (.notice s.dev x.src x.cl x.ch f.id f.count bad)

/-- Complete every held flag that is covered, in ascending count. -/
def State.checkFlags (s : State) (d : Fin 4) (r : Nat) : Nat → State
  | 0 => s
  | fuel + 1 =>
    match s.recv d r with
    | none => s
    | some x =>
      match x.oldest with
      | none => s
      | some f =>
        if cdiff x.acnt f.count < 32768 then (s.completeFlag d r x f false).checkFlags d r fuel else s

/-- COUNTED_WRITE_ARRIVAL: a duplicate is dropped and counted, another write is performed at its home. -/
def execCountedWriteArrival (s : State) : Out :=
  .next (match s.event with
    | .countedWriteArrival src d r seq pa op bs bad put =>
      match s.recv d r with
      | none => s
      | some x =>
        let i := cdiff seq x.base
        if 1024 ≤ i ∨ x.window.getLsbD i ∨ x.pending.elem seq then s.mcnt (clusterAt d 0) 0
        else if paDev pa ≠ s.dev ∨ (if paOnDie pa then s.onDieOk pa = false ∨ s.manifestOk x.region pa = false
            else s.dramOk pa = false) then s
        else
          let s := s.setRecv d r (some { x with pending := x.pending ++ [seq] })
          let kind := match put with
            | some t => ReqKind.put bs bad t
            | none => if op = 0 then ReqKind.write bs bad else ReqKind.reduce op bs bad
          let q : Request := ⟨ctx0, 0, pa, kind, 0, x.region, 0⟩
          (if paOnDie pa then s.atPort src q else s.atHome src q).post (.homeAcknowledge d r seq)
    | _ => s)

/-- HOME_ACKNOWLEDGE. -/
def execHomeAcknowledge (s : State) : Out :=
  .next (match s.event with
    | .homeAcknowledge d r seq =>
      match s.recv d r with
      | none => s
      | some x =>
        let i := cdiff seq x.base
        if x.pending.elem seq ∧ i < 1024 then
          (s.setRecv d r (some { x with pending := x.pending.filter (fun p => p != seq),
                                        window := x.window ||| (1#1024 <<< i) })).checkFlags d r 1025
        else s
    | _ => s)

/-- FLAG_ARRIVAL: a repeat of a completed flag is answered again; another flag is held until it is covered. -/
def execFlagArrival (s : State) : Out :=
  .next (match s.event with
    | .flagArrival d r f =>
      match s.recv d r with
      | none => s
      | some x =>
        match x.last.lookup f.id with
        | some bad => s.fabric (.notice s.dev x.src x.cl x.ch f.id f.count bad)
        | none =>
          if x.held.any (fun g => g.id == f.id) then s
          else if 32768 ≤ cdiff f.count x.base then s.fabric (.notice s.dev x.src x.cl x.ch f.id f.count false)
          else
            let y := { x with held := x.held ++ [f] }
            let s := s.setRecv d r (some y)
            let s := if y.oldest = some f then s.startHold d r 0 else s
            s.checkFlags d r 1025
    | _ => s)

/-- HOLD_TIMER_EXPIRY: RECOUNT, or the flag completes poisoned (R338). -/
def execHoldTimerExpiry (s : State) : Out :=
  .next (match s.event with
    | .holdTimerExpiry d r gen =>
      match s.recv d r with
      | none => s
      | some x =>
        match x.oldest with
        | none => s
        | some f =>
          if x.gen ≠ gen then s
          else if x.mtries < x.expiries + 1 then (s.completeFlag d r x f true).checkFlags d r 1025
          else
            (s.startHold d r (x.expiries + 1)).fabric (.recount s.dev x.src x.cl x.ch x.base f.count x.window)
    | _ => s)

/-! ### The sender (R337, R338, R340) -/

/-- A flag is done with at its sender: FCNT, the Annals, and for a poisoned one PERR and the record of type 7. -/
def State.flagDone (s : State) (cl : ClusterId) (n : Nat) (x : Channel) (f : Flag) (bad : Bool) : State :=
  let y := { x with flags := x.flags.filter (fun o => o.flag.id != f.id), perr := x.perr || bad,
                    fcnt := if cdiff f.count x.fcnt < 32768 then f.count else x.fcnt }
  let s := s.setChannel cl n (some y)
  let s := s.annals cl.die x.region 8 [y.stat.toNat, f.count]
  if bad then
    (s.mcnt cl 16).recordFault x.region 7 0x0F y.stat.toNat 0 (leBytes 8 f.addr ++ leBytes 8 f.count) cl 0
  else s

/-- A flag of a channel without a notice yet. -/
def Channel.flagOf (x : Channel) (id : Nat) : Option OutFlag := x.flags.find? (fun o => o.flag.id == id)

/-- FLAG_COMPLETE_NOTICE. -/
def execFlagCompleteNotice (s : State) : Out :=
  .next (match s.event with
    | .flagCompleteNotice cl n id _ bad =>
      match s.channel cl n with
      | none => s
      | some x =>
        match x.flagOf id with
        | none => s
        | some o => s.flagDone cl n x o.flag bad
    | _ => s)

/-- FLAG_RESEND: the flag is sent again, or completes as poisoned at its sender (R340). -/
def execFlagResend (s : State) : Out :=
  .next (match s.event with
    | .flagResend cl n id =>
      match s.channel cl n with
      | none => s
      | some x =>
        match x.flagOf id with
        | none => s
        | some o =>
          if x.mtries + 1 ≤ o.sends then s.flagDone cl n x o.flag true
          else
            let y := { x with flags := x.flags.map (fun p => if p.flag.id = id then { p with sends := p.sends + 1 } else p) }
            (s.setChannel cl n (some y)).sendFlag cl n x o.flag
    | _ => s)

/-- Send again the write of a sequence number from its journal record, unless the record is another's or poisoned; a write of a put goes
with its put (R226). -/
def State.replay (s : State) (cl : ClusterId) (n : Nat) (x : Channel) (seq : Nat) : State :=
  let loc := s.journalLoc x.region cl n seq
  let s := s.homeAccess loc 80 x.region false none
  let d := s.dword loc
  if s.readBad loc 80 ∨ bits d 15 0 ≠ seq then s
  else
    let len := bits d 21 16 + 1
    (s.mcnt cl 32).fabric (.counted s.dev x.dev x.die x.state seq (bits (s.dword (loc + 8)) 55 0) (bits d 26 24)
      (s.bytes (loc + 16) len) 0 (tget none x.puts (seq % 1024)))

/-- RECOUNT (R338). -/
def execRecount (s : State) : Out :=
  .next (match s.event with
    | .recount cl n base c window =>
      match s.channel cl n with
      | none => s
      | some x =>
        if x.isOpen = false then s
        else
          let s := s.mcnt cl 48
          ((upto 0 (min 1024 (cdiff c base))).filter (fun i => !window.getLsbD i)).foldl
            (fun s i => s.replay cl n x ((base + i) % 65536)) s
    | _ => s)

/-! ### Links (R350 to R353, R329) -/

/-- A link of the device. -/
def State.link (s : State) (l : Fin 18) : Link := tget {} s.plat.links l.val
/-- Replace a link. -/
def State.setLink (s : State) (l : Fin 18) (x : Link) : State :=
  { s with plat := { s.plat with links := tput s.plat.links l.val x } }

/-- Header of a flit, its bytes 0 to 11 (R353). -/
def flitHeader (f : Flit) : List Byte :=
  leBytes 4 f.fseq ++ leBytes 4 f.ack ++ [BitVec.ofNat 8 (f.nak.toNat + 2 * f.idle.toNat + 4 * f.quiet.toNat)]
    ++ List.replicate 3 0

/-- The nonce of a flit slot: the salt of the link direction, then the slot counter (R352, R353). -/
def linkNonce (salt : BitVec 32) (slot : Nat) : BitVec 96 := salt ++ BitVec.ofNat 64 slot

/-- The 256 bytes of a flit in its slot: header in clear, body encrypted, tag over both (R353). -/
def flitWire (f : Flit) (key : BitVec 256) (nonce : BitVec 96) : List Byte :=
  let c := gcmCrypt key nonce (padTo 228 f.body)
  flitHeader f ++ c ++ gcmTag key nonce (flitHeader f) c

/-- The flit that 256 bytes hold; none when the tag does not verify (R353). -/
def flitOf (key : BitVec 256) (nonce : BitVec 96) (bs : List Byte) : Option Flit :=
  let h := bs.take 12
  let c := (bs.drop 12).take 228
  if bs.length ≠ 256 ∨ bs.drop 240 ≠ gcmTag key nonce h c then none
  else
    let ctl := leNat ((h.drop 8).take 1)
    some { fseq := leNat (h.take 4), ack := leNat ((h.drop 4).take 4), nak := ctl.testBit 0, idle := ctl.testBit 1,
           quiet := ctl.testBit 2, body := gcmCrypt key nonce c }

/-- Send a flit in the link's next slot, with what it acknowledges and asks for now (R350, R352). -/
def Link.send (x : Link) (f : Flit) : Link :=
  let f := { f with ack := x.ack, nak := x.nak }
  { x with sent := x.sent ++ [flitWire f x.txKey (linkNonce x.txSalt x.txSlot)], txSlot := x.txSlot + 1, nak := false }

/-- A quiet point is agreed: the lanes that wait for it retire, and what is in flight is sent again (R351). -/
def Link.atQuiet (x : Link) : Link :=
  if x.retiring = 0 then x
  else { x with retired := x.retired ||| x.retiring, width := x.width - ((upto 0 16).filter (fun i => x.retiring.getLsbD i)).length,
                retiring := 0, again := x.retry.length }

/-- A flit slot of a link at its sending end (R350 to R353): a flit of the retry buffer that is to be sent again, else a new
one with the packet bytes that wait, or idle. A new flit carries the request for a quiet point, or the answer to one (log entry
10). -/
def Link.slot (x : Link) : Link :=
  match x.retry.drop (x.retry.length - x.again) with
  | f :: _ => { x with again := x.again - 1, resent := x.resent + 1 }.send f
  | [] =>
    let q := x.quiet == 1 || x.quiet == 3
    let f : Flit := { fseq := (x.fseq + 1) % 2 ^ 32, ack := x.ack, nak := false, idle := x.tx == [], quiet := q,
                      body := x.tx.take 228 }
    let y := { x with fseq := f.fseq, retry := x.retry ++ [f], tx := x.tx.drop 228,
                      quiet := if x.quiet = 1 then 2 else if x.quiet = 3 then 0 else x.quiet }.send f
    if x.quiet = 3 then y.atQuiet else y

/-- Flits of the retry buffer after the other end accepted up to `a`. -/
def unacked (a : Nat) (l : List Flit) : List Flit :=
  l.filter (fun f => decide (0 < (f.fseq + 2 ^ 32 - a % 2 ^ 32) % 2 ^ 32) && decide ((f.fseq + 2 ^ 32 - a % 2 ^ 32) % 2 ^ 32 < 2 ^ 31))

/-- What an intact flit does: it frees acknowledged flits, may ask for a resend, and is accepted when it is the next in order;
an accepted one may ask for a quiet point, or answer (R350, R351). -/
def Link.accept (x : Link) (f : Flit) : Link :=
  let x := { x with retry := unacked f.ack x.retry }
  let x := { x with again := if f.nak then x.retry.length else min x.again x.retry.length }
  if f.fseq = (x.ack + 1) % 2 ^ 32 then
    let y := { x with ack := f.fseq, nak := false, rx := if f.idle then x.rx else x.rx ++ f.body,
                      quiet := if f.quiet then (if x.quiet = 0 then 3 else 0) else x.quiet }
    if f.quiet && x.quiet != 0 then y.atQuiet else y
  else if (f.fseq + 2 ^ 32 - x.ack % 2 ^ 32) % 2 ^ 32 < 2 ^ 31 ∧ f.fseq ≠ x.ack then { x with nak := true }
  else x

/-- A link after a flit slot at its receiving end: the slot counter advances whether the flit is intact or not; a flit that
fails its tag is discarded whole and asked for again (R350, R352, R353). -/
def Link.receive (x : Link) (bs : List Byte) : Link :=
  let y := { x with rxSlot := x.rxSlot + 1 }
  match flitOf x.rxKey (linkNonce x.rxSalt x.rxSlot) bs with
  | none => { y with nak := true, failedChecks := y.failedChecks + 1 }
  | some f => y.accept f

/-- The links that are up. -/
def State.upLinks (s : State) : List Nat :=
  (upto 0 18).filter (fun l => (tget {} s.plat.links l).up)

/-- The link a packet leaves on: by the hash of its destination and line, among those that are up (R328). -/
def State.linkFor (s : State) (p : Packet) : Option Nat :=
  s.upLinks[Config.linkHash p.dst p.line % s.upLinks.length]?

/-- The packets that wait at the hub for a link go to it. -/
def State.loadLink (s : State) (l : Fin 18) : State :=
  let mine := fun p => s.linkFor p == some l.val
  let x := s.link l
  let x := { x with tx := x.tx ++ (s.plat.fabric.filter mine).flatMap Config.packetBytes }
  { s with plat := { s.plat with fabric := s.plat.fabric.filter (fun p => !mine p) } }.setLink l x

/-- What the arrival of a packet causes at its destination device (R327). -/
def State.arrivals (s : State) (p : Packet) : List Event :=
  if p.dst ≠ s.dev then []
  else match p with
  | .request src _ r => [.remoteRequest src r]
  | .reply _ _ c id bs bad refused =>
    match (s.ctx c).wait with
    | .atomic id' _ _ _ _ | .told id' _ _ =>
      if id' = id then [.atomicReply c id (word (leNat bs)) (bad != 0) refused] else [.loadReply c id bs bad]
    | _ => [.loadReply c id bs bad]
  | .message _ _ ks m => ks.map (fun k => .messageArrival k m)
  | .answer _ _ m replier => [.replySink (paCoreId m.raddr) m replier]
  | .task _ _ m handler => [.switchForward none m handler]
  | .counted src _ d r seq pa op bs bad put => [.countedWriteArrival src d r seq pa op bs bad put]
  | .flag _ _ d r f => [.flagArrival d r f]
  | .openReq src _ d cl ch req region mhold mtries => [.openRequest src d cl ch req region mhold mtries]
  | .openReply _ _ cl ch req result refused => [.openReply cl ch req result refused false]
  | .closeReq _ _ d r => [.channelClose d r]
  | .closeOpen src _ d cl ch req => [.openClose src d cl ch req]
  | .recount _ _ cl ch base n window => [.recount cl ch base n window]
  | .notice _ _ cl ch id n bad => [.flagCompleteNotice cl ch id n bad]
  | .spawnat src _ k c id m => [.spawnatRemote src k c id m]
  | .spawnatCancel src _ k c id cat => [.spawnatCancel src k c id cat]
  | .spawnatReply _ _ c id o => [.spawnatAnswer c id o]
  | .migrate src _ c pa sh => ((s.homeOf pa).map (fun cl => Event.migrationArrival c src cl sh)).toList
  | .migrateReply _ _ c d => [.migrationAnswer c d]

/-- The packets that stand whole at the head of the bytes a link received go to what they concern (R328). -/
def State.unpack (s : State) (l : Fin 18) : Nat → State
  | 0 => s
  | fuel + 1 =>
    match Config.packetOf (s.link l).rx with
    | none => s
    | some (p, n) =>
      let s := s.setLink l { s.link l with rx := (s.link l).rx.drop (n + 1) }
      ((s.arrivals p).foldl (fun s e => s.post e) s).unpack l fuel

/-- A link goes down: what it held for sending and what it had received in part is lost (R329). -/
def Link.drop (x : Link) : Link :=
  { x with up := false, retry := [], again := 0, tx := [], rx := [], quiet := 0, retiring := 0 }
/-- A link that a quiet point left with fewer than 8 lanes goes down (R351). -/
def State.narrowed (s : State) (l : Fin 18) : State :=
  if (s.link l).width < 8 then (s.setLink l (s.link l).drop).replaceNotice 6 0 0 0 l.val 0 else s

/-- FLIT_RECEIVE: a flit slot of a link at its receiving end, and the slots at its sending end. -/
def execFlitReceive (s : State) : Out :=
  .next (match s.event with
    | .flitReceive l bs =>
      if (s.link l).up then
        let s := (s.setLink l ((s.link l).receive bs)).narrowed l
        s.unpack l ((s.link l).rx.length + 1)
      else s
    | .flitSlot l =>
      if (s.link l).up then
        let s := s.loadLink l
        (s.setLink l (s.link l).slot).narrowed l
      else s
    | _ => s)

/-- LANE_RETIREMENT: the lane waits for a quiet point, which its link asks the other end for, and retires there (R351). -/
def execLaneRetirement (s : State) : Out :=
  .next (match s.event with
    | .laneRetirement l lane =>
      let x := s.link l
      if x.up = false ∨ x.retired.getLsbD lane.val ∨ x.retiring.getLsbD lane.val then s
      else
        (s.setLink l { x with retiring := x.retiring ||| (1#16 <<< lane.val), quiet := if x.quiet = 0 then 1 else x.quiet }).replaceNotice
          5 0 0 0 l.val lane.val
    | _ => s)

/-- Remove the packets with the numbers given. -/
def dropNth (ns : List Nat) : Nat → List Packet → List Packet
  | _, [] => []
  | i, p :: t => if ns.elem i then dropNth ns (i + 1) t else p :: dropNth ns (i + 1) t

/-- LINK_OR_SWITCH_FAILURE: the packets it holds are lost (R329); a link goes down. -/
def execLinkOrSwitchFailure (s : State) : Out :=
  .next (match s.event with
    | .linkOrSwitchFailure l lost =>
      let s := { s with plat := { s.plat with fabric := dropNth lost 0 s.plat.fabric } }
      match l with
      | none => s
      | some l =>
        if (s.link l).up then (s.setLink l (s.link l).drop).replaceNotice 6 0 0 0 l.val 0 else s
    | _ => s)

end Sys2Proof.Machine
end

