-- ==== Sys2Proof/Machine/Palimpsest.lean ====
section
/-! DEFINITION. The Palimpsest step cache (R354 to R364). -/

namespace Sys2Proof.Machine

/-- The nearest region up the tree whose OVR bit 19 is set, else the root (R354). -/
def State.palRegionN (s : State) : Nat → Nat → Nat
  | 0, n => n
  | fuel + 1, n => if n = 0 ∨ bit (s.regOwn n 1) 19 then n else s.palRegionN fuel (s.regParent n)
/-- The Palimpsest region of a region. -/
def State.palRegion (s : State) (n : Nat) : Nat := s.palRegionN 8 n

/-- PALI of a region: STEP, PMAX and the area's offset (R354). -/
def State.palStep (s : State) (p : Nat) : Nat := bits (s.regOwn p 19) 63 48
def State.palMax (s : State) (p : Nat) : Nat := bits (s.regOwn p 19) 47 35
def State.palArea (s : State) (d : Fin 4) (p : Nat) : Nat := dramLoc d (bits (s.regOwn p 19) 19 0 * 65536)
/-- Memory keys of a slot's reference and stored result (R355). -/
def State.palRef (s : State) (d : Fin 4) (p k : Nat) : Nat := s.palArea d p + 65536 + 32768 * k
def State.palRes (s : State) (d : Fin 4) (p k : Nat) : Nat := s.palRef d p k + 16384

/-- The poison record of a region for the first poisoned one of n bytes at a memory key, found at `src` (R373, R378). -/
def State.palPois (s : State) (d : Fin 4) (region loc n src : Nat) : State :=
  match s.badByte loc n with
  | some a => s.poisonRecord d region (s.dev * 2 ^ 45 + a) src
  | none => s

/-- Add one to an event counter of a region's area, as an atomic addition: 0 HITS, 1 MISSES, 2 FORCED, 3 EVICT. A poisoned word
stays as it is (R288). -/
def State.palCount (s : State) (d : Fin 4) (p n : Nat) : State :=
  let a := s.palArea d p + 8 * n
  let src := s.poisonSource a
  let bad := s.readBad a 8
  let s := s.homeTake a 8 p (!bad) none
  if bad then s.palPois d p a 8 src else s.pokeD a (((s.dword a).toNat + 1) % 2 ^ 64)

/-! ### The directory (R355, R360, R363) -/

/-- The entry of a key. -/
def Die.entry (x : Die) (p block : Nat) : Option DirEntry := x.dir.find? (fun e => e.region == p && e.block == block)
/-- Whether two entries have one key. -/
def DirEntry.sameKey (e f : DirEntry) : Bool := e.region == f.region && e.block == f.block
/-- Put an entry in place of that of its key. -/
def State.putEntry (s : State) (d : Fin 4) (e : DirEntry) : State :=
  let x := s.die d
  s.setDie d { x with dir := if x.dir.any e.sameKey then x.dir.map (fun f => if f.sameKey e then e else f) else x.dir ++ [e] }
/-- Drop the entry of a key. -/
def State.dropEntry (s : State) (d : Fin 4) (e : DirEntry) : State :=
  let x := s.die d
  s.setDie d { x with dir := x.dir.filter (fun f => !f.sameKey e) }

/-- The least recently checked entry; equal times go to the lower block. -/
def leastChecked : List DirEntry → Option DirEntry
  | [] => none
  | e :: t =>
    match leastChecked t with
    | none => some e
    | some f => if e.checked < f.checked ∨ (e.checked = f.checked ∧ e.block ≤ f.block) then some e else some f

/-- Evict an entry (R363). Its record names the block and tag it held, status 0x48 and the slot it frees (log entry 35). -/
def State.evictEntry (s : State) (d : Fin 4) (e : Option DirEntry) : State :=
  match e with
  | some e =>
    ((s.dropEntry d e).palCount d e.region 3).annals d e.region 6 [e.block * 65536 + e.tag, 0x48 * 2 ^ 32 + e.slot]
  | none => s

/-- The entries of a region on a die. -/
def State.palMine (s : State) (d : Fin 4) (p : Nat) : List DirEntry := (s.die d).dir.filter (fun e => e.region == p)
/-- The lowest free slot of a region below PMAX. -/
def State.palSlot (s : State) (d : Fin 4) (p : Nat) : Option Nat :=
  (upto 0 (s.palMax p)).find? (fun k => !((s.palMine d p).any (fun e => e.slot == k)))

/-- Make room for a new entry of a region, and its slot; none when none can be had (R363). -/
def State.palRoom (s : State) (d : Fin 4) (p : Nat) : State × Option Nat :=
  let pm := s.palMax p
  if pm = 0 then (s, none)
  else
    let mine := s.palMine d p
    if pm ≤ mine.length then
      let s := s.evictEntry d (leastChecked mine)
      let s := if (s.palSlot d p).isNone then
          s.evictEntry d (leastChecked ((s.palMine d p).filter (fun e => decide (e.slot < pm))))
        else s
      (s, s.palSlot d p)
    else if (s.die d).dir.length < 4096 then (s, s.palSlot d p)
    else
      let more := (s.die d).dir.filter (fun e => decide (s.palMax e.region < (s.palMine d e.region).length))
      match (if mine = [] then leastChecked more else leastChecked mine) with
      | some e => let s := s.evictEntry d (some e); (s, s.palSlot d p)
      | none => (s, none)

/-! ### The distance test (R356) -/

/-- The FP32 words of a byte string. -/
def fwords : Nat → List Byte → List Nat
  | 0, _ => []
  | n + 1, bs => leNat (bs.take 4) :: fwords n (bs.drop 4)

/-- |x| as bits. -/
def fabs32 (x : Nat) : Nat := x % 2 ^ 31

/-- d and r over the elements, ascending. -/
def palSums : List Nat → List Nat → Nat → Nat → Nat × Nat
  | x :: xs, f :: fs, d, r =>
    palSums xs fs (fadd 23 0 d (fabs32 (fsub 23 0 x f).1)).1 (fadd 23 0 r (fabs32 f)).1
  | _, _, d, r => (d, r)

/-- d ≤ round(theta × r), false when either side is NaN. -/
def palPass (theta d r : Nat) : Bool := (flt 23 true d (fmul 23 0 theta r).1).1

/-! ### PCHK and PREC (R358 to R361) -/

/-- The first word that breaks a rule of R358. -/
def palFault (w1 w2 w3 : Word) : Option Nat :=
  if bits w1 63 56 ≠ 0 ∨ bits w1 47 18 ≠ 0 ∨ bits w1 17 0 % 64 ≠ 0 ∨ 0x40000 < bits w1 17 0 + 64 * (bits w1 55 48 + 1) then
    some 1
  else if bits w2 63 56 ≠ 0 ∨ bits w2 47 18 ≠ 0 ∨ bits w2 17 0 % 64 ≠ 0
      ∨ 0x40000 < bits w2 17 0 + 64 * (bits w2 55 48 + 1) then some 2
  else if word3Ok w3 = false then some 3
  else none

/-- The issue of PCHK and PREC. -/
def opPal (s : State) (ga : Reg) (kind : CmdKind) : Out :=
  .next (s.guardP (reqRegs ga) []
    (match palFault (s.g (ga + 1)) (s.g (ga + 2)) (s.g (ga + 3)) with
     | some k => s.raise 0x0A (word (0x10 + k))
     | none => s.enqueue 3 ga kind .queued none))

/-- PCHK e3, ga. -/
def execPchk (ga : Reg) (s : State) : Out :=
  opPal s ga (.pchk ((s.my.cwv cwPTHETA).setWidth 32) (bits (s.my.cwv cwPMAXRUN) 7 0))
/-- PREC e3, ga. -/
def execPrec (ga : Reg) (s : State) : Out := opPal s ga .prec

/-- Read an area of a region's Palimpsest, as a plain access with the region's tag. -/
def State.palRead (s : State) (loc n p : Nat) : State × List Byte × Bool :=
  let s := s.homeAccess loc n p false none
  (s, s.bytes loc n, s.readBad loc n)

/-- Write an area of a region's Palimpsest. -/
def State.palWrite (s : State) (loc p : Nat) (bs : List Byte) : State :=
  (s.homeAccess loc bs.length p true none).poke loc bs false

/-- The counter that a status increases (R357). -/
def palCounter (chk : Bool) (status : Nat) : Option Nat :=
  match status with
  | 0x40 => some 0
  | 0x41 => some 1
  | 0x42 => some 1
  | 0x43 => some 1
  | 0x44 => some 2
  | 0x46 => if chk then some 1 else none
  | _ => none

/-- The end of a directory operation: counter, record, completion. -/
def State.palEnd (s : State) (k : CoreId) (p : Nat) (chk : Bool) (c : Command) (status aux : Nat) : State :=
  let s := match palCounter chk status with
    | some n =>
      (s.palCount k.die p n).annals k.die p 6 [bits c.w0 63 32 * 65536 + bits c.w0 31 16, status * 2 ^ 32 + aux]
    | none => s
  s.complete k 3 c status aux

/-- What PCHK does with an entry whose tag is earlier and whose lengths agree. -/
def State.palCheck (s : State) (k : CoreId) (c : Command) (p : Nat) (e : DirEntry) (theta maxrun : Nat) : State :=
  let d := k.die
  let xo := localLoc k (bits c.w1 17 0)
  let x := s.bytes xo (4 * e.len)
  let xb := s.poisAt xo (4 * e.len)
  let src := s.poisonSource (s.palRef d p e.slot)
  let src' := s.poisonSource (s.palRes d p e.slot)
  let (s, ref, rb) := s.palRead (s.palRef d p e.slot) (4 * e.len) p
  let (s, res, sb) := s.palRead (s.palRes d p e.slot) e.rlen p
  if xb || rb || sb then
    let s := s.palPois d c.region xo (4 * e.len) 2
    let s := s.palPois d c.region (s.palRef d p e.slot) (4 * e.len) src
    let s := s.palPois d c.region (s.palRes d p e.slot) e.rlen src'
    (if rb || sb then s.dropEntry d e else s).palEnd k p true c 0x46 0
  else
    let (dist, r) := palSums (fwords e.len x) (fwords e.len ref) 0 0
    if palPass theta dist r = false then s.palEnd k p true c 0x42 dist
    else if maxrun ≤ e.run then s.palEnd k p true c 0x44 e.run
    else
      let s := s.poke (localLoc k (bits c.w2 17 0)) res false
      let s := s.putEntry d { e with tag := bits c.w0 31 16, run := e.run + 1 }
      s.palEnd k p true c 0x40 (e.run + 1)

/-- PCHK at the directory (R359). -/
def State.palChk (s : State) (k : CoreId) (c : Command) (theta maxrun : Nat) : State :=
  let p := s.palRegion c.region
  let step := bits c.w0 31 16
  if step ≠ s.palStep p then s.palEnd k p true c 0x45 (s.palStep p)
  else match (s.die k.die).entry p (bits c.w0 63 32) with
  | none => s.palEnd k p true c 0x41 0
  | some e =>
    let e := { e with checked := s.time }
    let s := s.putEntry k.die e
    let age := (step + 65536 - e.tag) % 65536
    if age = 0 ∨ 32768 ≤ age then s.palEnd k p true c 0x43 e.tag
    else if e.len ≠ 16 * (bits c.w1 55 48 + 1) ∨ e.rlen ≠ 64 * (bits c.w2 55 48 + 1) then
      s.palEnd k p true c 0x42 0xFFFFFFFF
    else s.palCheck k c p e theta maxrun

/-- Record an input and its result in an entry. -/
def State.palStore (s : State) (k : CoreId) (c : Command) (p slot : Nat) (x res : List Byte) : State :=
  let d := k.die
  let s := s.palWrite (s.palRef d p slot) p x
  let s := s.palWrite (s.palRes d p slot) p res
  let s := s.putEntry d ⟨p, bits c.w0 63 32, bits c.w0 31 16, slot, x.length / 4, res.length, 0, s.time⟩
  s.palEnd k p false c 0x48 slot

/-- PREC at the directory (R359). -/
def State.palRec (s : State) (k : CoreId) (c : Command) : State :=
  let d := k.die
  let p := s.palRegion c.region
  if bits c.w0 31 16 ≠ s.palStep p then s.palEnd k p false c 0x45 (s.palStep p)
  else
    let xo := localLoc k (bits c.w1 17 0)
    let ro := localLoc k (bits c.w2 17 0)
    let xn := 64 * (bits c.w1 55 48 + 1)
    let rn := 64 * (bits c.w2 55 48 + 1)
    let e := (s.die d).entry p (bits c.w0 63 32)
    if s.poisAt xo xn || s.poisAt ro rn then
      let s := s.palPois d c.region xo xn 2
      let s := s.palPois d c.region ro rn 2
      let s := match e with
        | some e => s.dropEntry d e
        | none => s
      s.palEnd k p false c 0x46 0
    else
      let x := s.bytes xo xn
      let res := s.bytes ro rn
      match e with
      | some e => s.palStore k c p e.slot x res
      | none =>
        match s.palRoom d p with
        | (s, some slot) => s.palStore k c p slot x res
        | (s, none) => s.palEnd k p false c 0x49 0

/-- DIRECTORY_OPERATION (R360). -/
def execDirectoryOperation (s : State) : Out :=
  .next (match s.event with
    | .directoryOperation k id =>
      match ((s.core k).port 3).running id with
      | some c =>
        match c.kind with
        | .pchk theta maxrun => s.palChk k c theta.toNat maxrun
        | .prec => s.palRec k c
        | _ => s
      | none => s
    | _ => s)

/-! ### PSTEP and PDROP (R364) -/

/-- PSTEP gd, ga. -/
def execPstep (gd ga : Reg) (s : State) : Out :=
  .next (s.guardP [ga] []
    (let p := s.palRegion (s.regionOf s.cur)
     let w := s.regOwn p 19
     let n := (bits w 63 48 + bits (s.g ga) 15 0) % 65536
     (s.regPut p 19 (bits w 47 0 + n * 2 ^ 48)).done gd (word n)))

/-- Drop the entries of a region on a die that a test names, and how many there were. -/
def State.palDropOn (s : State) (p : Nat) (d : Fin 4) (hit : DirEntry → Bool) : State × Nat :=
  let x := s.die d
  let out := x.dir.filter (fun e => e.region == p && hit e)
  (s.setDie d { x with dir := x.dir.filter (fun e => !(e.region == p && hit e)) }, out.length)

/-- PDROP gd, ga, gb. -/
def execPdrop (gd ga gb : Reg) (s : State) : Out :=
  .next (s.guardP [ga, gb] []
    (let m := s.g gb
     if bits m 63 2 ≠ 0 then s.raise 0x06 m
     else
       let p := s.palRegion (s.regionOf s.cur)
       let hit := fun (e : DirEntry) => bit m 0 || e.block == bits (s.g ga) 31 0
       let dies : List (Fin 4) := if bit m 1 then [0, 1, 2, 3] else [s.cur.core.die]
       let r := dies.foldl (fun r d => let q := r.1.palDropOn p d hit; (q.1, r.2 + q.2)) (s, 0)
       r.1.done gd (word r.2)))

end Sys2Proof.Machine
end

