-- ==== Sys2Proof/Machine/Platform.lean ====
section
/-! DEFINITION. Start-up, power, heat and the package; the fault of an unassigned word (R31, R383, R394 to R401). -/

namespace Sys2Proof.Machine

/-! ### Start-up (R383, R424) -/

/-- HOLD: the control node asserts reset. -/
def execHold (s : State) : Out := .next s.enterHold

/-- VERIFY: phase 2, in Hold; it begins once the device may leave Hold (R383, R399 to R401). -/
def execVerify (s : State) : Out :=
  .next (match s.event with
    | .verify img =>
      let i := Config.imageOf img
      if s.plat.phase ≠ 1 then s
      else if s.plat.mayLeaveHold = false then s.after 1 (.verify img)
      else if Firmware.cause i = 0 then
        { s with plat := { s.plat with verified := true, digest := sha256 img, imgRollback := i.rollback } }.phaseEnd 2 0
      else s.phaseEnd 2 (Firmware.cause i)
    | _ => s)

/-- VMAP from LINB and VLIN (R305). -/
def vmapOf (e : Nat × Nat) : Word := word (e.1 % 2 ^ 16 + e.2 % 2 ^ 16 * 2 ^ 32)

/-- INITIALISE: phase 3. VMAP of each die is written; clusters that fail their test are closed as failed, and a die with no
working cluster counts as failed. -/
def execInitialise (s : State) : Out :=
  .next (match s.event with
    | .initialise vmaps failed =>
      if s.plat.phase ≠ 2 ∨ s.plat.verified = false then s
      else
        let s := ((siblings none).zip vmaps).foldl (fun s e => s.setDie e.1 { s.die e.1 with vmap := vmapOf e.2 }) s
        let s := failed.eraseDups.foldl (fun s cl => (s.setCluster cl { s.cluster cl with failed := true, rreq := true }).replaceNotice
          2 cl.die.val cl.cl.val 0 0 0) s
        let bad := (siblings none).filter (fun d => (s.workingOn d).isNone)
        let s := bad.foldl (fun s d => (s.setDie d { s.die d with failed := true }).replaceNotice 3 d.val 0 0 0 0) s
        let s := { s with plat := { s.plat with failedDies := BitVec.ofNat 4 (bad.foldl (fun n (d : Fin 4) => n + 2 ^ d.val) 0) } }
        s.phaseEnd 3 (if bad.length = 4 then 0x31 else 0)
    | _ => s)

/-- Whether an address lies in DRAM of a device (R424). -/
def State.rtbaseOk (s : State) (dev pa : Nat) : Bool :=
  paDev pa == dev && !paOnDie pa && bitsN pa 41 36 == 0 && s.backed pa && decide (pa < 2 ^ 56)

/-- The end of phase 4: of the links that train, those named are up, and the others are down (R328, R383). -/
def State.trained (s : State) (up : List (Fin 18)) : State :=
  let end1 := fun (n : Nat) (x : Link) =>
    let won := up.any (fun l => l.val == n)
    if x.training then { x with training := false, up := won, width := if won then 16 else 0 } else x
  let ls := s.plat.links.map (fun e => (e.1, end1 e.1 e.2))
  { s with plat := { s.plat with links := ls } }.phaseEnd 4 0

/-- JOIN: phase 4. The device takes its number, RTBASE and EDGE, and its links take their keys and train; the phase ends when they have. -/
def execJoin (s : State) : Out :=
  .next (match s.event with
    | .join dev dlim rtbase edge links =>
      if s.plat.phase ≠ 3 ∨ s.plat.failPhase ≠ 0 ∨ s.plat.joined then s
      else if 1151 < dev ∨ dlim ≤ dev ∨ 1152 < dlim ∨ s.rtbaseOk dev rtbase = false then s.phaseEnd 4 0x41
      else
        let ls := links.foldl (fun t e => tput t e.1.val ({ training := true, txKey := e.2.txKey, rxKey := e.2.rxKey, txSalt := e.2.txSalt, rxSalt := e.2.rxSalt } : Link)) []
        { s with plat := { s.plat with dev := dev, joined := true, rtbase := rtbase, links := ls,
                                       edge := word (dlim * 2 ^ 32 + bits edge 31 0) } }
    | .linksTrained up =>
      if s.plat.phase ≠ 3 ∨ s.plat.failPhase ≠ 0 ∨ s.plat.joined = false then s else s.trained up
    | _ => s)

/-- Whether a block is a valid region 0: its header names it valid at depth 0, and no reserved bit is set (R168; log entry
18). -/
def blockOk (ws : List Word) : Bool :=
  ws.length == 32 && bit (ws.getD 0 0) 63 && bits (ws.getD 0 0) 26 24 == 0 && bits (ws.getD 0 0) 11 0 == 0
    && (upto 0 32).all (fun k => ws.getD k 0 &&& ~~~(word (regionBits k)) == 0)

/-- READY: phase 5. Region 0 is made valid with the block supplied. -/
def execReady (s : State) : Out :=
  .next (match s.event with
    | .ready block =>
      if s.plat.phase ≠ 4 ∨ s.plat.failPhase ≠ 0 then s
      else if blockOk block = false then s.phaseEnd 5 0x51
      else ((s.poke (s.regLoc 0 0) (wordBytes block) false).regSync (s.regLoc 0 0) 256).phaseEnd 5 0
    | _ => s)

/-! ### Rails (R399) -/

/-- POWER_GOOD: the groups VAUX, VLINK with VMEM, and VDIE rise in this order; a group out of order is not taken. A risen
VDIE group releases the trip output (log entry 19). -/
def execPowerGood (s : State) : Out :=
  .next (match s.event with
    | .powerGood g =>
      let p := s.plat
      { s with plat := match g.val with
        | 0 => { p with vaux := true }
        | 1 => { p with vlinkMem := p.vlinkMem || p.vaux }
        | _ => if p.vlinkMem then { p with vdie := true, trip := false } else p }
    | _ => s)

/-- RAIL_FALL: a group lost takes the groups above it with it, and the device is in Hold until every rail is good again. -/
def execRailFall (s : State) : Out :=
  .next (match s.event with
    | .railFall g =>
      let p := s.plat
      let p := { p with vdie := false, vlinkMem := p.vlinkMem && decide (1 < g.val), vaux := p.vaux && decide (0 < g.val) }
      { s with plat := p }.enterHold
    | _ => s)

/-! ### Power and heat (R394 to R397, R400) -/

/-- The duty of a cluster in sixteenths, 4 to 16; 4 while its trip lasts (R395, R396). -/
def Cluster.dutyFor (x : Cluster) (n : Nat) : Nat := if x.tripped then 4 else min 16 (max 4 n)
/-- Whether a cluster's power has exhausted its budget; a budget of 0 was never allotted (R397; log entry 21). -/
def Cluster.exhausted (x : Cluster) : Bool := x.budget != 0 && decide (x.budget < x.power)
/-- A cluster with a new budget or power: an exhausted one falls in duty by a sixteenth (R397; log entry 21). -/
def Cluster.kept (x : Cluster) (n : Nat) : Cluster :=
  { x with duty := x.dutyFor (if x.exhausted then min n (x.duty - 1) else n) }
/-- 10 µs in cycles (R394, R395). -/
def division : Nat := 33000
/-- The budgets of all clusters after a division, in mW. -/
def State.budgets (s : State) (shares : List (ClusterId × Nat × Nat)) : Nat :=
  ((s.clusters.filter (fun e => !shares.any (fun f => f.1.key == e.1))).map (fun e => e.2.budget)).sum + (shares.map (fun e => e.2.1)).sum

/-- The notice of a trip (R392 code 0x02; log entry 20). -/
def State.tripNotice (s : State) (cl : ClusterId) : State :=
  let x := s.cluster cl
  s.notice 0x02 (leBytes 1 cl.die.val ++ leBytes 1 cl.cl.val ++ leBytes 2 (tempBits x.temp) ++ leBytes 2 x.flux)
/-- A sensor reads 115 °C or more: the package asserts its trip output, holds the device and sends its notice (R400). -/
def State.assertTrip (s : State) (cl : ClusterId) (temp : Int) (flux : Nat) : State :=
  let s := { s with plat := { s.plat with trip := true } }.enterHold
  (s.setCluster cl { s.cluster cl with temp := temp, flux := flux }).tripNotice cl

/-- A VDIE voltage in mV that the package may request (R399). -/
def vdieOk (mv : Nat) : Bool := decide (600 ≤ mv) && decide (mv ≤ 900) && mv % 5 == 0

/-- The readings that Telemetry reports of the division before (R390): package power; power, highest DRAM temperature and VDIE
voltage of dies, as requested (R399); power of clusters, whose duty falls where it exhausts the budget (R397); worst eye margin of links. -/
def State.readings (s : State) (power : Nat) (dies : List (Fin 4 × Nat × Int × Nat)) (clusters : List (ClusterId × Nat))
    (margins : List (Fin 18 × Nat)) : State :=
  let s := { s with plat := dies.foldl (fun p e =>
    { p with diePower := tput p.diePower e.1.val e.2.1, dramTemp := tput p.dramTemp e.1.val e.2.2.1,
             vdieMv := if vdieOk e.2.2.2 then tput p.vdieMv e.1.val e.2.2.2 else p.vdieMv }) { s.plat with power := power } }
  let s := clusters.foldl (fun s e => s.setCluster e.1 (Cluster.kept { s.cluster e.1 with power := e.2 } (s.cluster e.1).duty)) s
  margins.foldl (fun s e => s.setLink e.1 { s.link e.1 with margin := e.2 }) s

/-- POWER_REDIVISION: at the end of 10 µs, budgets in mW and duties; a cluster not named keeps its budget, and all of them together stay
within 3,400 W (R394; log entry 21). The readings of the sensors come with it; one of a DRAM stack at 115 °C or more asserts the trip
output, and its notice names the first cluster of the die (log entry 20). -/
def execPowerRedivision (s : State) : Out :=
  .next (match s.event with
    | .powerRedivision shares =>
      if s.time % division ≠ 0 ∨ 3400000 < s.budgets shares then s
      else shares.foldl (fun s e => s.setCluster e.1 (Cluster.kept { s.cluster e.1 with budget := e.2.1 } e.2.2)) s
    | .powerReadings power dies clusters margins =>
      match dies.find? (fun e => decide (1150 ≤ e.2.2.1)) with
      | some e => s.assertTrip (clusterAt e.1 0) e.2.2.1 (s.cluster (clusterAt e.1 0)).flux
      | none => s.readings power dies clusters margins
    | _ => s)

/-- Whether a reading passes a cluster's trip point: 105 °C, or 250 W/cm² (R394, R400). -/
def passesTrip (temp : Int) (flux : Nat) : Bool := decide (1050 < temp) || decide (1000 < flux)

/-- One millisecond in cycles (R395). -/
def millisecond : Nat := 3300000

/-- TRIP: a reading of a cluster's sensors. A reading past the trip point sets its duty to 4/16, and 1 ms of trip is
reported; a reading below it ends the trip; one of 115 °C or more asserts the trip output (R400). -/
def execTrip (s : State) : Out :=
  .next (match s.event with
    | .trip cl temp flux =>
      let x := { s.cluster cl with temp := temp, flux := flux }
      if 1150 ≤ temp then s.assertTrip cl temp flux
      else if passesTrip temp flux then
        let s := if x.tripped then s else s.after millisecond (.tripPersisted cl)
        s.setCluster cl { x with tripped := true, duty := 4 }
      else
        let s := s.setCluster cl { x with tripped := false, persisted := false }
        { s with timers := s.timers.filter (fun t => t.2 != .tripPersisted cl) }
    | _ => s)

/-- TRIP_PERSISTED. -/
def execTripPersisted (s : State) : Out :=
  .next (match s.event with
    | .tripPersisted cl =>
      if (s.cluster cl).tripped then (s.setCluster cl { s.cluster cl with persisted := true }).tripNotice cl else s
    | _ => s)

/-- TRIP_OUTPUT: a sensor at 115 °C or more asserts the trip output and holds the device. -/
def execTripOutput (s : State) : Out :=
  .next (match s.event with
    | .tripOutput cl temp =>
      if temp < 1150 then s
      else
        s.assertTrip cl temp (s.cluster cl).flux
    | _ => s)

/-- Whether what the module measures lies within its limits (R401): 1 input voltage in mV, 2 coolant flow in mL/min, 3 inlet
temperature in 0.1 °C. -/
def moduleWithin (cause : Fin 4) (v : BitVec 32) : Bool :=
  match cause.val with
  | 1 => decide (40000 ≤ v.toNat) && decide (v.toNat ≤ 60000)
  | 2 => decide (2000 ≤ v.toNat)
  | 3 => decide (150 ≤ v.toInt) && decide (v.toInt ≤ 400)
  | _ => true

/-- MODULE_FAULT: outside its limits the module reports and holds its package; cause 0 says that it is within them again
(R401, R392 code 0x06). -/
def execModuleFault (s : State) : Out :=
  .next (match s.event with
    | .moduleFault cause v =>
      if cause = 0 then { s with plat := { s.plat with moduleHeld := false } }
      else if moduleWithin cause v then s
      else
        { s with plat := { s.plat with moduleHeld := true } }.enterHold.notice 0x06
          (leBytes 4 cause.val ++ leBytes 4 v.toNat)
    | _ => s)

/-! ### Unassigned words (R31) -/

/-- ILLEGAL_INSTRUCTION: the word fetched at the current context's pc is no instruction. -/
def execIllegalInstruction (s : State) : Out :=
  .next (match s.event with
    | .illegalInstruction w => s.raise 0x01 (w.setWidth 64)
    | _ => s)

end Sys2Proof.Machine
end

