-- ==== Sys2Proof/Machine/Remote.lean ====
section
/-! DEFINITION. Requests of other devices at the fabric port (R209, R286, R327); what a cluster answers about armed tasks of another
device (R170, R185; log entry 15). -/

namespace Sys2Proof.Machine

/-- An armed task of another device: 0 and it is taken, or the limit of R170 that it meets (log entry 15). -/
def State.armFar (s : State) (src : Nat) (r : Request) (m : TaskMsg) : State :=
  let cl := paCluster m.trig
  let taken := (s.post (.armedTaskArrival cl m)).answerAmo src r.issuer r.id 0 8 false false
  if s.regValid m.region = false ∨ (s.cluster cl).failed then taken
  else if s.budgetArm m.region ≤ s.armsOf cl m.region then s.answerAmo src r.issuer r.id 2 8 false false
  else if 128 ≤ s.armsIn cl then s.answerAmo src r.issuer r.id 3 8 false false
  else taken

/-- A request of another device that an access of the window makes: the colour rule of R209 holds at the core it names. -/
def State.windowRequest (s : State) (src : Nat) (r : Request) : State :=
  match r.kind with
  | .rmw op w32 a e => s.sysAtomic src r.issuer r.id r.pa r.colour r.region r.cat op w32 a e
  | _ => if s.onDieOk r.pa = false ∨ s.colourOk (paCoreId r.pa) r.colour = false then s.turnAway src r else s.atPort src r

/-- REMOTE_REQUEST. -/
def execRemoteRequest (s : State) : Out :=
  .next (match s.event with
    | .remoteRequest src r =>
      if paDev r.pa ≠ s.dev then s
      else if paOnDie r.pa then
        match r.kind with
        | .arm m => s.armFar src r m
        | .cancel cat =>
          let (t, n) := s.cancelArms r.pa cat r.region
          t.answerAmo src r.issuer r.id n 8 false false
        | .colour => s.answer src r [if s.colourOk (paCoreId r.pa) r.colour then 1 else 0] 0 false
        | _ => s.windowRequest src r
      else if s.dramOk r.pa then s.atHome src r
      else s.turnAway src r
    | _ => s)

end Sys2Proof.Machine
end

