-- ==== Sys2Proof/Machine/ScalarArith.lean ====
section
/-! DEFINITION. Scalar arithmetic: map A, the immediate forms, INSH and the immediate shifts (R81 to R84). -/

namespace Sys2Proof.Machine

/-- ADD (R81). -/
def execAdd (gd ga gb : Reg) (s : State) : Out := op2 s gd ga gb (fun a b => a + b)
/-- SUB (R81). -/
def execSub (gd ga gb : Reg) (s : State) : Out := op2 s gd ga gb (fun a b => a - b)
/-- AND (R81). -/
def execAnd (gd ga gb : Reg) (s : State) : Out := op2 s gd ga gb (fun a b => a &&& b)
/-- OR (R81). -/
def execOr (gd ga gb : Reg) (s : State) : Out := op2 s gd ga gb (fun a b => a ||| b)
/-- XOR (R81). -/
def execXor (gd ga gb : Reg) (s : State) : Out := op2 s gd ga gb (fun a b => a ^^^ b)
/-- ANDN (R81). -/
def execAndn (gd ga gb : Reg) (s : State) : Out := op2 s gd ga gb (fun a b => a &&& ~~~b)
/-- SLL (R81). -/
def execSll (gd ga gb : Reg) (s : State) : Out := op2 s gd ga gb (fun a b => a <<< sham b)
/-- SRL (R81). -/
def execSrl (gd ga gb : Reg) (s : State) : Out := op2 s gd ga gb (fun a b => a >>> sham b)
/-- SRA (R81). -/
def execSra (gd ga gb : Reg) (s : State) : Out := op2 s gd ga gb (fun a b => a.sshiftRight (sham b))
/-- CLT (R81). -/
def execClt (gd ga gb : Reg) (s : State) : Out := op2 s gd ga gb (fun a b => ofBool (lts a b))
/-- CLTU (R81). -/
def execCltu (gd ga gb : Reg) (s : State) : Out := op2 s gd ga gb (fun a b => ofBool (ltu a b))
/-- MIN (R81). -/
def execMin (gd ga gb : Reg) (s : State) : Out := op2 s gd ga gb (fun a b => if lts b a then b else a)
/-- MAX (R81). -/
def execMax (gd ga gb : Reg) (s : State) : Out := op2 s gd ga gb (fun a b => if lts a b then b else a)
/-- MINU (R81). -/
def execMinu (gd ga gb : Reg) (s : State) : Out := op2 s gd ga gb (fun a b => if ltu b a then b else a)
/-- MAXU (R81). -/
def execMaxu (gd ga gb : Reg) (s : State) : Out := op2 s gd ga gb (fun a b => if ltu a b then b else a)
/-- MUL (R81). -/
def execMul (gd ga gb : Reg) (s : State) : Out := op2 s gd ga gb (fun a b => a * b)
/-- MULH (R81). -/
def execMulh (gd ga gb : Reg) (s : State) : Out := op2 s gd ga gb (fun a b => BitVec.ofInt 64 (a.toInt * b.toInt / 2 ^ 64))
/-- MULHU (R81). -/
def execMulhu (gd ga gb : Reg) (s : State) : Out := op2 s gd ga gb (fun a b => word (a.toNat * b.toNat / 2 ^ 64))
/-- DIV (R81). -/
def execDiv (gd ga gb : Reg) (s : State) : Out := op2 s gd ga gb divS
/-- DIVU (R81). -/
def execDivu (gd ga gb : Reg) (s : State) : Out := op2 s gd ga gb divU
/-- REM (R81). -/
def execRem (gd ga gb : Reg) (s : State) : Out := op2 s gd ga gb remS
/-- REMU (R81). -/
def execRemu (gd ga gb : Reg) (s : State) : Out := op2 s gd ga gb remU
/-- CLZ (R81). -/
def execClz (gd ga : Reg) (s : State) : Out := op1 s gd ga clzW
/-- POPC (R81). -/
def execPopc (gd ga : Reg) (s : State) : Out := op1 s gd ga (fun a => word (popN 64 a.toNat))
/-- SEL: ga when bit 0 of qn is set, else gb; both are sources (R81). -/
def execSel (gd ga gb : Reg) (n : PReg) (s : State) : Out :=
  op2 s gd ga gb (fun a b => if bit (s.q n) 0 then a else b)
/-- ADDI (R28, R82). -/
def execAddi (gd ga : Reg) (imm : BitVec 16) (s : State) : Out := op1 s gd ga (fun a => a + simm imm)
/-- ANDI (R28, R82). -/
def execAndi (gd ga : Reg) (imm : BitVec 16) (s : State) : Out := op1 s gd ga (fun a => a &&& zimm imm)
/-- ORI (R28, R82). -/
def execOri (gd ga : Reg) (imm : BitVec 16) (s : State) : Out := op1 s gd ga (fun a => a ||| zimm imm)
/-- XORI (R28, R82). -/
def execXori (gd ga : Reg) (imm : BitVec 16) (s : State) : Out := op1 s gd ga (fun a => a ^^^ zimm imm)
/-- CLTI (R28, R82). -/
def execClti (gd ga : Reg) (imm : BitVec 16) (s : State) : Out := op1 s gd ga (fun a => ofBool (lts a (simm imm)))
/-- CLTIU (R28, R82). -/
def execCltiu (gd ga : Reg) (imm : BitVec 16) (s : State) : Out := op1 s gd ga (fun a => ofBool (ltu a (simm imm)))
/-- INSH.0 (R83). -/
def execInsh0 (gd ga : Reg) (imm : BitVec 16) (s : State) : Out := op1 s gd ga (fun a => insHalf 0 a imm)
/-- INSH.1 (R83). -/
def execInsh1 (gd ga : Reg) (imm : BitVec 16) (s : State) : Out := op1 s gd ga (fun a => insHalf 1 a imm)
/-- INSH.2 (R83). -/
def execInsh2 (gd ga : Reg) (imm : BitVec 16) (s : State) : Out := op1 s gd ga (fun a => insHalf 2 a imm)
/-- INSH.3 (R83). -/
def execInsh3 (gd ga : Reg) (imm : BitVec 16) (s : State) : Out := op1 s gd ga (fun a => insHalf 3 a imm)
/-- SLLI (R84). -/
def execSlli (gd ga : Reg) (sh : BitVec 6) (s : State) : Out := op1 s gd ga (fun a => a <<< sh.toNat)
/-- SRLI (R84). -/
def execSrli (gd ga : Reg) (sh : BitVec 6) (s : State) : Out := op1 s gd ga (fun a => a >>> sh.toNat)
/-- SRAI (R84). -/
def execSrai (gd ga : Reg) (sh : BitVec 6) (s : State) : Out := op1 s gd ga (fun a => a.sshiftRight sh.toNat)

end Sys2Proof.Machine
end

