-- ==== Sys2Proof/Machine/ScalarMem.lean ====
section
/-! DEFINITION. Scalar loads and stores (R85 to R88). -/

namespace Sys2Proof.Machine

/-- LD.B (R85, R86). -/
def execLdB (gd ga : Reg) (imm : BitVec 16) (s : State) : Out := opLoad s (.ldB gd ga imm) gd ga imm 1 true
/-- LD.BU (R85, R86). -/
def execLdBu (gd ga : Reg) (imm : BitVec 16) (s : State) : Out := opLoad s (.ldBu gd ga imm) gd ga imm 1 false
/-- LD.H (R85, R86). -/
def execLdH (gd ga : Reg) (imm : BitVec 16) (s : State) : Out := opLoad s (.ldH gd ga imm) gd ga imm 2 true
/-- LD.HU (R85, R86). -/
def execLdHu (gd ga : Reg) (imm : BitVec 16) (s : State) : Out := opLoad s (.ldHu gd ga imm) gd ga imm 2 false
/-- LD.W (R85, R86). -/
def execLdW (gd ga : Reg) (imm : BitVec 16) (s : State) : Out := opLoad s (.ldW gd ga imm) gd ga imm 4 true
/-- LD.WU (R85, R86). -/
def execLdWu (gd ga : Reg) (imm : BitVec 16) (s : State) : Out := opLoad s (.ldWu gd ga imm) gd ga imm 4 false
/-- LD.D (R85, R86). -/
def execLdD (gd ga : Reg) (imm : BitVec 16) (s : State) : Out := opLoad s (.ldD gd ga imm) gd ga imm 8 false
/-- ST.B (R85, R86). -/
def execStB (gs ga : Reg) (imm : BitVec 16) (s : State) : Out := opStore s (.stB gs ga imm) gs ga imm 1
/-- ST.H (R85, R86). -/
def execStH (gs ga : Reg) (imm : BitVec 16) (s : State) : Out := opStore s (.stH gs ga imm) gs ga imm 2
/-- ST.W (R85, R86). -/
def execStW (gs ga : Reg) (imm : BitVec 16) (s : State) : Out := opStore s (.stW gs ga imm) gs ga imm 4
/-- ST.D (R85, R86). -/
def execStD (gs ga : Reg) (imm : BitVec 16) (s : State) : Out := opStore s (.stD gs ga imm) gs ga imm 8

end Sys2Proof.Machine
end

