-- ==== Sys2Proof/Machine/System.lean ====
section
/-! DEFINITION. TRAP, TRET, IFENCE, RDC, BKPT and control-word access (R92 to R97). -/

namespace Sys2Proof.Machine

/-- TRAP #n (R93): TMASK and TB do not apply; the trap returns after the TRAP. -/
def execTrap (n : BitVec 5) (s : State) : Out :=
  .next (s.takeTrap s.cur (0x20 + n.toNat) 0 (s.my.pc + 4))

/-- TRET (R94): privilege first, then the frame checks of R57, then mode, frame and pc. -/
def execTret (s : State) : Out :=
  .next (s.supOnly .tret
    (let x := s.my
     let f := if bit (x.cwv cwRPTST) 63 && !s.cur.isHandler then x.savedFrame.resumeFault else none
     match f with
     | some n => s.raise 0x09 (word n)
     | none =>
       let y := x.trapReturn s.cur.isHandler
       s.setMy (if s.cur.isHandler then y else y.resumeFrame)))

/-- IFENCE (R96): once the context's older stores are performed, the fetch queue and the line buffer are discarded. -/
def execIfence (s : State) : Out :=
  .next (if (s.myCore.outs.any (fun o => o.ctx == s.cur.ctx.val && !o.load)) then s
    else
      let s := s.setMyCore { s.myCore with lineBuf := [] }
      (s.setMy { s.my with fq := [] }).advance)

/-- RDC gd, #n (R97): waits for the context's older loads. -/
def execRdc (gd : Reg) (n : BitVec 4) (s : State) : Out :=
  .next (if s.anyLoad s.cur then s else s.done gd (s.myCore.cwv (cwPCCNT + n.toNat)))

/-- BKPT (R95). -/
def execBkpt (s : State) : Out := .next (s.raise 0x0E 0)

/-- Whether a read of word i waits: MSTATE answers when the older matrix instructions of the slot have completed (R144). -/
def State.cwWaits (s : State) (i : Nat) : Bool :=
  i == 0x046 && s.myCore.slice.owner == some s.cur.ctx.val && s.myCore.slice.queue != []

/-- CWRD gd, cw (R62, R63, R92). -/
def execCwrd (gd : Reg) (idx : BitVec 12) (s : State) : Out :=
  let i := idx.toNat
  .next (match cwInfo i with
    | none => s.illegal (.cwrd gd idx)
    | some m =>
      if s.cwDenied s.cur m i false then s.raise 0x02 (insnWord (.cwrd gd idx))
      else if s.cwWaits i then s.stall else s.done gd (s.cwRead s.cur i))

/-- CWWR cw, ga (R62, R63, R25, R92). The write takes effect before the next instruction. -/
def execCwwr (idx : BitVec 12) (ga : Reg) (s : State) : Out :=
  let i := idx.toNat
  .next (match cwInfo i with
    | none => s.illegal (.cwwr idx ga)
    | some m =>
      if s.cwDenied s.cur m i true then s.raise 0x02 (insnWord (.cwwr idx ga))
      else s.guardP [ga] [] ((s.cwWrite s.cur i (s.g ga)).advance))

end Sys2Proof.Machine
end

