-- ==== Sys2Proof/Machine/VecFloat.lean ====
section
/-! DEFINITION. Vector float instructions, map D (R129). -/

namespace Sys2Proof.Machine

/-- VFADD (R110, R129). -/
def execVfadd (f : FFmt) (vd va vb : Reg) (q : PReg) (s : State) : Out :=
  opFloat s (.vfadd f vd va vb q) (fbits f) vd q [va, vb]
    (List.zipWith (fadd (ffrac f) s.frm) (lanes (fbits f) (s.v va)) (lanes (fbits f) (s.v vb)))
/-- VFSUB (R110, R129). -/
def execVfsub (f : FFmt) (vd va vb : Reg) (q : PReg) (s : State) : Out :=
  opFloat s (.vfsub f vd va vb q) (fbits f) vd q [va, vb]
    (List.zipWith (fsub (ffrac f) s.frm) (lanes (fbits f) (s.v va)) (lanes (fbits f) (s.v vb)))
/-- VFMUL (R110, R129). -/
def execVfmul (f : FFmt) (vd va vb : Reg) (q : PReg) (s : State) : Out :=
  opFloat s (.vfmul f vd va vb q) (fbits f) vd q [va, vb]
    (List.zipWith (fmul (ffrac f) s.frm) (lanes (fbits f) (s.v va)) (lanes (fbits f) (s.v vb)))
/-- VFMIN (R110, R129). -/
def execVfmin (f : FFmt) (vd va vb : Reg) (q : PReg) (s : State) : Out :=
  opFloat s (.vfmin f vd va vb q) (fbits f) vd q [va, vb]
    (List.zipWith (fminmax (ffrac f) false) (lanes (fbits f) (s.v va)) (lanes (fbits f) (s.v vb)))
/-- VFMAX (R110, R129). -/
def execVfmax (f : FFmt) (vd va vb : Reg) (q : PReg) (s : State) : Out :=
  opFloat s (.vfmax f vd va vb q) (fbits f) vd q [va, vb]
    (List.zipWith (fminmax (ffrac f) true) (lanes (fbits f) (s.v va)) (lanes (fbits f) (s.v vb)))
/-- VFMA: vd is a source (R117, R129). -/
def execVfma (f : FFmt) (vd va vb : Reg) (q : PReg) (s : State) : Out :=
  opFloat s (.vfma f vd va vb q) (fbits f) vd q [va, vb, vd]
    (List.zipWith (fun (e : Nat × Nat) c => ffma (ffrac f) s.frm false e.1 e.2 c)
      ((lanes (fbits f) (s.v va)).zip (lanes (fbits f) (s.v vb))) (lanes (fbits f) (s.v vd)))
/-- VFNMA: vd is a source (R117, R129). -/
def execVfnma (f : FFmt) (vd va vb : Reg) (q : PReg) (s : State) : Out :=
  opFloat s (.vfnma f vd va vb q) (fbits f) vd q [va, vb, vd]
    (List.zipWith (fun (e : Nat × Nat) c => ffma (ffrac f) s.frm true e.1 e.2 c)
      ((lanes (fbits f) (s.v va)).zip (lanes (fbits f) (s.v vb))) (lanes (fbits f) (s.v vd)))
/-- VFABS: the sign bit only, NaN bits kept, no flags (R100, R129). -/
def execVfabs (f : FFmt) (vd va : Reg) (q : PReg) (s : State) : Out :=
  opVec1 s (.vfabs f vd va q) (fbits f) vd va q (fun a => a % 2 ^ (fbits f - 1))
/-- VFNEG: the sign bit only, NaN bits kept, no flags (R100, R129). -/
def execVfneg (f : FFmt) (vd va : Reg) (q : PReg) (s : State) : Out :=
  opVec1 s (.vfneg f vd va q) (fbits f) vd va q (fun a => fneg (ffrac f) a)
/-- VEXP2 (R114). -/
def execVexp2 (vd va : Reg) (q : PReg) (s : State) : Out :=
  opFloat s (.vexp2 vd va q) 32 vd q [va] ((lanes 32 (s.v va)).map fExp2)
/-- VRCP (R114). -/
def execVrcp (vd va : Reg) (q : PReg) (s : State) : Out :=
  opFloat s (.vrcp vd va q) 32 vd q [va] ((lanes 32 (s.v va)).map fRcp)
/-- VRSQ (R114). -/
def execVrsq (vd va : Reg) (q : PReg) (s : State) : Out :=
  opFloat s (.vrsq vd va q) 32 vd q [va] ((lanes 32 (s.v va)).map fRsq)

end Sys2Proof.Machine
end

