-- ==== Sys2Proof/Machine/VecInt.lean ====
section
/-! DEFINITION. Vector integer instructions, map C (R127, R128). -/

namespace Sys2Proof.Machine

/-- Clamp to the signed limits of w bits (R127). -/
def clampS (w : Nat) (x : Int) : Nat := ulane w (max (-(2 ^ (w - 1))) (min x (2 ^ (w - 1) - 1)))

/-- VADD (R127). -/
def execVadd (w : Width) (vd va vb : Reg) (q : PReg) (s : State) : Out :=
  opVec2 s (.vadd w vd va vb q) (wbits w) vd va vb q (fun a b => a + b)
/-- VSUB (R127). -/
def execVsub (w : Width) (vd va vb : Reg) (q : PReg) (s : State) : Out :=
  opVec2 s (.vsub w vd va vb q) (wbits w) vd va vb q (fun a b => a + 2 ^ wbits w - b)
/-- VMUL (R127). -/
def execVmul (w : Width) (vd va vb : Reg) (q : PReg) (s : State) : Out :=
  opVec2 s (.vmul w vd va vb q) (wbits w) vd va vb q (fun a b => a * b)
/-- VADDS (R127). -/
def execVadds (w : Width) (vd va vb : Reg) (q : PReg) (s : State) : Out :=
  opVec2 s (.vadds w vd va vb q) (wbits w) vd va vb q (fun a b => clampS (wbits w) (slane (wbits w) a + slane (wbits w) b))
/-- VSUBS (R127). -/
def execVsubs (w : Width) (vd va vb : Reg) (q : PReg) (s : State) : Out :=
  opVec2 s (.vsubs w vd va vb q) (wbits w) vd va vb q (fun a b => clampS (wbits w) (slane (wbits w) a - slane (wbits w) b))
/-- VMIN (R127). -/
def execVmin (w : Width) (vd va vb : Reg) (q : PReg) (s : State) : Out :=
  opVec2 s (.vmin w vd va vb q) (wbits w) vd va vb q (fun a b => if slane (wbits w) b < slane (wbits w) a then b else a)
/-- VMAX (R127). -/
def execVmax (w : Width) (vd va vb : Reg) (q : PReg) (s : State) : Out :=
  opVec2 s (.vmax w vd va vb q) (wbits w) vd va vb q (fun a b => if slane (wbits w) b < slane (wbits w) a then a else b)
/-- VMINU (R127). -/
def execVminu (w : Width) (vd va vb : Reg) (q : PReg) (s : State) : Out :=
  opVec2 s (.vminu w vd va vb q) (wbits w) vd va vb q (fun a b => min a b)
/-- VMAXU (R127). -/
def execVmaxu (w : Width) (vd va vb : Reg) (q : PReg) (s : State) : Out :=
  opVec2 s (.vmaxu w vd va vb q) (wbits w) vd va vb q (fun a b => max a b)
/-- VSLL (R127). -/
def execVsll (w : Width) (vd va vb : Reg) (q : PReg) (s : State) : Out :=
  opVec2 s (.vsll w vd va vb q) (wbits w) vd va vb q (fun a b => if wbits w ≤ b then 0 else a * 2 ^ b)
/-- VSRL (R127). -/
def execVsrl (w : Width) (vd va vb : Reg) (q : PReg) (s : State) : Out :=
  opVec2 s (.vsrl w vd va vb q) (wbits w) vd va vb q (fun a b => if wbits w ≤ b then 0 else a / 2 ^ b)
/-- VSRA (R127). -/
def execVsra (w : Width) (vd va vb : Reg) (q : PReg) (s : State) : Out :=
  opVec2 s (.vsra w vd va vb q) (wbits w) vd va vb q (fun a b => ulane (wbits w) ((slane (wbits w) a).fdiv (2 ^ (min b (wbits w)))))
/-- VABS (R127). -/
def execVabs (w : Width) (vd va : Reg) (q : PReg) (s : State) : Out :=
  opVec1 s (.vabs w vd va q) (wbits w) vd va q (fun a => ulane (wbits w) (slane (wbits w) a).natAbs)
/-- VAND on byte lanes (R128). -/
def execVand (vd va vb : Reg) (q : PReg) (s : State) : Out :=
  opVec2 s (.vand vd va vb q) 8 vd va vb q (fun a b => a &&& b)
/-- VOR on byte lanes (R128). -/
def execVor (vd va vb : Reg) (q : PReg) (s : State) : Out :=
  opVec2 s (.vor vd va vb q) 8 vd va vb q (fun a b => a ||| b)
/-- VXOR on byte lanes (R128). -/
def execVxor (vd va vb : Reg) (q : PReg) (s : State) : Out :=
  opVec2 s (.vxor vd va vb q) 8 vd va vb q (fun a b => a ^^^ b)
/-- VANDN on byte lanes (R128). -/
def execVandn (vd va vb : Reg) (q : PReg) (s : State) : Out :=
  opVec2 s (.vandn vd va vb q) 8 vd va vb q (fun a b => a &&& (255 - b))
/-- VSEL: byte n of va where bit n of q is set, else of vb; every byte is written (R128). -/
def execVsel (vd va vb : Reg) (q : PReg) (s : State) : Out :=
  .next (s.slotOnly (.vsel vd va vb q) (s.guardP [] [va, vb]
    (let r := ((actives 8 (s.q q)).zip ((lanes 8 (s.v va)).zip (lanes 8 (s.v vb)))).map
       (fun e => if e.1 then e.2.1 else e.2.2)
     ((s.setLanes vd 8 (List.replicate 64 true) r).advance))))

end Sys2Proof.Machine
end

