-- ==== Sys2Proof/Machine/VecMisc.lean ====
section
/-! DEFINITION. Reductions, moves, permutes, conversions, VTOPK and VCOMPRESS: map F (R132 to R138). -/

namespace Sys2Proof.Machine

/-! ### Reductions (R113, R132) -/

/-- One level of the tree: neighbours combined, flags gathered. -/
def treeLevel (f : Nat → Nat → Nat × Nat) : List Nat → List Nat × Nat
  | a :: b :: t =>
    let (r, fl) := f a b
    let (rest, fl') := treeLevel f t
    (r :: rest, fl ||| fl')
  | l => (l, 0)

/-- The four levels of the tree over 16 lanes. -/
def tree16 (f : Nat → Nat → Nat × Nat) (l : List Nat) : Nat × Nat :=
  let (l1, f1) := treeLevel f l
  let (l2, f2) := treeLevel f l1
  let (l3, f3) := treeLevel f l2
  let (l4, f4) := treeLevel f l3
  (l4.headD 0, f1 ||| f2 ||| f3 ||| f4)

/-- Lanes of va with the identity in place of the inactive ones. -/
def State.maskedLanes (s : State) (va : Reg) (q : PReg) (z : Nat) : List Nat :=
  ((actives 32 (s.q q)).zip (lanes 32 (s.v va))).map (fun e => if e.1 then e.2 else z)

/-- VRSUM.F32. -/
def execVrsumF32 (gd va : Reg) (q : PReg) (s : State) : Out :=
  .next (s.slotOnly (.vrsumF32 gd va q) (s.guardP [] [va]
    (let (r, fl) := tree16 (fadd 23 s.frm) (s.maskedLanes va q 0x80000000)
     (s.addFlags fl).done gd (word r))))
/-- VRMAX.F32. -/
def execVrmaxF32 (gd va : Reg) (q : PReg) (s : State) : Out :=
  .next (s.slotOnly (.vrmaxF32 gd va q) (s.guardP [] [va]
    (let (r, fl) := tree16 (fminmax 23 true) (s.maskedLanes va q 0xFF800000)
     (s.addFlags fl).done gd (word r))))
/-- VRSUM.I32: the sum modulo 2^32, sign-extended. -/
def execVrsumI32 (gd va : Reg) (q : PReg) (s : State) : Out :=
  .next (s.slotOnly (.vrsumI32 gd va q) (s.guardP [] [va]
    (s.done gd (sextW 32 (BitVec.ofNat 32 ((s.maskedLanes va q 0).foldl (fun a x => a + x) 0))))))
/-- VRMAX.I32: the signed maximum, sign-extended; -2^31 with no active lane. -/
def execVrmaxI32 (gd va : Reg) (q : PReg) (s : State) : Out :=
  .next (s.slotOnly (.vrmaxI32 gd va q) (s.guardP [] [va]
    (s.done gd (BitVec.ofInt 64 ((s.maskedLanes va q 0x80000000).foldl (fun a x => max a (slane 32 x)) (-(2 ^ 31)))))))

/-! ### Moves and permutes (R133) -/

/-- Every lane written. -/
def State.setAll (s : State) (vd : Reg) (w : Nat) (l : List Nat) : State :=
  s.setLanes vd w (List.replicate (512 / w) true) l

/-- VBCAST. -/
def execVbcast (w : Width) (vd ga : Reg) (s : State) : Out :=
  .next (s.slotOnly (.vbcast w vd ga) (s.guardP [ga] []
    (s.setAll vd (wbits w) (List.replicate (512 / wbits w) (s.g ga).toNat)).advance))
/-- VEXTR. -/
def execVextr (w : Width) (gd va gb : Reg) (s : State) : Out :=
  .next (s.slotOnly (.vextr w gd va gb) (s.guardP [gb] [va]
    (s.done gd (word ((lanes (wbits w) (s.v va)).getD ((s.g gb).toNat % (512 / wbits w)) 0)))))
/-- VINS: one lane; vd is no source and keeps its poison bit. -/
def execVins (w : Width) (vd ga gb : Reg) (s : State) : Out :=
  .next (s.slotOnly (.vins w vd ga gb) (s.guardP [ga, gb] []
    (let n := (s.g gb).toNat % (512 / wbits w)
     (s.setV vd (ofLanes (wbits w) ((lanes (wbits w) (s.v vd)).set n (s.g ga).toNat))).advance)))
/-- VPERM. -/
def execVperm (w : Width) (vd va vb : Reg) (s : State) : Out :=
  .next (s.slotOnly (.vperm w vd va vb) (s.guardP [] [va, vb]
    (let src := lanes (wbits w) (s.v va)
     (s.setAll vd (wbits w) ((lanes (wbits w) (s.v vb)).map (fun n => src.getD (n % (512 / wbits w)) 0))).advance)))
/-- VSLIDE: lane n + s, zero outside. -/
def execVslide (w : Width) (vd va gb : Reg) (s : State) : Out :=
  .next (s.slotOnly (.vslide w vd va gb) (s.guardP [gb] [va]
    (let src := lanes (wbits w) (s.v va)
     let d := (s.g gb).toInt
     (s.setAll vd (wbits w) ((upto 0 (512 / wbits w)).map (fun (n : Nat) =>
       let m : Int := (n : Int) + d
       if 0 ≤ m then src.getD (min m.toNat 512) 0 else 0))).advance)))

/-! ### Conversions (R115, R134) -/

/-- Sixteen positions from lane 16h on. -/
def sixteen (l : List Nat) (h : Nat) : List Nat := (l.drop (16 * h)).take 16
/-- Activity of a narrow lane: position n is lane 16h + n and is active under bit 4n. -/
def narrowAct (w h : Nat) (act : List Bool) : List Bool :=
  List.replicate (16 * h) false ++ act ++ List.replicate (512 / w - 16 * h - 16) false
/-- Results placed at lanes 16h on. -/
def narrowNew (w h : Nat) (l : List Nat) : List Nat :=
  List.replicate (16 * h) 0 ++ l ++ List.replicate (512 / w - 16 * h - 16) 0

/-- A conversion to 16 lanes of 32 bits. -/
def opWiden (s : State) (i : Instr) (vd va : Reg) (q : PReg) (src : List Nat) (f : Nat → Nat × Nat) : Out :=
  opFloat s i 32 vd q [va] (src.map f)
/-- A conversion to narrow lanes of width w. -/
def opNarrow (s : State) (i : Instr) (w h : Nat) (vd va : Reg) (q : PReg) (f : Nat → Nat × Nat) : Out :=
  .next (s.slotOnly i (s.guardP [] [va]
    (let act := actives 32 (s.q q)
     let r := (lanes 32 (s.v va)).map f
     ((s.setLanes vd w (narrowAct w h act) (narrowNew w h (r.map (fun e => e.1)))).addFlags (laneFlags act r)).advance)))

/-- VCVT.F32.BF16: exact, NaN bits kept. -/
def execVcvtF32Bf16 (vd va : Reg) (h : BitVec 1) (q : PReg) (s : State) : Out :=
  opWiden s (.vcvtF32Bf16 vd va h q) vd va q (sixteen (lanes 16 (s.v va)) h.toNat) (fun a => (a * 2 ^ 16, 0))
/-- VCVT.BF16.F32. -/
def execVcvtBf16F32 (vd va : Reg) (h : BitVec 1) (q : PReg) (s : State) : Out :=
  opNarrow s (.vcvtBf16F32 vd va h q) 16 h.toNat vd va q (cvtBf16 s.frm)
/-- VCVT.F32.I32. -/
def execVcvtF32I32 (vd va : Reg) (q : PReg) (s : State) : Out :=
  opWiden s (.vcvtF32I32 vd va q) vd va q (lanes 32 (s.v va)) (fun a => cvtF32 s.frm (slane 32 a))
/-- VCVT.I32.F32. -/
def execVcvtI32F32 (vd va : Reg) (q : PReg) (s : State) : Out :=
  opWiden s (.vcvtI32F32 vd va q) vd va q (lanes 32 (s.v va)) (cvtI32 s.frm)
/-- VCVT.I8.I32. -/
def execVcvtI8I32 (vd va : Reg) (h : BitVec 2) (q : PReg) (s : State) : Out :=
  opNarrow s (.vcvtI8I32 vd va h q) 8 h.toNat vd va q (fun a => (clampS 8 (slane 32 a), 0))
/-- VCVT.UI8.I32. -/
def execVcvtUi8I32 (vd va : Reg) (h : BitVec 2) (q : PReg) (s : State) : Out :=
  opNarrow s (.vcvtUi8I32 vd va h q) 8 h.toNat vd va q (fun a => ((max 0 (min (slane 32 a) 255)).toNat, 0))
/-- VCVT.I32.I8. -/
def execVcvtI32I8 (vd va : Reg) (h : BitVec 2) (q : PReg) (s : State) : Out :=
  opWiden s (.vcvtI32I8 vd va h q) vd va q (sixteen (lanes 8 (s.v va)) h.toNat) (fun a => (ulane 32 (slane 8 a), 0))

/-! ### VTOPK (R135 to R137) -/

/-- A candidate: value bits, index, and whether it comes from the chunk. -/
structure Cand where
  val : Nat
  idx : Nat
  fresh : Bool
  deriving DecidableEq, Repr

/-- Rank of a value: every number above NaN, -0 with +0. -/
def candKey (x : Nat) : Int := if (fval 23 x).isNaN then -(2 ^ 33) else fnum 23 x
/-- a before b: value descending, index ascending, running entries first. -/
def candLt (a b : Cand) : Bool :=
  decide (candKey b.val < candKey a.val)
    || (candKey a.val == candKey b.val && (decide (a.idx < b.idx) || (a.idx == b.idx && !a.fresh && b.fresh)))
/-- Insert behind every candidate that is not after it. -/
def candIns (c : Cand) : List Cand → List Cand
  | [] => [c]
  | d :: t => if candLt d c || !candLt c d then d :: candIns c t else c :: d :: t
/-- Sort candidates. -/
def candSort (l : List Cand) : List Cand := l.foldl (fun a c => candIns c a) []

/-- The other register of a pair. -/
def pairOf (r : Reg) : Reg := r + 1

/-- The candidates of a call. -/
def State.cands (s : State) (vd va : Reg) (q : PReg) (nz : Bool) (base cnt : Nat) : List Cand :=
  let run := ((lanes 32 (s.v vd)).zip (lanes 32 (s.v (pairOf vd)))).take cnt
  let new := ((upto 0 16).zip ((actives 32 (s.q q)).zip (lanes 32 (s.v va)))).filterMap (fun e =>
    let x := e.2.2
    if e.2.1 && !(fval 23 x).isNaN && !(nz && x % 2 ^ 31 == 0) then some (⟨x, (base + e.1) % 2 ^ 32, true⟩ : Cand) else none)
  run.map (fun e => ⟨e.1, e.2, false⟩) ++ new

/-- VTOPK and VTOPK.NZ (R137). -/
def opTopk (s : State) (i : Instr) (vd va gb : Reg) (q : PReg) (nz : Bool) : Out :=
  .next (s.slotOnly i (s.guardP [gb] [va, vd, pairOf vd]
    (let d := s.g gb
     let k := bits d 7 0
     let cnt := bits d 15 8
     if 16 < k ∨ k < cnt then s.raise 0x06 d
     else
       let base := bits d 63 32
       let l := (candSort (s.cands vd va q nz base cnt)).take k
       let pad := List.replicate (16 - l.length)
       let s := (s.setAll vd 32 (l.map (fun c => c.val) ++ pad 0xFF800000)).setAll (pairOf vd) 32
         (l.map (fun c => c.idx) ++ pad 0xFFFFFFFF)
       s.done gb (word ((base + 16) % 2 ^ 32 * 2 ^ 32 + l.length * 2 ^ 8 + k)))))

/-- VTOPK. -/
def execVtopk (vd va gb : Reg) (q : PReg) (s : State) : Out := opTopk s (.vtopk vd va gb q) vd va gb q false
/-- VTOPK.NZ. -/
def execVtopkNz (vd va gb : Reg) (q : PReg) (s : State) : Out := opTopk s (.vtopkNz vd va gb q) vd va gb q true

/-! ### VCOMPRESS (R138) -/

/-- Whether lane n of a group of 8 is among the four largest magnitudes, ties to the lower lane. -/
def kept (grp : List Nat) (n : Nat) : Bool :=
  let m := grp.getD n 0 % 2 ^ 15
  decide (((upto 0 8).filter (fun j =>
    let x := grp.getD j 0 % 2 ^ 15
    decide (m < x) || (x == m && decide (j < n)))).length < 4)

/-- The four kept values of a group and its mask. -/
def compressGroup (grp : List Nat) : List Nat × Nat :=
  (((upto 0 8).filter (kept grp)).map (fun n => grp.getD n 0),
   (upto 0 8).foldl (fun a n => a + (kept grp n).toNat * 2 ^ n) 0)

/-- VCOMPRESS. -/
def execVcompress (vd va : Reg) (s : State) : Out :=
  .next (s.slotOnly (.vcompress vd va) (s.guardP [] [va]
    (let l := lanes 16 (s.v va)
     let gs := (upto 0 4).map (fun g => compressGroup ((l.drop (8 * g)).take 8))
     let vals := (gs.flatMap (fun e => e.1)).foldr (fun x a => x + 2 ^ 16 * a) 0
     let masks := (gs.map (fun e => e.2)).foldr (fun x a => x + 2 ^ 8 * a) 0
     (s.setMy ((s.my.setV vd (BitVec.ofNat 512 (vals + 2 ^ 256 * masks))).cleanV vd)).advance)))

end Sys2Proof.Machine
end

