-- ==== Sys2Proof/Machine/VecPred.lean ====
section
/-! DEFINITION. Compares and predicate operations, map E (R130, R131). -/

namespace Sys2Proof.Machine

/-- Lane bits of a compare type. -/
def cmpBits (t : CmpTy) : Nat :=
  match t with
  | .i8 => 8 | .i16 => 16 | .i32 => 32 | .i64 => 64 | .f32 => 32 | .bf16 => 16

/-- EQ on a compare type (R130). -/
def cmpEq (t : CmpTy) (a b : Nat) : Bool × Nat :=
  match t with
  | .f32 => feq 23 a b
  | .bf16 => feq 7 a b
  | _ => (a == b, 0)
/-- LT or LE on a compare type: signed for the integers (R130). -/
def cmpLt (t : CmpTy) (orEq : Bool) (a b : Nat) : Bool × Nat :=
  match t with
  | .f32 => flt 23 orEq a b
  | .bf16 => flt 7 orEq a b
  | _ => (decide (slane (cmpBits t) a < slane (cmpBits t) b) || (orEq && a == b), 0)

/-- VCMP.EQ (R130). -/
def execVcmpEq (t : CmpTy) (qd : PReg) (va vb : Reg) (q : PReg) (s : State) : Out :=
  opCmp s (.vcmpEq t qd va vb q) (cmpBits t) qd va vb q (cmpEq t)
/-- VCMP.NE (R130). -/
def execVcmpNe (t : CmpTy) (qd : PReg) (va vb : Reg) (q : PReg) (s : State) : Out :=
  opCmp s (.vcmpNe t qd va vb q) (cmpBits t) qd va vb q (fun a b => (!(cmpEq t a b).1, (cmpEq t a b).2))
/-- VCMP.LT (R130). -/
def execVcmpLt (t : CmpTy) (qd : PReg) (va vb : Reg) (q : PReg) (s : State) : Out :=
  opCmp s (.vcmpLt t qd va vb q) (cmpBits t) qd va vb q (cmpLt t false)
/-- VCMP.LE (R130). -/
def execVcmpLe (t : CmpTy) (qd : PReg) (va vb : Reg) (q : PReg) (s : State) : Out :=
  opCmp s (.vcmpLe t qd va vb q) (cmpBits t) qd va vb q (cmpLt t true)
/-- VCMP.LTU (R130). -/
def execVcmpLtu (w : Width) (qd : PReg) (va vb : Reg) (q : PReg) (s : State) : Out :=
  opCmp s (.vcmpLtu w qd va vb q) (wbits w) qd va vb q (fun a b => (decide (a < b), 0))
/-- VCMP.LEU (R130). -/
def execVcmpLeu (w : Width) (qd : PReg) (va vb : Reg) (q : PReg) (s : State) : Out :=
  opCmp s (.vcmpLeu w qd va vb q) (wbits w) qd va vb q (fun a b => (decide (a ≤ b), 0))
/-- QAND (R131). -/
def execQand (qd qa qb : PReg) (s : State) : Out :=
  .next (s.slotOnly (.qand qd qa qb) (s.setQ qd (s.q qa &&& s.q qb)).advance)
/-- QOR (R131). -/
def execQor (qd qa qb : PReg) (s : State) : Out :=
  .next (s.slotOnly (.qor qd qa qb) (s.setQ qd (s.q qa ||| s.q qb)).advance)
/-- QXOR (R131). -/
def execQxor (qd qa qb : PReg) (s : State) : Out :=
  .next (s.slotOnly (.qxor qd qa qb) (s.setQ qd (s.q qa ^^^ s.q qb)).advance)
/-- QANDN (R131). -/
def execQandn (qd qa qb : PReg) (s : State) : Out :=
  .next (s.slotOnly (.qandn qd qa qb) (s.setQ qd (s.q qa &&& ~~~(s.q qb))).advance)
/-- QNOT (R131). -/
def execQnot (qd qa : PReg) (s : State) : Out := .next (s.slotOnly (.qnot qd qa) (s.setQ qd (~~~(s.q qa))).advance)
/-- QCNT (R131). -/
def execQcnt (gd : Reg) (qa : PReg) (s : State) : Out :=
  .next (s.slotOnly (.qcnt gd qa) (s.done gd (word (popN 64 (s.q qa).toNat))))
/-- QFROMG (R131). -/
def execQfromg (qd : PReg) (ga : Reg) (s : State) : Out :=
  .next (s.slotOnly (.qfromg qd ga) (s.guardP [ga] [] (s.setQ qd (s.g ga)).advance))
/-- QTOG (R131). -/
def execQtog (gd : Reg) (qa : PReg) (s : State) : Out := .next (s.slotOnly (.qtog gd qa) (s.done gd (s.q qa)))

end Sys2Proof.Machine
end

