-- ==== Sys2Proof/Machine/Dispatch.lean ====
section
/-! DEFINITION. The dispatch of a step to its meaning. -/

namespace Sys2Proof.Machine

/-- One arm per step of the Darif. -/
def exec (i : Instr) (s : State) : Host.Outcome State Fault Refusal :=
  match i with
  | .add gd ga gb => Sys2Proof.Machine.execAdd gd ga gb s
  | .sub gd ga gb => Sys2Proof.Machine.execSub gd ga gb s
  | .and gd ga gb => Sys2Proof.Machine.execAnd gd ga gb s
  | .or gd ga gb => Sys2Proof.Machine.execOr gd ga gb s
  | .xor gd ga gb => Sys2Proof.Machine.execXor gd ga gb s
  | .andn gd ga gb => Sys2Proof.Machine.execAndn gd ga gb s
  | .sll gd ga gb => Sys2Proof.Machine.execSll gd ga gb s
  | .srl gd ga gb => Sys2Proof.Machine.execSrl gd ga gb s
  | .sra gd ga gb => Sys2Proof.Machine.execSra gd ga gb s
  | .clt gd ga gb => Sys2Proof.Machine.execClt gd ga gb s
  | .cltu gd ga gb => Sys2Proof.Machine.execCltu gd ga gb s
  | .min gd ga gb => Sys2Proof.Machine.execMin gd ga gb s
  | .max gd ga gb => Sys2Proof.Machine.execMax gd ga gb s
  | .minu gd ga gb => Sys2Proof.Machine.execMinu gd ga gb s
  | .maxu gd ga gb => Sys2Proof.Machine.execMaxu gd ga gb s
  | .mul gd ga gb => Sys2Proof.Machine.execMul gd ga gb s
  | .mulh gd ga gb => Sys2Proof.Machine.execMulh gd ga gb s
  | .mulhu gd ga gb => Sys2Proof.Machine.execMulhu gd ga gb s
  | .div gd ga gb => Sys2Proof.Machine.execDiv gd ga gb s
  | .divu gd ga gb => Sys2Proof.Machine.execDivu gd ga gb s
  | .rem gd ga gb => Sys2Proof.Machine.execRem gd ga gb s
  | .remu gd ga gb => Sys2Proof.Machine.execRemu gd ga gb s
  | .clz gd ga => Sys2Proof.Machine.execClz gd ga s
  | .popc gd ga => Sys2Proof.Machine.execPopc gd ga s
  | .sel gd ga gb n => Sys2Proof.Machine.execSel gd ga gb n s
  | .addi gd ga imm => Sys2Proof.Machine.execAddi gd ga imm s
  | .andi gd ga imm => Sys2Proof.Machine.execAndi gd ga imm s
  | .ori gd ga imm => Sys2Proof.Machine.execOri gd ga imm s
  | .xori gd ga imm => Sys2Proof.Machine.execXori gd ga imm s
  | .clti gd ga imm => Sys2Proof.Machine.execClti gd ga imm s
  | .cltiu gd ga imm => Sys2Proof.Machine.execCltiu gd ga imm s
  | .insh0 gd ga imm => Sys2Proof.Machine.execInsh0 gd ga imm s
  | .insh1 gd ga imm => Sys2Proof.Machine.execInsh1 gd ga imm s
  | .insh2 gd ga imm => Sys2Proof.Machine.execInsh2 gd ga imm s
  | .insh3 gd ga imm => Sys2Proof.Machine.execInsh3 gd ga imm s
  | .slli gd ga sh => Sys2Proof.Machine.execSlli gd ga sh s
  | .srli gd ga sh => Sys2Proof.Machine.execSrli gd ga sh s
  | .srai gd ga sh => Sys2Proof.Machine.execSrai gd ga sh s
  | .ldB gd ga imm => Sys2Proof.Machine.execLdB gd ga imm s
  | .ldBu gd ga imm => Sys2Proof.Machine.execLdBu gd ga imm s
  | .ldH gd ga imm => Sys2Proof.Machine.execLdH gd ga imm s
  | .ldHu gd ga imm => Sys2Proof.Machine.execLdHu gd ga imm s
  | .ldW gd ga imm => Sys2Proof.Machine.execLdW gd ga imm s
  | .ldWu gd ga imm => Sys2Proof.Machine.execLdWu gd ga imm s
  | .ldD gd ga imm => Sys2Proof.Machine.execLdD gd ga imm s
  | .stB gs ga imm => Sys2Proof.Machine.execStB gs ga imm s
  | .stH gs ga imm => Sys2Proof.Machine.execStH gs ga imm s
  | .stW gs ga imm => Sys2Proof.Machine.execStW gs ga imm s
  | .stD gs ga imm => Sys2Proof.Machine.execStD gs ga imm s
  | .beq sa sb disp => Sys2Proof.Machine.execBeq sa sb disp s
  | .bne sa sb disp => Sys2Proof.Machine.execBne sa sb disp s
  | .blt sa sb disp => Sys2Proof.Machine.execBlt sa sb disp s
  | .bge sa sb disp => Sys2Proof.Machine.execBge sa sb disp s
  | .bltu sa sb disp => Sys2Proof.Machine.execBltu sa sb disp s
  | .bgeu sa sb disp => Sys2Proof.Machine.execBgeu sa sb disp s
  | .j disp => Sys2Proof.Machine.execJ disp s
  | .jal disp => Sys2Proof.Machine.execJal disp s
  | .jalr gd ga => Sys2Proof.Machine.execJalr gd ga s
  | .trap n => Sys2Proof.Machine.execTrap n s
  | .tret => Sys2Proof.Machine.execTret s
  | .ifence => Sys2Proof.Machine.execIfence s
  | .rdc gd n => Sys2Proof.Machine.execRdc gd n s
  | .bkpt => Sys2Proof.Machine.execBkpt s
  | .cwrd gd idx => Sys2Proof.Machine.execCwrd gd idx s
  | .cwwr idx ga => Sys2Proof.Machine.execCwwr idx ga s
  | .rptImmediate len sd sa sb count => Sys2Proof.Machine.execRptImmediate len sd sa sb count s
  | .rptRegister len sd sa sb ga => Sys2Proof.Machine.execRptRegister len sd sa sb ga s
  | .vadd w vd va vb q => Sys2Proof.Machine.execVadd w vd va vb q s
  | .vsub w vd va vb q => Sys2Proof.Machine.execVsub w vd va vb q s
  | .vmul w vd va vb q => Sys2Proof.Machine.execVmul w vd va vb q s
  | .vadds w vd va vb q => Sys2Proof.Machine.execVadds w vd va vb q s
  | .vsubs w vd va vb q => Sys2Proof.Machine.execVsubs w vd va vb q s
  | .vmin w vd va vb q => Sys2Proof.Machine.execVmin w vd va vb q s
  | .vmax w vd va vb q => Sys2Proof.Machine.execVmax w vd va vb q s
  | .vminu w vd va vb q => Sys2Proof.Machine.execVminu w vd va vb q s
  | .vmaxu w vd va vb q => Sys2Proof.Machine.execVmaxu w vd va vb q s
  | .vsll w vd va vb q => Sys2Proof.Machine.execVsll w vd va vb q s
  | .vsrl w vd va vb q => Sys2Proof.Machine.execVsrl w vd va vb q s
  | .vsra w vd va vb q => Sys2Proof.Machine.execVsra w vd va vb q s
  | .vabs w vd va q => Sys2Proof.Machine.execVabs w vd va q s
  | .vand vd va vb q => Sys2Proof.Machine.execVand vd va vb q s
  | .vor vd va vb q => Sys2Proof.Machine.execVor vd va vb q s
  | .vxor vd va vb q => Sys2Proof.Machine.execVxor vd va vb q s
  | .vandn vd va vb q => Sys2Proof.Machine.execVandn vd va vb q s
  | .vsel vd va vb q => Sys2Proof.Machine.execVsel vd va vb q s
  | .vfadd f vd va vb q => Sys2Proof.Machine.execVfadd f vd va vb q s
  | .vfsub f vd va vb q => Sys2Proof.Machine.execVfsub f vd va vb q s
  | .vfmul f vd va vb q => Sys2Proof.Machine.execVfmul f vd va vb q s
  | .vfma f vd va vb q => Sys2Proof.Machine.execVfma f vd va vb q s
  | .vfnma f vd va vb q => Sys2Proof.Machine.execVfnma f vd va vb q s
  | .vfmin f vd va vb q => Sys2Proof.Machine.execVfmin f vd va vb q s
  | .vfmax f vd va vb q => Sys2Proof.Machine.execVfmax f vd va vb q s
  | .vfabs f vd va q => Sys2Proof.Machine.execVfabs f vd va q s
  | .vfneg f vd va q => Sys2Proof.Machine.execVfneg f vd va q s
  | .vexp2 vd va q => Sys2Proof.Machine.execVexp2 vd va q s
  | .vrcp vd va q => Sys2Proof.Machine.execVrcp vd va q s
  | .vrsq vd va q => Sys2Proof.Machine.execVrsq vd va q s
  | .vcmpEq t qd va vb q => Sys2Proof.Machine.execVcmpEq t qd va vb q s
  | .vcmpNe t qd va vb q => Sys2Proof.Machine.execVcmpNe t qd va vb q s
  | .vcmpLt t qd va vb q => Sys2Proof.Machine.execVcmpLt t qd va vb q s
  | .vcmpLe t qd va vb q => Sys2Proof.Machine.execVcmpLe t qd va vb q s
  | .vcmpLtu w qd va vb q => Sys2Proof.Machine.execVcmpLtu w qd va vb q s
  | .vcmpLeu w qd va vb q => Sys2Proof.Machine.execVcmpLeu w qd va vb q s
  | .qand qd qa qb => Sys2Proof.Machine.execQand qd qa qb s
  | .qor qd qa qb => Sys2Proof.Machine.execQor qd qa qb s
  | .qxor qd qa qb => Sys2Proof.Machine.execQxor qd qa qb s
  | .qandn qd qa qb => Sys2Proof.Machine.execQandn qd qa qb s
  | .qnot qd qa => Sys2Proof.Machine.execQnot qd qa s
  | .qcnt gd qa => Sys2Proof.Machine.execQcnt gd qa s
  | .qfromg qd ga => Sys2Proof.Machine.execQfromg qd ga s
  | .qtog gd qa => Sys2Proof.Machine.execQtog gd qa s
  | .vrsumF32 gd va q => Sys2Proof.Machine.execVrsumF32 gd va q s
  | .vrmaxF32 gd va q => Sys2Proof.Machine.execVrmaxF32 gd va q s
  | .vrsumI32 gd va q => Sys2Proof.Machine.execVrsumI32 gd va q s
  | .vrmaxI32 gd va q => Sys2Proof.Machine.execVrmaxI32 gd va q s
  | .vbcast w vd ga => Sys2Proof.Machine.execVbcast w vd ga s
  | .vextr w gd va gb => Sys2Proof.Machine.execVextr w gd va gb s
  | .vins w vd ga gb => Sys2Proof.Machine.execVins w vd ga gb s
  | .vperm w vd va vb => Sys2Proof.Machine.execVperm w vd va vb s
  | .vslide w vd va gb => Sys2Proof.Machine.execVslide w vd va gb s
  | .vtopk vd va gb q => Sys2Proof.Machine.execVtopk vd va gb q s
  | .vtopkNz vd va gb q => Sys2Proof.Machine.execVtopkNz vd va gb q s
  | .vcompress vd va => Sys2Proof.Machine.execVcompress vd va s
  | .vcvtF32Bf16 vd va h q => Sys2Proof.Machine.execVcvtF32Bf16 vd va h q s
  | .vcvtBf16F32 vd va h q => Sys2Proof.Machine.execVcvtBf16F32 vd va h q s
  | .vcvtF32I32 vd va q => Sys2Proof.Machine.execVcvtF32I32 vd va q s
  | .vcvtI32F32 vd va q => Sys2Proof.Machine.execVcvtI32F32 vd va q s
  | .vcvtI8I32 vd va h q => Sys2Proof.Machine.execVcvtI8I32 vd va h q s
  | .vcvtUi8I32 vd va h q => Sys2Proof.Machine.execVcvtUi8I32 vd va h q s
  | .vcvtI32I8 vd va h q => Sys2Proof.Machine.execVcvtI32I8 vd va h q s
  | .vld vd ga gb q => Sys2Proof.Machine.execVld vd ga gb q s
  | .vst vs ga gb q => Sys2Proof.Machine.execVst vs ga gb q s
  | .vlds vd ga gb q => Sys2Proof.Machine.execVlds vd ga gb q s
  | .vsts vs ga gb q => Sys2Proof.Machine.execVsts vs ga gb q s
  | .vldx vd ga vb q => Sys2Proof.Machine.execVldx vd ga vb q s
  | .vstx vs ga vb q => Sys2Proof.Machine.execVstx vs ga vb q s
  | .vldb vd ga gb q => Sys2Proof.Machine.execVldb vd ga gb q s
  | .mldwBf16 ga => Sys2Proof.Machine.execMldwBf16 ga s
  | .mldwF32 ga => Sys2Proof.Machine.execMldwF32 ga s
  | .mldwP ga pl => Sys2Proof.Machine.execMldwP ga pl s
  | .mswap => Sys2Proof.Machine.execMswap s
  | .mmaBf16 m ga => Sys2Proof.Machine.execMmaBf16 m ga s
  | .mmaF32 m ga => Sys2Proof.Machine.execMmaF32 m ga s
  | .mmaP m ga pl => Sys2Proof.Machine.execMmaP m ga pl s
  | .mmasBf16 m v ga => Sys2Proof.Machine.execMmasBf16 m v ga s
  | .mmasP m v ga pl => Sys2Proof.Machine.execMmasP m v ga pl s
  | .mzero m => Sys2Proof.Machine.execMzero m s
  | .mldacc m ga => Sys2Proof.Machine.execMldacc m ga s
  | .mstacc m ga => Sys2Proof.Machine.execMstacc m ga s
  | .mstaccBf16 m ga => Sys2Proof.Machine.execMstaccBf16 m ga s
  | .mscale m ga => Sys2Proof.Machine.execMscale m ga s
  | .gang f m v ga pl => Sys2Proof.Machine.execGang f m v ga pl s
  | .gangT f m v ga pl => Sys2Proof.Machine.execGangT f m v ga pl s
  | .msave ga => Sys2Proof.Machine.execMsave ga s
  | .mrest ga => Sys2Proof.Machine.execMrest ga s
  | .mfree => Sys2Proof.Machine.execMfree s
  | .enq t port ga => Sys2Proof.Machine.execEnq t port ga s
  | .enqt t port gd ga => Sys2Proof.Machine.execEnqt t port gd ga s
  | .deq port gd => Sys2Proof.Machine.execDeq port gd s
  | .deqt port gd => Sys2Proof.Machine.execDeqt port gd s
  | .mbinc r ga gb => Sys2Proof.Machine.execMbinc r ga gb s
  | .mbwait ga gb => Sys2Proof.Machine.execMbwait ga gb s
  | .mbwaitT gd ga gb => Sys2Proof.Machine.execMbwaitT gd ga gb s
  | .mbrd gd ga => Sys2Proof.Machine.execMbrd gd ga s
  | .mbset ga gb => Sys2Proof.Machine.execMbset ga gb s
  | .bmv ga => Sys2Proof.Machine.execBmv ga s
  | .bfence => Sys2Proof.Machine.execBfence s
  | .pchk ga => Sys2Proof.Machine.execPchk ga s
  | .prec ga => Sys2Proof.Machine.execPrec ga s
  | .pstep gd ga => Sys2Proof.Machine.execPstep gd ga s
  | .pdrop gd ga gb => Sys2Proof.Machine.execPdrop gd ga gb s
  | .spawn gd ga gb => Sys2Proof.Machine.execSpawn gd ga gb s
  | .spawnat gd ga gb => Sys2Proof.Machine.execSpawnat gd ga gb s
  | .spawntrig gd ga gb => Sys2Proof.Machine.execSpawntrig gd ga gb s
  | .exit => Sys2Proof.Machine.execExit s
  | .tid gd => Sys2Proof.Machine.execTid gd s
  | .tcancel gd ga gb => Sys2Proof.Machine.execTcancel gd ga gb s
  | .rgid gd => Sys2Proof.Machine.execRgid gd s
  | .rgrd gd ga gb => Sys2Proof.Machine.execRgrd gd ga gb s
  | .rgwr gs ga gb => Sys2Proof.Machine.execRgwr gs ga gb s
  | .prd gd ga gb => Sys2Proof.Machine.execPrd gd ga gb s
  | .send gd ga gb => Sys2Proof.Machine.execSend gd ga gb s
  | .sendh gd ga gb => Sys2Proof.Machine.execSendh gd ga gb s
  | .sendt gd => Sys2Proof.Machine.execSendt gd s
  | .hend => Sys2Proof.Machine.execHend s
  | .cmask gd ga => Sys2Proof.Machine.execCmask gd ga s
  | .cunmask gd ga => Sys2Proof.Machine.execCunmask gd ga s
  | .hmask => Sys2Proof.Machine.execHmask s
  | .hunmask => Sys2Proof.Machine.execHunmask s
  | .fence sc sets => Sys2Proof.Machine.execFence sc sets s
  | .lda wd sc gd ga => Sys2Proof.Machine.execLda wd sc gd ga s
  | .stl wd sc ga gb => Sys2Proof.Machine.execStl wd sc ga gb s
  | .cas w32 sc gd ga gb => Sys2Proof.Machine.execCas w32 sc gd ga gb s
  | .amoAdd w32 sc gd ga gb => Sys2Proof.Machine.execAmoAdd w32 sc gd ga gb s
  | .amoAnd w32 sc gd ga gb => Sys2Proof.Machine.execAmoAnd w32 sc gd ga gb s
  | .amoOr w32 sc gd ga gb => Sys2Proof.Machine.execAmoOr w32 sc gd ga gb s
  | .amoXor w32 sc gd ga gb => Sys2Proof.Machine.execAmoXor w32 sc gd ga gb s
  | .amoMin w32 sc gd ga gb => Sys2Proof.Machine.execAmoMin w32 sc gd ga gb s
  | .amoMax w32 sc gd ga gb => Sys2Proof.Machine.execAmoMax w32 sc gd ga gb s
  | .amoMinu w32 sc gd ga gb => Sys2Proof.Machine.execAmoMinu w32 sc gd ga gb s
  | .amoMaxu w32 sc gd ga gb => Sys2Proof.Machine.execAmoMaxu w32 sc gd ga gb s
  | .amoSwap w32 sc gd ga gb => Sys2Proof.Machine.execAmoSwap w32 sc gd ga gb s
  | .amoFadd sc gd ga gb => Sys2Proof.Machine.execAmoFadd sc gd ga gb s
  | .cwb ga => Sys2Proof.Machine.execCwb ga s
  | .cinv ga => Sys2Proof.Machine.execCinv ga s
  | .cpf ga => Sys2Proof.Machine.execCpf ga s
  | .tlbinv ga gb => Sys2Proof.Machine.execTlbinv ga gb s
  | .probe gd ga gb => Sys2Proof.Machine.execProbe gd ga gb s
  | .mchopen gd ga => Sys2Proof.Machine.execMchopen gd ga s
  | .mrel gs ga gb => Sys2Proof.Machine.execMrel gs ga gb s
  | .mchclose gd ga => Sys2Proof.Machine.execMchclose gd ga s
  | .mchstat gd ga => Sys2Proof.Machine.execMchstat gd ga s
  | .ldf gd ga => Sys2Proof.Machine.execLdf gd ga s
  | .ldfe gd ga => Sys2Proof.Machine.execLdfe gd ga s
  | .ste gs ga => Sys2Proof.Machine.execSte gs ga s
  | .stf gs ga => Sys2Proof.Machine.execStf gs ga s
  | .ldfT gd ga gt => Sys2Proof.Machine.execLdfT gd ga gt s
  | .ldfeT gd ga gt => Sys2Proof.Machine.execLdfeT gd ga gt s
  | .steT gs ga gt => Sys2Proof.Machine.execSteT gs ga gt s
  | .tagrd gd ga => Sys2Proof.Machine.execTagrd gd ga s
  | .tagwr gs ga => Sys2Proof.Machine.execTagwr gs ga s
  | .smap gd ga gb => Sys2Proof.Machine.execSmap gd ga gb s
  | .sunmap ga => Sys2Proof.Machine.execSunmap ga s
  | .sflush ga gb => Sys2Proof.Machine.execSflush ga gb s
  | .mfill gd ga gb => Sys2Proof.Machine.execMfill gd ga gb s
  | .armh gd ga gb => Sys2Proof.Machine.execArmh gd ga gb s
  | .loadReply => Sys2Proof.Machine.execLoadReply s
  | .replyTimeout => Sys2Proof.Machine.execReplyTimeout s
  | .homeSliceRequest => Sys2Proof.Machine.execHomeSliceRequest s
  | .stashRecall => Sys2Proof.Machine.execStashRecall s
  | .parkRetry => Sys2Proof.Machine.execParkRetry s
  | .migrationArrival => Sys2Proof.Machine.execMigrationArrival s
  | .tfatal => Sys2Proof.Machine.execTfatal s
  | .taskPlacement => Sys2Proof.Machine.execTaskPlacement s
  | .switchForward => Sys2Proof.Machine.execSwitchForward s
  | .armedRelease => Sys2Proof.Machine.execArmedRelease s
  | .spawnatOutcome => Sys2Proof.Machine.execSpawnatOutcome s
  | .dispatch => Sys2Proof.Machine.execDispatch s
  | .taskPreemption => Sys2Proof.Machine.execTaskPreemption s
  | .slotSave => Sys2Proof.Machine.execSlotSave s
  | .fieldTick => Sys2Proof.Machine.execFieldTick s
  | .adaptiveLoop => Sys2Proof.Machine.execAdaptiveLoop s
  | .clusterFailure => Sys2Proof.Machine.execClusterFailure s
  | .messageArrival => Sys2Proof.Machine.execMessageArrival s
  | .handlerStart => Sys2Proof.Machine.execHandlerStart s
  | .maskedWindowClose => Sys2Proof.Machine.execMaskedWindowClose s
  | .atomicOperationMessage => Sys2Proof.Machine.execAtomicOperationMessage s
  | .replySink => Sys2Proof.Machine.execReplySink s
  | .counterChange => Sys2Proof.Machine.execCounterChange s
  | .mbwaitTimeout => Sys2Proof.Machine.execMbwaitTimeout s
  | .taggedRequestArrival => Sys2Proof.Machine.execTaggedRequestArrival s
  | .taggedRequestResend => Sys2Proof.Machine.execTaggedRequestResend s
  | .taggedWaitTimeout => Sys2Proof.Machine.execTaggedWaitTimeout s
  | .deqtTimeout => Sys2Proof.Machine.execDeqtTimeout s
  | .gangTimeout => Sys2Proof.Machine.execGangTimeout s
  | .triggeredCommandStart => Sys2Proof.Machine.execTriggeredCommandStart s
  | .copy => Sys2Proof.Machine.execCopy s
  | .get => Sys2Proof.Machine.execGet s
  | .put => Sys2Proof.Machine.execPut s
  | .rcopy => Sys2Proof.Machine.execRcopy s
  | .gather => Sys2Proof.Machine.execGather s
  | .scatter => Sys2Proof.Machine.execScatter s
  | .scatterReduction => Sys2Proof.Machine.execScatterReduction s
  | .carrelTurn => Sys2Proof.Machine.execCarrelTurn s
  | .directoryOperation => Sys2Proof.Machine.execDirectoryOperation s
  | .remoteRequest => Sys2Proof.Machine.execRemoteRequest s
  | .countedWriteArrival => Sys2Proof.Machine.execCountedWriteArrival s
  | .homeAcknowledge => Sys2Proof.Machine.execHomeAcknowledge s
  | .flagArrival => Sys2Proof.Machine.execFlagArrival s
  | .flagCompleteNotice => Sys2Proof.Machine.execFlagCompleteNotice s
  | .holdTimerExpiry => Sys2Proof.Machine.execHoldTimerExpiry s
  | .recount => Sys2Proof.Machine.execRecount s
  | .flagResend => Sys2Proof.Machine.execFlagResend s
  | .openRequest => Sys2Proof.Machine.execOpenRequest s
  | .openReply => Sys2Proof.Machine.execOpenReply s
  | .channelClose => Sys2Proof.Machine.execChannelClose s
  | .flitReceive => Sys2Proof.Machine.execFlitReceive s
  | .laneRetirement => Sys2Proof.Machine.execLaneRetirement s
  | .scrub => Sys2Proof.Machine.execScrub s
  | .debugStop => Sys2Proof.Machine.execDebugStop s
  | .dbgctlStop => Sys2Proof.Machine.execDbgctlStop s
  | .dbgctlResume => Sys2Proof.Machine.execDbgctlResume s
  | .debuggerWrite => Sys2Proof.Machine.execDebuggerWrite s
  | .controlWindowWrite => Sys2Proof.Machine.execControlWindowWrite s
  | .identity => Sys2Proof.Machine.execIdentity s
  | .attest => Sys2Proof.Machine.execAttest s
  | .firmware => Sys2Proof.Machine.execFirmware s
  | .status => Sys2Proof.Machine.execStatus s
  | .write => Sys2Proof.Machine.execWrite s
  | .read => Sys2Proof.Machine.execRead s
  | .launch => Sys2Proof.Machine.execLaunch s
  | .close => Sys2Proof.Machine.execClose s
  | .partition => Sys2Proof.Machine.execPartition s
  | .breakpoint => Sys2Proof.Machine.execBreakpoint s
  | .telemetry => Sys2Proof.Machine.execTelemetry s
  | .management => Sys2Proof.Machine.execManagement s
  | .reset => Sys2Proof.Machine.execReset s
  | .hold => Sys2Proof.Machine.execHold s
  | .verify => Sys2Proof.Machine.execVerify s
  | .initialise => Sys2Proof.Machine.execInitialise s
  | .join => Sys2Proof.Machine.execJoin s
  | .ready => Sys2Proof.Machine.execReady s
  | .powerGood => Sys2Proof.Machine.execPowerGood s
  | .powerRedivision => Sys2Proof.Machine.execPowerRedivision s
  | .trip => Sys2Proof.Machine.execTrip s
  | .tripPersisted => Sys2Proof.Machine.execTripPersisted s
  | .tripOutput => Sys2Proof.Machine.execTripOutput s
  | .moduleFault => Sys2Proof.Machine.execModuleFault s
  | .illegalInstruction => Sys2Proof.Machine.execIllegalInstruction s
  | .memoryPortRequest => Sys2Proof.Machine.execMemoryPortRequest s
  | .clusterUnitAtomic => Sys2Proof.Machine.execClusterUnitAtomic s
  | .storeAcknowledgement => Sys2Proof.Machine.execStoreAcknowledgement s
  | .atomicReply => Sys2Proof.Machine.execAtomicReply s
  | .sendQueueInjection => Sys2Proof.Machine.execSendQueueInjection s
  | .armedTaskArrival => Sys2Proof.Machine.execArmedTaskArrival s
  | .atomicOperationResend => Sys2Proof.Machine.execAtomicOperationResend s
  | .coreFailure => Sys2Proof.Machine.execCoreFailure s
  | .dieFailure => Sys2Proof.Machine.execDieFailure s
  | .vaultFailure => Sys2Proof.Machine.execVaultFailure s
  | .linkOrSwitchFailure => Sys2Proof.Machine.execLinkOrSwitchFailure s
  | .railFall => Sys2Proof.Machine.execRailFall s
  | .controlPortDown => Sys2Proof.Machine.execControlPortDown s
  | .controlPortUp => Sys2Proof.Machine.execControlPortUp s
  | .unknownFrame => Sys2Proof.Machine.execUnknownFrame s

end Sys2Proof.Machine
end

