-- ==== Sys2Proof/Machine/Issue.lean ====
section
/-! DEFINITION. Issue: which context issues, when its next instruction may, fetching and performing it, the boundaries at which
debug stops and saves are taken, the cycle (R67 to R71, R77, R195, R250, R369, R370, R375, R395). -/

namespace Sys2Proof.Machine

/-! ### Registers of an instruction (R68) -/

/-- g registers that the fields of an instruction name. -/
def gFields (i : Instr) : List Reg :=
  match i with
  | .add a b c | .sub a b c | .and a b c | .or a b c | .xor a b c | .andn a b c | .sll a b c | .srl a b c
  | .sra a b c | .clt a b c | .cltu a b c | .min a b c | .max a b c | .minu a b c | .maxu a b c | .mul a b c
  | .mulh a b c | .mulhu a b c | .div a b c | .divu a b c | .rem a b c | .remu a b c | .sel a b c _
  | .mbwaitT a b c | .pdrop a b c | .spawn a b c | .spawnat a b c | .spawntrig a b c | .tcancel a b c | .rgrd a b c
  | .rgwr a b c | .prd a b c | .send a b c | .sendh a b c | .cas _ _ a b c | .amoAdd _ _ a b c | .amoAnd _ _ a b c
  | .amoOr _ _ a b c | .amoXor _ _ a b c | .amoMin _ _ a b c | .amoMax _ _ a b c | .amoMinu _ _ a b c
  | .amoMaxu _ _ a b c | .amoSwap _ _ a b c | .amoFadd _ a b c | .probe a b c | .mrel a b c | .ldfT a b c
  | .ldfeT a b c | .steT a b c | .smap a b c | .mfill a b c | .armh a b c => [a, b, c]
  | .clz a b | .popc a b | .addi a b _ | .andi a b _ | .ori a b _ | .xori a b _ | .clti a b _ | .cltiu a b _
  | .insh0 a b _ | .insh1 a b _ | .insh2 a b _ | .insh3 a b _ | .slli a b _ | .srli a b _ | .srai a b _
  | .ldB a b _ | .ldBu a b _ | .ldH a b _ | .ldHu a b _ | .ldW a b _ | .ldWu a b _ | .ldD a b _ | .stB a b _
  | .stH a b _ | .stW a b _ | .stD a b _ | .beq a b _ | .bne a b _ | .blt a b _ | .bge a b _ | .bltu a b _
  | .bgeu a b _ | .jalr a b | .vextr _ a _ b | .vins _ _ a b | .vld _ a b _ | .vst _ a b _ | .vlds _ a b _
  | .vsts _ a b _ | .vldb _ a b _ | .enqt _ _ a b | .mbinc _ a b | .mbwait a b | .mbrd a b | .mbset a b
  | .pstep a b | .cmask a b | .cunmask a b | .lda _ _ a b | .stl _ _ a b | .tlbinv a b | .mchopen a b
  | .mchclose a b | .mchstat a b | .ldf a b | .ldfe a b | .ste a b | .stf a b | .tagrd a b | .tagwr a b
  | .sflush a b => [a, b]
  | .rdc a _ | .cwrd a _ | .cwwr _ a | .rptRegister _ _ _ _ a | .qcnt a _ | .qfromg _ a | .qtog a _
  | .vrsumF32 a _ _ | .vrmaxF32 a _ _ | .vrsumI32 a _ _ | .vrmaxI32 a _ _ | .vbcast _ _ a | .vslide _ _ _ a
  | .vtopk _ _ a _ | .vtopkNz _ _ a _ | .vldx _ a _ _ | .vstx _ a _ _ | .mldwBf16 a | .mldwF32 a | .mldwP a _
  | .mmaBf16 _ a | .mmaF32 _ a | .mmaP _ a _ | .mmasBf16 _ _ a | .mmasP _ _ a _ | .mldacc _ a | .mstacc _ a
  | .mstaccBf16 _ a | .mscale _ a | .gang _ _ _ a _ | .gangT _ _ _ a _ | .msave a | .mrest a | .enq _ _ a
  | .deq _ a | .deqt _ a | .bmv a | .pchk a | .prec a | .tid a | .rgid a | .sendt a | .cwb a | .cinv a | .cpf a
  | .sunmap a => [a]
  | _ => []

/-- Four consecutive registers (R261, R297, R358). -/
def four (r : Reg) : List Reg := [r, r + 1, r + 2, r + 3]

/-- g registers that an instruction reads or writes without a field: the link register, argument registers, request
words. -/
def gImplicit (i : Instr) : List Reg :=
  match i with
  | .jal _ => [1]
  | .enq _ _ a | .enqt _ _ _ a | .bmv a | .pchk a | .prec a => four a
  | .spawn _ _ _ | .spawnat _ _ _ | .spawntrig _ _ _ | .send _ _ _ | .sendh _ _ _ | .sendt _ => argRegs
  | _ => []

/-- v registers that an instruction reads or writes. -/
def vRegs (i : Instr) : List Reg :=
  match i with
  | .vtopk a b _ _ | .vtopkNz a b _ _ => [a, a + 1, b]
  | .vadd _ a b c _ | .vsub _ a b c _ | .vmul _ a b c _ | .vadds _ a b c _ | .vsubs _ a b c _ | .vmin _ a b c _
  | .vmax _ a b c _ | .vminu _ a b c _ | .vmaxu _ a b c _ | .vsll _ a b c _ | .vsrl _ a b c _ | .vsra _ a b c _
  | .vand a b c _ | .vor a b c _ | .vxor a b c _ | .vandn a b c _ | .vsel a b c _ | .vfadd _ a b c _
  | .vfsub _ a b c _ | .vfmul _ a b c _ | .vfma _ a b c _ | .vfnma _ a b c _ | .vfmin _ a b c _ | .vfmax _ a b c _
  | .vperm _ a b c => [a, b, c]
  | .vabs _ a b _ | .vfabs _ a b _ | .vfneg _ a b _ | .vexp2 a b _ | .vrcp a b _ | .vrsq a b _ | .vcmpEq _ _ a b _
  | .vcmpNe _ _ a b _ | .vcmpLt _ _ a b _ | .vcmpLe _ _ a b _ | .vcmpLtu _ _ a b _ | .vcmpLeu _ _ a b _
  | .vslide _ a b _ | .vcompress a b | .vcvtF32Bf16 a b _ _
  | .vcvtBf16F32 a b _ _ | .vcvtF32I32 a b _ | .vcvtI32F32 a b _ | .vcvtI8I32 a b _ _ | .vcvtUi8I32 a b _ _
  | .vcvtI32I8 a b _ _ | .vldx a _ b _ | .vstx a _ b _ => [a, b]
  | .vrsumF32 _ a _ | .vrmaxF32 _ a _ | .vrsumI32 _ a _ | .vrmaxI32 _ a _ | .vbcast _ a _ | .vextr _ _ a _
  | .vins _ a _ _ | .vld a _ _ _ | .vst a _ _ _ | .vlds a _ _ _ | .vsts a _ _ _ | .vldb a _ _ _ | .mmasBf16 _ a _ => [a]
  | .mmasP _ a _ _ => [a, a + 1]
  | .gang f _ a _ _ | .gangT f _ a _ _ => if f = .sp then [a, a + 1] else [a]
  | _ => []

/-- q registers that an instruction reads or writes. -/
def qRegs (i : Instr) : List PReg :=
  match i with
  | .sel _ _ _ q | .vadd _ _ _ _ q | .vsub _ _ _ _ q | .vmul _ _ _ _ q | .vadds _ _ _ _ q | .vsubs _ _ _ _ q
  | .vmin _ _ _ _ q | .vmax _ _ _ _ q | .vminu _ _ _ _ q | .vmaxu _ _ _ _ q | .vsll _ _ _ _ q | .vsrl _ _ _ _ q
  | .vsra _ _ _ _ q | .vabs _ _ _ q | .vand _ _ _ q | .vor _ _ _ q | .vxor _ _ _ q | .vandn _ _ _ q | .vsel _ _ _ q
  | .vfadd _ _ _ _ q | .vfsub _ _ _ _ q | .vfmul _ _ _ _ q | .vfma _ _ _ _ q | .vfnma _ _ _ _ q | .vfmin _ _ _ _ q
  | .vfmax _ _ _ _ q | .vfabs _ _ _ q | .vfneg _ _ _ q | .vexp2 _ _ q | .vrcp _ _ q | .vrsq _ _ q | .qcnt _ q
  | .qfromg q _ | .qtog _ q | .vrsumF32 _ _ q | .vrmaxF32 _ _ q | .vrsumI32 _ _ q | .vrmaxI32 _ _ q | .vtopk _ _ _ q
  | .vtopkNz _ _ _ q | .vcvtF32Bf16 _ _ _ q | .vcvtBf16F32 _ _ _ q | .vcvtF32I32 _ _ q | .vcvtI32F32 _ _ q
  | .vcvtI8I32 _ _ _ q | .vcvtUi8I32 _ _ _ q | .vcvtI32I8 _ _ _ q | .vld _ _ _ q | .vst _ _ _ q | .vlds _ _ _ q
  | .vsts _ _ _ q | .vldx _ _ _ q | .vstx _ _ _ q | .vldb _ _ _ q => [q]
  | .vcmpEq _ d _ _ q | .vcmpNe _ d _ _ q | .vcmpLt _ d _ _ q | .vcmpLe _ d _ _ q | .vcmpLtu _ d _ _ q
  | .vcmpLeu _ d _ _ q | .qnot d q => [d, q]
  | .qand a b c | .qor a b c | .qxor a b c | .qandn a b c => [a, b, c]
  | _ => []

/-- Whether a load of the context still has to write one of the instruction's registers. -/
def Core.busy (k : Core) (c : Nat) (i : Instr) : Bool :=
  k.outs.any (fun o => o.ctx == c && !o.discard && match o.dest with
    | .g r _ _ => r != 0 && ((gFields i).elem r || (gImplicit i).elem r)
    | .v r _ => (vRegs i).elem r
    | .bcast r _ => (vRegs i).elem r
    | _ => false)

/-- Whether an acquire of the context holds back every younger instruction (R280). -/
def Core.acquiring (k : Core) (c : Nat) : Bool := k.outs.any (fun o => o.ctx == c && o.acq)

/-! ### The next instruction -/

/-- The captured word a live frame stands at, as this iteration has it (R52). -/
def Frame.current (f : Frame) : IWord :=
  let w := f.words.getD f.pos 0
  match (decode w).bind strides with
  | some st => strideWord w st f.sd f.sa f.sb f.iter
  | none => w

/-- The word a context issues next, where it needs no translation to know it. -/
def State.peek (s : State) (c : CtxId) : Option IWord :=
  let x := s.ctx c
  match x.fq.find? (fun f => f.va == x.pc) with
  | some f => some f.word
  | none =>
    if x.pc.toNat < 0x40000 then some (BitVec.ofNat 32 (s.readLE (localLoc c.core x.pc.toNat) 4)) else none

/-! ### A live frame and the instructions after it (R54) -/

/-- The captured words of a frame as its iterations have them; from the 32nd on they repeat no new register. -/
def Frame.instrs (f : Frame) : List Instr :=
  (upto 0 (min f.count 32)).flatMap (fun i => f.words.filterMap (fun w =>
    match (decode w).bind strides with
    | some st => decode (strideWord w st f.sd f.sa f.sb i)
    | none => none))

/-- Whether two instructions share a register. -/
def shareRegs (i j : Instr) : Bool :=
  (gFields i ++ gImplicit i).any (fun r => r != 0 && ((gFields j).elem r || (gImplicit j).elem r))
    || (vRegs i).any (fun r => (vRegs j).elem r) || (qRegs i).any (fun r => r != 0 && (qRegs j).elem r)

/-- Instructions that wait for a live frame whatever their registers. -/
def awaitsFrame (i : Instr) : Bool :=
  match i with
  | .cwrd _ _ | .cwwr _ _ | .rptImmediate _ _ _ _ _ | .rptRegister _ _ _ _ _ | .exit | .trap _ | .tret
  | .gang _ _ _ _ _ | .gangT _ _ _ _ _ | .msave _ | .mrest _ => true
  | _ => false

/-- Whether a word is a matrix instruction (major 0x30). -/
def isMatrix (w : IWord) : Bool := fMaj w == 0x30
/-- Instructions that neither access memory nor release older reads: they may issue while a frame still reads tiles (R158,
R278 to R284). The others are loads and stores, engine and Manifest commands, sends, spawns, atomics and fences; an STL issues too,
and its store waits (R285). -/
def sparesTiles (i : Instr) : Bool :=
  match i with
  | .ldB _ _ _ | .ldBu _ _ _ | .ldH _ _ _ | .ldHu _ _ _ | .ldW _ _ _ | .ldWu _ _ _ | .ldD _ _ _ | .vld _ _ _ _
  | .vlds _ _ _ _ | .vldx _ _ _ _ | .vldb _ _ _ _ | .lda _ _ _ _ | .ldf _ _ | .ldfT _ _ _
  | .stB _ _ _ | .stH _ _ _ | .stW _ _ _ | .stD _ _ _ | .vst _ _ _ _ | .vsts _ _ _ _ | .vstx _ _ _ _ | .enq _ _ _
  | .enqt _ _ _ _ | .bmv _ | .pchk _ | .prec _ | .mbinc _ _ _ | .mbset _ _ | .spawn _ _ _ | .spawnat _ _ _
  | .spawntrig _ _ _ | .send _ _ _ | .sendh _ _ _ | .sendt _ | .fence _ _ | .cas _ _ _ _ _
  | .amoAdd _ _ _ _ _ | .amoAnd _ _ _ _ _ | .amoOr _ _ _ _ _ | .amoXor _ _ _ _ _ | .amoMin _ _ _ _ _
  | .amoMax _ _ _ _ _ | .amoMinu _ _ _ _ _ | .amoMaxu _ _ _ _ _ | .amoSwap _ _ _ _ _ | .amoFadd _ _ _ _
  | .cinv _ | .bfence | .mrel _ _ _ | .mchopen _ _ | .mchclose _ _ | .ldfe _ _ | .ldfeT _ _ _ | .ste _ _ | .stf _ _
  | .steT _ _ _ | .tagwr _ _ | .smap _ _ _ | .sunmap _ | .sflush _ _ | .mfill _ _ _ | .mfree | .ifence => false
  | _ => true

/-- Whether a later instruction waits until the frame ends (R54); one that writes memory or releases also waits for the
tile reads of the frame (R158, R280, R284). -/
def Frame.holds (f : Frame) (w : IWord) : Bool :=
  match decode w with
  | none => false
  | some i => awaitsFrame i || (isMatrix w && f.words.any isMatrix) || f.instrs.any (shareRegs i)
      || (!sparesTiles i && f.words.any readsTile)

/-- Whether an instruction waits for the stores of STLs that wait themselves (R278, R285): another STL does not. -/
def awaitsLate (w : IWord) : Bool :=
  match decode w with
  | some i => awaitsFrame i || isMatrix w || !sparesTiles i
  | none => false

/-- Whether the scalar stream of a context may issue beside its frame, and beside stores that wait for its tile reads. -/
def State.besideFrame (s : State) (c : CtxId) : Bool :=
  !(decide (0 < (s.ctx c).late) && (s.peek c).any awaitsLate) &&
  match (s.ctx c).frame with
  | none => true
  | some f => (s.ctx c).heldTrap.isNone && match s.peek c with
    | some w => !f.holds w
    | none => true

/-- The address of an instruction that makes one request outside the local range. -/
def State.singleVa (s : State) (c : CtxId) (i : Instr) : Option Word :=
  let g := fun r => (s.ctx c).greg r
  match i with
  | .ldB _ a m | .ldBu _ a m | .ldH _ a m | .ldHu _ a m | .ldW _ a m | .ldWu _ a m | .ldD _ a m | .stB _ a m | .stH _ a m
  | .stW _ a m | .stD _ a m => some (g a + simm m)
  | .vld _ a b _ | .vst _ a b _ | .vldb _ a b _ => some (g a + g b)
  | .lda _ _ _ a | .stl _ _ a _ | .cas _ _ _ a _ | .amoAdd _ _ _ a _ | .amoAnd _ _ _ a _ | .amoOr _ _ _ a _ | .amoXor _ _ _ a _
  | .amoMin _ _ _ a _ | .amoMax _ _ _ a _ | .amoMinu _ _ _ a _ | .amoMaxu _ _ _ a _ | .amoSwap _ _ _ a _ | .amoFadd _ _ a _ => some (g a)
  | _ => none

/-- Whether the next instruction of a context wants an outstanding-request entry that is not free (R67, R69). -/
def State.wantsEntry (s : State) (c : CtxId) : Bool :=
  match ((s.peek c).bind decode).bind (s.singleVa c) with
  | some va => decide (0x200000 ≤ va.toNat) && !s.mayIssue c 1
  | none => false

/-- Whether a context is held back by its outstanding requests (R68, R280). -/
def State.scoreboard (s : State) (c : CtxId) : Bool :=
  let k := s.core c.core
  k.acquiring c.ctx.val || match (s.peek c).bind decode with
    | some i => k.busy c.ctx.val i
    | none => false

/-- A context at an instruction that has not issued yet. -/
def Wait.fresh (w : Wait) : Bool :=
  match w with
  | .none => true
  | .stayed => true
  | .full => true
  | .oreq _ => true
  | .stalled => true
  | .parked id _ _ _ _ _ _ => id == 0
  | _ => false

/-- A wait that has what it waited for; one for request entries has it when they are free (R67, R69). -/
def State.waitOver (s : State) (c : CtxId) : Bool :=
  match (s.ctx c).wait with
  | .oreq n => s.mayIssue c n
  | w => w.fresh || s.waitMet c

/-- A restored owner waits for its slice, and for the queue that the former owner left to drain (R141). -/
def State.sliceWait (s : State) (c : CtxId) : Bool :=
  let x := (s.core c.core).slice
  (s.ctx c).img != [] && (x.owner.isSome || x.queue != [])

/-- Whether a context could issue but for the scoreboard. -/
def State.waiting (s : State) (c : CtxId) : Bool := (s.ctx c).running && s.waitOver c && !s.sliceWait c
/-- A context that can issue (R67). -/
def State.canIssue (s : State) (c : CtxId) : Bool :=
  s.waiting c && !((s.ctx c).wait.fresh && (s.scoreboard c || s.wantsEntry c)) && s.besideFrame c

/-- Whether the sequencer can issue the captured word its frame stands at (R54, R68). -/
def State.canSequence (s : State) (c : CtxId) : Bool :=
  let k := s.core c.core
  (s.ctx c).running && !s.sliceWait c && !k.acquiring c.ctx.val && match (s.ctx c).frame with
    | none => false
    | some f => match decode f.current with
      | some i => !k.busy c.ctx.val i
      | none => true

/-- A restored owner takes its slice back before its first instruction issues (R141). -/
def State.takeSlice (s : State) : State :=
  let x := s.my
  if x.img = [] then s
  else
    let s := s.setMyCore { s.myCore with slice := sliceOf (some s.cur.ctx.val) x.img [] }
    s.setMy { x with img := [] }

/-! ### Performing one instruction -/

/-- The lowest execute entry that the current context hits at its pc (R375). -/
def State.execHit (s : State) : Option Nat :=
  if s.my.skipNow || !s.my.wait.fresh then none
  else (upto 0 8).find? (fun n =>
    s.bpMatch n && bits (tget 0 s.plat.bpc n) 62 61 == 0 && tget 0 s.plat.bpa n == s.my.pc)

/-- Perform what the current context fetched at its pc: poison and an unassigned word fault (R31, R71). -/
def execFetched (s : State) (w : IWord) (pois : Bool) : Out :=
  if pois then .next (s.raise 0x0D s.my.pc)
  else match decode w with
  | some i => exec i s
  | none => exec .illegalInstruction { s with event := .illegalInstruction w }

/-- Fetch and perform the instruction at the pc of the current context (R71). -/
def execAtPc (s : State) : Out :=
  match s.fetch s.my.pc with
  | (s, .wait) => .next s
  | (s, .fault e) => .next (s.raise e s.my.pc)
  | (s, .word w p) => execFetched s w p

/-- Fetch the next word of a translated page, so that its registers can be seen; it issues later (R68, R71). -/
def fetchOnly (s : State) : State :=
  match s.fetch s.my.pc with
  | (s, .fault e) => s.raise e s.my.pc
  | (s, _) => s

/-- Perform the instruction at the pc of the current context, or take the breakpoint there. -/
def execOne (s : State) : Out :=
  match s.execHit with
  | some n => .next (s.breakHit n s.my.pc true)
  | none => if (s.peek s.cur).isNone then .next (fetchOnly s) else execAtPc s

/-- Perform the captured word a live frame stands at; what the scalar stream waits for stands aside (R52). -/
def execCaptured (s : State) (f : Frame) : Out :=
  let x := s.my
  match execFetched (s.setMy { x with onFrame := true, wait := .none, rbuf := [], rpois := [], skipNow := false }) f.current
    false with
  | .next t =>
    .next (if t.faulted then t.setCtx s.cur { t.ctx s.cur with onFrame := false }
      else t.setCtx s.cur { t.ctx s.cur with onFrame := false, wait := x.wait, rbuf := x.rbuf, rpois := x.rpois,
                                             skipNow := x.skipNow })
  | .fault e => .fault e
  | .refused r => .refused r

/-! ### What an issue counts (R250, R370) -/

/-- Whether an instruction that began at a fresh context has issued: the context left it, waits in it, or is gone. -/
def Ctx.issued (x : Ctx) : Bool := x.left || !x.live || match x.wait with
  | .counter _ _ _ _ _ => true
  | .tagged _ _ _ _ => true
  | .atomic _ _ _ _ _ => true
  | .completion _ _ _ _ => true
  | .gang _ => true
  | .spawnat _ _ _ _ => true
  | .recalled _ _ _ _ => true
  | .told _ _ _ => true
  | _ => false

/-- Whether a word is a vector instruction (R32: majors 0x28 to 0x2C). -/
def isVector (w : IWord) : Bool := decide (0x28 ≤ (fMaj w).toNat) && decide ((fMaj w).toNat ≤ 0x2C)

/-- One instruction less in the masked window of H0 (R250). -/
def State.spendWindow (s : State) (k : CoreId) : State :=
  let x := s.core k
  if x.winOpen = false then s
  else
    let s := s.setCore k { x with winLeft := x.winLeft - 1 }
    if x.winLeft ≤ 1 then s.post (.maskedWindowClose k) else s

/-- Count an instruction of context c issued from state `b`, now that `s` is reached. -/
def State.countIssue (b s : State) (c : CtxId) : State :=
  if (b.ctx c).wait.fresh && (s.ctx c).issued then
    let r := some (b.regionOf c)
    let s := s.count c.core 0x02 r 1
    let s := match b.peek c with
      | some w => if isVector w then s.count c.core 0x05 r 1 else s
      | none => s
    if c.ctx.val = 4 ∧ (b.core c.core).winOpen then s.spendWindow c.core else s
  else s

/-! ### Issue of one context -/

/-- The state in which a context's next instruction is performed. -/
def State.ready1 (s : State) (c : CtxId) : State :=
  let s := { s with cur := c, faulted := false }.takeSlice
  s.setMy { s.my with left := false }

/-- Issue from a context. -/
def issueRun (s : State) (c : CtxId) : Out :=
  match execOne (s.ready1 c) with
  | .next t => .next (s.countIssue t c)
  | .fault f => .fault f
  | .refused r => .refused r

/-- Count a captured instruction. -/
def State.countCaptured (b s : State) (c : CtxId) (w : IWord) : State :=
  let r := some (b.regionOf c)
  let s := s.count c.core 0x02 r 1
  if isVector w then s.count c.core 0x05 r 1 else s

/-- A wait of the scalar stream that a frame's fault lets end first (R55): what cannot be withdrawn, and a wait that has what it
waited for, which counts as performed (R256, R263). -/
def State.settles (s : State) (c : CtxId) : Bool :=
  s.bound c || s.waitMet c || match (s.ctx c).wait with
    | .remote => true
    | _ => false

/-- Issue the captured word of a context's frame; at the frame's end a held trap is taken (R54). When the word faults, a
waiting later instruction is withdrawn first, or, where R55 lets it complete, the captured one issues again later. -/
def sequence (s : State) (c : CtxId) : Out :=
  match (s.ctx c).frame with
  | none => .next s
  | some f =>
    if s.canSequence c = false then .next s
    else match execCaptured (s.ready1 c) f with
    | .next t =>
      if t.faulted = false then .next (s.countCaptured t c f.current).heldTrapNow
      else if s.recalls c then .next { s.recallSpawn c with faulted := false }
      else if s.settles c then .next { s with faulted := false }
      else match execCaptured ((s.ready1 c).withdraw c) f with
      | .next t => .next (s.countCaptured t c f.current)
      | .fault e => .fault e
      | .refused r => .refused r
    | .fault e => .fault e
    | .refused r => .refused r

/-- Whether a save asked for can be made or waited for (R188, R190). -/
def State.maySave (s : State) (c : CtxId) : Bool :=
  match (s.ctx c).task with
  | some t => (s.saveFind t.msg.region).isSome && s.roomToSave c.core.cluster t.msg.region
  | none => false

/-- A context held at its boundary by a stop or a save asked for. -/
def State.heldBack (s : State) (c : CtxId) : Bool :=
  (s.ctx c).stopReq || ((s.ctx c).saveReq && s.maySave c)

/-- The stop or save that a context at its boundary takes. -/
def State.takeRequest (s : State) (c : CtxId) : State :=
  s.post (if (s.ctx c).running && (s.ctx c).stopReq then .debugStop c else .slotSave c)

/-- Whether a context waits at an instruction that is under way: what ends in this cycle counts as performed (R218, R256,
R316, R348). -/
def Wait.pending (w : Wait) : Bool :=
  match w with
  | .none => false
  | .stayed => false
  | _ => true

/-- A context held at its boundary: when its next instruction faults, the trap is taken first (R77); a wait that ends now
counts as performed, and the stop or save comes after it. -/
def issueHeld (s : State) (c : CtxId) : Out :=
  if (s.ctx c).frame.isSome then
    if (s.ctx c).running = false ∨ s.sliceWait c then .next (s.takeRequest c)
    else if s.canSequence c = false then .next s
    else match sequence s c with
    | .next t => if t.faulted then .next t else .next (s.takeRequest c)
    | _ => .next (s.takeRequest c)
  else if (s.ctx c).running = false ∨ s.sliceWait c ∨ s.waitOver c = false then .next (s.takeRequest c)
  else if s.canIssue c = false then .next s
  else match issueRun s c with
  | .next t =>
    if t.faulted then .next t
    else if (s.ctx c).wait.pending && (t.ctx c).left then .next (t.takeRequest c)
    else .next (s.takeRequest c)
  | _ => .next (s.takeRequest c)

/-- Issue a context: nothing happens where it cannot. -/
def issue (s : State) (c : CtxId) : Out :=
  if (s.ctx c).live = false ∨ s.bound c then .next s
  else if s.heldBack c then issueHeld s c
  else if s.canIssue c then issueRun s c
  else .next s

/-! ### A second instruction (R67) -/

/-- Memory-class words: majors 0x10 to 0x1A, 0x2C, 0x30, 0x34, 0x3A, 0x3B and 0x3D. -/
def memoryClass (w : IWord) : Bool :=
  let m := (fMaj w).toNat
  (decide (0x10 ≤ m) && decide (m ≤ 0x1A)) || m == 0x2C || m == 0x30 || m == 0x34 || m == 0x3A || m == 0x3B || m == 0x3D

/-- Instructions that no second one issues beside. -/
def issuesAlone (i : Instr) : Bool :=
  match i with
  | .beq _ _ _ | .bne _ _ _ | .blt _ _ _ | .bge _ _ _ | .bltu _ _ _ | .bgeu _ _ _ | .j _ | .jal _ | .jalr _ _ | .trap _
  | .tret | .cwrd _ _ | .cwwr _ _ | .ifence | .rdc _ _ => true
  | _ => false

/-- Instructions that write no g register, though they name some. -/
def readsOnly (i : Instr) : Bool :=
  match i with
  | .stB _ _ _ | .stH _ _ _ | .stW _ _ _ | .stD _ _ _ | .qfromg _ _ | .vbcast _ _ _ | .vins _ _ _ _ | .vslide _ _ _ _
  | .vtopk _ _ _ _ | .vtopkNz _ _ _ _ | .vld _ _ _ _ | .vst _ _ _ _ | .vlds _ _ _ _ | .vsts _ _ _ _ | .vldb _ _ _ _
  | .vldx _ _ _ _ | .vstx _ _ _ _ | .mldwBf16 _ | .mldwF32 _ | .mldwP _ _ | .mmaBf16 _ _ | .mmaF32 _ _ | .mmaP _ _ _
  | .mmasBf16 _ _ _ | .mmasP _ _ _ _ | .mldacc _ _ | .mstacc _ _ | .mstaccBf16 _ _ | .mscale _ _ | .msave _ | .mrest _
  | .enq _ _ _ | .bmv _ | .pchk _ | .prec _ | .mbinc _ _ _ | .mbset _ _ | .mbwait _ _ | .mrel _ _ _
  | .stl _ _ _ _ | .cwb _ | .cinv _ | .cpf _ | .tlbinv _ _ | .ste _ _ | .stf _ _ | .tagwr _ _ | .sunmap _
  | .sflush _ _ | .rgwr _ _ _ | .gang _ _ _ _ _ | .gangT _ _ _ _ _ | .rptRegister _ _ _ _ _ => true
  | _ => false

/-- g, v and q registers that an instruction writes; conservative where a form writes none of those it names. -/
def gWrites (i : Instr) : List Reg :=
  match i with
  | .jal _ => [1]
  | .jalr a _ => [a]
  | .ldfT a _ c | .ldfeT a _ c => [a, c]
  | .steT _ _ c => [c]
  | i => if readsOnly i then [] else (gFields i).take 1
def vWrites (i : Instr) : List Reg :=
  match i with
  | .vtopk a _ _ _ | .vtopkNz a _ _ _ => [a, a + 1]
  | .vst _ _ _ _ | .vsts _ _ _ _ | .vstx _ _ _ _ | .vcmpEq _ _ _ _ _ | .vcmpNe _ _ _ _ _ | .vcmpLt _ _ _ _ _
  | .vcmpLe _ _ _ _ _ | .vcmpLtu _ _ _ _ _ | .vcmpLeu _ _ _ _ _ | .vrsumF32 _ _ _ | .vrmaxF32 _ _ _ | .vrsumI32 _ _ _
  | .vrmaxI32 _ _ _ | .vextr _ _ _ _ | .mmasBf16 _ _ _ | .mmasP _ _ _ _ | .gang _ _ _ _ _ | .gangT _ _ _ _ _ => []
  | i => (vRegs i).take 1
def qWrites (i : Instr) : List PReg :=
  match i with
  | .vcmpEq _ d _ _ _ | .vcmpNe _ d _ _ _ | .vcmpLt _ d _ _ _ | .vcmpLe _ d _ _ _ | .vcmpLtu _ d _ _ _
  | .vcmpLeu _ d _ _ _ | .qnot d _ | .qand d _ _ | .qor d _ _ | .qxor d _ _ | .qandn d _ _ | .qfromg d _ => [d]
  | _ => []

/-- Instructions that act beside the memory system in the very cycle of their issue: a message or a task leaves, counters are
read. -/
def actsAtOnce (i : Instr) : Bool :=
  match i with
  | .send _ _ _ | .sendh _ _ _ | .sendt _ | .spawn _ _ _ | .spawnat _ _ _ | .spawntrig _ _ _ | .rdc _ _ => true
  | _ => false
/-- Whether the order of R280, R282, R324 or R369 keeps the second of two instructions for a later cycle: the requests of the
first are performed at the start of the next, a TLBINV before any younger instruction issues. -/
def keptApart (w1 : IWord) (i j : Instr) : Bool :=
  (memoryClass w1 && actsAtOnce j) || match i with
    | .tlbinv _ _ => true
    | _ => false

/-- Whether a second word issues together with a first (R67). -/
def pairs (w1 w2 : IWord) : Bool :=
  match decode w1, decode w2 with
  | some i, some j =>
    !issuesAlone i && !keptApart w1 i j && !(memoryClass w1 && memoryClass w2) && !(isVector w1 && isVector w2)
      && !((gWrites i).any (fun r => r != 0 && ((gFields j).elem r || (gImplicit j).elem r)))
      && !((vWrites i).any (fun r => (vRegs j).elem r)) && !((qWrites i).any (fun r => r != 0 && (qRegs j).elem r))
  | _, _ => false

/-- Issue a second instruction of a context in the cycle in which the one at `pc` issued and was left. -/
def issuePair (s : State) (c : CtxId) (pc : Word) (w : IWord) : Out :=
  let x := s.ctx c
  if x.live = false ∨ s.heldBack c ∨ s.canIssue c = false ∨ x.left = false ∨ x.pc ≠ pc + 4 then .next s
  else match s.peek c with
  | some v => if pairs w v then issueRun s c else .next s
  | none => .next s

/-! ### The pick of a core (R67, R395) -/

/-- The handler context that may issue: H1 while it runs, else H0. -/
def State.handlerPick (s : State) (k : CoreId) : Option CtxId :=
  let c : CtxId := if (s.ctx ⟨k, 5⟩).running then ⟨k, 5⟩ else ⟨k, 4⟩
  if s.canIssue c && !s.heldBack c then some c else none

/-- The ready task slot that comes first after the slot picked last. -/
def State.slotPick (s : State) (k : CoreId) : Option CtxId :=
  let last := (s.core k).lastSlot
  ((upto 1 4).map (fun i => (⟨k, Fin.ofNat 6 ((last + i) % 4)⟩ : CtxId))).find? (fun c => s.canIssue c && !s.heldBack c)

/-- The context a core picks in this cycle, and the core as it remembers the pick. -/
def State.pick (s : State) (k : CoreId) : Option CtxId × Core :=
  let x := s.core k
  match s.handlerPick k, s.slotPick k with
  | some h, none => (some h, { x with lastHandler := true })
  | some h, some c =>
    if x.lastHandler then (some c, { x with lastHandler := false, lastSlot := c.ctx.val })
    else (some h, { x with lastHandler := true })
  | none, some c => (some c, { x with lastHandler := false, lastSlot := c.ctx.val })
  | none, none => (none, { x with lastHandler := false })

/-- Whether a core works in a cycle: it has not failed, and its duty lets it issue (R395; log entry 21). -/
def State.coreOn (s : State) (k : CoreId) : Bool :=
  !(s.core k).failed && !(s.cluster k.cluster).failed && decide (s.time % 16 < (s.cluster k.cluster).duty)

/-! ### The cycle -/

/-- The contexts that hold a task or a handler. -/
def State.liveCtxs (s : State) : List CtxId := (s.ctxs.filter (fun e => e.2.live)).map (fun e => CtxId.ofKey e.1)
/-- The cores they are in. -/
def State.liveCores (s : State) : List CoreId := (s.liveCtxs.map (fun c => c.core)).eraseDups

/-- The acts of contexts at which a stop or a save is asked for. -/
def State.requestActs (s : State) : List Act :=
  s.liveCtxs.flatMap (fun c =>
    if s.heldBack c then [.issue c] else if (s.ctx c).saveReq then [.ev (.slotSave c)] else [])

/-- The acts of the cluster units: a dispatch, a pre-emption. -/
def State.unitActs (s : State) : List Act :=
  s.clusters.flatMap (fun e =>
    let cl := ClusterId.ofKey e.1
    (if e.2.queue.all (fun q => q.msg.typ == 1) then [] else [.ev (.dispatch cl)])
      ++ (if e.2.queue ≠ [] ∧ (s.pressing cl).isSome then [.ev (.taskPreemption cl)] else []))

/-- The acts of a context that was picked: its next instruction, and perhaps the one after it (R67). -/
def State.pickActs (s : State) (c : CtxId) : List Act :=
  match s.peek c with
  | some w => [.issue c, .pair c (s.ctx c).pc w]
  | none => [.issue c]

/-- Let every working core pick a context. -/
def State.picks (s : State) : State × List Act :=
  ((s.liveCores).filter s.coreOn).foldl (fun r k =>
    match r.1.pick k with
    | (some c, x) => (r.1.setCore k x, r.2 ++ s.pickActs c)
    | (none, x) => (r.1.setCore k x, r.2)) (s, [])

/-- Whether a slot is ready for a matrix instruction, of its frame or after it, on a slice that it does not own. -/
def State.wantsSlice (s : State) (c : CtxId) : Bool :=
  (s.core c.core).slice.owner != some c.ctx.val && !s.heldBack c
    && ((s.canSequence c && (s.ctx c).frame.any (fun f => isMatrix f.current)) || (s.canIssue c && (s.peek c).any isMatrix))
/-- Whether a slot that waits for the slice comes before slot c in the rotation (R67, R140). -/
def State.sliceBefore (s : State) (c : CtxId) : Bool :=
  let last := (s.core c.core).lastSlot
  ((upto 1 4).map (fun i => (last + i) % 4)).takeWhile (fun n => n != c.ctx.val)
    |>.any (fun n => s.wantsSlice ⟨c.core, Fin.ofNat 6 n⟩)

/-- The frames that step in a cycle: those of working cores, at no boundary that a stop or save takes. One that waits for the
slice takes it in its turn of the rotation (R140). -/
def State.sequencerActs (s : State) : List Act :=
  (s.liveCtxs.filter (fun c => s.coreOn c.core && s.canSequence c && !s.heldBack c
    && !(s.wantsSlice c && s.sliceBefore c))).map Act.seq

/-- Add a cycle to the counters of a core that select code `ev`: always, or where a region they name is among some. -/
def Core.cycleCount (x : Core) (ev : Nat) (always : Bool) (rs : List Nat) : Nat → Core
  | 0 => x
  | n + 1 =>
    let x := x.cycleCount ev always rs n
    let sel := x.cwv (cwPCSEL + n)
    if bits sel 7 0 = ev ∧ (if bit sel 63 then rs.elem (bits sel 59 48) else always) then
      x.setCw (cwPCCNT + n) (x.cwv (cwPCCNT + n) + 1)
    else x

/-- A cycle of a core's slice: busy while an instruction is in its queue; the instructions whose cycles are over leave it,
completed (R145, R370 codes 0x06 and 0x07). -/
def Core.sliceCycle (x : Core) (now : Nat) : Core :=
  match x.slice.queue with
  | [] => x
  | e :: _ =>
    let y := ((x.slice.queue.filter (fun e => decide (e.1 ≤ now))).foldl (fun y e => pcAdd y 0x07 (some e.2) 1 16)
      (pcAdd x 0x06 (some e.2) 1 16))
    { y with slice := { y.slice with queue := y.slice.queue.filter (fun e => !decide (e.1 ≤ now)) } }

/-- Count a cycle in a core: the cycle of its slice, cycles, cycles a ready context waited on the scoreboard, cycles with OREQ full, and the bank conflicts, whose number is free
(R370; log entry 36); where a region filters, the cycle is an event of each context that is in the core. -/
def State.countCycle (s : State) (k : CoreId) : State :=
  let cs := (coreCtxs k).filter (fun c => (s.ctx c).live)
  let held := cs.filter (fun c => s.waiting c && (s.ctx c).wait.fresh && s.scoreboard c)
  let x := pcAdd ((s.core k).sliceCycle s.time) 0x08 none (Config.bankConflicts k.key s.time) 16
  let x := x.cycleCount 0x01 true (cs.map s.regionOf) 16
  let x := x.cycleCount 0x03 (held != []) (held.map s.regionOf) 16
  let full := decide (64 ≤ x.oreq)
  s.setCore k (x.cycleCount 0x04 full (if full then cs.map s.regionOf else []) 16)

/-- The next cycle: the time base advances, the cores count and pick, what falls due comes, and the tick ends every 64th
cycle (R195). -/
def State.nextCycle (s : State) : State :=
  let s := { s with time := s.time + 1 }
  let s := (s.cores.map (fun e => CoreId.ofKey e.1)).foldl State.countCycle s
  let (t, acts) := s.picks
  { t with agenda := (s.timers.filter (fun d => decide (d.1 ≤ s.time))).map (fun d => .ev d.2)
                       ++ s.requestActs ++ s.unitActs ++ s.sequencerActs ++ acts ++ (if s.tickCycle then [.ev .fieldTick] else []),
           timers := s.timers.filter (fun d => !decide (d.1 ≤ s.time)) }

/-- With nothing on the agenda: what is due now comes next, else the next cycle begins. -/
def State.onward (s : State) : State :=
  let due := s.timers.filter (fun t => decide (t.1 ≤ s.time))
  if due = [] then s.nextCycle
  else { s with agenda := due.map (fun t => .ev t.2), timers := s.timers.filter (fun t => !decide (t.1 ≤ s.time)) }

end Sys2Proof.Machine
end

