-- ==== Sys2Proof/Machine/Step.lean ====
section
/-! DEFINITION. One step of the machine: the head of the agenda, or what comes when the agenda is empty; the state that runs
a given instruction next. -/

namespace Sys2Proof.Machine

/-- One step: the act of the agenda that comes first, which is an event, an issue, a captured instruction, a second
instruction or the tests of a counter; or the way to the next cycle. -/
def step (s : State) : Host.Outcome State Fault Refusal :=
  match s.firstAct s.agenda with
  | none => .next s.onward
  | some (.ev e, t) => exec e.instr { s with agenda := t, event := e }
  | some (.issue c, t) => issue { s with agenda := t } c
  | some (.seq c, t) => sequence { s with agenda := t } c
  | some (.pair c pc w, t) => issuePair { s with agenda := t } c pc w
  | some (.test k n, t) => .next (State.testCounter { s with agenda := t } k n)

/-- The slot whose instruction withFetchWord runs. -/
def State.probeCtx (s : State) : CtxId := if s.cur.isHandler then ⟨s.cur.core, 0⟩ else s.cur

/-- A task message of region 0. -/
def plainTask : TaskMsg :=
  { typ := 0, rcls := 0, prio := 0, colour := 0, region := 0, cost := 1, kind := false, hops := 0, pull := 0, hdev := 0,
    sstamp := 0, hopt := 0, hdie := 0, hcls := 0, cat := 0, entry := 0, args := [0, 0, 0, 0, 0, 0], trig := 0, target := 0,
    join := 0 }

/-- The pc at which withFetchWord places the word: the slot's own where local memory holds it, else 0. -/
def State.probePc (s : State) : Word :=
  let p := (s.ctx s.probeCtx).pc
  if p.toNat < 0x3FFE0 ∧ p.toNat % 4 = 0 then p else 0

/-- The state whose next step runs the instruction with the word given: the word stands in local memory at the pc of a slot
that holds a task and waits for nothing, and the issue of that slot heads the agenda (log entry 22). -/
def State.withFetchWord (s : State) (nbits w : Nat) : State :=
  let c := s.probeCtx
  let x := s.ctx c
  let pc := s.probePc
  let y := { x with pc := pc, fq := [], frame := none, wait := .none, task := some (x.task.getD ⟨plainTask, false, false, false, 0, s.basicNow 0⟩),
                    stopReq := false, saveReq := false, img := [], handled := none,
                    cw := tdel x.cw cwDBGST }
  let s := s.setCtx c y
  let s := { s with cur := c, agenda := [.issue c], plat := { s.plat with phase := 5, bpc := [] } }
  let s := if s.myCore.outs = [] then s else s.setMyCore { s.myCore with outs := [] }
  s.poke (localLoc c.core pc.toNat) (leBytes 4 (w % 2 ^ nbits)) false

end Sys2Proof.Machine
end

