-- ==== Sys2Proof/Safety.lean ====
section
/-! DEFINITION. What counts as safe: a step that answers a next state, and the invariant of the state that claims use; and
the words in which claims say what a step leaves alone. -/

namespace Sys2Proof.Machine

/-- An outcome that is a next state. -/
def Completes (o : Host.Outcome State Fault Refusal) : Prop := ∃ t, o = .next t

/-- An outcome that is a next state with a property. -/
def CompletesWith (o : Host.Outcome State Fault Refusal) (p : State → Prop) : Prop := ∃ t, o = .next t ∧ p t

/-- The canonical form of a state's memory (log entry 2): the bytes. -/
def State.MemOk (s : State) : Prop := Memory.wf s.mem = true

/-- A run is safe as long as every step of it answers a next state whose memory is canonical. -/
def SafeFor : Nat → State → Prop
  | 0, s => s.MemOk
  | n + 1, s => s.MemOk ∧ ∃ t, step s = .next t ∧ SafeFor n t

/-! ### What a step leaves alone -/

/-- Nothing of the state differs but the current context. -/
def OnlyMine (s t : State) : Prop := { t with ctxs := s.ctxs } = s ∧ ∀ c, c ≠ s.cur → t.ctx c = s.ctx c

/-- Nothing differs between two contexts in the registers but those listed (g, q, v, control words by index), nor in the
task or the handled message. -/
structure Keeps (gs : List Reg) (qs : List PReg) (vs : List Reg) (cws : List Nat) (x y : Ctx) : Prop where
  g : ∀ r, r ∉ gs → y.greg r = x.greg r ∧ y.gpois.getLsbD r.toNat = x.gpois.getLsbD r.toNat
  q : ∀ r, r ∉ qs → y.qreg r = x.qreg r
  v : ∀ r, r ∉ vs → y.vreg r = x.vreg r ∧ y.vpois.getLsbD r.toNat = x.vpois.getLsbD r.toNat
  cw : ∀ n, n ∉ cws → y.cwv n = x.cwv n
  task : y.task = x.task
  handled : y.handled = x.handled

/-- A context moved past the instruction it stood at: a captured word steps its frame, any other moves the pc to the next
word (R52). -/
def Past (x y : Ctx) : Prop :=
  (x.onFrame = false → y.pc = x.pc + 4 ∧ y.frame = x.frame)
    ∧ (∀ f, x.onFrame = true → x.frame = some f → y.pc = x.pc ∧ y.frame = f.next)

/-- What leaving any instruction may touch: V of RPTST at a frame's end (R56), SKIP of DBGST (R376). -/
def leftWords : List Nat := [cwRPTST, cwDBGST]

/-- A step that changed nothing but registers of the current context: those listed. -/
def RegFrame (gs : List Reg) (qs : List PReg) (vs : List Reg) (cws : List Nat) (s t : State) : Prop :=
  OnlyMine s t ∧ Keeps gs qs vs (leftWords ++ cws) s.my t.my ∧ Past s.my t.my

/-- Every byte of memory and its poison marks are as before. -/
def SameMem (s t : State) : Prop := t.mem = s.mem ∧ t.pois = s.pois

/-! ### What instructions of registers alone use -/

/-- Sources and destinations of an instruction; `slot`: not for handler contexts (R60). -/
structure RegUse where
  srcG : List Reg
  srcV : List Reg
  dstG : List Reg
  dstQ : List PReg
  dstV : List Reg
  flags : Bool
  slot : Bool

/-- Scalar use. -/
def useG (gs : List Reg) (gd : Reg) : Option RegUse := some ⟨gs, [], [gd], [], [], false, false⟩
/-- Vector use. -/
def useV (vs : List Reg) (vd : Reg) : Option RegUse := some ⟨[], vs, [], [], [vd], false, true⟩
/-- Vector float use: FFLAGS too. -/
def useF (vs : List Reg) (vd : Reg) : Option RegUse := some ⟨[], vs, [], [], [vd], true, true⟩
/-- Compares. -/
def useC (vs : List Reg) (qd : PReg) : Option RegUse := some ⟨[], vs, [], [qd], [], true, true⟩
/-- Predicate operations. -/
def useQ (gs : List Reg) (qd : PReg) : Option RegUse := some ⟨gs, [], [], [qd], [], false, true⟩

/-- The registers that the instructions of registers alone read and write (R81 to R84, R127 to R138); none for any other
instruction. -/
def regOnly (i : Instr) : Option RegUse :=
  match i with
  | .add d a b | .sub d a b | .and d a b | .or d a b | .xor d a b | .andn d a b | .sll d a b | .srl d a b | .sra d a b
  | .clt d a b | .cltu d a b | .min d a b | .max d a b | .minu d a b | .maxu d a b | .mul d a b | .mulh d a b
  | .mulhu d a b | .div d a b | .divu d a b | .rem d a b | .remu d a b | .sel d a b _ => useG [a, b] d
  | .clz d a | .popc d a | .addi d a _ | .andi d a _ | .ori d a _ | .xori d a _ | .clti d a _ | .cltiu d a _
  | .insh0 d a _ | .insh1 d a _ | .insh2 d a _ | .insh3 d a _ | .slli d a _ | .srli d a _ | .srai d a _ => useG [a] d
  | .vadd _ d a b _ | .vsub _ d a b _ | .vmul _ d a b _ | .vadds _ d a b _ | .vsubs _ d a b _ | .vmin _ d a b _
  | .vmax _ d a b _ | .vminu _ d a b _ | .vmaxu _ d a b _ | .vsll _ d a b _ | .vsrl _ d a b _ | .vsra _ d a b _
  | .vand d a b _ | .vor d a b _ | .vxor d a b _ | .vandn d a b _ | .vsel d a b _ | .vperm _ d a b => useV [a, b] d
  | .vabs _ d a _ | .vfabs _ d a _ | .vfneg _ d a _ | .vcompress d a => useV [a] d
  | .vfadd _ d a b _ | .vfsub _ d a b _ | .vfmul _ d a b _ | .vfmin _ d a b _ | .vfmax _ d a b _ => useF [a, b] d
  | .vfma _ d a b _ | .vfnma _ d a b _ => useF [a, b, d] d
  | .vexp2 d a _ | .vrcp d a _ | .vrsq d a _ | .vcvtF32Bf16 d a _ _ | .vcvtBf16F32 d a _ _ | .vcvtF32I32 d a _
  | .vcvtI32F32 d a _ | .vcvtI8I32 d a _ _ | .vcvtUi8I32 d a _ _ | .vcvtI32I8 d a _ _ => useF [a] d
  | .vcmpEq _ d a b _ | .vcmpNe _ d a b _ | .vcmpLt _ d a b _ | .vcmpLe _ d a b _ | .vcmpLtu _ d a b _
  | .vcmpLeu _ d a b _ => useC [a, b] d
  | .qand d _ _ | .qor d _ _ | .qxor d _ _ | .qandn d _ _ | .qnot d _ => useQ [] d
  | .qfromg d a => useQ [a] d
  | .qcnt d _ | .qtog d _ => some ⟨[], [], [d], [], [], false, true⟩
  | .vrsumF32 d a _ | .vrmaxF32 d a _ => some ⟨[], [a], [d], [], [], true, true⟩
  | .vrsumI32 d a _ | .vrmaxI32 d a _ => some ⟨[], [a], [d], [], [], false, true⟩
  | .vbcast _ d a => some ⟨[a], [], [], [], [d], false, true⟩
  | .vextr _ d a b => some ⟨[b], [a], [d], [], [], false, true⟩
  | .vins _ d a b => some ⟨[a, b], [], [], [], [d], false, true⟩
  | .vslide _ d a b => some ⟨[b], [a], [], [], [d], false, true⟩
  | _ => none

/-- FFLAGS where an instruction may set flags (R107). -/
def RegUse.cws (u : RegUse) : List Nat := if u.flags then [cwFFLAGS] else []

/-- No source of the current context is poisoned (R76 step 4, R78, R117). -/
def State.Clean (s : State) (gs vs : List Reg) : Prop := s.my.poisoned gs vs = none

/-- The current context is a task slot. -/
def State.InSlot (s : State) : Prop := s.cur.isHandler = false

/-! ### Accesses to local memory, and lanes -/

/-- A scalar load or store: whether it stores, its bytes, whether it sign-extends, its data register, base, immediate. -/
structure MemForm where
  store : Bool
  size : Nat
  signed : Bool
  data : Reg
  base : Reg
  imm : BitVec 16

/-- The scalar loads and stores (R85). -/
def memForm (i : Instr) : Option MemForm :=
  match i with
  | .ldB d a m => some ⟨false, 1, true, d, a, m⟩
  | .ldBu d a m => some ⟨false, 1, false, d, a, m⟩
  | .ldH d a m => some ⟨false, 2, true, d, a, m⟩
  | .ldHu d a m => some ⟨false, 2, false, d, a, m⟩
  | .ldW d a m => some ⟨false, 4, true, d, a, m⟩
  | .ldWu d a m => some ⟨false, 4, false, d, a, m⟩
  | .ldD d a m => some ⟨false, 8, false, d, a, m⟩
  | .stB d a m => some ⟨true, 1, false, d, a, m⟩
  | .stH d a m => some ⟨true, 2, false, d, a, m⟩
  | .stW d a m => some ⟨true, 4, false, d, a, m⟩
  | .stD d a m => some ⟨true, 8, false, d, a, m⟩
  | _ => none

/-- Its source registers (R87). -/
def MemForm.sources (f : MemForm) : List Reg := if f.store then [f.base, f.data] else [f.base]
/-- Its effective address (R86). -/
def MemForm.ea (f : MemForm) (s : State) : Word := s.g f.base + f.imm.signExtend 64

/-- The breakpoint table has no entry that matches the current context (R375). -/
def State.NoBreak (s : State) : Prop := ∀ n, s.bpMatch n = false

/-- n bytes of local memory of the core, aligned, that no stash window covers (R19, R220), with no breakpoint entry that
matches. -/
structure State.PlainLocal (s : State) (a : Word) (n : Nat) : Prop where
  inside : a.toNat + n ≤ 0x40000
  aligned : a.toNat % n = 0
  noStash : ∀ j, j < n → s.myCore.stashAt (a.toNat + j) = none
  noBreak : s.NoBreak

/-- The key in memory of a local address of the current core. -/
def State.myLoc (s : State) (a : Word) : Nat := localLoc s.cur.core a.toNat

/-- Nothing of the device differs but memory, poison marks and the current context. -/
def OnlyMemAndMine (s t : State) : Prop :=
  { t with mem := s.mem, pois := s.pois, ctxs := s.ctxs } = s ∧ ∀ c, c ≠ s.cur → t.ctx c = s.ctx c

/-- Lane n of width w of a vector register (R102). -/
def laneAt (w : Nat) (v : VWord) (n : Nat) : Nat := v.toNat / 2 ^ (w * n) % 2 ^ w
/-- Lane n is active: bit B × n of the predicate, with B the bytes of the lane (R120). -/
def laneOn (w : Nat) (q : Word) (n : Nat) : Bool := q.getLsbD (w / 8 * n)
/-- The active lanes of `new` hold f modulo 2^w, the others what `old` held (R121). -/
def VecResult (w : Nat) (q : Word) (old new : VWord) (f : Nat → Nat) : Prop :=
  ∀ n, n < 512 / w → laneAt w new n = if laneOn w q n then f n % 2 ^ w else laneAt w old n

/-- Lane n of width w of a vector register as a signed number. -/
def slaneAt (w : Nat) (v : VWord) (n : Nat) : Int := slane w (laneAt w v n)
/-- A number clamped to the signed range of w bits, as a lane. -/
def clampAt (w : Nat) (x : Int) : Nat := ulane w (max (-(2 ^ (w - 1))) (min x (2 ^ (w - 1) - 1)))
/-- A register whose lanes of width w are all given by f modulo 2^w. -/
def AllLanes (w : Nat) (new : VWord) (f : Nat → Nat) : Prop := ∀ n, n < 512 / w → laneAt w new n = f n % 2 ^ w
/-- The flags that lanes raise are added to FFLAGS, those of active lanes only (R107, R108). -/
def FlagsAdded (w : Nat) (q : Word) (lanes : Nat) (old new : Word) (fl : Nat → Nat) : Prop :=
  ∀ k, k < 5 → new.getLsbD k = (old.getLsbD k || (List.range lanes).any (fun n => laneOn w q n && (fl n).testBit k))
/-- The balanced tree of R113 over 2^d leaves from leaf i × 2^d on. -/
def treeOf (f : Nat → Nat → Nat) (leaf : Nat → Nat) : Nat → Nat → Nat
  | 0, i => leaf i
  | d + 1, i => f (treeOf f leaf d (2 * i)) (treeOf f leaf d (2 * i + 1))
/-- The flags of its nodes. -/
def treeFlags (f : Nat → Nat → Nat × Nat) (leaf : Nat → Nat) : Nat → Nat → Nat
  | 0, _ => 0
  | d + 1, i => treeFlags f leaf d (2 * i) ||| treeFlags f leaf d (2 * i + 1) |||
      (f (treeOf (fun a b => (f a b).1) leaf d (2 * i)) (treeOf (fun a b => (f a b).1) leaf d (2 * i + 1))).2

/-- The number of a finite FP32 pattern (R98, R99). -/
def f32Val (x : Nat) : ℚ :=
  match fval 23 x with
  | .fin s m e => (if s then -1 else 1) * m * (2 : ℚ) ^ e
  | _ => 0
/-- One unit in the last place of a normal FP32 pattern (R114). -/
def f32Ulp (x : Nat) : ℚ := (2 : ℚ) ^ ((x / 2 ^ 23 % 256 : Nat) - 150 : Int)
/-- A normal FP32 pattern of a sign. -/
def F32Normal (neg : Bool) (x : Nat) : Prop :=
  x < 2 ^ 32 ∧ 1 ≤ x / 2 ^ 23 % 256 ∧ x / 2 ^ 23 % 256 ≤ 254 ∧ x.testBit 31 = neg
/-- The flags of a result rounded once: NX where it is inexact, OF where it overflows, UF where it is subnormal and inexact (R107,
R108). -/
def roundFlags (inexact inf tiny : Bool) : Nat :=
  (if inexact then 16 else 0) + (if inf then 2 else 0) + (if tiny && inexact then 4 else 0)

/-- k steps of a live frame (R52): none once it has ended. -/
def Frame.after (f : Frame) : Nat → Option Frame
  | 0 => some f
  | k + 1 =>
    match f.after k with
    | some g => g.next
    | none => none

/-- A frame that R53 lets go live: 1 to 16 words, strides 0 to 3, a count below 2^32, standing inside. -/
structure Frame.Ok (f : Frame) : Prop where
  some : 0 < f.words.length
  few : f.words.length ≤ 16
  sd : f.sd < 4
  sa : f.sa < 4
  sb : f.sb < 4
  count : f.count < 2 ^ 32
  iter : f.iter < f.count
  pos : f.pos < f.words.length

/-! ### The matrix slice -/

/-- The current context may use the slice of its core: free and drained, or its own with room in the queue (R139, R140). -/
def State.MaySlice (s : State) : Prop :=
  s.slice.owner = none ∧ s.slice.queue = [] ∨ s.slice.owner = some s.cur.ctx.val ∧ s.slice.queue.length < 8
/-- No stash window is mapped on the core of the current context. -/
def State.NoStash (s : State) : Prop := ∀ off, s.myCore.stashAt off = none
/-- n bytes of local memory at a local address. -/
def inLocal (a : Word) (n : Nat) : Prop := a.toNat + n ≤ 0x40000
/-- Row i of accumulator m (R139). -/
def Slice.row (x : Slice) (m i : Nat) : VWord := tget 0 x.acc (16 * m + i)
/-- A matrix instruction of the current context that touched no memory: the slice is as `p` says and owned by the slot, the
instruction is the last of its queue, its registers are kept but the control words listed, and it has moved on (R139, R140,
R156). -/
structure SliceStep (cws : List Nat) (p : Slice → Prop) (s t : State) : Prop where
  slice : p t.slice
  owner : t.slice.owner = some s.cur.ctx.val
  queue : ∃ e, t.slice.queue = s.slice.queue ++ [e] ∧ s.time ≤ e.1 ∧ ∀ d ∈ s.slice.queue, d.1 ≤ e.1
  mem : SameMem s t
  keeps : Keeps [] [] [] (leftWords ++ cws) s.my t.my
  past : Past s.my t.my
  others : ∀ c, c ≠ s.cur → t.ctx c = s.ctx c
/-- A slice that hardware can hold: formats 0 to 3, two to eight planes exactly in format P. -/
structure Plane.Ok (x : Plane) : Prop where
  fmt : x.fmt < 4
  planes : if x.fmt = 3 then 2 ≤ x.planes ∧ x.planes ≤ 8 else x.planes = 0

/-! ### Engine ports and quiet memory -/

/-- No poison, no stash copy, no failed vault and no slice line in which an error arose on the device: an access at a home slice
moves nothing but its own bytes. -/
structure State.Quiet (s : State) : Prop where
  pois : s.pois = []
  stash : ∀ p ∈ s.cores, p.2.stash = []
  vaults : ∀ p ∈ s.clusters, p.2.vaultFailed = false
  lines : ∀ p ∈ s.clusters, ∀ e ∈ p.2.lines, ∀ l, e.2 = some l → l.bad = false

/-- Port p of the current core took the command in the four registers from ga on, with what it samples at issue (R262); armed
on a counter and target, or queued or started at once. -/
def Took (s t : State) (p : Nat) (ga : Reg) (kind : CmdKind) (armed : Option (BitVec 6 × BitVec 32)) : Prop :=
  ∃ c ∈ (t.myCore.port p).cmds, c.id = s.nextId + 1 ∧ c.ctx = s.cur.ctx.val ∧ c.kind = kind ∧ c.orphan = false
    ∧ c.w0 = s.g ga ∧ c.w1 = s.g (ga + 1) ∧ c.w2 = s.g (ga + 2) ∧ c.w3 = s.g (ga + 3)
    ∧ (match armed with
       | some (n, v) => c.state = .armed n v
       | none => c.state = .queued ∨ c.state = .started)

/-- Command c of port p ended with a status: its entry is gone, its completion word is the newest of the port unless NQ or
orphaned, and its LCV increment is on the way (R260, R265, R267). -/
def Finished (s t : State) (k : CoreId) (p : Nat) (c : Command) (status aux : Nat) : Prop :=
  (∀ d ∈ ((t.core k).port p).cmds, d.id ≠ c.id)
    ∧ ((t.core k).port p).done = ((s.core k).port p).done ++ (if c.w3.getLsbD 62 || c.orphan then [] else
        [⟨c.ctx, c.complWord status aux, false, (s.ctx ⟨k, Fin.ofNat 6 c.ctx⟩).stopped⟩])
    ∧ (c.w3.getLsbD 63 = true → .ev (.counterChange k (BitVec.ofNat 6 (bits c.w3 61 56)) false 1 false) ∈ t.agenda)

/-- A started command of port p as it starts: nothing of it done yet. -/
structure State.Started (s : State) (k : CoreId) (p : Nat) (c : Command) : Prop where
  running : ((s.core k).port p).running c.id = some c
  fresh : c.progress = 0 ∧ c.applied = 0 ∧ c.skipped = 0 ∧ c.pois = false ∧ c.interval = 0

/-- n bytes of local memory in the local range: their key in memory. -/
def locKey (k : CoreId) (va : Word) (n key : Nat) : Prop := va.toNat + n ≤ 0x40000 ∧ key = localLoc k va.toNat
/-- n bytes of a core of this device through the window, which the command's colour may reach: their key in memory. -/
def winKey (s : State) (c : Command) (va : Word) (n key : Nat) : Prop :=
  let pa := va.toNat % 2 ^ 56
  va.toNat / 2 ^ 56 = 0xFF ∧ s.onDieOk pa = true ∧ paDev pa = s.dev ∧ paOff pa + n ≤ 0x40000
    ∧ s.colourOk (paCoreId pa) c.colour = true ∧ key = paLoc pa
/-- n bytes at a and n' bytes at b do not overlap. -/
def apart (a n b n' : Nat) : Prop := a + n ≤ b ∨ b + n' ≤ a

/-! ### The control port -/

/-- A frame of a type that the device performs (R385 to R389): the port is up, the frame before it complete, the tag
good under a session, the number the one expected, the type open without a session, the header well formed with a length of n,
the phase right. -/
structure State.Accepts (s : State) (typ : Nat) (f : CFrame) (n : Nat) : Prop where
  up : s.plat.portUp = true ∧ s.plat.vaux = true
  free : s.portBusy = false
  authentic : s.plat.authentic typ f n = true
  order : f.seq = s.plat.expSeq
  allowed : s.plat.session ≠ none ∨ typ ∈ [0x01, 0x02, 0x03, 0x04, 0x3F]
  flags : f.flags < 2
  short : n ≤ 0x100000
  hold : typ = 0x03 → s.plat.phase = 1
  trained : typ ∈ [0x10, 0x11] → 4 ≤ s.plat.phase
  ready : typ ∈ [0x20, 0x21, 0x22, 0x23] → s.plat.phase = 5 ∧ s.plat.failPhase = 0

/-- The frame a reply is on the wire (R386, R388): the type with bit 15, its number, status and phase, and the payload; under a
session encrypted and tagged. -/
def replyFrame (p : Platform) (typ seq status phase : Nat) (payload : List Byte) : OutFrame :=
  p.sealed 2 { typ := typ + 0x8000, seq := seq, addr := status + phase * 2 ^ 8, payload := payload }
/-- The reply to a frame of a type (R388), under the session in which the frame came. -/
def Replied (s t : State) (typ : Nat) (f : CFrame) (status : Nat) (payload : List Byte) : Prop :=
  t.plat.sent = s.plat.sent ++ [replyFrame s.plat typ f.seq status t.plat.phase payload]
/-- The reply that a frame performed gets only when its FLAGS ask for one. -/
def RepliedIf (s t : State) (typ : Nat) (f : CFrame) : Prop :=
  t.plat.sent = s.plat.sent ++ (if f.flags = 1 then [replyFrame s.plat typ f.seq 0 t.plat.phase []] else [])
/-- A frame that is refused with a status has no effect but its reply and the number expected next (R388, R389). -/
def RefusedFrame (s t : State) (typ : Nat) (f : CFrame) (status : Nat) : Prop :=
  t = { s with plat := { s.plat with
    expSeq := s.plat.expSeq + 1, sent := s.plat.sent ++ [replyFrame s.plat typ f.seq status s.plat.phase []] } }
/-- A notice in clear (R392). -/
def noticeFrame (p : Platform) (code : Nat) (payload : List Byte) : OutFrame :=
  { typ := 0x50, seq := p.noticeSeq, addr := code, payload := payload }
/-- A notice with its code and payload goes out, or is kept while the port is down (R392). -/
def Noticed (s t : State) (code : Nat) (payload : List Byte) : Prop :=
  (s.plat.portUp = true → t.plat.sent = s.plat.sent ++ [s.plat.sealed 3 (noticeFrame s.plat code payload)]
    ∧ t.plat.noticeSeq = s.plat.noticeSeq + 1)
  ∧ (s.plat.portUp = false → s.plat.kept.length < 64 → t.plat.sent = s.plat.sent
    ∧ t.plat.kept = s.plat.kept ++ [noticeFrame s.plat code payload])
/-- A device in Hold: nothing runs, is queued or under way, memory and registers are clear, and no session exists (R383,
R389). What the port has sent or keeps stays. -/
structure State.InHold (s t : State) : Prop where
  phase : t.plat.phase = 1 ∧ t.plat.session = none ∧ t.plat.expSeq = 0 ∧ t.plat.joined = false ∧ t.plat.verified = false
  clear : t.mem = [] ∧ t.pois = [] ∧ t.tags = [] ∧ t.counters = [] ∧ t.ctxs = [] ∧ t.cores = [] ∧ t.dies = []
  idle : t.agenda = [] ∧ t.timers = [] ∧ t.time = 0
  kept : t.plat.kept = s.plat.kept ∧ t.plat.portUp = s.plat.portUp

end Sys2Proof.Machine
end

