-- ==== Sys2Proof/Certificates/Slice0/Obligations.lean ====
section
/-! DEFINITION. The statements for the provers, one per definition; OBLIGATIONS.json lists them. -/

open Sys2Proof Sys2Proof.Machine

/-! ### Reset, the step, fetch and decode -/

/-- Right after reset the device is in phase 1, Hold (R383), its time base counts from zero, no slot holds a task, no handler
runs, every control word of a context, a core or a cluster reads what its map gives for reset (R6, R62), and of the region
control blocks only the root has bits set: SCHED.HOPS is 24, WMASK 0xFFFF and MASK all ones (R168, R253, R291). The zero of the
registers and memory is the model's choice (log entries 2, 3, 5). -/
def Claim.ResetState : Prop :=
  State.reset.plat.phase = 1 ∧ State.reset.time = 0
    ∧ (∀ c, (State.reset.ctx c).live = false ∧ (State.reset.ctx c).frame = none)
    ∧ (∀ c i, (State.reset.ctx c).cwv i = cwReset i) ∧ (∀ k i, (State.reset.core k).cwv i = cwReset i)
    ∧ (∀ cl i, (State.reset.cluster cl).cwv i = cwReset i)
    ∧ (∀ c r, (State.reset.ctx c).greg r = 0 ∧ (State.reset.ctx c).vreg r = 0 ∧ (State.reset.ctx c).gpois = 0)
    ∧ (State.reset.schedHops 0 = 24 ∧ State.reset.wmask 0 = 0xFFFF ∧ State.reset.regEff 0 17 = 0xFFFFFFFFFFFFFFFF
        ∧ ∀ n k, ¬ (n = 0 ∧ k ∈ [2, 16, 17]) → k < 32 → State.reset.regOwn n k = 0)
    ∧ ∀ a, State.reset.byte a = 0

/-- The memory of the reset state has its canonical form (log entry 2). -/
def Claim.ResetMemoryCanonical : Prop := State.reset.MemOk

/-- Every step keeps the canonical form of memory: addresses rise strictly and no listed byte is zero (log entry 2). -/
def Obligations.StepKeepsMemoryCanonical : Prop := ∀ s t : State, s.MemOk → step s = .next t → t.MemOk

/-- A step performs the act of the agenda that comes first (log entry 1): of the acts of least rank, the one put there first. An
event is performed by exec with its operands in the state; an issue, a captured word and a second instruction go to their
context; a counter's waits are tested; with nothing on the agenda time goes on. -/
def Claim.StepHeadOfAgenda : Prop :=
  ∀ s : State,
    (∀ l a t, s.firstAct l = some (a, t) → ∃ p q, l = p ++ a :: q ∧ t = p ++ q
      ∧ (∀ b ∈ p, s.rank a < s.rank b) ∧ ∀ b ∈ q, s.rank a ≤ s.rank b)
    ∧ (∀ l, s.firstAct l = none → l = [])
    ∧ (∀ e t, s.firstAct s.agenda = some (.ev e, t) → step s = exec e.instr { s with agenda := t, event := e })
    ∧ (∀ c t, s.firstAct s.agenda = some (.issue c, t) → step s = issue { s with agenda := t } c)
    ∧ (∀ c t, s.firstAct s.agenda = some (.seq c, t) → step s = sequence { s with agenda := t } c)
    ∧ (∀ c pc w t, s.firstAct s.agenda = some (.pair c pc w, t) → step s = issuePair { s with agenda := t } c pc w)
    ∧ (∀ k n t, s.firstAct s.agenda = some (.test k n, t) → step s = .next (State.testCounter { s with agenda := t } k n))
    ∧ (s.agenda = [] → step s = .next s.onward)

/-- A step runs the decoded instruction (R31, R71): a context that can issue, at no boundary request and at no breakpoint,
whose pc lies word-aligned in local memory, fetches the four bytes there, least significant first, as the word w; when w is
not poisoned, the step is exec of what w decodes to, in the state with the fetch queue filled, and then the counts of R370.
A word that decodes to nothing is the illegal-instruction step of R31. -/
def Claim.StepRunsDecoded : Prop :=
  ∀ (s : State) (c : CtxId) (rest : List Act) (w : IWord),
    s.firstAct s.agenda = some (.issue c, rest) →
    (s.ctx c).live = true → State.bound { s with agenda := rest } c = false →
    State.heldBack { s with agenda := rest } c = false → State.canIssue { s with agenda := rest } c = true →
    (s.ctx c).frame = none → (s.ctx c).img = [] → (s.ctx c).fq = [] →
    (s.ctx c).pc.toNat < 0x40000 → (s.ctx c).pc.toNat % 4 = 0 →
    s.plat.bpc = [] →
    w = BitVec.ofNat 32 (s.readLE (localLoc c.core (s.ctx c).pc.toNat) 4) →
    s.readBad (localLoc c.core (s.ctx c).pc.toNat) 4 = false →
    let s1 := State.ready1 { s with agenda := rest } c
    let pc := s1.my.pc
    let ws := s1.codeAt (localLoc c.core pc.toNat) (min 8 ((0x40000 - pc.toNat) / 4))
    let s2 := s1.setMy { s1.my with fq := fetchedFrom pc (ws.take 8) }
    step s = match (match decode w with
        | some i => exec i s2
        | none => exec .illegalInstruction { s2 with event := .illegalInstruction w }) with
      | .next t => .next (State.countIssue { s with agenda := rest } t c)
      | .fault f => .fault f
      | .refused r => .refused r

/-- A step runs an instruction fetched before, of local memory or of a translated page (R71): the word w that the fetch queue
holds for the pc, not poisoned, is performed as what it decodes to. -/
def Claim.StepRunsFetched : Prop :=
  ∀ (s : State) (c : CtxId) (rest : List Act) (f : Fetched),
    s.firstAct s.agenda = some (.issue c, rest) →
    (s.ctx c).live = true → State.bound { s with agenda := rest } c = false →
    State.heldBack { s with agenda := rest } c = false → State.canIssue { s with agenda := rest } c = true →
    (s.ctx c).frame = none → (s.ctx c).pc.toNat % 4 = 0 → s.plat.bpc = [] →
    (s.ctx c).fq.find? (fun f => f.va == (s.ctx c).pc) = some f → f.pois = false →
    let s1 := State.ready1 { s with agenda := rest } c
    step s = match (match decode f.word with
        | some i => exec i s1
        | none => exec .illegalInstruction { s1 with event := .illegalInstruction f.word }) with
      | .next t => .next (State.countIssue { s with agenda := rest } t c)
      | .fault f => .fault f
      | .refused r => .refused r

/-- Words of the spec's own examples, and words written from its tables, decode to the instructions they stand for. -/
def Obligations.SpecWordsDecode : Prop :=
  decode 0x04C74000 = some (.add 6 7 8) ∧ decode 0x04642882 = some (.sel 3 4 5 2)
    ∧ decode 0x08A2FFF0 = some (.addi 5 2 0xFFF0) ∧ decode 0x7480FFFD = some (.bne 4 0 0xFFFD)
    ∧ decode 0x20E00056 = some (.insh0 7 0 0x56) ∧ decode 0x28E71234 = some (.insh2 7 7 0x1234)
    ∧ decode 0xA5008003 = some (.vfma .f32 8 0 16 0) ∧ decode 0xE0000003 = some .exit
    ∧ decode 0xF0140004 = some (.rptImmediate 0 1 1 0 4) ∧ decode 0x90010000 = some (.jalr 0 1)
    ∧ decode 0x90002801 = some (.trap 5) ∧ decode 0x90000002 = some .tret ∧ decode 0x90A01804 = some (.rdc 5 3)
    ∧ decode 0xB0242800 = some (.vld 1 4 5 0) ∧ decode 0xA8411882 = some (.vcmpLt .f32 2 1 3 0)
    ∧ decode 0xA0A63B43 = some (.vadds .i16 5 6 7 3) ∧ decode 0xAC803011 = some (.vtopkNz 4 0 6 0)
    ∧ decode 0 = none ∧ decode 0xFFFFFFFF = none

/-- Decoding the encoding of any well-formed instruction gives it back, at every value of every operand (R26 to R41). -/
def Obligations.DecodeEncode : Prop :=
  ∀ i : Instr, i.encoded = true → wellFormed i = true → decode (encode i) = some i

/-- A word that decodes is the encoding of what it decodes to, and that is well formed: no reserved bit is ignored and no
word has two readings (R7, R30, R31). -/
def Obligations.EncodeDecode : Prop :=
  ∀ (w : IWord) (i : Instr), decode w = some i → i.encoded = true ∧ wellFormed i = true ∧ encode i = w

/-! ### Registers and moving on -/

/-- g0 reads as zero and a write to it is discarded; q0 reads as all ones and a write to it is discarded; every other
register reads what was written last, and a write to one leaves the others (R58). -/
def Claim.RegisterFile : Prop :=
  ∀ (x : Ctx) (w : Word) (z : VWord),
    x.greg 0 = 0 ∧ x.qreg 0 = BitVec.allOnes 64 ∧ x.setG 0 w = x ∧ x.setQ 0 w = x
    ∧ (∀ r, r ≠ 0 → (x.setG r w).greg r = w) ∧ (∀ r d, d ≠ r → (x.setG r w).greg d = x.greg d)
    ∧ (∀ r, r ≠ 0 → (x.setQ r w).qreg r = w) ∧ (∀ r d, d ≠ r → (x.setQ r w).qreg d = x.qreg d)
    ∧ (∀ r, (x.setV r z).vreg r = z) ∧ (∀ r d, d ≠ r → (x.setV r z).vreg d = x.vreg d)

/-- What the next states that other statements name hold. `done gd w` writes w to gd (nothing when gd is g0) and clears its
poison bit, changes nothing else of the device, and moves past the instruction; `advance` writes nothing and moves past;
`jump t` sets the pc to t. A captured word steps its frame in place of the pc (R52, R58, R78). -/
def Claim.DoneEffect : Prop :=
  ∀ (s : State) (gd : Reg) (w : Word),
    (RegFrame [gd] [] [] [] s (s.done gd w) ∧ (s.done gd w).g gd = (if gd = 0 then 0 else w)
      ∧ (gd ≠ 0 → (s.done gd w).my.gpois.getLsbD gd.toNat = false))
    ∧ RegFrame [] [] [] [] s s.advance
    ∧ (OnlyMine s (s.jump w) ∧ Keeps [] [] [] leftWords s.my (s.jump w).my ∧ (s.jump w).my.pc = w
        ∧ (s.jump w).my.frame = s.my.frame)

/-- The instructions of registers alone complete and change nothing but their destinations: for every one of them, with no
poisoned source and, for the vector forms, in a task slot, exec answers a next state in which only the destination
registers (and FFLAGS where R107 says the form sets flags) differ, and the context has moved past the instruction
(R58, R81 to R84, R107, R127 to R134, R138). -/
def Claim.RegOnlyFrame : Prop :=
  ∀ (i : Instr) (u : RegUse) (s : State),
    regOnly i = some u → s.Clean u.srcG u.srcV → (u.slot = true → s.InSlot) →
    CompletesWith (exec i s) (fun t => RegFrame u.dstG u.dstQ u.dstV u.cws s t)

/-- A poisoned source of any of those instructions raises fault 0x0D with TVAL the lowest poisoned g source, or 0x100 + the
lowest poisoned v source, before any other effect; a vector form in a handler context raises 0x01 first (R60, R76, R78,
R117). -/
def Claim.RegOnlyPoison : Prop :=
  ∀ (i : Instr) (u : RegUse) (s : State) (n : Nat),
    regOnly i = some u → 
    ((u.slot = true → s.InSlot) → s.my.poisoned u.srcG u.srcV = some n → exec i s = .next (s.raise 0x0D (word n)))
    ∧ (u.slot = true → ¬ s.InSlot → exec i s = .next (s.raise 0x01 ((encode i).setWidth 64)))

/-! ### Scalar arithmetic -/

/-- Every instruction of map A with two sources writes gd as R81's table gives, with no fault at any operand, division by
zero and −2^63 by −1 among them. -/
def Claim.MapAResults : Prop :=
  ∀ (s : State) (d x y : Reg), s.Clean [x, y] [] →
    let a := s.g x
    let b := s.g y
    let n := b.toNat % 64
    exec (.add d x y) s = .next (s.done d (a + b)) ∧ exec (.sub d x y) s = .next (s.done d (a - b))
    ∧ exec (.and d x y) s = .next (s.done d (a &&& b)) ∧ exec (.or d x y) s = .next (s.done d (a ||| b))
    ∧ exec (.xor d x y) s = .next (s.done d (a ^^^ b)) ∧ exec (.andn d x y) s = .next (s.done d (a &&& ~~~b))
    ∧ exec (.sll d x y) s = .next (s.done d (a <<< n)) ∧ exec (.srl d x y) s = .next (s.done d (a >>> n))
    ∧ exec (.sra d x y) s = .next (s.done d (a.sshiftRight n))
    ∧ exec (.clt d x y) s = .next (s.done d (if a.toInt < b.toInt then 1 else 0))
    ∧ exec (.cltu d x y) s = .next (s.done d (if a.toNat < b.toNat then 1 else 0))
    ∧ exec (.min d x y) s = .next (s.done d (BitVec.ofInt 64 (min a.toInt b.toInt)))
    ∧ exec (.max d x y) s = .next (s.done d (BitVec.ofInt 64 (max a.toInt b.toInt)))
    ∧ exec (.minu d x y) s = .next (s.done d (BitVec.ofNat 64 (min a.toNat b.toNat)))
    ∧ exec (.maxu d x y) s = .next (s.done d (BitVec.ofNat 64 (max a.toNat b.toNat)))
    ∧ exec (.mul d x y) s = .next (s.done d (BitVec.ofNat 64 (a.toNat * b.toNat)))
    ∧ exec (.mulh d x y) s = .next (s.done d (BitVec.ofInt 64 (a.toInt * b.toInt / 2 ^ 64)))
    ∧ exec (.mulhu d x y) s = .next (s.done d (BitVec.ofNat 64 (a.toNat * b.toNat / 2 ^ 64)))
    ∧ exec (.div d x y) s = .next (s.done d
        (if b = 0 then 0xFFFFFFFFFFFFFFFF else BitVec.ofInt 64 (a.toInt.tdiv b.toInt)))
    ∧ exec (.divu d x y) s = .next (s.done d
        (if b = 0 then 0xFFFFFFFFFFFFFFFF else BitVec.ofNat 64 (a.toNat / b.toNat)))
    ∧ (∀ q : PReg, exec (.sel d x y q) s = .next (s.done d (if (s.q q).getLsbD 0 then a else b)))

/-- REM and REMU write a − b × the quotient that DIV and DIVU write, modulo 2^64, and a when b = 0; with b not zero an
unsigned remainder is below b, and a signed one takes the sign of a and is smaller in magnitude than b (R81). -/
def Claim.RemainderResults : Prop :=
  ∀ (s : State) (d x y : Reg), s.Clean [x, y] [] →
    let a := s.g x
    let b := s.g y
    ∃ r r' : Word,
      exec (.rem d x y) s = .next (s.done d r) ∧ exec (.remu d x y) s = .next (s.done d r')
      ∧ (b = 0 → r = a ∧ r' = a)
      ∧ (b ≠ 0 → r = a - b * BitVec.ofInt 64 (a.toInt.tdiv b.toInt) ∧ r' = a - b * BitVec.ofNat 64 (a.toNat / b.toNat)
          ∧ r'.toNat < b.toNat ∧ r.toInt.natAbs < b.toInt.natAbs
          ∧ (0 ≤ a.toInt → 0 ≤ r.toInt) ∧ (a.toInt ≤ 0 → r.toInt ≤ 0))

/-- CLZ writes the number of leading zero bits of a, 64 when a = 0; POPC writes the number of set bits of a (R81). -/
def Claim.ClzPopcResults : Prop :=
  ∀ (s : State) (d x : Reg), s.Clean [x] [] →
    let a := s.g x
    (∃ n : Nat, n ≤ 64 ∧ exec (.clz d x) s = .next (s.done d (BitVec.ofNat 64 n))
      ∧ (∀ k, k < n → a.getLsbD (63 - k) = false) ∧ (n < 64 → a.getLsbD (63 - n) = true))
    ∧ exec (.popc d x) s = .next (s.done d (BitVec.ofNat 64 ((List.range 64).countP (fun k => a.getLsbD k))))

/-- The immediate forms and the shifts by an immediate compute the map A operation with the immediate read as R28 fixes
for each: sign-extended for ADDI, CLTI and CLTIU, zero-extended for ANDI, ORI and XORI, six bits for the shifts. -/
def Claim.ImmediateResults : Prop :=
  ∀ (s : State) (d x : Reg) (imm : BitVec 16) (sh : BitVec 6), s.Clean [x] [] →
    let a := s.g x
    let si : Word := imm.signExtend 64
    let zi : Word := imm.setWidth 64
    exec (.addi d x imm) s = .next (s.done d (a + si)) ∧ exec (.andi d x imm) s = .next (s.done d (a &&& zi))
    ∧ exec (.ori d x imm) s = .next (s.done d (a ||| zi)) ∧ exec (.xori d x imm) s = .next (s.done d (a ^^^ zi))
    ∧ exec (.clti d x imm) s = .next (s.done d (if a.toInt < si.toInt then 1 else 0))
    ∧ exec (.cltiu d x imm) s = .next (s.done d (if a.toNat < si.toNat then 1 else 0))
    ∧ exec (.slli d x sh) s = .next (s.done d (a <<< sh.toNat)) ∧ exec (.srli d x sh) s = .next (s.done d (a >>> sh.toNat))
    ∧ exec (.srai d x sh) s = .next (s.done d (a.sshiftRight sh.toNat))

/-- INSH.k copies ga into gd with halfword k replaced by the immediate, for k from 0 to 3; with ga = g0 INSH.0 zero-extends
it; the majors are 0x08 to 0x0B (R83). -/
def Obligations.InshResult : Prop :=
  ∀ (s : State) (d x : Reg) (imm : BitVec 16), s.Clean [x] [] →
    let r := fun k : Nat => (s.g x &&& ~~~((0xFFFF : Word) <<< (16 * k))) ||| (imm.setWidth 64 <<< (16 * k))
    exec (.insh0 d x imm) s = .next (s.done d (r 0)) ∧ exec (.insh1 d x imm) s = .next (s.done d (r 1))
    ∧ exec (.insh2 d x imm) s = .next (s.done d (r 2)) ∧ exec (.insh3 d x imm) s = .next (s.done d (r 3))
    ∧ (x = 0 → r 0 = imm.setWidth 64)
    ∧ let word : BitVec 6 → IWord := fun major => major ++ d ++ x ++ imm
      encode (.insh0 d x imm) = word 0x08 ∧ encode (.insh1 d x imm) = word 0x09 ∧ encode (.insh2 d x imm) = word 0x0A
      ∧ encode (.insh3 d x imm) = word 0x0B

/-! ### Branches, jumps, traps and system instructions -/

/-- Each branch goes to its own address + 4 × the sign-extended displacement modulo 2^64 where its condition on sa and sb
holds, signed for BLT and BGE and unsigned for BLTU and BGEU, and to the next word where it does not; the majors are 0x1C to
0x21 (R29, R89). -/
def Obligations.BranchTargets : Prop :=
  ∀ (s : State) (x y : Reg) (disp : BitVec 16), s.Clean [x, y] [] →
    let a := s.g x
    let b := s.g y
    let go : Bool → State := fun c => if c then s.jump (s.my.pc + 4 * disp.signExtend 64) else s.advance
    exec (.beq x y disp) s = .next (go (decide (a = b))) ∧ exec (.bne x y disp) s = .next (go (decide (a ≠ b)))
    ∧ exec (.blt x y disp) s = .next (go (decide (a.toInt < b.toInt)))
    ∧ exec (.bge x y disp) s = .next (go (decide (b.toInt ≤ a.toInt)))
    ∧ exec (.bltu x y disp) s = .next (go (decide (a.toNat < b.toNat)))
    ∧ exec (.bgeu x y disp) s = .next (go (decide (b.toNat ≤ a.toNat)))
    ∧ let word : BitVec 6 → IWord := fun major => major ++ x ++ y ++ disp
      encode (.beq x y disp) = word 0x1C ∧ encode (.bne x y disp) = word 0x1D ∧ encode (.blt x y disp) = word 0x1E
      ∧ encode (.bge x y disp) = word 0x1F ∧ encode (.bltu x y disp) = word 0x20 ∧ encode (.bgeu x y disp) = word 0x21

/-- J and JAL go to their own address + 4 × the sign-extended displacement modulo 2^64; JAL writes its own address + 4 to
g1; neither writes anything else (R29, R90). -/
def Claim.JumpTargets : Prop :=
  ∀ (s : State) (disp : BitVec 26),
    let t := s.my.pc + 4 * disp.signExtend 64
    exec (.j disp) s = .next (s.jump t) ∧ exec (.jal disp) s = .next ((s.setG 1 (s.my.pc + 4)).jump t)

/-- JALR writes its own address + 4 to gd and goes to the target that ga held, unless bits [1:0] of the target are not zero:
then it raises fault 0x03 with TVAL the target and gd unchanged; its word has major 0x24 and zero below ga (R91). -/
def Obligations.JalrEffect : Prop :=
  ∀ (s : State) (d x : Reg), s.Clean [x] [] →
    ((s.g x).toNat % 4 = 0 → exec (.jalr d x) s = .next ((s.setG d (s.my.pc + 4)).jump (s.g x)))
    ∧ ((s.g x).toNat % 4 ≠ 0 → exec (.jalr d x) s = .next (s.raise 0x03 (s.g x)))
    ∧ encode (.jalr d x) = (0x24#6 ++ d ++ x ++ 0#16) ∧ decode 0x90010000 = some (.jalr 0 1)

/-- Taking a trap (R73): a fault with STATUS.TB set is fatal with bit D; a fault whose TMASK bit is clear, and any trap with
TVEC zero, is fatal; any other trap writes TCAUSE, TVAL and TPC, moves SV to PM, sets SV and TB, and goes to TVEC, and
leaves every g, q and v register, every other control word, every other context and the memory as they were. -/
def Obligations.TakeTrap : Prop :=
  ∀ (s : State) (c : CtxId) (code : Nat) (val tpc : Word), code < 0x40 →
    let x := s.ctx c
    let f : State := if code < 0x20 then { s with faulted := true } else s
    let hc := if c.isHandler then 256 else 0
    let t := s.takeTrap c code val tpc
    (code < 0x20 → x.tb = true → t = f.fatal c (code + hc + 512) val tpc)
    ∧ (code < 0x20 → x.tb = false → (x.cwv 0x005).getLsbD code = false → t = f.fatal c (code + hc) val tpc)
    ∧ (¬ (code < 0x20 ∧ x.tb = true) → x.cwv 0x004 = 0 → t = f.fatal c (code + hc) val tpc)
    ∧ (¬ (code < 0x20 ∧ (x.tb = true ∨ (x.cwv 0x005).getLsbD code = false)) → x.cwv 0x004 ≠ 0 →
        (t.ctx c).pc = x.cwv 0x004 ∧ (t.ctx c).cwv 0x001 = BitVec.ofNat 64 (code + hc) ∧ (t.ctx c).cwv 0x002 = val
        ∧ (t.ctx c).cwv 0x003 = tpc ∧ (t.ctx c).sv = true ∧ (t.ctx c).tb = true
        ∧ (t.ctx c).pm = (x.sv || c.isHandler)
        ∧ Keeps [] [] [] ([0x000, 0x001, 0x002, 0x003] ++ leftWords) x (t.ctx c)
        ∧ (∀ d, d ≠ c → t.ctx d = s.ctx d) ∧ SameMem s t ∧ t.cores = s.cores ∧ t.clusters = s.clusters)

/-- TRAP #n takes trap 0x20 + n with TVAL 0 and TPC the address after it, whatever TMASK and STATUS.TB hold (R93): with TVEC
not zero it enters the trap handler; with TVEC zero it is fatal. BKPT raises fault 0x0E with TVAL 0 at its own address
(R95). -/
def Obligations.TrapAndBkpt : Prop :=
  ∀ (s : State) (n : BitVec 5),
    (exec (.trap n) s = .next (s.takeTrap s.cur (0x20 + n.toNat) 0 (s.my.pc + 4)))
    ∧ (s.my.cwv 0x004 ≠ 0 → ∃ t, exec (.trap n) s = .next t ∧ t.my.pc = s.my.cwv 0x004
        ∧ t.my.cwv 0x003 = s.my.pc + 4 ∧ t.my.cwv 0x002 = 0
        ∧ t.my.cwv 0x001 = BitVec.ofNat 64 (0x20 + n.toNat + if s.cur.isHandler then 256 else 0))
    ∧ encode (.trap n) = (0x24#6 ++ 0#10 ++ n ++ 1#11) ∧ encode (.trap 5) = 0x90002801 ∧ encode .bkpt = 0x90000005
    ∧ exec .bkpt s = .next (s.raise 0x0E 0)
    ∧ (s.my.frame = none → s.my.tb = false → (s.my.cwv 0x005).getLsbD 14 = true → s.my.cwv 0x004 ≠ 0 →
        ∃ t, exec .bkpt s = .next t ∧ t.my.pc = s.my.cwv 0x004 ∧ t.my.cwv 0x003 = s.my.pc ∧ t.my.cwv 0x002 = 0)

/-- TRET (R94): in task mode it raises fault 0x02 before any other check; in supervisor mode with no frame to resume it
restores SV from PM (a handler context stays in supervisor mode), clears TB and goes to TPC; with RPTST.V set in a slot it
first checks the saved frame as R57 gives, raising fault 0x09 with the index of the word that fails, else the frame
resumes. -/
def Obligations.TretEffect : Prop :=
  ∀ s : State,
    encode .tret = 0x90000002
    ∧ (s.sup s.cur = false → exec .tret s = .next (s.raise 0x02 ((encode .tret).setWidth 64)))
    ∧ (s.sup s.cur = true → (s.my.cwv 0x020).getLsbD 63 = false → ∃ t, exec .tret s = .next t
        ∧ t.my.pc = s.my.cwv 0x003 ∧ t.my.sv = (s.my.pm || s.cur.isHandler) ∧ t.my.tb = false ∧ t.my.pm = s.my.pm
        ∧ OnlyMine s t ∧ Keeps [] [] [] ([0x000] ++ leftWords) s.my t.my ∧ t.my.frame = s.my.frame)
    ∧ (s.sup s.cur = true → s.InSlot → (s.my.cwv 0x020).getLsbD 63 = true →
        (∀ n, s.my.savedFrame.resumeFault = some n → exec .tret s = .next (s.raise 0x09 (BitVec.ofNat 64 n)))
        ∧ (s.my.savedFrame.resumeFault = none → ∃ t, exec .tret s = .next t
            ∧ t.my.pc = s.my.cwv 0x003 ∧ t.my.sv = s.my.pm ∧ t.my.tb = false ∧ t.my.frame = some s.my.savedFrame))

/-- IFENCE with no store of the context outstanding discards the fetch queue of the context and the line buffer of its core
and goes to the next word, touching no memory and no register; with one outstanding it stays (R96). RDC with no load of the
context outstanding writes counter n of the core to gd; with one outstanding it stays (R97). -/
def Claim.IfenceAndRdc : Prop :=
  ∀ s : State,
    ((s.myCore.outs.any (fun o => o.ctx == s.cur.ctx.val && !o.load)) = false → s.my.onFrame = false →
      ∃ t, exec .ifence s = .next t ∧ t.my.fq = [] ∧ t.myCore.lineBuf = [] ∧ t.my.pc = s.my.pc + 4 ∧ SameMem s t
        ∧ Keeps [] [] [] leftWords s.my t.my ∧ t.myCore = { s.myCore with lineBuf := [] })
    ∧ ((s.myCore.outs.any (fun o => o.ctx == s.cur.ctx.val && !o.load)) = true → exec .ifence s = .next s)
    ∧ (∀ (gd : Reg) (n : BitVec 4), s.anyLoad s.cur = false →
        exec (.rdc gd n) s = .next (s.done gd (s.myCore.cwv (0x190 + n.toNat))))
    ∧ (∀ (gd : Reg) (n : BitVec 4), s.anyLoad s.cur = true → exec (.rdc gd n) s = .next s)

/-- CWRD and CWWR (R62, R63, R25, R92): an unassigned index raises fault 0x01 and an access that the mode may not make raises
fault 0x02, each with TVAL the instruction word; any other CWRD writes the word as read to gd (that of MSTATE waits while matrix instructions
of the slice's owner are in the queue, R144), and any other CWWR with ga
not poisoned writes g[ga] to the word and moves on. Supervisor mode is never denied. -/
def Claim.ControlWordAccess : Prop :=
  ∀ (s : State) (r : Reg) (idx : BitVec 12),
    (cwInfo idx.toNat = none → exec (.cwrd r idx) s = .next (s.raise 0x01 ((encode (.cwrd r idx)).setWidth 64))
      ∧ exec (.cwwr idx r) s = .next (s.raise 0x01 ((encode (.cwwr idx r)).setWidth 64)))
    ∧ (∀ m, cwInfo idx.toNat = some m →
        (s.cwDenied s.cur m idx.toNat false = true →
          exec (.cwrd r idx) s = .next (s.raise 0x02 ((encode (.cwrd r idx)).setWidth 64)))
        ∧ (s.cwDenied s.cur m idx.toNat false = false → s.cwWaits idx.toNat = false →
          exec (.cwrd r idx) s = .next (s.done r (s.cwRead s.cur idx.toNat)))
        ∧ (s.cwDenied s.cur m idx.toNat false = false → s.cwWaits idx.toNat = true →
          exec (.cwrd r idx) s = .next s.stall)
        ∧ (s.cwDenied s.cur m idx.toNat true = true →
          exec (.cwwr idx r) s = .next (s.raise 0x02 ((encode (.cwwr idx r)).setWidth 64)))
        ∧ (s.cwDenied s.cur m idx.toNat true = false → s.Clean [r] [] →
          exec (.cwwr idx r) s = .next (s.cwWrite s.cur idx.toNat (s.g r)).advance)
        ∧ (s.sup s.cur = true → s.cwDenied s.cur m idx.toNat true = false ∧ s.cwDenied s.cur m idx.toNat false = false))

/-- The mode rules of the trap words in a task slot (R63, R64): task mode reads TVEC and may not write it; a
supervisor write of TVEC keeps all but bits [1:0], which are reserved and read zero, and a read returns it; GPOIS is cleared bit by bit where a one
is written and left where a zero is; FRM and FFLAGS are writable in task mode (R106). -/
def Claim.TrapWordRules : Prop :=
  ∀ (s : State) (v : Word) (m : CwInfo), s.InSlot →
    (cwInfo 0x004 = some m → s.cwDenied s.cur m 0x004 false = false ∧ (s.sup s.cur = false → s.cwDenied s.cur m 0x004 true = true))
    ∧ (cwInfo 0x030 = some m → s.cwDenied s.cur m 0x030 true = false)
    ∧ (cwInfo 0x031 = some m → s.cwDenied s.cur m 0x031 true = false)
    ∧ ((s.my.cwv 0x004).toNat % 4 = 0 → (s.cwWrite s.cur 0x004 v).cwRead s.cur 0x004 = v &&& 0xFFFFFFFFFFFFFFFC)
    ∧ ((s.my.cwv 0x030).toNat < 4 → (s.cwWrite s.cur 0x030 v).cwRead s.cur 0x030 = v &&& 3)
    ∧ ((s.cwWrite s.cur 0x007 v).my.gpois = s.my.gpois &&& ~~~(v.setWidth 32 &&& 0xFFFFFFFE))

/-! ### Scalar loads and stores -/

/-- A load from plain local memory writes the size little-endian bytes at ea, sign- or zero-extended, to gd and completes,
changing nothing else; where a word it reads is marked poisoned it writes gd and sets gd's poison bit (R78, R85, R86). -/
def Claim.LocalLoads : Prop :=
  ∀ (i : Instr) (f : MemForm) (s : State), memForm i = some f → f.store = false → s.Clean [f.base] [] →
    s.PlainLocal (f.ea s) f.size →
    let x : BitVec (8 * f.size) := BitVec.ofNat (8 * f.size) (s.readLE (s.myLoc (f.ea s)) f.size)
    let v : Word := if f.signed then x.signExtend 64 else x.setWidth 64
    (s.poisAt (s.myLoc (f.ea s)) f.size = false → exec i s = .next (s.done f.data v))
    ∧ (s.poisAt (s.myLoc (f.ea s)) f.size = true → ∃ t, exec i s = .next t
        ∧ t.g f.data = (if f.data = 0 then 0 else v) ∧ (f.data ≠ 0 → t.my.gpois.getLsbD f.data.toNat = true))

/-- A store to plain local memory writes the low size bytes of gs at ea, least significant first, and completes: those bytes
read back, every other byte of memory reads as before, and nothing else of the device changes but the pc (R86, R88). -/
def Claim.LocalStores : Prop :=
  ∀ (i : Instr) (f : MemForm) (s : State), memForm i = some f → f.store = true → s.Clean [f.base, f.data] [] →
    s.PlainLocal (f.ea s) f.size →
    let a := s.myLoc (f.ea s)
    ∃ t, exec i s = .next t ∧ OnlyMemAndMine s t ∧ Keeps [] [] [] leftWords s.my t.my ∧ Past s.my t.my
      ∧ (∀ n, n < f.size → t.byte (a + n) = ((s.g f.data) >>> (8 * n)).setWidth 8)
      ∧ (∀ b, b < a ∨ a + f.size ≤ b → t.byte b = s.byte b)
      ∧ t.readLE a f.size = (s.g f.data).toNat % 256 ^ f.size

/-- Faults of loads and stores in the order of R87: a poisoned base or stored register raises 0x0D; then an address that is
not a multiple of the size raises 0x03; then an address of no kind that R70 lists raises 0x05; then, in task mode, a
doubleword of the control window raises 0x02; TVAL as R75 gives. -/
def Claim.LoadStoreFaults : Prop :=
  ∀ (i : Instr) (f : MemForm) (s : State), memForm i = some f →
    (∀ n, s.my.poisoned f.sources [] = some n → exec i s = .next (s.raise 0x0D (BitVec.ofNat 64 n)))
    ∧ (s.Clean f.sources [] → (f.ea s).toNat % f.size ≠ 0 → exec i s = .next (s.raise 0x03 (f.ea s)))
    ∧ (s.Clean f.sources [] → (f.ea s).toNat % f.size = 0 →
        ((f.ea s).toNat < 2 ^ 21 ∧ areaOf (f.ea s).toNat = .none
          ∨ 2 ^ 57 ≤ (f.ea s).toNat ∧ (f.ea s).toNat < 255 * 2 ^ 56) →
        exec i s = .next (s.raise 0x05 (f.ea s)))
    ∧ (s.Clean f.sources [] → f.size = 8 → (f.ea s).toNat % 8 = 0 → 0x100000 ≤ (f.ea s).toNat →
        (f.ea s).toNat < 0x110000 → s.sup s.cur = false → exec i s = .next (s.raise 0x02 ((encode i).setWidth 64)))

/-- Every form of a load or store by the place its address resolves to. What the checks of R76 leave of the state is u. No
place: the instruction goes no further, and u holds the fault, the park or the migration. The own core: a load writes gd
from what its banks hold there, a store writes the banks. Any other place: a counted request, which takes an entry of the
core's 64 or, with none free for the context, leaves the instruction waiting (R68, R69, R86, R329). A request to a home slice
arrives there in the next cycle (log entry 1). A window address that fails R209 raises 0x05; a core of another device is asked
first, once (log entry 13). -/
def Claim.LoadStoreByPlace : Prop :=
  ∀ (i : Instr) (f : MemForm) (s : State), memForm i = some f → s.Clean f.sources [] →
    let r := s.access i (f.ea s) ⟨f.size, !f.store, f.store, true, true, false⟩
    let u := r.1
    let data := leBytes f.size (u.g f.data).toNat
    (r.2 = none → exec i s = .next u)
    ∧ (∀ pa, s.place (f.ea s) = .win pa → areaOf (paOff pa) = .mem → (f.ea s).toNat % f.size = 0 →
        (s.windowOk s.cur pa = false → exec i s = .next (s.raise 0x05 (f.ea s)))
        ∧ (s.windowOk s.cur pa = true → s.colourKnown pa = false → exec i s = .next (s.askColour pa)))
    ∧ (∀ off, r.2 = some (.own off) →
        (f.store = false → (u.bankRead u.cur.core off f.size).2 = false →
          exec i s = .next (u.done f.data (extend (u.bankRead u.cur.core off f.size).1 f.size f.signed)))
        ∧ (f.store = true → exec i s = .next (u.bankWrite u.cur.core off data false).advance))
    ∧ (∀ w, r.2 = some w → (∀ off, w ≠ .own off) → u.mayIssue u.cur 1 = false → exec i s = .next (u.stallOreq 1))
    ∧ (∀ w, r.2 = some w → (∀ off, w ≠ .own off) → u.mayIssue u.cur 1 = true → f.store = false →
        ∃ t, exec i s = .next t ∧ t.nextId = u.nextId + 1 ∧ SameMem u t ∧ Keeps [] [] [] leftWords u.my t.my
          ∧ t.myCore.outs = u.myCore.outs ++ [⟨u.nextId + 1, u.cur.ctx.val, true, .g f.data f.size f.signed, true, false,
              false, u.wherePa w, f.size, u.regionOf u.cur, u.colourOf u.cur⟩]
          ∧ (∀ pa, w = .dram pa → t.timers = u.timers ++ [(u.time + 1, .homeSliceRequest ⟨u.cur, u.nextId + 1, pa,
              .read f.size, u.colourOf u.cur, u.regionOf u.cur, u.catOf u.cur⟩)])
          ∧ (∀ pa, w = .far pa → t.plat.fabric = u.plat.fabric ++ [.request u.dev (paDev pa) ⟨u.cur, u.nextId + 1, pa,
              .read f.size, u.colourOf u.cur, u.regionOf u.cur, u.catOf u.cur⟩]
            ∧ t.timers = u.timers ++ [(u.time + u.ftime u.cur.core.cluster, .replyTimeout u.cur (u.nextId + 1))])
          ∧ (∀ pa, w = .core pa → t.agenda = u.agenda ++ [.ev (.memoryPortRequest ⟨u.cur, u.nextId + 1, pa, .read f.size,
              u.colourOf u.cur, u.regionOf u.cur, u.catOf u.cur⟩)]))
    ∧ (∀ w, r.2 = some w → (∀ off, w ≠ .own off) → u.mayIssue u.cur 1 = true → f.store = true →
        (∀ pa, w = .far pa → (u.my.cwv cwMCHSEL).getLsbD 63 = false) →
        ∃ t, exec i s = .next t ∧ t.nextId = u.nextId + 1 ∧ SameMem u t ∧ Keeps [] [] [] leftWords u.my t.my
          ∧ t.myCore.outs = u.myCore.outs ++ [⟨u.nextId + 1, u.cur.ctx.val, false, .none, true, false, false, 0, 0,
              u.regionOf u.cur, u.colourOf u.cur⟩]
          ∧ (∀ pa, w = .dram pa → t.timers = u.timers ++ [(u.time + 1, .homeSliceRequest ⟨u.cur, u.nextId + 1, pa,
              .write data 0, u.colourOf u.cur, u.regionOf u.cur, u.catOf u.cur⟩)])
          ∧ (∀ pa, w = .core pa → t.agenda = u.agenda ++ [.ev (.memoryPortRequest ⟨u.cur, u.nextId + 1, pa,
              .write data 0, u.colourOf u.cur, u.regionOf u.cur, u.catOf u.cur⟩)])
          ∧ (∀ pa, w = .far pa → t.agenda = u.agenda ++ [.ev (.storeAcknowledgement u.cur (u.nextId + 1))]
              ∧ t.plat.fabric = u.plat.fabric ++ [.request u.dev (paDev pa) ⟨u.cur, 0, pa, .write data 0,
                u.colourOf u.cur, u.regionOf u.cur, u.catOf u.cur⟩]))

/-! ### Vector arithmetic -/

/-- The integer vector forms: in a task slot with no poisoned source each completes, and lane n of vd is as R127 and R128
give where it is active and unchanged where it is not; for VADD to VABS at every width. -/
def Claim.VectorIntegerResults : Prop :=
  ∀ (s : State) (w : Width) (d x y : Reg) (q : PReg), s.InSlot → s.Clean [] [x, y] →
    let W := wbits w
    let a := laneAt W (s.v x)
    let b := laneAt W (s.v y)
    let sa := slaneAt W (s.v x)
    let sb := slaneAt W (s.v y)
    let gives : Instr → (Nat → Nat) → Prop := fun i f =>
      CompletesWith (exec i s) (fun t => VecResult W (s.q q) (s.v d) (t.v d) f)
    gives (.vadd w d x y q) (fun n => a n + b n) ∧ gives (.vsub w d x y q) (fun n => a n + 2 ^ W - b n)
    ∧ gives (.vmul w d x y q) (fun n => a n * b n)
    ∧ gives (.vadds w d x y q) (fun n => clampAt W (sa n + sb n)) ∧ gives (.vsubs w d x y q) (fun n => clampAt W (sa n - sb n))
    ∧ gives (.vmin w d x y q) (fun n => ulane W (min (sa n) (sb n))) ∧ gives (.vmax w d x y q) (fun n => ulane W (max (sa n) (sb n)))
    ∧ gives (.vminu w d x y q) (fun n => min (a n) (b n)) ∧ gives (.vmaxu w d x y q) (fun n => max (a n) (b n))
    ∧ gives (.vsll w d x y q) (fun n => if W ≤ b n then 0 else a n * 2 ^ b n)
    ∧ gives (.vsrl w d x y q) (fun n => if W ≤ b n then 0 else a n / 2 ^ b n)
    ∧ gives (.vsra w d x y q) (fun n => if W ≤ b n then (if sa n < 0 then 2 ^ W - 1 else 0) else ulane W ((sa n).fdiv (2 ^ b n)))
    ∧ gives (.vabs w d x q) (fun n => (sa n).natAbs)

/-- The bitwise forms on byte lanes, and VSEL, which writes every byte: of va where bit n of q is set, else of vb, so that
with q0 it copies va (R128). -/
def Claim.VectorBitwiseResults : Prop :=
  ∀ (s : State) (d x y : Reg) (q : PReg), s.InSlot → s.Clean [] [x, y] →
    let a := laneAt 8 (s.v x)
    let b := laneAt 8 (s.v y)
    let gives : Instr → (Nat → Nat) → Prop := fun i f =>
      CompletesWith (exec i s) (fun t => VecResult 8 (s.q q) (s.v d) (t.v d) f)
    gives (.vand d x y q) (fun n => a n &&& b n) ∧ gives (.vor d x y q) (fun n => a n ||| b n)
    ∧ gives (.vxor d x y q) (fun n => a n ^^^ b n) ∧ gives (.vandn d x y q) (fun n => a n &&& (255 - b n))
    ∧ CompletesWith (exec (.vsel d x y q) s) (fun t =>
        AllLanes 8 (t.v d) (fun n => if laneOn 8 (s.q q) n then a n else b n) ∧ (q = 0 → t.v d = s.v x))

/-- The float vector forms, F32 and BF16: each active lane is the operation's result in FRM, with VFMA and VFNMA rounding
once over the product and the old lane of vd; the flags of active lanes alone are added to FFLAGS; VFABS and VFNEG clear or
flip the sign bit and raise no flag; VEXP2, VRCP and VRSQ act on F32 lanes (R107, R110, R114, R129). -/
def Claim.VectorFloatResults : Prop :=
  ∀ (s : State) (f : FFmt) (d x y : Reg) (q : PReg), s.InSlot → s.Clean [] [x, y, d] →
    let W := fbits f
    let p := ffrac f
    let a := laneAt W (s.v x)
    let b := laneAt W (s.v y)
    let c := laneAt W (s.v d)
    let rm := s.frm
    let gives : Nat → Instr → (Nat → Nat × Nat) → Prop := fun W i r =>
      CompletesWith (exec i s) (fun t => VecResult W (s.q q) (s.v d) (t.v d) (fun n => (r n).1)
        ∧ FlagsAdded W (s.q q) (512 / W) (s.my.cwv 0x031) (t.my.cwv 0x031) (fun n => (r n).2))
    gives W (.vfadd f d x y q) (fun n => fadd p rm (a n) (b n)) ∧ gives W (.vfsub f d x y q) (fun n => fsub p rm (a n) (b n))
    ∧ gives W (.vfmul f d x y q) (fun n => fmul p rm (a n) (b n))
    ∧ gives W (.vfma f d x y q) (fun n => ffma p rm false (a n) (b n) (c n))
    ∧ gives W (.vfnma f d x y q) (fun n => ffma p rm true (a n) (b n) (c n))
    ∧ gives W (.vfmin f d x y q) (fun n => fminmax p false (a n) (b n))
    ∧ gives W (.vfmax f d x y q) (fun n => fminmax p true (a n) (b n))
    ∧ gives W (.vfabs f d x q) (fun n => (a n % 2 ^ (W - 1), 0))
    ∧ gives W (.vfneg f d x q) (fun n => (a n ^^^ 2 ^ (W - 1), 0))
    ∧ gives 32 (.vexp2 d x q) (fun n => fExp2 (laneAt 32 (s.v x) n))
    ∧ gives 32 (.vrcp d x q) (fun n => fRcp (laneAt 32 (s.v x) n))
    ∧ gives 32 (.vrsq d x q) (fun n => fRsq (laneAt 32 (s.v x) n))

/-- Special values of the float operations, in both formats and every rounding mode: a NaN operand gives the canonical NaN,
with NV exactly for a signalling one; infinities of opposite signs add to the canonical NaN with NV; infinity times zero is
the canonical NaN with NV; the sum of a number and its negation is +0, or −0 in mode down; addition and multiplication
commute (R100, R108, R110). -/
def Claim.FloatSpecialValues : Prop :=
  ∀ (f : FFmt) (rm a b : Nat), rm < 4 → a < 2 ^ fbits f → b < 2 ^ fbits f →
    let p := ffrac f
    let nan := 255 * 2 ^ p + 2 ^ (p - 1)
    let inf := 255 * 2 ^ p
    let sgn := 2 ^ (p + 8)
    ((fval p a).isNaN = true → (fadd p rm a b).1 = nan ∧ (fmul p rm a b).1 = nan
        ∧ ((fadd p rm a b).2 = if (fval p a).isSig || (fval p b).isSig then 1 else 0))
    ∧ fadd p rm inf (inf + sgn) = (nan, 1) ∧ fadd p rm (inf + sgn) inf = (nan, 1)
    ∧ fmul p rm inf 0 = (nan, 1) ∧ fmul p rm 0 inf = (nan, 1) ∧ fmul p rm (inf + sgn) sgn = (nan, 1)
    ∧ ((fval p a).isNaN = false → a % sgn < inf → fadd p rm a (fneg p a) = (if rm = 3 then sgn else 0, 0))
    ∧ fadd p rm a b = fadd p rm b a ∧ fmul p rm a b = fmul p rm b a

/-- Compares: in a task slot with no poisoned source, every bit of an active lane's group of qd takes the result and every
bit of an inactive lane's group is clear (a write to q0 is discarded); the integer types compare bits, signed for LT and LE
and unsigned for LTU and LEU, and leave FFLAGS; the float types take −0 equal to +0 and a NaN unequal and unordered, with NV
for a signalling NaN in EQ and NE and for any NaN in LT and LE (R121, R130). -/
def Claim.CompareResults : Prop :=
  ∀ (s : State) (d : PReg) (x y : Reg) (q : PReg), s.InSlot → s.Clean [] [x, y] →
    let gives : Nat → Instr → (Nat → Nat → Bool) → (Nat → Nat → Nat) → Prop := fun W i r fl =>
      let a := laneAt W (s.v x)
      let b := laneAt W (s.v y)
      CompletesWith (exec i s) (fun t =>
        (d ≠ 0 → ∀ j, j < 64 → (t.q d).getLsbD j = (laneOn W (s.q q) (j / (W / 8)) && r (a (j / (W / 8))) (b (j / (W / 8)))))
        ∧ FlagsAdded W (s.q q) (512 / W) (s.my.cwv 0x031) (t.my.cwv 0x031) (fun n => fl (a n) (b n)))
    (∀ (w : Width) (t : CmpTy), cmpBits t = wbits w → t ≠ .f32 → t ≠ .bf16 →
      gives (wbits w) (.vcmpEq t d x y q) (fun a b => decide (a = b)) (fun _ _ => 0)
      ∧ gives (wbits w) (.vcmpNe t d x y q) (fun a b => decide (a ≠ b)) (fun _ _ => 0)
      ∧ gives (wbits w) (.vcmpLt t d x y q) (fun a b => decide (slane (wbits w) a < slane (wbits w) b)) (fun _ _ => 0)
      ∧ gives (wbits w) (.vcmpLe t d x y q) (fun a b => decide (slane (wbits w) a ≤ slane (wbits w) b)) (fun _ _ => 0)
      ∧ gives (wbits w) (.vcmpLtu w d x y q) (fun a b => decide (a < b)) (fun _ _ => 0)
      ∧ gives (wbits w) (.vcmpLeu w d x y q) (fun a b => decide (a ≤ b)) (fun _ _ => 0))
    ∧ (∀ (t : CmpTy) (f : FFmt), t = (match f with | .f32 => .f32 | .bf16 => .bf16) →
      let p := ffrac f
      let nan := fun a => (fval p a).isNaN
      let sigs := fun a b => if (fval p a).isSig || (fval p b).isSig then 1 else 0
      let either := fun a b => if nan a || nan b then 1 else 0
      gives (fbits f) (.vcmpEq t d x y q) (fun a b => !nan a && !nan b && fnum p a == fnum p b) sigs
      ∧ gives (fbits f) (.vcmpNe t d x y q) (fun a b => !(!nan a && !nan b && fnum p a == fnum p b)) sigs
      ∧ gives (fbits f) (.vcmpLt t d x y q) (fun a b => !nan a && !nan b && decide (fnum p a < fnum p b)) either
      ∧ gives (fbits f) (.vcmpLe t d x y q) (fun a b => !nan a && !nan b && decide (fnum p a ≤ fnum p b)) either)

/-- The predicate operations compute on all 64 bits, set no flag and complete in a task slot; QCNT counts the set bits and
QTOG copies them to gd; QFROMG copies ga, with fault 0x0D for a poisoned ga (R131). -/
def Claim.PredicateResults : Prop :=
  ∀ (s : State) (d a b : PReg) (g : Reg), s.InSlot →
    let A := s.q a
    let B := s.q b
    exec (.qand d a b) s = .next (s.setQ d (A &&& B)).advance ∧ exec (.qor d a b) s = .next (s.setQ d (A ||| B)).advance
    ∧ exec (.qxor d a b) s = .next (s.setQ d (A ^^^ B)).advance ∧ exec (.qandn d a b) s = .next (s.setQ d (A &&& ~~~B)).advance
    ∧ exec (.qnot d a) s = .next (s.setQ d (~~~A)).advance
    ∧ exec (.qcnt g a) s = .next (s.done g (BitVec.ofNat 64 ((List.range 64).countP (fun k => A.getLsbD k))))
    ∧ exec (.qtog g a) s = .next (s.done g A)
    ∧ (s.Clean [g] [] → exec (.qfromg d g) s = .next (s.setQ d (s.g g)).advance)
    ∧ (s.my.poisoned [g] [] = some g.toNat → exec (.qfromg d g) s = .next (s.raise 0x0D (BitVec.ofNat 64 g.toNat)))

/-- Reductions: VRSUM.F32 and VRMAX.F32 combine the 16 lanes, inactive ones as −0 and −∞, by the fixed tree of R113, write
the bits zero-extended and add the flags of its nodes; VRSUM.I32 writes the sum of the active lanes modulo 2^32
sign-extended; VRMAX.I32 the signed maximum of the active lanes, −2^31 with none (R113, R132). -/
def Claim.ReductionResults : Prop :=
  ∀ (s : State) (d x : Reg) (q : PReg), s.InSlot → s.Clean [] [x] →
    let a := laneAt 32 (s.v x)
    let on := laneOn 32 (s.q q)
    let tree : Instr → (Nat → Nat → Nat × Nat) → Nat → Prop := fun i f z =>
      let leaf := fun n => if on n then a n else z
      let r := treeOf (fun u v => (f u v).1) leaf 4 0
      ∃ t, exec i s = .next t ∧ (d ≠ 0 → t.g d = BitVec.ofNat 64 r)
        ∧ t.my.cwv 0x031 = s.my.cwv 0x031 ||| BitVec.ofNat 64 (treeFlags f leaf 4 0 % 32)
    tree (.vrsumF32 d x q) (fadd 23 s.frm) 0x80000000 ∧ tree (.vrmaxF32 d x q) (fminmax 23 true) 0xFF800000
    ∧ exec (.vrsumI32 d x q) s = .next (s.done d ((BitVec.ofNat 32
        ((List.range 16).map (fun n => if on n then a n else 0)).sum).signExtend 64))
    ∧ (∃ m : Int, exec (.vrmaxI32 d x q) s = .next (s.done d (BitVec.ofInt 64 m))
        ∧ (∀ n, n < 16 → on n = true → slaneAt 32 (s.v x) n ≤ m)
        ∧ ((∃ n, n < 16 ∧ on n = true ∧ slaneAt 32 (s.v x) n = m) ∨ m = -(2 ^ 31)))

/-- Moves and permutes: VBCAST, VEXTR, VINS, VPERM and VSLIDE at every width, all sources read before vd is written, so that
vd may be a source too (R133). -/
def Claim.PermuteResults : Prop :=
  ∀ (s : State) (w : Width) (d x y : Reg), s.InSlot →
    let W := wbits w
    let L := 512 / W
    (s.Clean [x] [] → CompletesWith (exec (.vbcast w d x) s) (fun t => AllLanes W (t.v d) (fun _ => (s.g x).toNat)))
    ∧ (s.Clean [y] [x] → exec (.vextr w d x y) s = .next (s.done d (BitVec.ofNat 64 (laneAt W (s.v x) ((s.g y).toNat % L)))))
    ∧ (s.Clean [x, y] [] → CompletesWith (exec (.vins w d x y) s) (fun t => ∀ n, n < L →
        laneAt W (t.v d) n = if n = (s.g y).toNat % L then (s.g x).toNat % 2 ^ W else laneAt W (s.v d) n))
    ∧ (s.Clean [] [x, y] → CompletesWith (exec (.vperm w d x y) s) (fun t =>
        AllLanes W (t.v d) (fun n => laneAt W (s.v x) (laneAt W (s.v y) n % L))))
    ∧ (s.Clean [y] [x] → CompletesWith (exec (.vslide w d x y) s) (fun t => AllLanes W (t.v d) (fun n =>
        let m : Int := (n : Int) + (s.g y).toInt
        if 0 ≤ m ∧ m < L then laneAt W (s.v x) m.toNat else 0)))

/-- Conversions: 16 positions, position n active under bit 4n; on the narrow side position n is lane 16h + n, and the lanes
outside them stay; BF16 to F32 and I8 to I32 are exact, the clamps are to the narrow range, and the rounding forms round
once in FRM (R115, R134). -/
def Claim.ConversionResults : Prop :=
  ∀ (s : State) (d x : Reg) (q : PReg) (h1 : BitVec 1) (h2 : BitVec 2), s.InSlot → s.Clean [] [x] →
    let a := laneAt 32 (s.v x)
    let sa := slaneAt 32 (s.v x)
    let on := laneOn 32 (s.q q)
    let widen : Instr → (Nat → Nat) → Prop := fun i f =>
      CompletesWith (exec i s) (fun t => VecResult 32 (s.q q) (s.v d) (t.v d) f)
    let narrow : Nat → Nat → Instr → (Nat → Nat) → Prop := fun W h i f =>
      CompletesWith (exec i s) (fun t => ∀ n, n < 512 / W → laneAt W (t.v d) n =
        if 16 * h ≤ n ∧ n < 16 * h + 16 ∧ on (n - 16 * h) = true then f (n - 16 * h) % 2 ^ W else laneAt W (s.v d) n)
    widen (.vcvtF32Bf16 d x h1 q) (fun n => laneAt 16 (s.v x) (16 * h1.toNat + n) * 2 ^ 16)
    ∧ narrow 16 h1.toNat (.vcvtBf16F32 d x h1 q) (fun n => (cvtBf16 s.frm (a n)).1)
    ∧ widen (.vcvtF32I32 d x q) (fun n => (cvtF32 s.frm (sa n)).1)
    ∧ widen (.vcvtI32F32 d x q) (fun n => (cvtI32 s.frm (a n)).1)
    ∧ narrow 8 h2.toNat (.vcvtI8I32 d x h2 q) (fun n => ulane 8 (max (-128) (min (sa n) 127)))
    ∧ narrow 8 h2.toNat (.vcvtUi8I32 d x h2 q) (fun n => (max 0 (min (sa n) 255)).toNat)
    ∧ widen (.vcvtI32I8 d x h2 q) (fun n => ulane 32 (slane 8 (laneAt 8 (s.v x) (16 * h2.toNat + n))))

/-- VTOPK and VTOPK.NZ: a descriptor with K above 16 or CNT above K raises fault 0x06 with TVAL the descriptor; any other
completes: the first min(K, number of candidates) of the candidates in the order of R137 fill vd and vd + 1, the other lanes
take the fill values, and gb takes BASE + 16, the new count and K (R136, R137). The candidates not taken rank behind every
one taken. -/
def Claim.TopkResults : Prop :=
  ∀ (s : State) (d x g : Reg) (q : PReg) (nz : Bool), s.InSlot → s.Clean [g] [x, d, d + 1] → d.toNat % 2 = 0 →
    let i : Instr := if nz then .vtopkNz d x g q else .vtopk d x g q
    let k := (s.g g).toNat % 256
    let cnt := (s.g g).toNat / 256 % 256
    let base := (s.g g).toNat / 2 ^ 32
    (16 < k ∨ k < cnt → exec i s = .next (s.raise 0x06 (s.g g)))
    ∧ (k ≤ 16 → cnt ≤ k → ∃ (t : State) (l r : List Cand), exec i s = .next t
        ∧ (l ++ r).Perm (s.cands d x q nz base cnt) ∧ l.length = min k (s.cands d x q nz base cnt).length
        ∧ l.Pairwise (fun a b => candLt b a = false) ∧ (∀ a ∈ l, ∀ b ∈ r, candLt b a = false)
        ∧ (∀ j, j < 16 → laneAt 32 (t.v d) j = (match l[j]? with | some c => c.val | none => 0xFF800000) % 2 ^ 32
            ∧ laneAt 32 (t.v (d + 1)) j = (match l[j]? with | some c => c.idx | none => 0xFFFFFFFF) % 2 ^ 32)
        ∧ (g ≠ 0 → t.g g = BitVec.ofNat 64 ((base + 16) % 2 ^ 32 * 2 ^ 32 + l.length * 2 ^ 8 + k))
        ∧ RegFrame [g] [] [d, d + 1] [] s t)

/-- VCOMPRESS: of each group of 8 BF16 lanes the mask has exactly four bits, a lane is kept only when fewer than four of
its group are larger in magnitude or equal and lower, the kept words stand in ascending order of their lanes, and bytes 36
to 63 are zero (R138). -/
def Claim.CompressResult : Prop :=
  ∀ (s : State) (d x : Reg), s.InSlot → s.Clean [] [x] →
    CompletesWith (exec (.vcompress d x) s) (fun t =>
      (∀ g, g < 4 →
        let a := fun i => laneAt 16 (s.v x) (8 * g + i)
        let mag := fun i => a i % 2 ^ 15
        let keep := (List.range 8).filter (fun i => (List.range 8).countP (fun j =>
          decide (mag i < mag j) || (mag j == mag i && decide (j < i))) < 4)
        keep.length = 4
        ∧ (∀ j, j < 4 → laneAt 16 (t.v d) (4 * g + j) = a (keep.getD j 0))
        ∧ (∀ i, i < 8 → (laneAt 8 (t.v d) (32 + g)).testBit i = decide (i ∈ keep)))
      ∧ ∀ n, 36 ≤ n → n < 64 → laneAt 8 (t.v d) n = 0)

/-- VRCP and VRSQ, and the special values of VEXP2 (R114). A NaN, an infinity, a zero, an input out of range and the exact powers
give the results and flags of the table; every other result lies within 1 ulp of 1/x, or 2 ulp of 1/√x, in units of the exactly
rounded result, and sets NX, that of VRSQ unless it is exact. -/
def Claim.FloatBounds : Prop :=
  ∀ a : Nat, a < 2 ^ 32 →
    let sgn := a / 2 ^ 31
    let mag := a % 2 ^ 31
    let v := f32Val a
    let nan := 0x7FC00000
    let inf := 0x7F800000
    let signed := sgn * 2 ^ 31
    (inf < mag → let fl := if mag < nan then 1 else 0
      fRcp a = (nan, fl) ∧ fRsq a = (nan, fl) ∧ fExp2 a = (nan, fl))
    ∧ (mag = inf → fRcp a = (signed, 0) ∧ fRsq a = (if sgn = 0 then (0, 0) else (nan, 1))
        ∧ fExp2 a = (if sgn = 0 then inf else 0, 0))
    ∧ (mag = 0 → fRcp a = (signed + inf, 8) ∧ fRsq a = (signed + inf, 8) ∧ fExp2 a = (0x3F800000, 0))
    ∧ (0 < mag → mag < inf →
      (∀ n : Int, |v| = (2 : ℚ) ^ n → -127 ≤ n → n ≤ 126 → fRcp a = (signed + (127 - n).toNat * 2 ^ 23, 0))
      ∧ ((2 : ℚ) ^ (126 : Int) < |v| → fRcp a = (signed, 20))
      ∧ (|v| ≤ (2 : ℚ) ^ (-128 : Int) → fRcp a = (signed + inf, 18))
      ∧ ((2 : ℚ) ^ (-128 : Int) < |v| → |v| ≤ (2 : ℚ) ^ (126 : Int) → (∀ n : Int, |v| ≠ (2 : ℚ) ^ n) →
        ∃ r c, fRcp a = (r, 16) ∧ F32Normal (sgn == 1) r ∧ F32Normal (sgn == 1) c ∧ |f32Val c - 1 / v| ≤ f32Ulp c / 2
          ∧ |f32Val r - 1 / v| ≤ f32Ulp c)
      ∧ (sgn = 1 → fRsq a = (nan, 1))
      ∧ (∀ n : Int, v = (4 : ℚ) ^ n → -63 ≤ n → fRsq a = ((127 - n).toNat * 2 ^ 23, 0))
      ∧ (sgn = 0 → ∃ r c, (fRsq a).1 = r ∧ F32Normal false r ∧ F32Normal false c
        ∧ (f32Val c - f32Ulp c / 2) ^ 2 * v ≤ 1 ∧ 1 ≤ (f32Val c + f32Ulp c / 2) ^ 2 * v
        ∧ (f32Val r - 2 * f32Ulp c) ^ 2 * v ≤ 1 ∧ 1 ≤ (f32Val r + 2 * f32Ulp c) ^ 2 * v
        ∧ (fRsq a).2 = (if f32Val r ^ 2 * v = 1 then 0 else 16))
      ∧ (128 ≤ v → fExp2 a = (inf, 18))
      ∧ (v < -126 → fExp2 a = (0, 20))
      ∧ (∀ n : Int, v = n → -126 ≤ n → n ≤ 127 → fExp2 a = ((n + 127).toNat * 2 ^ 23, 0)))

/-- VEXP2 within its bound (R114): of a finite input that is no integer and lies from -126 up to 128, the result is a normal number
within 2 ulp of 2^x, in units of a pattern c that is 2^x rounded, and NX is set. -/
def Obligations.Exp2Bound : Prop :=
  ∀ a : Nat, a < 2 ^ 32 → a % 2 ^ 31 < 0x7F800000 → -126 ≤ f32Val a → f32Val a < 128 → (∀ n : Int, f32Val a ≠ n) →
    let y : ℝ := (2 : ℝ) ^ ((f32Val a : ℚ) : ℝ)
    ∃ r c, fExp2 a = (r, 16) ∧ F32Normal false r ∧ F32Normal false c
      ∧ |((f32Val c : ℚ) : ℝ) - y| ≤ (1 / 2 + 1 / 2 ^ 30) * ((f32Ulp c : ℚ) : ℝ)
      ∧ |((f32Val r : ℚ) : ℝ) - y| ≤ 2 * ((f32Ulp c : ℚ) : ℝ)

/-- The flags of the conversions (R107, R115). FFLAGS takes those of the active lanes for VCVT.BF16.F32, VCVT.F32.I32 and
VCVT.I32.F32, and none for the others. A finite FP32 number goes to BF16 by its upper half, rounded up by the mode, with NX where the
lower half is not zero, OF where infinity comes of it, UF where the result is subnormal; to an integer with NX alone where it is none,
and NV alone where it is a NaN or out of range; an integer to FP32 with NX where it has no exact image. -/
def Claim.ConversionFlags : Prop :=
  (∀ (s : State) (d x : Reg) (q : PReg) (h1 : BitVec 1) (h2 : BitVec 2), s.InSlot → s.Clean [] [x] →
    let flags : Instr → (Nat → Nat) → Prop := fun i f => CompletesWith (exec i s) (fun t =>
      FlagsAdded 32 (s.q q) 16 (s.my.cwv cwFFLAGS) (t.my.cwv cwFFLAGS) f)
    flags (.vcvtBf16F32 d x h1 q) (fun n => (cvtBf16 s.frm (laneAt 32 (s.v x) n)).2)
    ∧ flags (.vcvtF32I32 d x q) (fun n => (cvtF32 s.frm (slaneAt 32 (s.v x) n)).2)
    ∧ flags (.vcvtI32F32 d x q) (fun n => (cvtI32 s.frm (laneAt 32 (s.v x) n)).2)
    ∧ ∀ i ∈ [Instr.vcvtF32Bf16 d x h1 q, .vcvtI8I32 d x h2 q, .vcvtUi8I32 d x h2 q, .vcvtI32I8 d x h2 q], flags i (fun _ => 0))
  ∧ ∀ rm a : Nat, rm < 4 → a < 2 ^ 32 →
    let mag := a % 2 ^ 31
    let neg := decide (2 ^ 31 ≤ a)
    let low := a % 2 ^ 16
    let up := match rm with
      | 0 => decide (2 ^ 15 < low) || (low == 2 ^ 15 && a / 2 ^ 16 % 2 == 1)
      | 1 => false
      | 2 => !neg
      | _ => neg
    (mag < 0x7F800000 → low = 0 → cvtBf16 rm a = (a / 2 ^ 16, 0))
    ∧ (mag < 0x7F800000 → low ≠ 0 →
        let r := a / 2 ^ 16 + (if up then 1 else 0)
        cvtBf16 rm a = (r, roundFlags true (r % 2 ^ 15 == 0x7F80) (decide (r % 2 ^ 15 < 2 ^ 7))))
    ∧ (0x7F800000 < mag → cvtBf16 rm a = (0x7FC0, if mag < 0x7FC00000 then 1 else 0) ∧ cvtI32 rm a = (0, 1))
    ∧ (mag < 0x7F800000 →
        let v := f32Val a
        let k := fun n : Int => (match rm with
          | 0 => |v - n| < 1 / 2 ∨ (|v - n| = 1 / 2 ∧ n % 2 = 0)
          | 1 => |(n : ℚ)| ≤ |v| ∧ |v| < |(n : ℚ)| + 1 ∧ 0 ≤ v * n
          | 2 => v ≤ n ∧ (n : ℚ) < v + 1
          | _ => (n : ℚ) ≤ v ∧ v < n + 1)
        ∀ n : Int, k n → cvtI32 rm a = (if 2 ^ 31 ≤ n then (0x7FFFFFFF, 1) else if n < -2 ^ 31 then (0x80000000, 1)
          else (ulane 32 n, if v = n then 0 else 16)))
    ∧ ∀ x : Int, -2 ^ 31 ≤ x → x < 2 ^ 31 → (cvtF32 rm x).2 = if f32Val (cvtF32 rm x).1 = x then 0 else 16

/-! ### Vector memory -/

/-- VLD, VST and VLDB on plain local memory, with no poisoned source: with no active byte they only move on; VLD gives each
active byte of vd the byte of memory at its place, VLDB each active lane the word, and both leave the others; VST writes the
active bytes and leaves every other byte of memory; nothing else of the device changes (R122 to R124). -/
def Claim.VectorMemoryLocal : Prop :=
  ∀ (s : State) (d a b : Reg) (q : PReg), s.InSlot → s.Clean [a, b] [d] →
    let ea := s.g a + s.g b
    let loc := s.myLoc ea
    (s.q q = 0 → exec (.vld d a b q) s = .next s.advance ∧ exec (.vst d a b q) s = .next s.advance)
    ∧ (s.PlainLocal ea 64 → s.marks loc 64 = 0 → CompletesWith (exec (.vld d a b q) s) (fun t =>
        VecResult 8 (s.q q) (s.v d) (t.v d) (fun n => (s.byte (loc + n)).toNat) ∧ RegFrame [] [] [d] [] s t))
    ∧ (s.PlainLocal ea 64 → CompletesWith (exec (.vst d a b q) s) (fun t =>
        (∀ n, n < 64 → t.byte (loc + n) =
          if laneOn 8 (s.q q) n then BitVec.ofNat 8 (laneAt 8 (s.v d) n) else s.byte (loc + n))
        ∧ (∀ c, c < loc ∨ loc + 64 ≤ c → t.byte c = s.byte c)
        ∧ OnlyMemAndMine s t ∧ Keeps [] [] [] leftWords s.my t.my ∧ Past s.my t.my))
    ∧ (s.PlainLocal ea 4 → s.poisAt loc 4 = false → CompletesWith (exec (.vldb d a b q) s) (fun t =>
        VecResult 32 (s.q q) (s.v d) (t.v d) (fun _ => s.readLE loc 4) ∧ RegFrame [] [] [d] [] s t))

/-- The element forms on plain local memory: VLDS and VLDX give active lane n of vd the word at its element address, base +
n × stride or base + the zero-extended index; VSTS and VSTX write each active lane there in rising order, so that of lanes
with one address the highest stays, and leave every other byte of memory (R122 to R124). -/
def Claim.VectorElementsLocal : Prop :=
  ∀ (s : State) (d a b x : Reg) (q : PReg), s.InSlot → s.Clean [a, b] [d, x] →
    let on := laneOn 32 (s.q q)
    let load : Instr → (Nat → Word) → Prop := fun i ea =>
      (∀ n, n < 16 → on n = true → s.PlainLocal (ea n) 4 ∧ s.poisAt (s.myLoc (ea n)) 4 = false) →
      CompletesWith (exec i s) (fun t => VecResult 32 (s.q q) (s.v d) (t.v d) (fun n => s.readLE (s.myLoc (ea n)) 4)
        ∧ RegFrame [] [] [d] [] s t)
    let store : Instr → (Nat → Word) → Prop := fun i ea =>
      (∀ n, n < 16 → on n = true → s.PlainLocal (ea n) 4) →
      CompletesWith (exec i s) (fun t =>
        (∀ n, n < 16 → on n = true → (∀ m, n < m → m < 16 → on m = true → ea m ≠ ea n) →
          t.readLE (s.myLoc (ea n)) 4 = laneAt 32 (s.v d) n)
        ∧ (∀ c, (∀ n, n < 16 → on n = true → c < s.myLoc (ea n) ∨ s.myLoc (ea n) + 4 ≤ c) → t.byte c = s.byte c)
        ∧ OnlyMemAndMine s t ∧ Keeps [] [] [] leftWords s.my t.my ∧ Past s.my t.my)
    let strided := fun n : Nat => s.g a + BitVec.ofNat 64 n * s.g b
    let indexed := fun n : Nat => s.g a + BitVec.ofNat 64 (laneAt 32 (s.v x) n)
    load (.vlds d a b q) strided ∧ load (.vldx d a x q) indexed ∧ store (.vsts d a b q) strided
    ∧ store (.vstx d a x q) indexed

/-- Faults of the vector memory forms (R60, R87, R123, R125): in a handler context 0x01; VLD and VST at an address that is
no multiple of 64 raise 0x03 when any byte is active, with TVAL the address of the first active byte; an element form raises 0x03 with TVAL the address of the lowest active
lane that is misaligned, and, with every active lane aligned, 0x05 with the address of the lowest active lane that lies
outside local memory. -/
def Claim.VectorMemoryFaults : Prop :=
  ∀ (s : State) (d a b x : Reg) (q : PReg),
    (¬ s.InSlot → exec (.vld d a b q) s = .next (s.raise 0x01 ((encode (.vld d a b q)).setWidth 64))
      ∧ exec (.vstx d a x q) s = .next (s.raise 0x01 ((encode (.vstx d a x q)).setWidth 64)))
    ∧ (s.InSlot → s.Clean [a, b] [d, x] →
      let on := laneOn 32 (s.q q)
      let faults : Instr → (Nat → Word) → Prop := fun i ea =>
        (∀ n, n < 16 → on n = true → (ea n).toNat % 4 ≠ 0 → (∀ m, m < n → on m = true → (ea m).toNat % 4 = 0) →
          exec i s = .next (s.raise 0x03 (ea n)))
        ∧ (∀ n, n < 16 → on n = true → 0x40000 ≤ (ea n).toNat → (∀ m, m < 16 → on m = true → (ea m).toNat % 4 = 0) →
          (∀ m, m < n → on m = true → s.PlainLocal (ea m) 4) → exec i s = .next (s.raise 0x05 (ea n)))
      let strided := fun n : Nat => s.g a + BitVec.ofNat 64 n * s.g b
      let indexed := fun n : Nat => s.g a + BitVec.ofNat 64 (laneAt 32 (s.v x) n)
      (∀ n, n < 64 → laneOn 8 (s.q q) n = true → (∀ m, m < n → laneOn 8 (s.q q) m = false) →
        (s.g a + s.g b).toNat % 64 ≠ 0 → (s.g a + s.g b).toNat < 2 ^ 63 →
        exec (.vld d a b q) s = .next (s.raise 0x03 (s.g a + s.g b + BitVec.ofNat 64 n))
        ∧ exec (.vst d a b q) s = .next (s.raise 0x03 (s.g a + s.g b + BitVec.ofNat 64 n)))
      ∧ faults (.vlds d a b q) strided ∧ faults (.vsts d a b q) strided ∧ faults (.vldx d a x q) indexed
      ∧ faults (.vstx d a x q) indexed)

/-! ### The repeat frame -/

/-- RPT in a slot whose captured words lie in local memory, unpoisoned, with an empty fetch queue: when a check of R53 fails
it raises that fault with TVAL the address of the word that fails it and no iteration runs; else the scalar stream goes on
after the captured words, and the frame of those words, strides and count is live at iteration 0 position 0, none with count
0. In a handler context RPT raises fault 0x01 (R50, R52, R53, R60). -/
def Obligations.RptEffect : Prop :=
  ∀ (s : State) (len : BitVec 4) (sd sa sb : BitVec 2) (c15 : BitVec 15) (a : Reg),
    let n := len.toNat + 1
    let pc := s.my.pc
    let ws : List IWord := (List.range n).map (fun j =>
      BitVec.ofNat 32 (s.readLE (localLoc s.cur.core (pc.toNat + 4 + 4 * j)) 4))
    let imm : Instr := .rptImmediate len sd sa sb c15
    let reg : Instr := .rptRegister len sd sa sb a
    (¬ s.InSlot → exec imm s = .next (s.raise 0x01 ((encode imm).setWidth 64))
      ∧ exec reg s = .next (s.raise 0x01 ((encode reg).setWidth 64)))
    ∧ (s.InSlot → pc.toNat % 4 = 0 → pc.toNat + 4 * (n + 1) ≤ 0x40000 → s.my.fq = [] → s.my.frame = none →
      (∀ j, j < n → s.readBad (localLoc s.cur.core (pc.toNat + 4 + 4 * j)) 4 = false) →
      let runs : Instr → Nat → Prop := fun i count =>
        (∀ code j, frameFault ws sd.toNat sa.toNat sb.toNat count = some (code, j) → ∃ u : State,
          OnlyMine s u ∧ Keeps [] [] [] [] s.my u.my ∧ u.my.pc = pc ∧ u.my.frame = none
          ∧ exec i s = .next (u.raise code (pc + 4 + BitVec.ofNat 64 (4 * j))))
        ∧ (frameFault ws sd.toNat sa.toNat sb.toNat count = none → CompletesWith (exec i s) (fun t =>
          OnlyMine s t ∧ Keeps [] [] [] leftWords s.my t.my ∧ t.my.pc = pc + BitVec.ofNat 64 (4 * (n + 1))
          ∧ t.my.frame = if count = 0 then none else some ⟨ws, sd.toNat, sa.toNat, sb.toNat, count, 0, 0⟩))
      runs imm c15.toNat ∧ (s.Clean [a] [] → runs reg ((s.g a).toNat % 2 ^ 32)))

/-- A frame of n words and count c runs the words in order, all of one iteration before the next: after k of its c × n steps
it stands at iteration k div n, position k mod n, and after c × n it has ended (R52). -/
def Claim.FrameOrder : Prop :=
  ∀ (f : Frame) (k : Nat), 0 < f.words.length → f.iter = 0 → f.pos = 0 → 0 < f.count →
    (k < f.count * f.words.length →
      f.after k = some { f with iter := k / f.words.length, pos := k % f.words.length })
    ∧ f.after (f.count * f.words.length) = none

/-- A step of the sequencer performs the captured word the frame stands at, with the strides of its iteration added; when it
does not fault it is counted, what the scalar stream waits for stays as it was, and a trap held beside the frame is taken once
the frame has ended (R52, R54, R370). -/
def Claim.StepRunsCaptured : Prop :=
  ∀ (s t : State) (c : CtxId) (rest : List Act) (f : Frame) (i : Instr),
    s.firstAct s.agenda = some (.seq c, rest) → (s.ctx c).frame = some f →
    State.canSequence { s with agenda := rest } c = true → decode f.current = some i →
    let s1 := State.ready1 { s with agenda := rest } c
    exec i (s1.setMy { s1.my with onFrame := true, wait := .none, rbuf := [], rpois := [], skipNow := false }) = .next t →
    t.faulted = false →
    step s = .next (State.countCaptured { s with agenda := rest } (t.setCtx c { t.ctx c with
      onFrame := false, wait := s1.my.wait, rbuf := s1.my.rbuf, rpois := s1.my.rpois, skipNow := s1.my.skipNow })
      c f.current).heldTrapNow

/-- A fault of an instruction beside a live frame is held: the pc, the frame and every register stay; when the frame has ended
the trap is taken, with TPC the pc of the instruction, which is still there (R54). -/
def Claim.HeldTraps : Prop :=
  ∀ (s : State) (code : Nat) (val : Word),
    (∀ f, s.my.frame = some f → s.my.onFrame = false →
      let t := s.raise code val
      t.my.heldTrap = some (code, val) ∧ t.my.frame = some f ∧ t.my.pc = s.my.pc ∧ Keeps [] [] [] [] s.my t.my
      ∧ SameMem s t ∧ t.heldTrapNow = t)
    ∧ (s.my.frame = none → s.my.heldTrap = some (code, val) →
        s.heldTrapNow = (s.setMy { s.my with heldTrap := none }).takeTrap s.cur code val s.my.pc)
    ∧ (s.my.heldTrap = none → s.heldTrapNow = s)

/-- The strides of a register-format word: iteration i of ADD names each register raised by i times its stride, where that
stays in the file (R51, R52). -/
def Claim.StridedRegisters : Prop :=
  ∀ (d a b : Reg) (i sd sa sb : Nat), d.toNat + i * sd ≤ 31 → a.toNat + i * sa ≤ 31 → b.toNat + i * sb ≤ 31 →
    ∃ st, strides (.add d a b) = some st
      ∧ decode (strideWord (encode (.add d a b)) st sd sa sb i) = some (.add (BitVec.ofNat 5 (d.toNat + i * sd))
          (BitVec.ofNat 5 (a.toNat + i * sa)) (BitVec.ofNat 5 (b.toNat + i * sb)))

/-- An interrupted frame is saved whole in RPTST, RPTCNT and RPTW0 to RPTW7: taking it up again gives the same frame, at the
same iteration and position (R55, R56). -/
def Claim.FrameSaveResume : Prop :=
  ∀ (x : Ctx) (f : Frame), f.Ok → x.frame = some f →
    x.interruptFrame.frame = none ∧ (x.interruptFrame.cwv 0x020).getLsbD 63 = true
    ∧ x.interruptFrame.resumeFrame.frame = some f
    ∧ Keeps [] [] [] ([0x020, 0x021] ++ (List.range 8).map (fun k => 0x028 + k)) x x.interruptFrame

/-! ### The matrix slice -/

/-- MSWAP exchanges wa and wb whole; MZERO clears every element and the poison bit of its accumulator; MSCALE multiplies
every element by bits [31:0] of ga, rounded to nearest even; MFREE clears a slice its slot owns and gives it up, and does
nothing to one it does not own, and waits for the slice queue first; the others leave the slot waiting while another slot owns
the slice or the queue has no room (R140, R145, R149, R153, R164). -/
def Claim.SliceRegisterForms : Prop :=
  ∀ (s : State) (m : Acc) (g : Reg), s.InSlot →
    (s.MaySlice →
      CompletesWith (exec .mswap s) (SliceStep [] (fun x => x.wa = s.slice.wb ∧ x.wb = s.slice.wa ∧ x.acc = s.slice.acc
        ∧ x.mpois = s.slice.mpois) s)
      ∧ CompletesWith (exec (.mzero m) s) (SliceStep [] (fun x => (∀ i, i < 16 → x.row m.toNat i = 0)
        ∧ (∀ k i, k ≠ m.toNat → i < 16 → x.row k i = s.slice.row k i) ∧ x.mpois.getLsbD m.toNat = false
        ∧ x.wa = s.slice.wa ∧ x.wb = s.slice.wb) s)
      ∧ (s.Clean [g] [] → CompletesWith (exec (.mscale m g) s) (SliceStep [] (fun x =>
        (∀ i n, i < 16 → n < 16 → laneAt 32 (x.row m.toNat i) n =
          (fmul 23 0 (laneAt 32 (s.slice.row m.toNat i) n) ((s.g g).toNat % 2 ^ 32)).1 % 2 ^ 32)
        ∧ (∀ k i, k ≠ m.toNat → i < 16 → x.row k i = s.slice.row k i) ∧ x.mpois = s.slice.mpois
        ∧ x.wa = s.slice.wa ∧ x.wb = s.slice.wb) s)))
    ∧ (¬ s.MaySlice → exec .mswap s = .next s.stall ∧ exec (.mzero m) s = .next s.stall)
    ∧ (s.slice.owner ≠ some s.cur.ctx.val ∨ s.slice.queue = [] →
      CompletesWith (exec .mfree s) (fun t => SameMem s t ∧ Keeps [] [] [] leftWords s.my t.my ∧ Past s.my t.my
        ∧ t.slice = if s.slice.owner = some s.cur.ctx.val then {} else s.slice))
    ∧ (s.slice.owner = some s.cur.ctx.val → s.slice.queue ≠ [] → exec .mfree s = .next s.stall)

/-- A matrix instruction stays in the slice queue until its cycles are over: at the end of each cycle those whose cycles have
passed leave it, and nothing else of the slice changes (R139, R145). -/
def Claim.SliceQueue : Prop :=
  ∀ (x : Core) (now : Nat),
    (x.sliceCycle now).slice = { x.slice with queue := x.slice.queue.filter (fun e => decide (now < e.1)) }
    ∧ (x.sliceCycle now).outs = x.outs ∧ (x.sliceCycle now).ports = x.ports ∧ (x.sliceCycle now).inbox = x.inbox

/-- MLDW on local memory, aligned, unpoisoned, no stash window mapped, on a slice of its kind: wb takes the columns, byte b
of column n from ea + n × the column stride, or the first 64 × k bytes of the block and the sixteen scales at SPTR, which
moves on by 32; its poison bit clears; wa and the accumulators stay (R148). -/
def Claim.SliceLoadWeights : Prop :=
  ∀ (s : State) (g : Reg) (pl : BitVec 3), s.InSlot → s.MaySlice → s.NoStash → s.Clean [g] [] →
    let ea := s.g g
    let w := (s.my.cwv 0x041).toNat % 8192 * 32
    let float : Instr → Nat → Nat → Prop := fun i fmt z =>
      let cs := if w = 0 then z else w
      planeCluster s.cur.core.cluster = false → ea.toNat % 32 = 0 →
      (∀ n, n < 16 → inLocal (ea + BitVec.ofNat 64 (n * cs)) z
        ∧ s.poisAt (s.myLoc (ea + BitVec.ofNat 64 (n * cs))) z = false) →
      CompletesWith (exec i s) (SliceStep [] (fun x => x.wb.fmt = fmt ∧ x.wb.pois = false
        ∧ (∀ n b, n < 16 → b < z → tget 0 x.wb.cols (z * n + b) = s.byte (s.myLoc (ea + BitVec.ofNat 64 (n * cs)) + b))
        ∧ x.wa = s.slice.wa ∧ x.acc = s.slice.acc ∧ x.mpois = s.slice.mpois) s)
    float (.mldwBf16 g) 1 32 ∧ float (.mldwF32 g) 2 64
    ∧ (let sp := s.my.cwv 0x043
       let k := pl.toNat + 1
       planeCluster s.cur.core.cluster = true → ea.toNat % 64 = 0 → sp.toNat % 2 = 0 → inLocal ea (64 * k) → inLocal sp 32 →
       s.poisAt (s.myLoc ea) (64 * k) = false → s.poisAt (s.myLoc sp) 32 = false →
       CompletesWith (exec (.mldwP g pl) s) (fun t => SliceStep [0x043] (fun x => x.wb.fmt = 3 ∧ x.wb.planes = k
         ∧ x.wb.pois = false ∧ (∀ b, b < 64 * k → tget 0 x.wb.cols b = s.byte (s.myLoc ea + b))
         ∧ (∀ b, b < 32 → tget 0 x.wb.scales b = s.byte (s.myLoc sp + b))
         ∧ x.wa = s.slice.wa ∧ x.acc = s.slice.acc ∧ x.mpois = s.slice.mpois) s t ∧ t.my.cwv 0x043 = sp + 32))

/-- MMA and MMAS on an unpoisoned tile of local memory, on a slice of the form's kind whose wa holds its format, with well
formed metadata: element (i, n) of md becomes R150's sum over the row at base + i × stride, with the row's bytes wrapping in
local memory; md is marked poisoned exactly as before, or when wa is; nothing else of the slice changes (R146, R150, R151). -/
def Claim.SliceMultiply : Prop :=
  ∀ (s : State) (m : Acc) (v g : Reg) (pl : BitVec 3), s.InSlot → s.MaySlice → s.Clean [g] [v, v + 1] →
    let runs : Instr → GangForm → Nat → Prop := fun i f k =>
      let base := (s.g g).toNat % 2 ^ 18 / 32 * 32
      let a := (s.my.cwv 0x040).toNat % 8192 * 32
      let stride := if a = 0 then formRow f else a
      let row : Nat → List Byte := fun i => (List.range (formRow f)).map (fun b =>
        s.byte (localLoc s.cur.core ((base + i * stride + b) % 2 ^ 18)))
      let mdata := s.metaOf f v
      planeCluster s.cur.core.cluster = formPlane f → s.slice.wa.fmt = formFmt f → badMeta 0 mdata = none →
      (∀ i b, i < 16 → b < formRow f → s.poisAt (localLoc s.cur.core ((base + i * stride + b) % 2 ^ 18)) 1 = false) →
      CompletesWith (exec i s) (SliceStep [] (fun x =>
        (∀ i n, i < 16 → n < 16 → laneAt 32 (x.row m.toNat i) n = mulElem f k s.slice.wa mdata
          ((s.my.cwv 0x042).toNat % 2 ^ 32) (row i) (laneAt 32 (s.slice.row m.toNat i) n) n % 2 ^ 32)
        ∧ (∀ j i, j ≠ m.toNat → i < 16 → x.row j i = s.slice.row j i) ∧ x.wa = s.slice.wa ∧ x.wb = s.slice.wb
        ∧ x.mpois = s.slice.mpois ||| (if s.slice.wa.pois then (1 : BitVec 4) <<< m.toNat else 0)) s)
    runs (.mmaBf16 m g) .bf16 1 ∧ runs (.mmaF32 m g) .f32 1 ∧ runs (.mmaP m g pl) .p (pl.toNat + 1)
    ∧ runs (.mmasBf16 m v g) .sbf16 1 ∧ runs (.mmasP m v g pl) .sp (pl.toNat + 1)

/-- What the sum of a dense form is: for BF16 and F32 the old element plus the products of the sixteen activations of the row
with the sixteen weights of the column, rounded once; for P the exact integer sum over 32 positions of the weights read with
the smaller of k and the planes of wa, scaled by the column's scale and the activation scale and rounded, then added to the
old element and rounded (R111, R112, R150, R151). -/
def Claim.MultiplyMeaning : Prop :=
  ∀ (k : Nat) (wa : Plane) (act : Nat) (row : List Byte) (c n : Nat), n < 16 →
    let le : (Nat → Byte) → Nat → Nat → Nat := fun b o z => leNat ((List.range z).map (fun j => b (o + j)))
    let col := fun o => tget 0 wa.cols o
    let act8 := fun o => row.getD o 0
    (row.length = 32 → mulElem .bf16 k wa [] act row c n % 2 ^ 32 =
      macFloat 7 c ((List.range 16).map (fun s => le act8 (2 * s) 2)) ((List.range 16).map (fun s => le col (32 * n + 2 * s) 2)) % 2 ^ 32)
    ∧ (row.length = 64 → mulElem .f32 k wa [] act row c n % 2 ^ 32 =
      macFloat 23 c ((List.range 16).map (fun s => le act8 (4 * s) 4)) ((List.range 16).map (fun s => le col (64 * n + 4 * s) 4)) % 2 ^ 32)
    ∧ (row.length = 32 → mulElem .p k wa [] act row c n % 2 ^ 32 =
      macPlane c (((List.range 32).map (fun s => npi col (min k wa.planes) n s * (act8 s).toInt)).sum)
        (le (fun o => tget 0 wa.scales o) (2 * n) 2) act % 2 ^ 32)

/-- Faults of the matrix instructions in the order of R155: in a handler context 0x01; with a poisoned ga 0x0D; a misaligned
operand 0x03; an operand in an area other than local memory 0x05; a form of the other kind 0x07 with TVAL 1; a multiply on a
wa of another format 0x07 with TVAL 2; a metadata byte without exactly four bits 0x08 naming the lowest such byte. -/
def Claim.SliceFaults : Prop :=
  ∀ (s : State) (m : Acc) (v g : Reg),
    (¬ s.InSlot → exec (.mzero m) s = .next (s.raise 0x01 ((encode (.mzero m)).setWidth 64))
      ∧ exec .mfree s = .next (s.raise 0x01 ((encode .mfree).setWidth 64)))
    ∧ (s.InSlot → s.my.poisoned [g] [] = some g.toNat → exec (.mldacc m g) s = .next (s.raise 0x0D (BitVec.ofNat 64 g.toNat))
        ∧ exec (.mmaBf16 m g) s = .next (s.raise 0x0D (BitVec.ofNat 64 g.toNat)))
    ∧ (s.InSlot → s.Clean [g] [v] → s.slice.owner = some s.cur.ctx.val → s.slice.queue.length < 8 →
      ((s.g g).toNat % 64 ≠ 0 → exec (.mldacc m g) s = .next (s.raise 0x03 (s.g g))
        ∧ exec (.mstacc m g) s = .next (s.raise 0x03 (s.g g))
        ∧ (s.slice.queue = [] → exec (.msave g) s = .next (s.raise 0x03 (s.g g))
          ∧ exec (.mrest g) s = .next (s.raise 0x03 (s.g g))))
      ∧ ((s.g g).toNat % 64 = 0 → (s.g g).toNat = 0x40000 ∨ (s.g g).toNat = 0x80000 ∨ (s.g g).toNat = 2 ^ 57 →
        exec (.mldacc m g) s = .next (s.raise 0x05 (s.g g)) ∧ exec (.mstacc m g) s = .next (s.raise 0x05 (s.g g)))
      ∧ (planeCluster s.cur.core.cluster = true → exec (.mmaBf16 m g) s = .next (s.raise 0x07 1)
        ∧ exec (.mmasBf16 m v g) s = .next (s.raise 0x07 1))
      ∧ (planeCluster s.cur.core.cluster = false → s.slice.wa.fmt ≠ 1 → exec (.mmaBf16 m g) s = .next (s.raise 0x07 2)
        ∧ exec (.mmasBf16 m v g) s = .next (s.raise 0x07 2))
      ∧ (planeCluster s.cur.core.cluster = false → s.slice.wa.fmt = 1 → ∀ b, b < 64 →
        ((List.range 8).countP (fun i => (laneAt 8 (s.v v) b).testBit i)) ≠ 4 →
        (∀ c, c < b → ((List.range 8).countP (fun i => (laneAt 8 (s.v v) c).testBit i)) = 4) →
        exec (.mmasBf16 m v g) s = .next (s.raise 0x08 (BitVec.ofNat 64 (b + 256 * laneAt 8 (s.v v) b)))))

/-- MLDACC and MSTACC on local memory, aligned, no stash window mapped: element (i, n) is the four bytes at ea + 4 × (16i +
n); MLDACC of unpoisoned data clears the poison bit; MSTACC writes those bytes, MSTACC.BF16 two bytes each at
ea + 2 × (16i + n) rounded to nearest even, and both leave every other byte of memory and the slice (R154). -/
def Claim.SliceAccumulatorMoves : Prop :=
  ∀ (s : State) (m : Acc) (g : Reg), s.InSlot → s.MaySlice → s.NoStash → s.Clean [g] [] →
    let ea := s.g g
    let loc := s.myLoc ea
    ea.toNat % 64 = 0 → inLocal ea 1024 →
    (s.poisAt loc 1024 = false → CompletesWith (exec (.mldacc m g) s) (SliceStep [] (fun x =>
      (∀ i n, i < 16 → n < 16 → laneAt 32 (x.row m.toNat i) n = s.readLE (loc + 4 * (16 * i + n)) 4)
      ∧ (∀ j i, j ≠ m.toNat → i < 16 → x.row j i = s.slice.row j i) ∧ x.mpois.getLsbD m.toNat = false
      ∧ x.wa = s.slice.wa ∧ x.wb = s.slice.wb) s))
    ∧ CompletesWith (exec (.mstacc m g) s) (fun t =>
        (∀ i n, i < 16 → n < 16 → t.readLE (loc + 4 * (16 * i + n)) 4 = laneAt 32 (s.slice.row m.toNat i) n)
        ∧ (∀ a, a < loc ∨ loc + 1024 ≤ a → t.byte a = s.byte a)
        ∧ t.slice.acc = s.slice.acc ∧ t.slice.wa = s.slice.wa ∧ t.slice.wb = s.slice.wb ∧ t.slice.mpois = s.slice.mpois
        ∧ Keeps [] [] [] leftWords s.my t.my ∧ Past s.my t.my ∧ ∀ c, c ≠ s.cur → t.ctx c = s.ctx c)
    ∧ CompletesWith (exec (.mstaccBf16 m g) s) (fun t =>
        (∀ i n, i < 16 → n < 16 → t.readLE (loc + 2 * (16 * i + n)) 2 =
          (cvtBf16 0 (laneAt 32 (s.slice.row m.toNat i) n)).1 % 2 ^ 16)
        ∧ (∀ a, a < loc ∨ loc + 512 ≤ a → t.byte a = s.byte a)
        ∧ t.slice.acc = s.slice.acc ∧ t.slice.wa = s.slice.wa ∧ t.slice.wb = s.slice.wb ∧ t.slice.mpois = s.slice.mpois
        ∧ Keeps [] [] [] leftWords s.my t.my ∧ Past s.my t.my ∧ ∀ c, c ≠ s.cur → t.ctx c = s.ctx c)

/-- MSAVE to local memory writes the 6,336-byte image of R162 and leaves every other byte; MREST of a good image of the
slice's kind takes over the slice it holds; and the slice that an image of a slice holds has the same formats, plane counts,
columns, scales, accumulators and poison; both need the slice queue empty and stay in it for 99 cycles (R145, R162, R163). -/
def Claim.SliceSaveRestore : Prop :=
  (∀ (s : State) (g : Reg), s.InSlot → s.MaySlice → s.NoStash → s.Clean [g] [] →
    let ea := s.g g
    let loc := s.myLoc ea
    let plane := planeCluster s.cur.core.cluster
    let queued := [(s.time + 99, s.regionOf s.cur)]
    ea.toNat % 64 = 0 → inLocal ea 6336 → s.slice.queue = [] →
    CompletesWith (exec (.msave g) s) (fun t => t.bytes loc 6336 =
        Slice.image { s.slice with owner := some s.cur.ctx.val } plane s.my.matWords
      ∧ (∀ a, a < loc ∨ loc + 6336 ≤ a → t.byte a = s.byte a)
      ∧ t.slice = { s.slice with owner := some s.cur.ctx.val, queue := queued }
      ∧ Keeps [] [] [] leftWords s.my t.my ∧ Past s.my t.my)
    ∧ (s.poisAt loc 6336 = false → imageFault (s.dword loc) plane = none → CompletesWith (exec (.mrest g) s) (fun t =>
        t.slice = { sliceOf (some s.cur.ctx.val) (s.bytes loc 6336) (List.replicate 99 false) with queue := queued }
        ∧ SameMem s t
        ∧ Keeps [] [] [] (leftWords ++ [0x040, 0x041, 0x042, 0x043]) s.my t.my ∧ Past s.my t.my))
    ∧ (s.poisAt loc 6336 = false → s.slice.owner = some s.cur.ctx.val → ∀ v, imageFault (s.dword loc) plane = some v →
        exec (.mrest g) s = .next (s.raise 0x07 (BitVec.ofNat 64 v))))
  ∧ (∀ (x : Slice) (plane : Bool) (cw : List Word) (o : Option Nat), x.wa.Ok → x.wb.Ok → cw.length = 4 →
      let y := sliceOf o (x.image plane cw) (List.replicate 99 false)
      let same : Plane → Plane → Prop := fun a b => b.fmt = a.fmt ∧ b.planes = a.planes ∧ b.pois = a.pois
        ∧ (∀ i, i < a.used → tget 0 b.cols i = tget 0 a.cols i)
        ∧ (a.fmt = 3 → ∀ i, i < 32 → tget 0 b.scales i = tget 0 a.scales i)
      y.owner = o ∧ y.mpois = x.mpois ∧ same x.wa y.wa ∧ same x.wb y.wb
      ∧ ∀ m i, m < 4 → i < 16 → y.row m i = x.row m i)

/-- GANG and GANG.T on a drained slice: a member that arrives with fewer than three others present waits at the barrier with the
operands it sampled; the fourth of one form and plane count completes and releases it: row i of the tile is row i of the member
at column i div 4, each member adds its products into its own accumulator with its own weights, GSTAT of each is 0, and each of
the four moves past its instruction; with the fourth of four present of which one differs in form or plane count the barrier is
empty, no memory changes and each of the four takes fault 0x07 with TVAL 5 at its own instruction (R145, R159, R160). -/
def Claim.GangBarrier : Prop :=
  ∀ (s : State) (f : GangForm) (m : Acc) (v g : Reg) (pl : BitVec 3), s.InSlot → s.MaySlice → s.slice.queue = [] →
    s.Clean [g] [v, v + 1] → planeCluster s.cur.core.cluster = formPlane f → s.slice.wa.fmt = formFmt f →
    badMeta 0 (s.metaOf f v) = none →
    let mine : GangArrival := ⟨s.cur.ctx.val, f, pl.toNat + 1, m.toNat, (s.g g).toNat % 2 ^ 18 / 32 * 32,
      s.tileStride (formRow f), s.metaOf f v, (s.my.cwv 0x042).toNat % 2 ^ 32⟩
    let at' : CoreId → Option GangArrival := fun k => if k = s.cur.core then some mine else (s.core k).gangAt
    let waits : Instr → Prop := fun i => (∃ k ∈ rowCores s.cur.core, at' k = none) → ∃ t, exec i s = .next t
      ∧ t.my.wait = .gang t.nextId ∧ t.myCore.gangAt = some mine ∧ SameMem s t ∧ t.my.pc = s.my.pc
    let completes : Instr → Prop := fun i =>
      ∀ a : CoreId → GangArrival, (∀ k ∈ rowCores s.cur.core, at' k = some (a k)
        ∧ (a k).form = f ∧ (a k).k = pl.toNat + 1 ∧ (a k).slot < 4 ∧ (a k).m < 4) →
      let row : Nat → List Byte := fun i =>
        let k := s.cur.core.cluster.coreAt (s.cur.core.core.val / 4 * 4 + i / 4)
        s.tileRow k (a k).base (a k).stride (formRow f) i
      (∀ k ∈ rowCores s.cur.core, ∀ i, i / 4 = k.core.val % 4 → s.rowBad k (a k).base (a k).stride (formRow f) i = none) →
      ∃ t, exec i s = .next t ∧ Past s.my t.my ∧ SameMem s t ∧ ∀ k ∈ rowCores s.cur.core,
        (t.core k).gangAt = none ∧ (t.ctx (ctxAt k (a k).slot)).wait = .none ∧ (t.ctx (ctxAt k (a k).slot)).cwv 0x045 = 0
        ∧ Past (s.ctx (ctxAt k (a k).slot)) (t.ctx (ctxAt k (a k).slot))
        ∧ ∀ i, i < 16 → (t.core k).slice.row (a k).m i = mulRow f (pl.toNat + 1) (s.core k).slice.wa (a k).mdata (a k).scale
            (row i) ((s.core k).slice.row (a k).m i)
    let differs : Instr → Prop := fun i =>
      ∀ a : CoreId → GangArrival, (∀ k ∈ rowCores s.cur.core, at' k = some (a k) ∧ (a k).slot < 4) →
      (∃ k ∈ rowCores s.cur.core, (a k).form ≠ f ∨ (a k).k ≠ pl.toNat + 1) →
      (∀ k ∈ rowCores s.cur.core, let x := s.ctx (ctxAt k (a k).slot)
        x.frame = none ∧ x.tb = false ∧ (x.cwv 0x005).getLsbD 7 = true ∧ x.cwv 0x004 ≠ 0) →
      ∃ t, exec i s = .next t ∧ SameMem s t ∧ ∀ k ∈ rowCores s.cur.core,
        let x := s.ctx (ctxAt k (a k).slot)
        let y := t.ctx (ctxAt k (a k).slot)
        (t.core k).gangAt = none ∧ y.wait = .none ∧ y.pc = x.cwv 0x004 ∧ y.cwv 0x001 = 7 ∧ y.cwv 0x002 = 5
          ∧ y.cwv 0x003 = x.pc
    waits (.gang f m v g pl) ∧ completes (.gang f m v g pl) ∧ differs (.gang f m v g pl)
      ∧ waits (.gangT f m v g pl) ∧ completes (.gangT f m v g pl) ∧ differs (.gangT f m v g pl)

/-! ### Counters and tagged words -/

/-- The counter instructions on counter n of the own core, with no breakpoint entry that matches, of a context that is not
in a counter wait: MBINC posts the increment, which COUNTER_CHANGE performs; MBRD reads; MBSET sets; MBWAIT ends at once when
C − T is below 2^31 modulo 2^32, with 1 in gd for the timed form, and raises fault 0x0F when the counter's MPOIS bit is set; else
the context waits, the timed form for MTIME.CYC cycles. A wait whose test held ends at the next issue. A counter that MASK
withholds raises fault 0x0B with TVAL 4 in MBSET and MBWAIT (R252 to R257, R339). -/
def Claim.CounterInstructions : Prop :=
  ∀ (s : State) (n : BitVec 6) (r : Bool) (d a b : Reg), s.NoBreak → (s.g a).toNat = 0x80000 + 4 * n.toNat →
    s.Clean [a, b] [] →
    let k := s.cur.core
    let c := s.ctr k n.toNat
    let v : BitVec 32 := (s.g b).setWidth 32
    let gone := (s.myCore.cwv cwMPOIS).getLsbD n.toNat
    let begins : Prop := ∀ m w id gd met, s.my.wait ≠ .counter m w id gd met
    exec (.mbinc r a b) s = .next (s.post (.counterChange k n false v false)).advance
    ∧ exec (.mbrd d a) s = .next (s.done d (c.setWidth 64))
    ∧ (s.masked n = false → exec (.mbset a b) s = .next (s.setCtr k n v).advance)
    ∧ (s.masked n = true → exec (.mbset a b) s = .next (s.raise 0x0B 4))
    ∧ (begins → s.masked n = true → exec (.mbwait a b) s = .next (s.raise 0x0B 4)
        ∧ exec (.mbwaitT d a b) s = .next (s.raise 0x0B 4))
    ∧ (begins → s.masked n = false → (c - v).toNat < 2 ^ 31 → gone = false →
        exec (.mbwait a b) s = .next s.advance ∧ exec (.mbwaitT d a b) s = .next (s.done d 1))
    ∧ (begins → s.masked n = false → (c - v).toNat < 2 ^ 31 → gone = true →
        exec (.mbwait a b) s = .next (s.raise 0x0F (s.g a)) ∧ exec (.mbwaitT d a b) s = .next (s.raise 0x0F (s.g a)))
    ∧ (begins → s.masked n = false → 2 ^ 31 ≤ (c - v).toNat →
        (∃ t, exec (.mbwait a b) s = .next t ∧ t.my = { s.my with wait := .counter n v t.nextId none false } ∧ SameMem s t
          ∧ t.timers = s.timers)
        ∧ (∃ t, exec (.mbwaitT d a b) s = .next t ∧ t.my = { s.my with wait := .counter n v t.nextId (some d) false }
          ∧ t.timers = s.timers ++ [(s.time + (s.my.cwv 0x0E0).toNat % 2 ^ 32, .mbwaitTimeout s.cur t.nextId)]))
    ∧ (∀ (id : Nat) (gd : Option Reg), s.my.wait = .counter n v id gd true →
        let u := match gd with
          | some x => s.done x 1
          | none => s.advance
        exec (.mbwait a b) s = .next u ∧ exec (.mbwaitT d a b) s = .next u)

/-- The events of counters: COUNTER_CHANGE adds or sets, marks MPOIS for a poisoned increment and puts the tests of the counter
on the agenda; other counters and every context stay; the increment of a flag that came from above the cluster does the same. The tests at the end of the cycle mark each wait of the core's contexts on
that counter that the value meets, start the commands armed on it and release the armed entries in the next cycle; on a counter
with its MPOIS bit set the one context whose test holds takes fault 0x0F instead. MBWAIT_TIMEOUT writes 0 to gd and ends the
wait it was set for, and does nothing to a wait whose test has held (R174, R254, R256, R262, R339). -/
def Claim.CounterEvents : Prop :=
  (∀ (s : State) (k : CoreId) (n : BitVec 6) (set : Bool) (v : BitVec 32) (bad : Bool),
    s.event = .counterChange k n set v bad →
    let new := if set then v else s.ctr k n.toNat + v
    ∃ t, exec .counterChange s = .next t ∧ t.ctr k n.toNat = new
      ∧ (∀ j m, (j, m) ≠ (k, n) → t.ctr j m.toNat = s.ctr j m.toNat) ∧ SameMem s t
      ∧ ((t.core k).cwv cwMPOIS).getLsbD n.toNat = (((s.core k).cwv cwMPOIS).getLsbD n.toNat || bad)
      ∧ (∀ c, t.ctx c = s.ctx c) ∧ Act.test k n ∈ t.agenda)
  ∧ (∀ (s : State) (k : CoreId) (n : BitVec 6) (bad : Bool), s.event = .counterFromAbove k n bad →
    ∃ t, exec .counterChange s = .next t ∧ t.ctr k n.toNat = s.ctr k n.toNat + 1
      ∧ (∀ j m, (j, m) ≠ (k, n) → t.ctr j m.toNat = s.ctr j m.toNat) ∧ SameMem s t
      ∧ ((t.core k).cwv cwMPOIS).getLsbD n.toNat = (((s.core k).cwv cwMPOIS).getLsbD n.toNat || bad)
      ∧ (∀ c, t.ctx c = s.ctx c) ∧ Act.test k n ∈ t.agenda)
  ∧ (∀ (s : State) (k : CoreId) (n : BitVec 6),
    let v := s.ctr k n.toNat
    let t := s.testCounter k n
    (((s.core k).cwv cwMPOIS).getLsbD n.toNat = false →
      SameMem s t ∧ t.counters = s.counters
      ∧ (∀ e ∈ (s.core k).armedHits n v, .ev (.triggeredCommandStart k (BitVec.ofNat 2 e.1) e.2) ∈ t.agenda)
      ∧ (∀ e ∈ (s.cluster k.cluster).queue, e.msg.typ = 1 → e.msg.trig = s.corePa k (0x80000 + 4 * n.toNat) →
          (v - BitVec.ofNat 32 e.msg.target).toNat < 2 ^ 31 → (s.time + 1, .armedRelease k.cluster e.msg.cat) ∈ t.timers)
      ∧ ∀ c, t.ctx c = (match (s.ctx c).wait with
          | .counter m w id gd _ => if c.core = k ∧ m = n ∧ (v - w).toNat < 2 ^ 31 then
              { s.ctx c with wait := .counter m w id gd true } else s.ctx c
          | _ => s.ctx c))
    ∧ (∀ c, ((s.core k).cwv cwMPOIS).getLsbD n.toNat = true → (coreCtxs k).filter (fun c => (s.ctx c).wakes n v) = [c] →
      let u : State := { s with cur := c }
      t.ctx c = ((u.setMy { u.my with wait := .none }).raise 0x0F (BitVec.ofNat 64 (0x80000 + 4 * n.toNat))).ctx c))
  ∧ ∀ (s : State) (c : CtxId) (id : Nat) (m : BitVec 6) (w : BitVec 32) (gd : Reg),
    s.event = .mbwaitTimeout c id →
    ((s.ctx c).wait = .counter m w id (some gd) false →
      exec .mbwaitTimeout s = .next (s.setCtx c ((s.ctx c).setG gd 0).advance))
    ∧ ((s.ctx c).wait = .counter m w id (some gd) true → exec .mbwaitTimeout s = .next s)

/-- The tagged instructions on a plain local word (R215 to R218): the instruction posts its request and waits with its
registers as they were; the request performs at the word when its tag allows. LDF and LDFE then give gd the doubleword, and
LDFE empties the tag; STE and STF write the doubleword and fill it; a timed form writes 1 to gt, after gd; the context moves
on. A request whose tag does not allow it enters the wait table, and with 32 waiting it is sent again after 64 cycles. -/
def Claim.TaggedInstructions : Prop :=
  ∀ (s : State) (d a v gt : Reg), s.PlainLocal (s.g a) 8 → s.Clean [a, v] [] → s.poisAt (s.myLoc (s.g a)) 8 = false →
    let k := s.cur.core
    let off := (s.g a).toNat
    let loc := s.myLoc (s.g a)
    let tag := s.full k off
    let runs : Instr → TagOp → Option Reg → Option Reg → Word → Prop := fun i op gd g1 data =>
      ∃ t id dl, exec i s = .next t ∧ t.my.wait = .tagged id gd g1 dl ∧ Keeps [] [] [] [] s.my t.my ∧ t.my.pc = s.my.pc
        ∧ SameMem s t ∧ t.tags = s.tags
        ∧ (let rq : TagReq := ⟨s.cur, id, k, off, op, data, dl, false, s.colourOf s.cur⟩
           let u : State := { t with event := .taggedRequestArrival rq }
           t.agenda = s.agenda ++ [.ev u.event]
           ∧ (tag = (match op with | .ldf => true | .ldfe => true | .ste => false | .stf => tag) →
              s.myCore.tagWaits = [] →
              ∃ z, exec .taggedRequestArrival u = .next z
                ∧ z.full k off = (match op with | .ldf => true | .ldfe => false | .ste => true | .stf => true)
                ∧ z.dword loc = (match op with | .ste => data | .stf => data | _ => s.dword loc)
                ∧ (∀ c, c < loc ∨ loc + 8 ≤ c → z.byte c = s.byte c)
                ∧ (∀ x, gd = some x → x ≠ 0 → g1 ≠ some x → z.g x = s.dword loc) ∧ (∀ x, g1 = some x → x ≠ 0 → z.g x = 1)
                ∧ Keeps (gd.toList ++ g1.toList) [] [] leftWords s.my z.my ∧ Past s.my z.my)
           ∧ (op ≠ .stf → tag = (op == .ste) → s.myCore.tagWaits.length < 32 →
              ∃ z, exec .taggedRequestArrival u = .next z ∧ (z.core k).tagWaits = s.myCore.tagWaits ++ [rq]
                ∧ z.my.wait = t.my.wait ∧ SameMem s z ∧ z.tags = s.tags)
           ∧ (op ≠ .stf → tag = (op == .ste) → 32 ≤ s.myCore.tagWaits.length →
              exec .taggedRequestArrival u = .next (u.after 64 (.taggedRequestResend rq))))
    runs (.ldf d a) .ldf (some d) none 0 ∧ runs (.ldfe d a) .ldfe (some d) none 0 ∧ runs (.ste v a) .ste none none (s.g v)
    ∧ runs (.stf v a) .stf none none (s.g v) ∧ runs (.ldfT d a gt) .ldf (some d) (some gt) 0
    ∧ runs (.ldfeT d a gt) .ldfe (some d) (some gt) 0 ∧ runs (.steT v a gt) .ste none (some gt) (s.g v)
    ∧ exec (.tagrd d a) s = .next (s.done d (if tag then 1 else 0))
    ∧ (s.myCore.tagWaits = [] → ∃ t, exec (.tagwr v a) s = .next t ∧ t.full k off = (s.g v).getLsbD 0
        ∧ (∀ j o, tagKey j o ≠ tagKey k off → t.full j o = s.full j o) ∧ SameMem s t ∧ Keeps [] [] [] leftWords s.my t.my
        ∧ Past s.my t.my)

/-- Tagged requests that wait (R217, R218): TAGGED_WAIT_TIMEOUT takes the request out, writes 0 to gt, leaves gd and moves
the context on; TAGGED_REQUEST_RESEND sends a request still waited for again. Faults of the tagged instructions (R215, R219):
0x03 where the address is no multiple of 8, and 0x05 where it names no local memory of this device. -/
def Claim.TaggedWaits : Prop :=
  (∀ (s : State) (k : CoreId) (c : CtxId) (id : Nat) (gd : Option Reg) (gt : Reg) (dl : Option Nat),
    s.event = .taggedWaitTimeout k c id → (s.ctx c).wait = .tagged id gd (some gt) dl →
    ∃ t, exec .taggedWaitTimeout s = .next t ∧ t.ctx c = ((s.ctx c).setG gt 0).advance ∧ SameMem s t ∧ t.tags = s.tags
      ∧ ∀ q ∈ (t.core k).tagWaits, ¬ (q.issuer = c ∧ q.id = id))
  ∧ (∀ (s : State) (q : TagReq) (gd gt : Option Reg) (dl : Option Nat), s.event = .taggedRequestResend q →
    (s.ctx q.issuer).wait = .tagged q.id gd gt dl → exec .taggedRequestResend s = .next (s.post (.taggedRequestArrival q)))
  ∧ ∀ (s : State) (i : Instr) (d a v gt : Reg), s.Clean [a, v] [] →
    i ∈ [Instr.ldf d a, .ldfe d a, .ste v a, .stf v a, .ldfT d a gt, .ldfeT d a gt, .steT v a gt, .tagrd d a, .tagwr v a] →
    ((s.g a).toNat % 8 ≠ 0 → exec i s = .next (s.raise 0x03 (s.g a)))
    ∧ ((s.g a).toNat % 8 = 0 → 0x40000 ≤ (s.g a).toNat → (s.g a).toNat < 2 ^ 57 → exec i s = .next (s.raise 0x05 (s.g a)))

/-- A tag change wakes the request that waits in the wait table for its word (R217): when the tag now allows it, it leaves the
table and is performed: LDF and LDFE give gd the doubleword, STE and STF write it, the tag takes what the operation leaves, gt
takes 1, and the issuer moves past its instruction; when the tag does not allow it, it stays in the table and its issuer waits on.
TAGWR changes the tag and examines the waiting requests in the same way. -/
def Claim.TagWakes : Prop :=
  (∀ (s : State) (q : TagReq) (gd gt : Option Reg) (dl : Option Nat),
    (s.core q.core).tagWaits = [q] → (q.window = true ∨ (s.core q.issuer.core).stashAt q.off = none) →
    (s.ctx q.issuer).wait = .tagged q.id gd gt dl → s.poisAt (localLoc q.core q.off) 8 = false →
    let t := s.tagChanged q.core q.off
    let loc := localLoc q.core q.off
    let loads : Prop := q.op = .ldf ∨ q.op = .ldfe
    let tag := s.full q.core q.off
    (tag = (match q.op with | .ldf => true | .ldfe => true | .ste => false | .stf => tag) →
      (t.core q.core).tagWaits = [] ∧ t.full q.core q.off = decide (q.op ≠ .ldfe)
      ∧ Past (s.ctx q.issuer) (t.ctx q.issuer) ∧ (t.ctx q.issuer).wait = .none
      ∧ (∀ r, gd = some r → r ≠ 0 → gt ≠ some r → loads → (t.ctx q.issuer).greg r = s.dword loc)
      ∧ (∀ r, gt = some r → r ≠ 0 → (t.ctx q.issuer).greg r = 1)
      ∧ (¬ loads → t.dword loc = q.data) ∧ (loads → SameMem s t)
      ∧ ∀ c, c ≠ q.issuer → t.ctx c = s.ctx c)
    ∧ (q.op ≠ .stf → tag = (q.op == .ste) → (t.core q.core).tagWaits = [q] ∧ t.ctx q.issuer = s.ctx q.issuer ∧ SameMem s t
        ∧ t.tags = s.tags))
  ∧ ∀ (s : State) (v a : Reg), s.PlainLocal (s.g a) 8 → s.Clean [a, v] [] →
      exec (.tagwr v a) s = .next ((s.setTag s.cur.core (s.g a).toNat ((s.g v).getLsbD 0)).tagChanged s.cur.core
        (s.g a).toNat).advance

/-! ### Stash windows, MFILL, ARMH -/

/-- SMAP with a well-formed descriptor and a free window maps the lowest free one, all lines invalid, and gives its number;
with none free gd is all ones; a bad or overlapping descriptor raises 0x06. SUNMAP and SFLUSH of a mapped
window, of the own region or in supervisor mode, complete where no dirty line of it is on an absent page: SUNMAP clears its V
bit, a dirty line is written back, and where every line is clean both leave memory alone; an absent page of the window's region
parks them; another number raises 0x06. ARMH writes the arm its descriptor names and gives whether one stood there, one
that a put fires in this cycle included (R221 to R226). (0x06 for an LBASE that is no multiple of 64 is log entry 31, the
TVAL for an unmapped window log entry 48.) -/
def Claim.StashAndArms : Prop :=
  ∀ (s : State) (d a b : Reg), s.Clean [a, b] [] →
    let desc := (s.g a).toNat
    let lo := desc % 2 ^ 18
    let n := desc / 2 ^ 32 % 2 ^ 13
    let x := s.myCore
    let shaped : Prop := desc / 2 ^ 45 = 0 ∧ desc / 2 ^ 18 % 2 ^ 14 = 0 ∧ n ≠ 0 ∧ lo % 64 = 0 ∧ lo + 64 * n ≤ 0x40000
    let mapped : Nat → Prop := fun w => (x.swl w).getLsbD 63 = true
    ((s.g b).toNat % 64 = 0 → 0x200000 ≤ (s.g b).toNat → (s.g b).toNat < 2 ^ 57 →
      (¬ shaped ∨ x.overlaps lo (64 * n) = true → exec (.smap d a b) s = .next (s.raise 0x06 (s.g a)))
      ∧ (shaped → x.overlaps lo (64 * n) = false → (∀ w, w < 8 → mapped w) →
          exec (.smap d a b) s = .next (s.done d 0xFFFFFFFFFFFFFFFF))
      ∧ (∀ w, w < 8 → s.regionOf s.cur < 4096 → shaped → x.overlaps lo (64 * n) = false → ¬ mapped w → (∀ j, j < w → mapped j) →
          ∃ t, exec (.smap d a b) s = .next t ∧ (d ≠ 0 → t.g d = BitVec.ofNat 64 w) ∧ SameMem s t
            ∧ t.myCore.swv w = s.g b ∧ (t.myCore.swl w).toNat = 2 ^ 63 + s.regionOf s.cur * 2 ^ 48 + n * 2 ^ 32 + lo
            ∧ (∀ j, j ≠ w → j < 8 → t.myCore.swl j = x.swl j) ∧ t.myCore.windowLines w = []))
    ∧ (7 < desc ∨ ¬ mapped desc → exec (.sunmap a) s = .next (s.raise 0x06 (s.g a))
        ∧ exec (.sflush a b) s = .next (s.raise 0x06 (s.g a)))
    ∧ (desc ≤ 7 → mapped desc → ((x.swl desc).toNat / 2 ^ 48 % 2 ^ 12 = s.regionOf s.cur ∨ s.sup s.cur = true) →
        let gone : State → Prop := fun t => t.myCore.swl desc = x.swl desc &&& 0x7FFFFFFFFFFFFFFF
        ((∀ key ∈ x.windowLines desc, ∀ l, tget none x.stash key = some l → l.dirty = false) →
          CompletesWith (exec (.sunmap a) s) (fun t => gone t ∧ SameMem s t ∧ Keeps [] [] [] leftWords s.my t.my ∧ Past s.my t.my)
          ∧ CompletesWith (exec (.sflush a b) s) (fun t => t.myCore.swl desc = x.swl desc ∧ SameMem s t
            ∧ Keeps [] [] [] leftWords s.my t.my ∧ Past s.my t.my))
        ∧ ∀ (key : Nat) (l : StashLine) (u : State), x.windowLines desc = [key] → tget none x.stash key = some l →
          l.dirty = true →
          let va := x.swv (key / 4096) + BitVec.ofNat 64 (64 * (key % 4096))
          (∀ pa e, s.translate s.cur.core (x.stashRegion key) va.toNat false = (u, .ok pa e) → u.pois = [] →
            CompletesWith (exec (.sunmap a) s) (fun t => gone t ∧ t.bytes l.pa 64 = u.bytes (u.stashLoc s.cur.core key) 64
              ∧ Past u.my t.my)
            ∧ CompletesWith (exec (.sflush a b) s) (fun t => t.bytes l.pa 64 = u.bytes (u.stashLoc s.cur.core key) 64
              ∧ Past u.my t.my))
          ∧ (s.translate s.cur.core (x.stashRegion key) va.toNat false = (u, .absent) →
            exec (.sunmap a) s = .next (u.parkAs va va 1 (x.stashRegion key))
              ∧ exec (.sflush a b) s = .next (u.parkAs va va 1 (x.stashRegion key))))
    ∧ (let en := (s.g a).getLsbD 63
       let e := desc / 2 ^ 60 % 4
       let good : Prop := (s.g a).getLsbD 62 = false ∧ desc / 2 ^ 45 % 2 ^ 15 = 0 ∧ desc / 2 ^ 18 % 2 ^ 14 = 0
         ∧ (en = true → n ≠ 0 ∧ lo % 64 = 0 ∧ lo + 64 * n ≤ 0x40000)
       (en = true → (s.g b).toNat % 4 ≠ 0 → exec (.armh d a b) s = .next (s.raise 0x03 (s.g b)))
       ∧ ((en = true → (s.g b).toNat % 4 = 0) → ¬ good → exec (.armh d a b) s = .next (s.raise 0x06 (s.g a)))
       ∧ ((en = true → (s.g b).toNat % 4 = 0) → good → ∃ t, exec (.armh d a b) s = .next t
          ∧ (d ≠ 0 → t.g d = if x.wasArmed e s.time then 1 else 0)
          ∧ t.myCore.armed e = (if en then some ⟨lo, n, s.g b, s.regionOf s.cur, none, false⟩ else none)
          ∧ (∀ j, j ≠ e → tget none t.myCore.arms j = tget none x.arms j) ∧ SameMem s t
          ∧ Keeps [d] [] [] leftWords s.my t.my ∧ Past s.my t.my))

/-- Stash lines under recall (R223), with no poison in memory: STASH_RECALL of a clean line makes it invalid, or
shared, and leaves memory; of a dirty line it writes the sixty-four local bytes back to the line's DRAM address. -/
def Claim.StashRecall : Prop :=
  ∀ (s : State) (k : CoreId) (line key : Nat) (inv : Bool) (l : StashLine),
    s.event = .stashRecall k line inv → (s.core k).stash = [(key, some l)] → lineNo l.pa = line →
    s.pois = [] →
    ∃ t, exec .stashRecall s = .next t
      ∧ tget none (t.core k).stash key = (if inv then none else some { l with excl := false, dirty := false })
      ∧ (l.dirty = false → SameMem s t)
      ∧ (l.dirty = true → t.bytes l.pa 64 = s.bytes (localLoc k ((s.core k).stashOff key)) 64
          ∧ ∀ a, a < l.pa ∨ l.pa + 64 ≤ a → t.byte a = s.byte a)

/-- Loads and stores through a mapped stash window (R223): of another region, fault 0x05; a load of a line that is there reads
the local bytes; a store to it writes the local bytes and makes it dirty and exclusive, and, where it was shared, every other
core's copy invalid; on an invalid line the access fills it from its DRAM line first, exclusive and dirty for a store, parks at
the line's mapped address where its page is absent, and raises 0x05 with that address where the page denies it. -/
def Claim.StashAccess : Prop :=
  ∀ (i : Instr) (f : MemForm) (s : State) (w : Nat), memForm i = some f → s.Clean f.sources [] → s.NoBreak → w < 8 →
    let ea := (f.ea s).toNat
    let k := s.cur.core
    let x := s.myCore
    let base := (x.swl w).toNat % 2 ^ 18
    let key := stashKey w ((ea - base) / 64)
    let loc := localLoc k ea
    let data := leBytes f.size (s.g f.data).toNat
    ea % f.size = 0 → ea + f.size ≤ 0x40000 → x.stashAt ea = some key → base % 64 = 0 →
    (x.stashRegion key ≠ s.regionOf s.cur → exec i s = .next (s.raise 0x05 (f.ea s)))
    ∧ (x.stashRegion key = s.regionOf s.cur →
      (∀ l, tget none x.stash key = some l →
        (f.store = false → s.poisAt loc f.size = false →
          exec i s = .next (s.done f.data (extend (s.bytes loc f.size) f.size f.signed)))
        ∧ (f.store = true → l.excl = true → ∃ t, exec i s = .next t
            ∧ tget none t.myCore.stash key = some { l with dirty := true } ∧ t.bytes loc f.size = data
            ∧ (∀ b, b < loc ∨ loc + f.size ≤ b → t.byte b = s.byte b) ∧ Past s.my t.my)
        ∧ (f.store = true → l.excl = false → ∃ t, exec i s = .next t
            ∧ tget none t.myCore.stash key = some { l with excl := true, dirty := true } ∧ t.bytes loc f.size = data
            ∧ Past s.my t.my
            ∧ ∀ (k' : CoreId) (key' : Nat) (l' : StashLine), k' ≠ k → (s.core k').stash = [(key', some l')] →
                lineNo l'.pa = lineNo l.pa → (t.core k').stash = []))
      ∧ (tget none x.stash key = none →
        let lva := x.swv w + BitVec.ofNat 64 (64 * (key % 4096))
        (∀ u, s.translate k (s.regionOf s.cur) lva.toNat false = (u, .absent) →
          exec i s = .next (u.parkAs lva lva (if f.store then 1 else 0) (s.regionOf s.cur)))
        ∧ (∀ u pa e, s.translate k (s.regionOf s.cur) lva.toNat false = (u, .ok pa e) →
          let open' := e.allows (!f.store) f.store false (u.sup u.cur) && u.dramOk pa && (paDev pa == u.dev)
          let line := paLoc pa
          (open' = false → exec i s = .next (u.raise 0x05 lva))
          ∧ (open' = true → u.holders line = [] → u.pois = [] → u.vaultBad line = false → line % 64 = 0 →
              line.testBit 42 = false → ∃ t, exec i s = .next t
              ∧ tget none t.myCore.stash key = some ⟨line, f.store, f.store⟩ ∧ Past s.my t.my
              ∧ (f.store = false → t.bytes (localLoc k (base + 64 * (key % 4096))) 64 = u.bytes line 64
                  ∧ (f.data ≠ 0 → t.g f.data = extend (u.bytes (line + ea % 64) f.size) f.size f.signed))
              ∧ (f.store = true → t.bytes loc f.size = data
                  ∧ ∀ b, b < 64 → (b < ea % 64 ∨ ea % 64 + f.size ≤ b) →
                    t.byte (localLoc k (base + 64 * (key % 4096)) + b) = u.byte (line + b))))))

/-- MFILL (R225): a misaligned address raises 0x03 and a descriptor out of form 0x06; with an empty mask it gives 0. With every
line backed, present and readable, and every core of the mask of the issuer's colour, it asks for the lines that have not arrived
and waits at the instruction; when they have arrived it sends line j of the source to local offset LBASE + 64 × j of every core
of the mask, asks for the line count in gd behind those, and moves on (0x06 for an LOFF that is no multiple of 64: log entry 31). -/
def Claim.MfillResult : Prop :=
  ∀ (s : State) (d a b : Reg), s.Clean [a, b] [] →
    let desc := (s.g b).toNat
    let lo := desc % 2 ^ 18
    let n := desc / 2 ^ 32 % 2 ^ 13
    let mask := desc / 2 ^ 48
    let shaped : Prop := desc / 2 ^ 45 % 8 = 0 ∧ desc / 2 ^ 18 % 2 ^ 14 = 0 ∧ n ≠ 0 ∧ lo % 64 = 0 ∧ lo + 64 * n ≤ 0x40000
    ((s.g a).toNat % 64 ≠ 0 → exec (.mfill d a b) s = .next (s.raise 0x03 (s.g a)))
    ∧ ((s.g a).toNat % 64 = 0 → ¬ shaped → exec (.mfill d a b) s = .next (s.raise 0x06 (s.g b)))
    ∧ ((s.g a).toNat % 64 = 0 → shaped → mask = 0 → exec (.mfill d a b) s = .next (s.done d 0))
    ∧ (∀ (u : State) (pas : List Nat), (s.g a).toNat % 64 = 0 → shaped → mask ≠ 0 →
        s.rangePas (s.g a) n = (u, some pas) →
        ((∃ j, j < 16 ∧ mask.testBit j = true ∧ u.colourOk (u.cur.core.cluster.coreAt j) (u.colourOf u.cur) = false) →
          exec (.mfill d a b) s = .next (u.raise 0x05 (s.g b)))
        ∧ ((∀ j, j < 16 → mask.testBit j = true → u.colourOk (u.cur.core.cluster.coreAt j) (u.colourOf u.cur) = true) →
          pas.length = n
          ∧ ((∃ pa ∈ pas, u.farHave pa 64 = false) → (∀ pa ∈ pas, pa % 64 = 0) → 0 < u.mayTake u.cur →
            ∃ t, exec (.mfill d a b) s = .next t ∧ t.my.wait = .remote ∧ t.my.pc = u.my.pc ∧ SameMem u t
              ∧ t.myCore.oreq = u.myCore.oreq + 1
              ∧ ∀ pa ∈ pas, u.farHave pa 64 = false → ∃ o ∈ t.myCore.outs, o.dest = .buf pa ∧ o.len = 64 ∧ o.ctx = u.cur.ctx.val)
          ∧ ((∀ pa ∈ pas, u.farHave pa 64 = true) → u.my.rpois = [] → u.mayIssue u.cur 1 = true →
            ∃ t, exec (.mfill d a b) s = .next t ∧ Past u.my t.my ∧ SameMem u t ∧ Keeps [] [] [] leftWords u.my t.my
              ∧ (∀ j m, j < 16 → mask.testBit j = true → m < n →
                  .ev (.memoryPortRequest ⟨u.cur, 0, u.corePa (u.cur.core.cluster.coreAt j) (lo + 64 * m),
                    .write (u.farBytes (pas.getD m 0) 64) 0, u.colourOf u.cur, u.regionOf u.cur, u.catOf u.cur⟩) ∈ t.agenda)
              ∧ (∃ l, t.agenda = u.agenda ++ l ++ [.ev (.loadReply u.cur t.nextId (leBytes 8 n) 0)])
              ∧ ∃ o ∈ t.myCore.outs, o.id = t.nextId ∧ o.dest = .g d 8 false ∧ o.counted = true ∧ o.load = true)))

/-! ### Ordering, atomics, lines and translations -/

/-- FENCE of any scope moves on, but with a set that names older loads it stays while a load of another device is outstanding
(log entry 6). LDA and STL read and write plain local memory as a load and a store do, LDA zero-extended; at any other place they
are counted requests, and the entry of an LDA holds back every younger instruction; a fault or a park leaves what the checks left.
Where older tile reads of a frame are still to come, an STL issues but its store waits, in a later cycle, till none is (R280, R281,
R284, R285, R289; log entry 6). -/
def Claim.OrderingInstructions : Prop :=
  ∀ (s : State) (wd : MemW) (sc : Scope) (sets : BitVec 4) (d a b : Reg),
    (sets.getLsbD 3 = false → sets.getLsbD 2 = false → exec (.fence sc sets) s = .next s.advance)
    ∧ (s.anyLoad s.cur = false → exec (.fence sc sets) s = .next s.advance)
    ∧ (sets.getLsbD 3 = true ∨ sets.getLsbD 2 = true → s.anyLoad s.cur = true → exec (.fence sc sets) s = .next s)
    ∧ (s.Clean [a, b] [] →
      let n := memBytes wd
      let loc := s.myLoc (s.g a)
      let lda : Instr := .lda wd sc d a
      let stl : Instr := .stl wd sc a b
      let l := s.access lda (s.g a) ⟨n, true, false, false, true, false⟩
      let w := s.access stl (s.g a) ⟨n, false, true, false, true, false⟩
      (s.PlainLocal (s.g a) n →
        (s.poisAt loc n = false → exec lda s = .next (s.done d (BitVec.ofNat 64 (s.readLE loc n))))
        ∧ (s.my.tilesAhead = false → s.my.late = 0 → ∃ t, exec stl s = .next t
            ∧ t.readLE loc n = (s.g b).toNat % 256 ^ n ∧ (∀ c, c < loc ∨ loc + n ≤ c → t.byte c = s.byte c)
            ∧ OnlyMemAndMine s t ∧ Keeps [] [] [] leftWords s.my t.my ∧ Past s.my t.my)
        ∧ (s.my.tilesAhead = true ∨ 0 < s.my.late → ∃ t r, exec stl s = .next t ∧ SameMem s t
            ∧ Keeps [] [] [] leftWords s.my t.my ∧ Past s.my t.my ∧ t.my.late = s.my.late + 1 ∧ t.myCore.outs = s.myCore.outs
            ∧ t.timers = s.timers ++ [(s.time + 1, .heldStore r true)] ∧ r.issuer = s.cur
            ∧ r.pa = s.corePa s.cur.core (s.g a).toNat ∧ r.kind = .write (leBytes n (s.g b).toNat) 0))
      ∧ (l.2 = none → exec lda s = .next l.1) ∧ (w.2 = none → exec stl s = .next w.1)
      ∧ (∀ p, l.2 = some p → (∀ off, p ≠ .own off) →
          (l.1.mayIssue l.1.cur 1 = false → exec lda s = .next (l.1.stallOreq 1))
          ∧ (l.1.mayIssue l.1.cur 1 = true → ∃ t, exec lda s = .next t ∧ SameMem l.1 t ∧ Past l.1.my t.my
            ∧ Keeps [] [] [] leftWords l.1.my t.my ∧ t.myCore.acquiring t.cur.ctx.val = true
            ∧ t.myCore.outs = l.1.myCore.outs ++ [⟨l.1.nextId + 1, l.1.cur.ctx.val, true, .g d n false, true, false, true,
                l.1.wherePa p, n, l.1.regionOf l.1.cur, l.1.colourOf l.1.cur⟩]))
      ∧ ∀ p, w.2 = some p → (∀ off, p ≠ .own off) →
          let x := w.1.my
          (x.tilesAhead = false → x.late = 0 →
            exec stl s = .next (w.1.issueStore p (.write (leBytes n (w.1.g b).toNat) 0)))
          ∧ (x.tilesAhead = true ∨ 0 < x.late → w.1.mayIssue w.1.cur 1 = true →
            (∀ pa, p = .far pa → (x.cwv cwMCHSEL).getLsbD 63 = false) → ∃ t r, exec stl s = .next t ∧ SameMem w.1 t
            ∧ Past x t.my ∧ t.my.late = x.late + 1 ∧ t.myCore.oreq = w.1.myCore.oreq + 1
            ∧ t.timers = w.1.timers ++ [(w.1.time + 1, .heldStore r false)] ∧ r.issuer = w.1.cur ∧ r.pa = w.1.wherePa p
            ∧ r.kind = .write (leBytes n (w.1.g b).toNat) 0))
    ∧ ∀ (r : Request) (own : Bool) (bs : List Byte), s.event = .heldStore r own → r.kind = .write bs 0 →
      let x := s.ctx r.issuer
      (x.tilesAhead = true → 0 < x.late → exec .memoryPortRequest s = .next (s.after 1 (.heldStore r own)))
      ∧ (x.tilesAhead = false → own = true → paOff r.pa + bs.length ≤ 0x40000 →
          let loc := localLoc r.issuer.core (paOff r.pa)
          ∃ t, exec .memoryPortRequest s = .next t ∧ (t.ctx r.issuer).late = x.late - 1 ∧ t.bytes loc bs.length = bs
            ∧ ∀ c, c < loc ∨ loc + bs.length ≤ c → t.byte c = s.byte c)
      ∧ (x.tilesAhead = false → own = false → paDev r.pa = s.dev →
          ∃ t, exec .memoryPortRequest s = .next t ∧ (t.ctx r.issuer).late = x.late - 1 ∧ SameMem s t
            ∧ (paOnDie r.pa = true → t.agenda = s.agenda ++ [.ev (.memoryPortRequest r)])
            ∧ (paOnDie r.pa = false → t.timers = s.timers ++ [(s.time + 1, .homeSliceRequest r)]))

/-- CAS and every AMO of a scope below .sys on a plain local word: on an unpoisoned one the word takes the new value of R287, or
stays for a CAS whose expected value differs; gd takes the old value, a 32-bit one sign-extended but for FADD, which
zero-extends; no other byte and no other register changes. On a poisoned word nothing is written: memory is as before but for the
poison record of the region, none where it keeps no Annals, and gd takes the old value as it was read, poisoned (R286 to R288,
R378). -/
def Claim.AtomicResults : Prop :=
  ∀ (s : State) (w32 : Bool) (sc : Scope) (d a b : Reg), sc ≠ .sys → s.Clean [a, b] [] →
    let n := if w32 then 4 else 8
    let loc := s.myLoc (s.g a)
    let old := s.readLE loc n
    let x := (s.g b).toNat % 256 ^ n
    let e := (s.g d).toNat % 256 ^ n
    let sg := slane (8 * n)
    let runs : Instr → Nat → Word → Prop := fun i new res =>
      (s.poisAt loc n = false → CompletesWith (exec i s) (fun t =>
        t.readLE loc n = new ∧ (∀ c, c < loc ∨ loc + n ≤ c → t.byte c = s.byte c)
        ∧ (d ≠ 0 → t.g d = res) ∧ OnlyMemAndMine s t ∧ Keeps [d] [] [] leftWords s.my t.my ∧ Past s.my t.my))
      ∧ (s.poisAt loc n = true → CompletesWith (exec i s) (fun t =>
        (d ≠ 0 → t.g d = BitVec.ofNat 64 old ∧ t.my.gpois.getLsbD d.toNat = true)
        ∧ SameMem (s.poisonRecord s.cur.core.die (s.regionOf s.cur) (s.corePa s.cur.core (s.g a).toNat) 2) t
        ∧ ((s.regEff (s.regionOf s.cur) 20).getLsbD 63 = false → SameMem s t)
        ∧ Keeps [d] [] [] leftWords s.my t.my ∧ Past s.my t.my))
    let v : Word := if w32 then (BitVec.ofNat 32 old).signExtend 64 else BitVec.ofNat 64 old
    s.PlainLocal (s.g a) n →
    (s.Clean [d] [] → runs (.cas w32 sc d a b) (if old = e then x else old) v)
    ∧ runs (.amoAdd w32 sc d a b) ((old + x) % 256 ^ n) v
    ∧ runs (.amoAnd w32 sc d a b) (old &&& x) v ∧ runs (.amoOr w32 sc d a b) (old ||| x) v
    ∧ runs (.amoXor w32 sc d a b) (old ^^^ x) v ∧ runs (.amoSwap w32 sc d a b) x v
    ∧ runs (.amoMin w32 sc d a b) (if sg x < sg old then x else old) v
    ∧ runs (.amoMax w32 sc d a b) (if sg old < sg x then x else old) v
    ∧ runs (.amoMinu w32 sc d a b) (min old x) v ∧ runs (.amoMaxu w32 sc d a b) (max old x) v
    ∧ (w32 = true → runs (.amoFadd sc d a b) ((fadd 23 0 old x).1 % 2 ^ 32) (BitVec.ofNat 64 old))

/-- Where an atomic does not act at once (R276, R286, R288, R289, R329): a misaligned address raises 0x03; a scope below the
location's raises 0x05; at any other place than the own local memory, and for .sys, it sends its request to where its scope
executes and the context waits with its registers as they were: the cluster unit for .cls, the home slice for .dev, the fabric port
for .sys, which hands an atomic on local memory to the core as a message. ATOMIC_REPLY then gives gd the old value, poisoned when
it was, and moves the context on, or raises 0x05 when the core turned it away. -/
def Obligations.AtomicWaits : Prop :=
  (∀ (s : State) (i : Instr) (op : AmoOp) (w32 : Bool) (sc : Scope) (d a b : Reg), s.Clean [a, b, d] [] →
    ((i, op) ∈ [(Instr.cas w32 sc d a b, AmoOp.cas), (.amoAdd w32 sc d a b, .add), (.amoAnd w32 sc d a b, .and),
      (.amoOr w32 sc d a b, .or), (.amoXor w32 sc d a b, .xor), (.amoMin w32 sc d a b, .min), (.amoMax w32 sc d a b, .max),
      (.amoMinu w32 sc d a b, .minu), (.amoMaxu w32 sc d a b, .maxu), (.amoSwap w32 sc d a b, .swap)]
      ∨ (w32 = true ∧ i = .amoFadd sc d a b ∧ op = .fadd)) →
    let n := if w32 then 4 else 8
    let r := s.resolve i (s.g a) ⟨n, true, true, false, true, false⟩
    let u := r.1
    let e := if op = .cas then u.g d else 0
    let rq : Nat → Request := fun pa =>
      ⟨u.cur, u.nextId + 1, pa, .rmw op w32 (u.g b) e, u.colourOf u.cur, u.regionOf u.cur, u.catOf u.cur⟩
    let waits : State → Prop := fun t =>
      t.my = { u.my with wait := .atomic (u.nextId + 1) d w32 (op == .fadd) (s.g a) } ∧ SameMem u t
    let handed : Nat → State → Prop := fun pa t => t.agenda = u.agenda ++ [.ev (.messageArrival (paCoreId pa)
        (u.routedMsg (paDie pa) (amoMessage u.plat.sysTag (u.colourOf u.cur) (u.regionOf u.cur) (u.catOf u.cur) (paOff pa) op w32
          (u.g b) e)))]
      ∧ t.timers = u.timers ++ [(u.time + u.ftime u.cur.core.cluster, .replyTimeout u.cur (u.nextId + 1))]
    ((s.g a).toNat % n ≠ 0 → exec i s = .next (s.raise 0x03 (s.g a)))
    ∧ ((s.g a).toNat % n = 0 → r.2 = none → exec i s = .next u)
    ∧ ((s.g a).toNat % n = 0 → ∀ w, r.2 = some w →
        (scopeRank sc < u.minScope w → exec i s = .next (u.raise 0x05 (s.g a)))
        ∧ (u.minScope w ≤ scopeRank sc → u.NoBreak →
          (∀ off, w = .own off → sc = .sys → ∃ t, exec i s = .next t ∧ waits t ∧ handed (u.corePa u.cur.core off) t)
          ∧ ((∀ off, w ≠ .own off) → u.mayIssue u.cur 1 = false → exec i s = .next (u.stallOreq 1))
          ∧ ((∀ off, w ≠ .own off) → u.mayIssue u.cur 1 = true → ∃ t, exec i s = .next t ∧ waits t
            ∧ (∀ pa, w = .dram pa → sc = .cls → t.agenda = u.agenda ++ [.ev (.clusterUnitAtomic (rq pa))])
            ∧ (∀ pa, w = .dram pa → sc = .dev → t.timers = u.timers ++ [(u.time + 1, .homeSliceRequest (rq pa))])
            ∧ (∀ pa, w = .dram pa → sc = .sys → t.agenda = u.agenda ++ [.ev (.remoteRequest u.dev (rq pa))])
            ∧ (∀ pa, w = .core pa → sc ≠ .sys → t.agenda = u.agenda ++ [.ev (.memoryPortRequest (rq pa))])
            ∧ (∀ pa, w = .core pa → sc = .sys → handed pa t)
            ∧ (∀ pa, w = .far pa → t.plat.fabric = u.plat.fabric ++ [.request u.dev (paDev pa) (rq pa)])))))
  ∧ ∀ (s : State) (c : CtxId) (id : Nat) (old : Word) (bad refused : Bool) (d : Reg) (w32 f : Bool) (va : Word),
    s.event = .atomicReply c id old bad refused → (s.ctx c).wait = .atomic id d w32 f va →
    let v : Word := if w32 && !f && !bad then (old.setWidth 32).signExtend 64 else old
    (refused = false → ∃ t, exec .atomicReply s = .next t ∧ (d ≠ 0 → (t.ctx c).greg d = v)
      ∧ (d ≠ 0 → (t.ctx c).gpois.getLsbD d.toNat = bad) ∧ Keeps [d] [] [] leftWords (s.ctx c) (t.ctx c)
      ∧ Past (s.ctx c) (t.ctx c) ∧ SameMem s t ∧ t.findOut c id = none)
    ∧ (refused = true → ∃ u, exec .atomicReply s = .next { (u : State).raise 0x05 va with cur := s.cur } ∧ u.cur = c
      ∧ u.my = { s.ctx c with wait := .none } ∧ SameMem s u)

/-- Line and translation instructions. CWB, and CINV in supervisor mode, on a line of backed DRAM of this device that the
page allows send the line's request and move on, and on a line of another device they move on once it has answered; another
address form raises 0x05; CINV in task mode raises 0x02. CPF moves on at every address. TLBINV in supervisor mode with a mode
below 3 drops from every TLB of the device exactly the entries its mode names and moves on; mode 3 or a reserved bit raises 0x06.
PROBE gives the word of R325 and never faults on the translation (R303, R323 to R325); its outcome 3 for a page outside R18 is log
entry 48. -/
def Claim.LinesAndTranslations : Prop :=
  ∀ (s : State) (d a b : Reg), s.Clean [a, b] [] →
    let va := s.g a
    let xl : Prop := 0x200000 ≤ va.toNat ∧ va.toNat < 2 ^ 57
    let tr := s.translate s.cur.core (s.regionOf s.cur) va.toNat false
    (¬ xl → exec (.cwb a) s = .next (s.raise 0x05 va) ∧ (s.sup s.cur = true → exec (.cinv a) s = .next (s.raise 0x05 va)))
    ∧ (s.sup s.cur = false → exec (.cinv a) s = .next (s.raise 0x02 ((encode (.cinv a)).setWidth 64)))
    ∧ (xl → ∀ u pa e, tr = (u, .ok pa e) → paDev pa = u.dev → u.dramOk pa = true → u.mayIssue u.cur 1 = true →
        let line : Instr → ReqKind → Prop := fun i k =>
          ∃ t, exec i s = .next t ∧ SameMem u t ∧ Keeps [] [] [] leftWords u.my t.my ∧ Past u.my t.my
            ∧ t.timers = u.timers ++ [(u.time + 1, .homeSliceRequest ⟨u.cur, u.nextId + 1, pa, k, u.colourOf u.cur,
                u.regionOf u.cur, u.catOf u.cur⟩)]
        (e.allows true false false (u.sup u.cur) = true → line (.cwb a) .clean)
        ∧ (s.sup s.cur = true → e.allows false true false (u.sup u.cur) = true → line (.cinv a) .discard))
    ∧ (xl → ∀ u pa e, tr = (u, .ok pa e) → paDev pa ≠ u.dev → u.dramOk pa = true → u.farHave pa 1 = true →
        (e.allows true false false (u.sup u.cur) = true → exec (.cwb a) s = .next u.advance)
        ∧ (s.sup s.cur = true → e.allows false true false (u.sup u.cur) = true → exec (.cinv a) s = .next u.advance))
    ∧ (xl → ∀ u pa e, tr = (u, .ok pa e) → u.dramOk pa = false → exec (.cwb a) s = .next (u.raise 0x05 va))
    ∧ (∃ t, exec (.cpf a) s = .next t ∧ Keeps [] [] [] leftWords s.my t.my ∧ Past s.my t.my)
    ∧ (s.sup s.cur = true →
        ((s.g b).toNat / 2 ^ 14 ≠ 0 ∨ (s.g b).toNat / 2 ^ 12 % 4 = 3 → exec (.tlbinv a b) s = .next (s.raise 0x06 (s.g b)))
        ∧ ((s.g b).toNat / 2 ^ 14 = 0 → (s.g b).toNat / 2 ^ 12 % 4 ≠ 3 → s.mayIssue s.cur 1 = true →
          let gone : TlbEntry → Prop := fun e =>
            if (s.g b).toNat / 2 ^ 12 = 0 then
              e.region = (s.g b).toNat % 2 ^ 12 ∧ e.vpn = va.toNat / 2 ^ pageShift e.size
            else if (s.g b).toNat / 2 ^ 12 = 1 then e.region = (s.g b).toNat % 2 ^ 12
            else True
          ∃ t, exec (.tlbinv a b) s = .next t ∧ SameMem s t ∧ Keeps [] [] [] leftWords s.my t.my ∧ Past s.my t.my
            ∧ (∀ k e, (e ∈ (t.core k).dtlb ↔ e ∈ (s.core k).dtlb ∧ ¬ gone e) ∧ (e ∈ (t.core k).itlb ↔ e ∈ (s.core k).itlb ∧ ¬ gone e))
            ∧ (∀ k e, (e ∈ (t.cluster k).tlb ↔ e ∈ (s.cluster k).tlb ∧ ¬ gone e)
                ∧ (e ∈ (t.cluster k).tlbBig ↔ e ∈ (s.cluster k).tlbBig ∧ ¬ gone e))))
    ∧ (s.sup s.cur = false → exec (.tlbinv a b) s = .next (s.raise 0x02 ((encode (.tlbinv a b)).setWidth 64)))
    ∧ (2 < (s.g b).toNat → exec (.probe d a b) s = .next (s.raise 0x06 (s.g b)))
    ∧ ((s.g b).toNat ≤ 2 → ¬ xl → exec (.probe d a b) s = .next (s.done d 0x300))
    ∧ ((s.g b).toNat ≤ 2 → xl → ∀ u r, s.translate s.cur.core (s.regionOf s.cur) va.toNat (decide ((s.g b).toNat = 2)) = (u, r) →
        ∃ out, exec (.probe d a b) s = .next (u.done d out)
          ∧ (r = .absent → out = 0x100) ∧ (∀ f, r = .fault f → out = 0x300)
          ∧ (∀ pa e, r = .ok pa e → e.size < 4 → e.pa < 2 ^ 56 →
              let bad := u.dramOk pa = false
              let denied := e.allows (decide ((s.g b).toNat = 0)) (decide ((s.g b).toNat = 1)) (decide ((s.g b).toNat = 2)) (u.sup u.cur) = false
              out.toNat / 2 ^ 8 % 4 = (if bad then 3 else if denied then 2 else 0)
              ∧ out.toNat / 2 ^ 6 % 4 = e.size ∧ out.toNat / 2 ^ 12 % 2 ^ 44 = e.pa / 2 ^ 12
              ∧ out.getLsbD 63 = decide (¬ bad ∧ ¬ denied)))

/-- The table walk (R307 to R310), level by level, of a device with quiet memory: a table or an entry that is not DRAM of the
device gives fault 0x05; an entry with V clear is not present; one with a reserved bit, an illegal LEAF or a page not aligned to its
size gives 0x05; a leaf gives the page's address with the page offset, or 0x05 where the page is no DRAM by R18; any other entry
names the table of the next level; an uncorrectable entry gives 0x0D. A walk starts at ROOT with level 4. -/
def Claim.TableWalk : Prop :=
  ∀ (s : State) (k : CoreId) (region va l base : Nat),
    s.walk k region va = walkN s k region va 4 ((s.regEff region 21).toNat / 2 ^ 22 % 2 ^ 34 * 2 ^ 22)
    ∧ (1 ≤ l → l ≤ 4 → va < 2 ^ 57 →
      let idx := if l = 4 then va / 2 ^ 39 % 2 ^ 18 else va / 2 ^ (9 * l + 3) % 2 ^ 9
      let a := base + 16 * idx
      let r := walkN s k region va l base
      let here : Nat → Prop := fun pa => paDev pa = s.dev ∧ s.dramOk pa = true
      (¬ (here base ∧ here a) → r = (s, .fault 0x05))
      ∧ (here base → here a → (s.homeRead a 16 region (some k)).readBad (paLoc a) 16 = true → ∃ u, r = (u, .fault 0x0D))
      ∧ (here base → here a → s.Quiet →
        let d0 := s.dword (paLoc a)
        let d1 := s.dword (paLoc a + 8)
        let leaf := d0.getLsbD 6
        let page := d0.toNat / 2 ^ 12 % 2 ^ 44 * 2 ^ 12
        let size := if l = 1 then (if d0.getLsbD 7 then 1 else 0) else l
        let shift := if l = 1 then (if d0.getLsbD 7 then 16 else 12) else if l = 2 then 21 else 30
        let bad : Prop := d0.toNat / 2 ^ 8 % 2 ^ 4 ≠ 0 ∨ d0.toNat / 2 ^ 56 ≠ 0 ∨ (l = 4 ∧ leaf = true) ∨ (l = 1 ∧ leaf = false)
          ∨ (l ≠ 1 ∧ d0.getLsbD 7 = true) ∨ (leaf = true ∧ d1.toNat / 2 ^ 25 ≠ 0)
          ∨ (leaf = false ∧ (d0.toNat / 2 % 2 ^ 5 ≠ 0 ∨ d1 ≠ 0)) ∨ (leaf = true ∧ page % 2 ^ shift ≠ 0)
        (d0.getLsbD 0 = false → ∃ u, r = (u, .absent) ∧ SameMem s u)
        ∧ (d0.getLsbD 0 = true →
          (bad → ∃ u, r = (u, .fault 0x05) ∧ SameMem s u)
          ∧ (¬ bad → leaf = true →
            let out : Prop := paOnDie page = true ∨ s.dlim ≤ paDev page ∨ page / 2 ^ 36 % 2 ^ 6 ≠ 0
            (out → ∃ u, r = (u, .fault 0x05) ∧ SameMem s u)
            ∧ (¬ out → ∃ u, SameMem s u
                ∧ r = (u, .ok (page + va % 2 ^ shift) ⟨region, va / 2 ^ shift, size, page, d0, d1⟩)))
          ∧ (¬ bad → leaf = false → ∃ u, SameMem s u ∧ u.Quiet ∧ r = walkN u k region va (l - 1) page))))

/-- What an access makes of its translation (R310, R312): a load or store raises a walk's fault at its address, parks on a page
that is not present, and raises 0x05 where the leaf lacks R or W for it or is a supervisor page in task mode; a fetch needs X. An
access that parks waits 256 cycles; each failed retry doubles the wait up to PARKMAX.CYC, and the one that reaches PLIM raises
fault 0x04 (R313, R315). -/
def Claim.AccessTranslated : Prop :=
  (∀ (i : Instr) (f : MemForm) (s u : State), memForm i = some f → s.Clean f.sources [] → (f.ea s).toNat % f.size = 0 →
    0x200000 ≤ (f.ea s).toNat → (f.ea s).toNat < 2 ^ 57 →
    let tr := s.translate s.cur.core (s.regionOf s.cur) (f.ea s).toNat false
    (∀ e, tr = (u, .fault e) → exec i s = .next (u.raise e (f.ea s)))
    ∧ (tr = (u, .absent) → exec i s = .next (u.park (f.ea s) (if f.store then 1 else 0)))
    ∧ (∀ pa e, tr = (u, .ok pa e) →
        (f.store = false ∧ e.flags.getLsbD 1 = false) ∨ (f.store = true ∧ e.flags.getLsbD 2 = false)
          ∨ (u.sup u.cur = false ∧ e.flags.getLsbD 4 = true) → exec i s = .next (u.raise 0x05 (f.ea s))))
  ∧ (∀ (s u : State) (va : Word) (pa : Nat) (e : TlbEntry), va.toNat % 4 = 0 → 0x200000 ≤ va.toNat → va.toNat < 2 ^ 57 →
    s.my.fq.find? (fun f => f.va == va) = none →
    s.translate s.cur.core (s.regionOf s.cur) va.toNat true = (u, .ok pa e) →
    e.flags.getLsbD 3 = false ∨ (u.sup u.cur = false ∧ e.flags.getLsbD 4 = true) → s.fetch va = (u, .fault 0x05))
  ∧ ∀ (s : State) (va tval : Word) (kind region : Nat),
    let t := s.parkAs va tval kind region
    let plim := (s.basicOf s.cur).plim
    let top := max 256 ((s.cluster s.cur.core.cluster).cwv cwPARKMAX % 2 ^ 32).toNat
    let waits : Nat → Nat → Prop := fun int failed => t.my.wait = .parked t.nextId va kind int failed tval region ∧ SameMem s t
      ∧ t.timers = s.timers ++ [(s.time + int, .parkRetry s.cur t.nextId)] ∧ Keeps [] [] [] [] s.my t.my ∧ t.my.pc = s.my.pc
    ((∀ id v k i f tv rg, s.my.wait ≠ .parked id v k i f tv rg) → waits 256 0)
    ∧ ∀ id int failed tv rg, s.my.wait = .parked id va kind int failed tv rg →
        (plim = 0 ∨ failed + 1 < plim → waits (min (2 * int) top) (failed + 1))
        ∧ (plim ≠ 0 → plim ≤ failed + 1 → ∃ u, t = u.raise 0x04 tval ∧ SameMem s u ∧ u.my = s.my ∧ u.cur = s.cur)

/-! ### Memory requests and replies -/

/-- A memory request at its home: HOME_SLICE_REQUEST of a line of DRAM of this device and MEMORY_PORT_REQUEST of a core's
local memory, with no stash copy of any line on the device, no poison in memory and no error in a slice line. A read of n bytes is answered with them
and memory stays; a write puts its bytes there and nowhere else and is acknowledged; CLUSTER_UNIT_ATOMIC and a
read-modify-write at a home write the new value of R288 and answer with the old one (R229, R286, R292). -/
def Claim.MemoryRequests : Prop :=
  ∀ (s : State) (r : Request) (loc : Nat), s.Quiet →
    let at' : Instr → Prop := fun i =>
      (∀ n, r.kind = .read n → ∃ t, exec i s = .next t ∧ SameMem s t
        ∧ t.agenda = s.agenda ++ [.ev (.loadReply r.issuer r.id (s.bytes loc n) 0)])
      ∧ (∀ bs, r.kind = .write bs 0 → ∃ t, exec i s = .next t ∧ t.bytes loc bs.length = bs
        ∧ (∀ a, a < loc ∨ loc + bs.length ≤ a → t.byte a = s.byte a)
        ∧ t.agenda = s.agenda ++ [.ev (.storeAcknowledgement r.issuer r.id)])
      ∧ (∀ op w32 x e, r.kind = .rmw op w32 x e →
        let n := if w32 then 4 else 8
        let old := s.readLE loc n
        ∃ t, exec i s = .next t ∧ t.agenda = s.agenda ++ [.ev (.atomicReply r.issuer r.id (BitVec.ofNat 64 old) false false)]
          ∧ t.readLE loc n = (match amoNew op n old x.toNat e.toNat with
              | some v => v % 256 ^ n
              | none => old)
          ∧ ∀ a, a < loc ∨ loc + n ≤ a → t.byte a = s.byte a)
    (s.event = .homeSliceRequest r → loc = paLoc r.pa → (paLoc r.pa).testBit 42 = false → at' .homeSliceRequest)
    ∧ (s.event = .clusterUnitAtomic r → loc = paLoc r.pa → (paLoc r.pa).testBit 42 = false → at' .clusterUnitAtomic)
    ∧ (s.event = .memoryPortRequest r → loc = localLoc (paCoreId r.pa) (paOff r.pa) → paOff r.pa < 0x40000 →
        at' .memoryPortRequest)

/-- REMOTE_REQUEST from another device: a request for DRAM of this device, or for a core's local memory whose colour allows
it, reads and writes as one of this device does, and answers with a packet to that device; a store is not answered. A load
that the destination does not allow comes back refused with poisoned data, a store not allowed has no effect (R209, R327,
R328; the values of refused data are log entry 13). A request that asks whether an access of a colour may reach a core is answered with
1 or 0 (log entry 13). -/
def Claim.RemoteRequests : Prop :=
  ∀ (s : State) (src : Nat) (r : Request), s.event = .remoteRequest src r → src ≠ s.dev → paDev r.pa = s.dev →
    let dram : Prop := paOnDie r.pa = false ∧ s.dramOk r.pa = true
    let own : Prop := paOnDie r.pa = true ∧ s.onDieOk r.pa = true ∧ paOff r.pa < 0x40000
      ∧ s.colourOk (paCoreId r.pa) r.colour = true
    let shut : Prop := (paOnDie r.pa = false ∧ s.dramOk r.pa = false)
      ∨ (paOnDie r.pa = true ∧ (s.onDieOk r.pa = false ∨ s.colourOk (paCoreId r.pa) r.colour = false))
    let loc := if paOnDie r.pa then localLoc (paCoreId r.pa) (paOff r.pa) else paLoc r.pa
    (paOnDie r.pa = true → r.kind = .colour → ∃ t, exec .remoteRequest s = .next t ∧ SameMem s t
      ∧ t.plat.fabric = s.plat.fabric ++ [.reply s.dev src r.issuer r.id
          [if s.colourOk (paCoreId r.pa) r.colour then 1 else 0] 0 false])
    ∧ (dram ∨ own → s.Quiet →
      (∀ n, r.kind = .read n → ∃ t, exec .remoteRequest s = .next t ∧ SameMem s t
        ∧ t.plat.fabric = s.plat.fabric ++ [.reply s.dev src r.issuer r.id (s.bytes loc n) 0 false])
      ∧ (∀ bs, r.kind = .write bs 0 → ∃ t, exec .remoteRequest s = .next t ∧ t.bytes loc bs.length = bs
        ∧ (∀ a, a < loc ∨ loc + bs.length ≤ a → t.byte a = s.byte a) ∧ t.plat.fabric = s.plat.fabric))
    ∧ (shut → (∀ bs b, r.kind = .write bs b → exec .remoteRequest s = .next s)
      ∧ (∀ n, r.kind = .read n → ∃ t bytes bad, exec .remoteRequest s = .next t ∧ SameMem s t
        ∧ t.plat.fabric = s.plat.fabric ++ [.reply s.dev src r.issuer r.id bytes bad true] ∧ (0 < n → bad ≠ 0)))

/-- What comes back to an issuer. LOAD_REPLY for a load of a g register frees its entry and writes the register, extended,
with its poison bit; STORE_ACKNOWLEDGEMENT frees its entry; REPLY_TIMEOUT of a load to a g register frees the entry and
poisons the register, and of an atomic poisons gd and moves the context on; a reply for no entry does nothing; PARK_RETRY walks
again from ROOT: a page still absent parks again, else the context issues at once (R68, R69, R288, R313, R315, R329). -/
def Claim.RepliesToIssuers : Prop :=
  ∀ (s : State) (c : CtxId) (id : Nat),
    (∀ bytes bad (o : Outstanding) (d : Reg) n sg, s.event = .loadReply c id bytes bad → s.findOut c id = some o →
      o.dest = .g d n sg → o.discard = false → ∃ t, exec .loadReply s = .next t ∧ SameMem s t ∧ t.findOut c id = none
        ∧ (d ≠ 0 → (t.ctx c).greg d = extend bytes n sg ∧ (t.ctx c).gpois.getLsbD d.toNat = (bad != 0))
        ∧ Keeps [d] [] [] [] (s.ctx c) (t.ctx c) ∧ (t.ctx c).pc = (s.ctx c).pc)
    ∧ (∀ bytes bad, s.event = .loadReply c id bytes bad → s.findOut c id = none → exec .loadReply s = .next s)
    ∧ (s.event = .storeAcknowledgement c id → ∃ t, exec .storeAcknowledgement s = .next t ∧ t.findOut c id = none
        ∧ { t with cores := s.cores } = s)
    ∧ (∀ (o : Outstanding) (d : Reg) n sg, s.event = .replyTimeout c id → s.findOut c id = some o → o.dest = .g d n sg →
      o.discard = false → (∀ j gd w f va, (s.ctx c).wait ≠ .atomic j gd w f va) →
      (∀ j gd m, (s.ctx c).wait ≠ .told j gd m) → 0 < o.len →
      ∃ t, exec .replyTimeout s = .next t ∧ t.findOut c id = none ∧ (d ≠ 0 → (t.ctx c).gpois.getLsbD d.toNat = true)
        ∧ Keeps [d] [] [] [] (s.ctx c) (t.ctx c))
    ∧ (∀ (o : Outstanding) d w32 f va, s.event = .replyTimeout c id → s.findOut c id = some o →
      (s.ctx c).wait = .atomic id d w32 f va →
      ∃ t, exec .replyTimeout s = .next t ∧ (d ≠ 0 → (t.ctx c).gpois.getLsbD d.toNat = true)
        ∧ Keeps [d] [] [] leftWords (s.ctx c) (t.ctx c) ∧ Past (s.ctx c) (t.ctx c))
    ∧ (∀ va kind i f tval region u r, s.event = .parkRetry c id → (s.ctx c).wait = .parked id va kind i f tval region →
      State.rewalk { s with cur := c } c.core region va.toNat (kind == 2) = (u, r) →
      (r = .absent → exec .parkRetry s = .next { u.parkAs va tval kind region with cur := s.cur })
      ∧ (r ≠ .absent → ∃ t, exec .parkRetry s = .next t ∧ (t.ctx c).wait = .parked 0 va kind i f tval region
          ∧ t.agenda = u.agenda ++ [.issue c] ∧ t.cur = s.cur))

/-! ### Engine ports -/

/-- ENQ and ENQT of a well-formed request on e0 or e1: with a reservation free the port takes the command with what it
samples, ENQT writes 1, and the context moves on; with T it arms on counter ETRIG and target ETGT while the test does not hold.
With no reservation free ENQT writes 0, ENQ waits, or raises 0x0A with TVAL 1 when every reservation is an unread completion.
Port e2 or e3 raises 0x0A with TVAL 3; a malformed request raises 0x0A with TVAL 0x10 plus its first bad word; a trigger that
is no counter of the own core 0x20; a counter that MASK withholds 0x0B with TVAL 4 (R259, R262, R266). -/
def Claim.EngineCommands : Prop :=
  ∀ (s : State) (t : Bool) (p : BitVec 2) (d a : Reg), s.Clean (reqRegs a) [] →
    let k := p.toNat
    let h := s.held s.cur k
    let flaw := if k = 0 then s.copyFault (s.g a) (s.g (a + 1)) (s.g (a + 2)) (s.g (a + 3))
      else indexFault (s.g a) (s.g (a + 1)) (s.g (a + 2)) (s.g (a + 3))
    let tgt : BitVec 32 := (s.my.cwv cwETGT).setWidth 32
    let enq := exec (.enq t p a) s
    let enqt := exec (.enqt t p d a) s
    let both : State → Prop := fun u => enq = .next u ∧ enqt = .next u
    (2 ≤ k → both (s.raise 0x0A 3))
    ∧ (k < 2 → (∀ n, flaw = some n → both (s.raise 0x0A (BitVec.ofNat 64 (0x10 + n)))))
    ∧ (k < 2 → flaw = none → t = true → trigCounter (s.my.cwv cwETRIG) = none → both (s.raise 0x0A 0x20))
    ∧ (k < 2 → flaw = none → t = true → ∀ n, trigCounter (s.my.cwv cwETRIG) = some n → s.masked n = true → both (s.raise 0x0B 4))
    ∧ (k < 2 → flaw = none → ∀ n, (t = true → trigCounter (s.my.cwv cwETRIG) = some n ∧ s.masked n = false) →
        (portLimit s.cur ≤ h.1 → enqt = .next (s.done d 0) ∧ enq = .next (if portLimit s.cur ≤ h.2 then s.raise 0x0A 1 else s.stall))
        ∧ (h.1 < portLimit s.cur →
          let armed := if t && !ctrTest (s.ctr s.cur.core n.toNat) tgt then some (n, tgt) else none
          CompletesWith enq (fun u => Took s u k a .engine armed ∧ (s.pois = [] → SameMem s u)
              ∧ Keeps [] [] [] leftWords s.my u.my ∧ Past s.my u.my)
          ∧ CompletesWith enqt (fun u => Took s u k a .engine armed ∧ (s.pois = [] → SameMem s u) ∧ (d ≠ 0 → u.g d = 1)
              ∧ Keeps [d] [] [] leftWords s.my u.my ∧ Past s.my u.my)))

/-- DEQ and DEQT, with no completion hidden: the oldest unread completion of the context is popped into gd; one with status
0x02 not yet reported is marked and raises 0x06 with TVAL the word; with none and no command in flight DEQ raises 0x0A with
TVAL 2 and DEQT writes 0; else the context waits, DEQT for ETIME.CYC cycles, after which DEQT_TIMEOUT writes 0 and moves it
on. TRIGGERED_COMMAND_START starts an armed command where fewer than four run and none is queued; one that reaches DRAM acts in the
next cycle (R254, R259, R262, R263, R292). An armed command of a context is cancelled when its task or handler ends, or its task is
saved: it completes with status 0x06, with its LCV increment (R262, R265). -/
def Claim.EngineCompletions : Prop :=
  (∀ (s : State) (p : BitVec 2) (d : Reg), (∀ e ∈ (s.myCore.port p.toNat).done, e.hidden = false) →
    let x := s.myCore.port p.toNat
    let both : (State → Prop) → Prop := fun q => CompletesWith (exec (.deq p d) s) q ∧ CompletesWith (exec (.deqt p d) s) q
    (∀ l e r, x.done = l ++ e :: r → e.ctx = s.cur.ctx.val → (∀ f ∈ l, f.ctx ≠ s.cur.ctx.val) →
      (e.word.toNat / 2 ^ 56 % 2 ^ 7 ≠ 2 ∨ e.reported = true → both (fun t => (t.myCore.port p.toNat).done = l ++ r
        ∧ (d ≠ 0 → t.g d = e.word) ∧ SameMem s t ∧ Keeps [d] [] [] leftWords s.my t.my ∧ Past s.my t.my))
      ∧ (e.word.toNat / 2 ^ 56 % 2 ^ 7 = 2 → e.reported = false → ∃ u : State,
          exec (.deq p d) s = .next (u.raise 0x06 e.word) ∧ exec (.deqt p d) s = .next (u.raise 0x06 e.word)
          ∧ (u.myCore.port p.toNat).done = l ++ { e with reported := true } :: r))
    ∧ ((∀ e ∈ x.done, e.ctx ≠ s.cur.ctx.val) →
      ((∀ c ∈ x.cmds, c.ctx = s.cur.ctx.val → c.orphan = true) →
        exec (.deq p d) s = .next ((s.setMy { s.my with wait := .none }).raise 0x0A 2)
        ∧ exec (.deqt p d) s = .next (s.done d 0))
      ∧ ((∃ c ∈ x.cmds, c.ctx = s.cur.ctx.val ∧ c.orphan = false) →
        (∀ q i g tm, s.my.wait = .completion q i g tm → exec (.deq p d) s = .next s ∧ exec (.deqt p d) s = .next s)
        ∧ ((∀ q i g tm, s.my.wait ≠ .completion q i g tm) →
          (∃ t, exec (.deq p d) s = .next t ∧ t.my = { s.my with wait := .completion p t.nextId d false })
          ∧ ∃ t, exec (.deqt p d) s = .next t ∧ t.my = { s.my with wait := .completion p t.nextId d true }
            ∧ t.timers = s.timers ++ [(s.time + (s.my.cwv cwETIME).toNat % 2 ^ 32, .deqtTimeout s.cur t.nextId)]))))
  ∧ (∀ (s : State) (c : CtxId) (id : Nat) (p : BitVec 2) (d : Reg), s.event = .deqtTimeout c id →
      (s.ctx c).wait = .completion p id d true → s.unread c p.toNat = none →
      exec .deqtTimeout s = .next (s.setCtx c ((s.ctx c).setG d 0).advance))
  ∧ ∀ (s : State) (k : CoreId) (p : BitVec 2) (c : Command) (n : BitVec 6) (v : BitVec 32),
      s.event = .triggeredCommandStart k p c.id → c.state = .armed n v →
      let x := (s.core k).port p.toNat
      c ∈ x.cmds → x.started < 4 → (∀ e ∈ x.cmds, e.state ≠ .queued) →
      CompletesWith (exec .triggeredCommandStart s) (fun t => ∃ e ∈ ((t.core k).port p.toNat).cmds,
        e.id = c.id ∧ e.state = .started ∧ (e.usesDram p.toNat = false → .ev (t.cmdEvent k p.toNat e) ∈ t.agenda)
        ∧ (e.usesDram p.toNat = true → (t.time + 1, t.cmdEvent k p.toNat e) ∈ t.timers))
  ∧ ∀ (s : State) (c : CtxId) (p : Nat) (d : Command) (n : BitVec 6) (v : BitVec 32),
      p < 4 → ((s.core c.core).port p).cmds = [d] → d.ctx = c.ctx.val → d.state = .armed n v →
      (∀ q, q < 4 → q ≠ p → ((s.core c.core).port q).cmds = []) →
      Finished s (s.cancelArmed c) c.core p d 0x06 0 ∧ SameMem s (s.cancelArmed c)
      ∧ (c.isHandler = false → (s.ctx c).wait = .none → ∀ m, (s.ctx c).task = some m →
          (d.w3.getLsbD 63 = true → .ev (.counterChange c.core (BitVec.ofNat 6 (bits d.w3 61 56)) false 1 false) ∈ (s.endTask c).agenda)
          ∧ (((s.endTask c).core c.core).port p).cmds = []
          ∧ ∀ e ∈ (((s.endTask c).core c.core).port p).done, e.ctx ≠ c.ctx.val)
      ∧ (c.isHandler = true → (s.ctx c).wait = .none → (((s.endHandler c).core c.core).port p).cmds = []
          ∧ ∀ e ∈ (((s.endHandler c).core c.core).port p).done, e.ctx ≠ c.ctx.val)

/-- What the copy engine moves between cores of this device, with no poison and no overlap. COPY of LEN bytes of local
memory, GET from a core through the window and PUT to one give the destination the source's bytes, leave every other byte and
complete with status 0; PUT with RCV increments its counter at the destination core; RCOPY combines element by element by its
ROP (R226, R260, R267, R268). -/
def Obligations.CopyEngine : Prop :=
  ∀ (s : State) (k : CoreId) (c : Command) (src dst : Nat), s.Quiet → s.Started k 0 c → c.kind = .engine →
    let n := c.w0.toNat % 2 ^ 32
    let op := c.w0.toNat / 2 ^ 60
    let moves : Instr → (State → Prop) → Prop := fun i more =>
      CompletesWith (exec i s) (fun t => (∀ a, a < dst ∨ dst + n ≤ a → t.byte a = s.byte a) ∧ Finished s t k 0 c 0 0 ∧ more t)
    apart src n dst n →
    (s.event = .copy k c.id → op = 0 → locKey k c.w1 n src → locKey k c.w2 n dst →
      moves .copy (fun t => t.bytes dst n = s.bytes src n))
    ∧ (s.event = .get k c.id → op = 1 → winKey s c c.w1 n src → locKey k c.w2 n dst →
      moves .get (fun t => t.bytes dst n = s.bytes src n))
    ∧ (s.event = .put k c.id → op = 2 → locKey k c.w1 n src → winKey s c c.w2 n dst →
      moves .put (fun t => t.bytes dst n = s.bytes src n ∧ (c.w3.getLsbD 55 = true →
        .ev (.counterChange (paCoreId (c.w2.toNat % 2 ^ 56)) (BitVec.ofNat 6 (c.w3.toNat / 2 ^ 48 % 2 ^ 6)) false 1 false) ∈ t.agenda)))
    ∧ (∀ rop, c.w0.toNat / 2 ^ 56 % 2 ^ 4 = rop → 1 ≤ rop → rop ≤ 5 →
      let z := if rop = 2 then 2 else 4
      s.event = .rcopy k c.id → op = 3 → locKey k c.w1 n src → winKey s c c.w2 n dst → n % z = 0 → c.w1.toNat % z = 0 →
      c.w2.toNat % z = 0 →
      moves .rcopy (fun t => ∀ i, z * i < n → t.readLE (dst + z * i) z =
        (let old := s.readLE (dst + z * i) z
         let new := s.readLE (src + z * i) z
         match rop with
         | 1 => (fadd 23 0 old new).1 % 2 ^ 32
         | 2 => (fadd 7 0 old new).1 % 2 ^ 16
         | 3 => (old + new) % 2 ^ 32
         | 4 => (fminmax 23 true old new).1 % 2 ^ 32
         | _ => (fminmax 23 false old new).1 % 2 ^ 32)))

/-- What the index engine moves between a table in cores of this device and dense rows of local memory, with no poison, the
rows of the table apart from the dense rows. The rows that run are those before the first index out of range under FB, else all.
GATHER gives dense row j the bytes of table row x(j), zeros for an index out of range; SCATTER gives table row x(j) the bytes of
the dense row of the highest j that names it, and nothing for an index out of range; a reducing scatter combines. Under FB the first
index out of range stops the command with status 0x02 and AUX its number j, the rows before it applied; without FB each counts, and
the command completes with status 0x01 and AUX their number, with status 0 when there is none (R260, R270, R271). -/
def Claim.IndexEngine : Prop :=
  ∀ (s : State) (k : CoreId) (c : Command) (base stride : Word) (rows rowb : Nat) (fb : Bool) (xs : List (BitVec 32)),
    s.Quiet → s.Started k 1 c → c.kind = .engine → c.xpois = false → rows < 2 ^ 32 → rowb % 4 = 0 → 4 ≤ rowb → rowb ≤ 65536 →
    base.toNat / 2 ^ 56 = 0xFF → c.w0.toNat % 2 ^ 32 = xs.length →
    c.xv = wordBytes [base, BitVec.ofNat 64 (rows * 2 ^ 32 + rowb), stride, if fb then 1 else 0] ++ xs.flatMap (fun x => leBytes 4 x.toNat) →
    let op := c.w0.toNat / 2 ^ 60
    let dense := c.w2.toNat % 2 ^ 18
    dense + xs.length * rowb ≤ 0x40000 →
    let out : BitVec 32 → Bool := fun x => decide (rows ≤ x.toNat) || decide (2 ^ 31 ≤ x.toNat)
    let run := if fb then xs.takeWhile (fun x => !out x) else xs
    let n := run.length
    let key : Nat → Nat := fun j => paLoc ((base + BitVec.ofNat 64 (run.getD j 0).toNat * stride).toNat % 2 ^ 56)
    let good : Nat → Prop := fun j => j < n ∧ out (run.getD j 0) = false
    let slot : Nat → Nat := fun j => localLoc k (dense + j * rowb)
    (∀ j, good j → winKey s c (base + BitVec.ofNat 64 (run.getD j 0).toNat * stride) rowb (key j)
      ∧ apart (key j) rowb (slot 0) (xs.length * rowb)) →
    let skipped := run.countP out
    let ends : State → Prop := fun t => if n < xs.length then Finished s t k 1 c 2 n
      else Finished s t k 1 c (if skipped = 0 then 0 else 1) skipped
    let counted : State → Prop := fun t => ((s.core k).cwv cwECNT).toNat + skipped < 2 ^ 32 →
      ((t.core k).cwv cwECNT).toNat = ((s.core k).cwv cwECNT).toNat + skipped
    (s.event = .gather k c.id → op = 0 → CompletesWith (exec .gather s) (fun t => ends t ∧ counted t
      ∧ (∀ j, j < n → t.bytes (slot j) rowb =
          if out (run.getD j 0) then List.replicate rowb 0 else s.bytes (key j) rowb)
      ∧ ∀ a, a < slot 0 ∨ slot 0 + n * rowb ≤ a → t.byte a = s.byte a))
    ∧ (s.event = .scatter k c.id → op = 1 →
      (∀ i j, good i → good j → key i = key j ∨ apart (key i) rowb (key j) rowb) →
      CompletesWith (exec .scatter s) (fun t => ends t ∧ counted t
        ∧ (∀ j, good j → (∀ i, j < i → good i → key i ≠ key j) → t.bytes (key j) rowb = s.bytes (slot j) rowb)
        ∧ ∀ a, (∀ j, good j → a < key j ∨ key j + rowb ≤ a) → t.byte a = s.byte a))
    ∧ (s.event = .scatterReduction k c.id → op = 2 → c.w0.toNat / 2 ^ 56 % 2 ^ 4 = 3 → (∀ j, good j → key j % 4 = 0) →
      (∀ i j, i < j → good i → good j → apart (key i) rowb (key j) rowb) →
      CompletesWith (exec .scatterReduction s) (fun t => ends t ∧ counted t
        ∧ (∀ j e, good j → 4 * e < rowb → t.readLE (key j + 4 * e) 4 =
            (s.readLE (key j + 4 * e) 4 + s.readLE (slot j + 4 * e) 4) % 2 ^ 32)
        ∧ ∀ a, (∀ j, good j → a < key j ∨ key j + rowb ≤ a) → t.byte a = s.byte a))

/-! ### Carrel and Palimpsest -/

/-- BMV of a well-formed request on a carrel page of the own die that R299 allows, PCHK and PREC of a well-formed request: the
port takes the command. BFENCE stays while the context has a BMV on the port and moves on with none. A malformed request raises
0x0A with TVAL 0x10 plus its first bad word, and BMV on an address that is not translated raises 0x05 (R297 to R299, R301,
R358). -/
def Claim.CarrelAndCacheCommands : Prop :=
  ∀ (s : State) (a : Reg), 
    ((∀ c ∈ (s.myCore.port 2).cmds, c.ctx ≠ s.cur.ctx.val) → exec .bfence s = .next s.advance)
    ∧ ((∃ c ∈ (s.myCore.port 2).cmds, c.ctx = s.cur.ctx.val) → exec .bfence s = .next s)
    ∧ (s.Clean (reqRegs a) [] →
      (∀ n, bmvFault (s.g (a + 1)) (s.g (a + 2)) (s.g (a + 3)) = some n →
        exec (.bmv a) s = .next (s.raise 0x0A (BitVec.ofNat 64 (0x10 + n))))
      ∧ (bmvFault (s.g (a + 1)) (s.g (a + 2)) (s.g (a + 3)) = none →
        ((s.g a).toNat < 0x200000 ∨ 2 ^ 57 ≤ (s.g a).toNat → exec (.bmv a) s = .next (s.raise 0x05 (s.g a)))
        ∧ (∀ u pa e, 0x200000 ≤ (s.g a).toNat → (s.g a).toNat < 2 ^ 57 →
          s.translate s.cur.core (s.regionOf s.cur) (s.g a).toNat false = (u, .ok pa e) →
          e.allows true false false (u.sup u.cur) = true → u.dramOk pa = true →
          (∀ v, u.bmvPage e ((s.g a).toNat % 2 ^ pageShift e.size) (s.g (a + 1)) (s.g (a + 2)) = some v →
            exec (.bmv a) s = .next (u.raise 0x0A (BitVec.ofNat 64 v)))
          ∧ (u.bmvPage e ((s.g a).toNat % 2 ^ pageShift e.size) (s.g (a + 1)) (s.g (a + 2)) = none →
            (u.held u.cur 2).1 < portLimit u.cur →
            CompletesWith (exec (.bmv a) s) (fun t => Took u t 2 a (.bmv pa e.pa e.clay e.cpl e.ck e.cso) none
              ∧ (u.pois = [] → SameMem u t)
              ∧ Keeps [] [] [] leftWords u.my t.my ∧ Past u.my t.my))))
      ∧ (let flaw := palFault (s.g (a + 1)) (s.g (a + 2)) (s.g (a + 3))
         (∀ n, flaw = some n → exec (.pchk a) s = .next (s.raise 0x0A (BitVec.ofNat 64 (0x10 + n)))
            ∧ exec (.prec a) s = .next (s.raise 0x0A (BitVec.ofNat 64 (0x10 + n))))
         ∧ (flaw = none → (s.held s.cur 3).1 < portLimit s.cur →
            CompletesWith (exec (.pchk a) s) (fun t => Took s t 3 a
              (.pchk ((s.my.cwv cwPTHETA).setWidth 32) ((s.my.cwv cwPMAXRUN).toNat % 2 ^ 8)) none ∧ SameMem s t
              ∧ Keeps [] [] [] leftWords s.my t.my ∧ Past s.my t.my)
            ∧ CompletesWith (exec (.prec a) s) (fun t => Took s t 3 a .prec none ∧ SameMem s t
              ∧ Keeps [] [] [] leftWords s.my t.my ∧ Past s.my t.my))))

/-- CARREL_TURN, on quiet memory with one BMV of one row tile due at the carrel: sixteen FP32 outputs, the blocks of the tile
applied in ascending order to zeros, go to the command's output range and nowhere else, and the command completes with status
0. A block step of an NPI page adds, for each output, the exact integer dot product of its thirty-two weights with x, scaled
as R112 gives; one of a BF16 page adds sixteen products rounded once (R112, R296, R298, R302). -/
def Claim.CarrelTurn : Prop :=
  (∀ (s : State) (cl : ClusterId) (k : CoreId) (c : Command) (pa page clay cpl ck cso : Nat) (u : State) (pa' : Nat) (e : TlbEntry),
    s.event = .carrelTurn cl → s.bmvsDue cl = [(k.key, c.id)] → s.Started k 2 c → c.kind = .bmv pa page clay cpl ck cso →
    c.xpois = false → (s.cluster cl).vaultFailed = false → c.w2.toNat / 2 ^ 18 % 2 ^ 8 = 0 →
    (s.setCluster cl { s.cluster cl with carrelLast := k.key }).translate k c.region c.w0.toNat false = (u, .ok pa' e) →
    e.allows true false false c.sup = true → u.Quiet →
    let out := c.w2.toNat % 2 ^ 18
    let blocks := if clay = 1 then 4 * (ck + 1) else 8 * (ck + 1)
    let kk := min (c.w2.toNat / 2 ^ 28 % 2 ^ 3 + 1) (cpl + 1)
    let y := (u.carrelBlocks k c (page + pa' - pa) clay (cpl + 1) kk cso blocks
      ((pa' - (page + pa' - pa)) / tileSize clay cpl ck * blocks) pa' 0 (List.replicate 16 0) false).2.1
    CompletesWith (exec .carrelTurn s) (fun t => t.bytes (localLoc k out) (4 * y.length) = y.flatMap (leBytes 4)
      ∧ (∀ a, a < localLoc k out ∨ localLoc k out + 4 * y.length ≤ a → t.byte a = u.byte a) ∧ Finished s t k 2 c 0 0))
  ∧ ∀ (kk act : Nat) (blk sc x : List Byte) (y : List Nat) (n : Nat), n < 16 →
    (carrelStep 1 kk act blk sc x y).getD n 0 = macPlane (y.getD n 0)
      ((List.range 32).map (fun i => npi (fun b => blk.getD b 0) kk n i * (x.getD i 0).toInt)).sum
      ((sc.getD (2 * n) 0).toNat + 256 * (sc.getD (2 * n + 1) 0).toNat) act
    ∧ (carrelStep 2 kk act blk sc x y).getD n 0 = macFloat 7 (y.getD n 0)
      ((List.range 16).map (fun i => (x.getD (2 * i) 0).toNat + 256 * (x.getD (2 * i + 1) 0).toNat))
      ((List.range 16).map (fun i => (blk.getD (32 * n + 2 * i) 0).toNat + 256 * (blk.getD (32 * n + 2 * i + 1) 0).toNat))

/-- DIRECTORY_OPERATION on quiet memory. A step number that is not the region's completes with 0x45 and AUX the region's.
PREC with an entry of its key stores input and result in its slot, gives it the step number and run 0 and completes with 0x48
and AUX the slot. PCHK with no entry completes with 0x41; with an entry from 1 to 32,767 steps back, of its lengths, that
passes the distance test with its run below the limit, it copies the stored result to the output range, renews the entry and
completes with 0x40 and AUX the new run; a tag not in those steps back gives 0x43. PSTEP and PDROP change the region's step
number and its directory entries and give the new number and how many were dropped (R354 to R364). -/
def Obligations.DirectoryOperations : Prop :=
  (∀ (s : State) (k : CoreId) (c : Command), s.Quiet → s.Started k 3 c → s.event = .directoryOperation k c.id →
    let p := s.palRegion c.region
    let stp := c.w0.toNat / 2 ^ 16 % 2 ^ 16
    let blk := c.w0.toNat / 2 ^ 32
    let xo := localLoc k (c.w1.toNat % 2 ^ 18)
    let ro := localLoc k (c.w2.toNat % 2 ^ 18)
    let xn := 64 * (c.w1.toNat / 2 ^ 48 % 2 ^ 8 + 1)
    let rn := 64 * (c.w2.toNat / 2 ^ 48 % 2 ^ 8 + 1)
    let runs : (State → Prop) → Prop := CompletesWith (exec .directoryOperation s)
    let found := (s.die k.die).entry p blk
    (∀ th mr, c.kind = .prec ∨ c.kind = .pchk th mr → stp ≠ s.palStep p → runs (fun t => Finished s t k 3 c 0x45 (s.palStep p)))
    ∧ (c.kind = .prec → stp = s.palStep p → ∀ e, found = some e → runs (fun t => Finished s t k 3 c 0x48 e.slot
        ∧ t.bytes (s.palRef k.die p e.slot) xn = s.bytes xo xn ∧ t.bytes (s.palRes k.die p e.slot) rn = s.bytes ro rn
        ∧ (t.die k.die).entry p blk = some ⟨p, blk, stp, e.slot, xn / 4, rn, 0, s.time⟩))
    ∧ (∀ th mr, c.kind = .pchk th mr → stp = s.palStep p → found = none → runs (fun t => Finished s t k 3 c 0x41 0))
    ∧ (∀ th mr e, c.kind = .pchk th mr → stp = s.palStep p → found = some e →
        let age := (stp + 65536 - e.tag) % 65536
        let sums := palSums (fwords e.len (s.bytes xo (4 * e.len)))
          (fwords e.len (s.bytes (s.palRef k.die p e.slot) (4 * e.len))) 0 0
        (age = 0 ∨ 32768 ≤ age → runs (fun t => Finished s t k 3 c 0x43 e.tag))
        ∧ (0 < age → age < 32768 → e.len = xn / 4 → e.rlen = rn → palPass th.toNat sums.1 sums.2 = true → e.run < mr →
          runs (fun t => Finished s t k 3 c 0x40 (e.run + 1)
            ∧ t.bytes ro rn = s.bytes (s.palRes k.die p e.slot) rn
            ∧ (t.die k.die).entry p blk = some { e with tag := stp, run := e.run + 1, checked := s.time }))
        ∧ (0 < age → age < 32768 → e.len = xn / 4 → e.rlen = rn → palPass th.toNat sums.1 sums.2 = false →
          runs (fun t => Finished s t k 3 c 0x42 sums.1))))
  ∧ ∀ (s : State) (d a b : Reg), s.Clean [a, b] [] →
    let p := s.palRegion (s.regionOf s.cur)
    (∃ t, exec (.pstep d a) s = .next t ∧ t.palStep p = (s.palStep p + (s.g a).toNat) % 65536
      ∧ (d ≠ 0 → t.g d = BitVec.ofNat 64 (t.palStep p)) ∧ Keeps [d] [] [] leftWords s.my t.my ∧ Past s.my t.my
      ∧ ∀ c, c < s.regLoc p 19 ∨ s.regLoc p 19 + 8 ≤ c → t.byte c = s.byte c)
    ∧ (3 < (s.g b).toNat → exec (.pdrop d a b) s = .next (s.raise 0x06 (s.g b)))
    ∧ ((s.g b).toNat ≤ 3 →
      let gone : DirEntry → Bool := fun e => e.region == p && ((s.g b).getLsbD 0 || e.block == (s.g a).toNat % 2 ^ 32)
      let hit : Fin 4 → Bool := fun i => (s.g b).getLsbD 1 || i == s.cur.core.die
      ∃ t, exec (.pdrop d a b) s = .next t
        ∧ (∀ i, (t.die i).dir = if hit i then (s.die i).dir.filter (fun e => !gone e) else (s.die i).dir)
        ∧ (d ≠ 0 → t.g d = BitVec.ofNat 64 (([0, 1, 2, 3] : List (Fin 4)).map (fun i =>
            if hit i then ((s.die i).dir.filter gone).length else 0)).sum)
        ∧ SameMem s t ∧ Keeps [d] [] [] leftWords s.my t.my ∧ Past s.my t.my)

/-- What decides a check and a new entry of the Palimpsest. The sums of R356 run over the elements in ascending order, and the test
passes when neither side is a NaN and d is not above theta × r. On quiet memory of a region that keeps no Annals: a check that passes
with its run at the limit gives 0x44, AUX the run, and FORCED rises; a poisoned input gives 0x46 and leaves the entry, a poisoned
reference gives 0x46 and drops it, and neither writes DST. A PREC with no entry takes the lowest free slot below PMAX; with PMAX
entries, or 4,096 on the die, the region's least recently checked entry leaves first, its slot is free, and EVICT rises; with
PMAX 0, or a full die on which neither the region nor one above its PMAX has an entry to give, it gives 0x49 (R356, R357, R359,
R363). -/
def Claim.PalimpsestDecisions : Prop :=
  (∀ (xs fs : List Nat) (n : Nat), xs.length = n → fs.length = n → ∃ d r : Nat → Nat, d 0 = 0 ∧ r 0 = 0
    ∧ (∀ i, i < n → d (i + 1) = (fadd 23 0 (d i) ((fsub 23 0 (xs.getD i 0) (fs.getD i 0)).1 % 2 ^ 31)).1
        ∧ r (i + 1) = (fadd 23 0 (r i) (fs.getD i 0 % 2 ^ 31)).1)
    ∧ palSums xs fs 0 0 = (d n, r n))
  ∧ (∀ th d r : Nat, let m := (fmul 23 0 th r).1
      palPass th d r = (!(fval 23 d).isNaN && !(fval 23 m).isNaN && decide (fnum 23 d ≤ fnum 23 m)))
  ∧ ∀ (s : State) (k : CoreId) (c : Command), s.Started k 3 c → s.event = .directoryOperation k c.id →
    (∀ p ∈ s.cores, p.2.stash = []) → (∀ p ∈ s.clusters, p.2.vaultFailed = false) →
    (∀ p ∈ s.clusters, ∀ e ∈ p.2.lines, ∀ l, e.2 = some l → l.bad = false) →
    let p := s.palRegion c.region
    let d := k.die
    let stp := c.w0.toNat / 2 ^ 16 % 2 ^ 16
    let blk := c.w0.toNat / 2 ^ 32
    let xo := localLoc k (c.w1.toNat % 2 ^ 18)
    let ro := localLoc k (c.w2.toNat % 2 ^ 18)
    let xn := 64 * (c.w1.toNat / 2 ^ 48 % 2 ^ 8 + 1)
    let rn := 64 * (c.w2.toNat / 2 ^ 48 % 2 ^ 8 + 1)
    let runs : (State → Prop) → Prop := CompletesWith (exec .directoryOperation s)
    let found := (s.die d).entry p blk
    let mine := (s.die d).dir.filter (fun e => e.region == p)
    let pm := s.palMax p
    let count : Nat → State → Word := fun n t => t.dword (s.palArea d p + 8 * n)
    stp = s.palStep p → (s.regEff p 20).getLsbD 63 = false → (s.regEff c.region 20).getLsbD 63 = false →
    (∀ th mr e, c.kind = .pchk th mr → found = some e →
      let age := (stp + 65536 - e.tag) % 65536
      0 < age → age < 32768 → e.len = xn / 4 → e.rlen = rn →
      let ref := s.palRef d p e.slot
      let res := s.palRes d p e.slot
      let sums := palSums (fwords e.len (s.bytes xo (4 * e.len))) (fwords e.len (s.bytes ref (4 * e.len))) 0 0
      (s.pois = [] → palPass th.toNat sums.1 sums.2 = true → mr ≤ e.run → runs (fun t => Finished s t k 3 c 0x44 e.run
        ∧ t.bytes ro rn = s.bytes ro rn ∧ (t.die d).entry p blk = some { e with checked := s.time }
        ∧ count 2 t = count 2 s + 1))
      ∧ (s.poisAt xo xn = true → s.readBad ref xn = false → s.readBad res rn = false → runs (fun t => Finished s t k 3 c 0x46 0
        ∧ t.bytes ro rn = s.bytes ro rn ∧ (t.die d).entry p blk = some { e with checked := s.time }))
      ∧ (s.readBad ref xn = true → runs (fun t => Finished s t k 3 c 0x46 0 ∧ t.bytes ro rn = s.bytes ro rn
        ∧ (t.die d).entry p blk = none)))
    ∧ (c.kind = .prec → found = none → s.pois = [] →
      (pm = 0 → runs (fun t => Finished s t k 3 c 0x49 0 ∧ SameMem s t ∧ t.dies = s.dies))
      ∧ (0 < pm → mine = [] → 4096 ≤ (s.die d).dir.length →
        (∀ e ∈ (s.die d).dir, ((s.die d).dir.filter (fun f => f.region == e.region)).length ≤ s.palMax e.region) →
        runs (fun t => Finished s t k 3 c 0x49 0 ∧ SameMem s t ∧ t.dies = s.dies))
      ∧ (∀ j, j < pm →
        let taken : List DirEntry → State → Prop := fun left t => Finished s t k 3 c 0x48 j
          ∧ t.bytes (s.palRef d p j) xn = s.bytes xo xn ∧ t.bytes (s.palRes d p j) rn = s.bytes ro rn
          ∧ (t.die d).dir = left ++ [⟨p, blk, stp, j, xn / 4, rn, 0, s.time⟩]
        (mine.length < pm → (s.die d).dir.length < 4096 → (∀ e ∈ mine, e.slot ≠ j) → (∀ i, i < j → ∃ e ∈ mine, e.slot = i) →
          runs (taken (s.die d).dir))
        ∧ (∀ v ∈ mine, (∀ e ∈ mine, e ≠ v → e.block ≠ v.block
              ∧ (v.checked < e.checked ∨ (v.checked = e.checked ∧ v.block < e.block))) →
            (pm ≤ mine.length ∨ 4096 ≤ (s.die d).dir.length) →
            (∀ e ∈ mine, e ≠ v → e.slot ≠ j) → (∀ i, i < j → ∃ e ∈ mine, e ≠ v ∧ e.slot = i) →
            runs (fun t => taken ((s.die d).dir.filter (fun e => e != v)) t ∧ count 3 t = count 3 s + 1))))

/-! ### Spawning and ending tasks -/

/-- The three spawns (R166, R167, R170, R180, R181). An entry that is no multiple of 4 raises 0x03, a control word with COST 0
or a reserved bit 0x06, and a region at TMAX 0x0B with TVAL 1, SPAWNTRIG after 0x05 for an SPTRIG that names no counter and
SPAWNAT after 0x05 for a target that names no core. Else a task message is made: its fields from the operands, the region's
SCHED and g10 to g15, under the next catalogue number of the cluster; the region has one live task more and no other byte of
memory changes. SPAWN gives it to the placement rule where it may stay in the cluster, and to the request queue of the core
where it may not; SPAWNTRIG gives it to the counter's cluster, where ARMMAX and the 128 entries are tested, those on their way
counted, and of another device waits for the answer (log entry 15); each writes the catalogue number to gd and moves on.
SPAWNAT waits for the named core's outcome. -/
def Claim.Spawns : Prop :=
  ∀ (s : State) (d a b : Reg), s.Clean ([a, b] ++ argRegs) [] →
    let e := s.g a
    let ctl := (s.g b).toNat
    let r := s.regionOf s.cur
    let cl := s.cur.core.cluster
    let cat := s.dev * 2 ^ 37 + cl.die.val * 2 ^ 35 + cl.cl.val * 2 ^ 27 + s.myCluster.seq
    let full := s.tasksFull
    let pin := s.slotWord cwSPTRIG
    let is : TaskMsg → Nat → Prop := fun m typ => m.typ = typ ∧ m.region = r ∧ m.entry = e ∧ m.cost = ctl % 256
      ∧ m.kind = (s.g b).getLsbD 8 ∧ m.args = [s.g 10, s.g 11, s.g 12, s.g 13, s.g 14, s.g 15] ∧ m.cat = cat
      ∧ m.prio = s.regPrio r ∧ m.colour = s.schedColour r ∧ m.rcls = s.schedRcls r ∧ m.hopt = 0
      ∧ m.join = s.slotWord cwSPJOIN ∧ m.sstamp = s.time / 64 % 256
    let charged : State → Prop := fun t => t.liveTasks r = s.liveTasks r + 1 ∧ t.liveArmed r = s.liveArmed r
      ∧ (∀ c, c < s.regLoc r 14 ∨ s.regLoc r 14 + 8 ≤ c → t.byte c = s.byte c)
      ∧ (t.cluster cl).seq = (s.myCluster.seq + 1) % 2 ^ 27
    let spawned : State → Prop := fun t => charged t ∧ (d ≠ 0 → t.g d = BitVec.ofNat 64 cat)
      ∧ Keeps [d] [] [] leftWords s.my t.my ∧ Past s.my t.my
    let good := e.toNat % 4 = 0 ∧ ctl % 256 ≠ 0 ∧ ctl / 2 ^ 9 % 2 ^ 7 = 0 ∧ ctl / 2 ^ 22 % 2 ^ 10 = 0
    let goodAt := e.toNat % 4 = 0 ∧ ctl % 256 ≠ 0 ∧ ctl / 2 ^ 9 % 2 ^ 21 = 0
    (e.toNat % 4 ≠ 0 → ∀ i ∈ [Instr.spawn d a b, .spawntrig d a b], exec i s = .next (s.raise 0x03 e))
    ∧ (e.toNat % 4 = 0 → ¬ good → ∀ i ∈ [Instr.spawn d a b, .spawntrig d a b], exec i s = .next (s.raise 0x06 (s.g b)))
    ∧ (good → full = true → exec (.spawn d a b) s = .next (s.raise 0x0B 1))
    ∧ (good → full = false →
        (s.verdict cl (s.spawnMsg 0 e (s.g b) 0 0) = .stay → ∃ t m, exec (.spawn d a b) s = .next t ∧ spawned t ∧ is m 0
          ∧ t.agenda = s.agenda ++ [.ev (.taskPlacement cl m 0)])
        ∧ (s.verdict cl (s.spawnMsg 0 e (s.g b) 0 0) ≠ .stay → s.requestsFull = false → ∃ t m,
          exec (.spawn d a b) s = .next t ∧ spawned t ∧ is m 0 ∧ t.myCore.sendReq = s.myCore.sendReq ++ [.spawn m]
          ∧ t.agenda = s.agenda ++ [.ev (.sendQueueInjection s.cur.core false)])
        ∧ (s.verdict cl (s.spawnMsg 0 e (s.g b) 0 0) ≠ .stay → s.requestsFull = true →
          exec (.spawn d a b) s = .next (s.queueFull 1)))
    ∧ (good → s.counterPa pin = none → exec (.spawntrig d a b) s = .next (s.raise 0x05 pin))
    ∧ (good → ∀ pa, s.counterPa pin = some pa →
        (full = true → exec (.spawntrig d a b) s = .next (s.raise 0x0B 1))
        ∧ (full = false → paDev pa = s.dev →
          let at' := paCluster pa
          (s.budgetArm r ≤ s.armsOf at' r → exec (.spawntrig d a b) s = .next (s.raise 0x0B 2))
          ∧ (s.armsOf at' r < s.budgetArm r → 128 ≤ s.armsIn at' → exec (.spawntrig d a b) s = .next (s.raise 0x0B 3))
          ∧ (s.armsOf at' r < s.budgetArm r → s.armsIn at' < 128 →
            (at' = cl → ∃ t m, exec (.spawntrig d a b) s = .next t ∧ spawned t ∧ is m 1 ∧ m.trig = pa
              ∧ m.target = (s.slotWord cwSPTGT).toNat % 2 ^ 32 ∧ t.agenda = s.agenda ++ [.ev (.armedTaskArrival cl m)])
            ∧ (at' ≠ cl → s.requestsFull = true → exec (.spawntrig d a b) s = .next (s.queueFull 1))
            ∧ (at' ≠ cl → s.requestsFull = false → ∃ t m, exec (.spawntrig d a b) s = .next t ∧ spawned t ∧ is m 1
              ∧ m.trig = pa ∧ t.myCore.sendReq = s.myCore.sendReq ++ [.armed m])))
        ∧ (full = false → paDev pa ≠ s.dev → s.requestsFull = true → exec (.spawntrig d a b) s = .next (s.queueFull 1))
        ∧ (full = false → paDev pa ≠ s.dev → s.requestsFull = false → ∃ t m, exec (.spawntrig d a b) s = .next t ∧ charged t
            ∧ is m 1 ∧ m.trig = pa ∧ t.my = { s.my with wait := .told t.nextId d (some m) }
            ∧ t.myCore.sendReq = s.myCore.sendReq ++ [.armed m]))
    ∧ ((∀ i pa m g, s.my.wait ≠ .spawnat i pa m g) →
        (e.toNat % 4 ≠ 0 → exec (.spawnat d a b) s = .next (s.raise 0x03 e))
        ∧ (e.toNat % 4 = 0 → ¬ goodAt → exec (.spawnat d a b) s = .next (s.raise 0x06 (s.g b)))
        ∧ (goodAt → s.destOk (s.g b) = false → exec (.spawnat d a b) s = .next (s.raise 0x05 (s.g b)))
        ∧ (goodAt → s.destOk (s.g b) = true → full = true → exec (.spawnat d a b) s = .next (s.raise 0x0B 1))
        ∧ (goodAt → s.destOk (s.g b) = true → full = false →
          let pa := destPa (s.g b)
          (paDev pa = s.dev → paCluster pa = cl → ∃ t m, exec (.spawnat d a b) s = .next t ∧ charged t ∧ is m 2
            ∧ t.my = { s.my with wait := .spawnat t.nextId pa m d }
            ∧ t.agenda = s.agenda ++ [.ev (.spawnatOutcome (paCoreId pa) s.cur t.nextId m)])
          ∧ (paDev pa ≠ s.dev ∨ paCluster pa ≠ cl → s.requestsFull = false → ∃ t m, exec (.spawnat d a b) s = .next t
            ∧ charged t ∧ is m 2 ∧ t.my = { s.my with wait := .spawnat t.nextId pa m d }
            ∧ t.myCore.sendReq = s.myCore.sendReq ++ [.spawnat m pa t.nextId])))

/-- SPAWNAT_OUTCOME at a core of this device for a caller that waits (R181). With a free slot of the named core the child is
set up there, gd takes the catalogue number and OUT is 0; with none and a queue entry free it becomes a pinned entry and OUT
is 1; with neither, and INL clear, the caller runs it inline: gd is 0, OUT 2, INL 1, TINRET the address after, the pc at the
entry. -/
def Claim.SpawnatOutcome : Prop :=
  ∀ (s : State) (k : CoreId) (c : CtxId) (id pa : Nat) (m : TaskMsg) (d : Reg),
    s.event = .spawnatOutcome k c id m → (s.ctx c).wait = .spawnat id pa m d → paDev pa = s.dev → c.isHandler = false →
    (s.core k).failed = false → (s.cluster k.cluster).failed = false → (s.cluster k.cluster).closed = false →
    s.belowSlots k.cluster m.region = true → s.plat.stopped.getLsbD m.colour = false →
    let x := s.ctx c
    (∀ z l, s.freeSlots k = z :: l → z ≠ c → ∃ t, exec .spawnatOutcome s = .next t ∧ (t.ctx z).pc = m.entry
      ∧ (t.ctx z).task = some (s.taskOf m 0) ∧ (d ≠ 0 → (t.ctx c).greg d = BitVec.ofNat 64 m.cat)
      ∧ (t.ctx c).cwv cwTSTAT = (x.cwv cwTSTAT &&& 4) ∧ Keeps [d] [] [] (leftWords ++ [cwTSTAT]) x (t.ctx c) ∧ Past x (t.ctx c))
    ∧ (s.freeSlots k = [] → (s.cluster k.cluster).queue.length < 256 → ∃ t, exec .spawnatOutcome s = .next t
      ∧ (t.cluster k.cluster).queue = (s.cluster k.cluster).queue ++ [⟨m, s.time, 0, 0, k.core.val, s.time⟩]
      ∧ (d ≠ 0 → (t.ctx c).greg d = BitVec.ofNat 64 m.cat) ∧ (t.ctx c).cwv cwTSTAT = (x.cwv cwTSTAT &&& 4 ||| 1)
      ∧ Keeps [d] [] [] (leftWords ++ [cwTSTAT]) x (t.ctx c) ∧ Past x (t.ctx c))
    ∧ (s.freeSlots k = [] → 256 ≤ (s.cluster k.cluster).queue.length → (x.cwv cwTSTAT).getLsbD 2 = false →
      ∃ t, exec .spawnatOutcome s = .next t ∧ (t.ctx c).pc = m.entry ∧ (t.ctx c).cwv cwTSTAT = 6
        ∧ (t.ctx c).cwv cwTINRET = x.pc + 4 ∧ Keeps [d] [] [] (leftWords ++ [cwTSTAT, cwTINRET]) x (t.ctx c)
        ∧ (d ≠ 0 → (t.ctx c).greg d = 0))

/-- SPAWNAT, SPAWNTRIG and TCANCEL at another device (R170, R181, R185; log entries 15 and 30). There an armed task of a valid
region in a working cluster is taken, or meets ARMMAX or the 128 entries, and a cancel frees the entries named; the answer goes
back, and the issuer writes gd, or raises 0x0B with the TVAL of the limit. A recalled SPAWNAT that is decided stands; one that
is not is withdrawn, and its caller counts as not having executed it. -/
def Claim.FarSpawns : Prop :=
  (∀ (s : State) (src : Nat) (q : Request) (m : TaskMsg), s.event = .remoteRequest src q → src ≠ s.dev → paDev q.pa = s.dev →
    paOnDie q.pa = true →
    let cl := paCluster m.trig
    let back : Nat → State := fun n => s.fabric (.reply s.dev src q.issuer q.id (leBytes 8 n) 0 false)
    (q.kind = .arm m → s.regValid m.region = true → (s.cluster cl).failed = false →
      (s.budgetArm m.region ≤ s.armsOf cl m.region → exec .remoteRequest s = .next (back 2))
      ∧ (s.armsOf cl m.region < s.budgetArm m.region → 128 ≤ s.armsIn cl → exec .remoteRequest s = .next (back 3))
      ∧ (s.armsOf cl m.region < s.budgetArm m.region → s.armsIn cl < 128 →
          exec .remoteRequest s = .next ((s.post (.armedTaskArrival cl m)).fabric
            (.reply s.dev src q.issuer q.id (leBytes 8 0) 0 false))))
    ∧ (∀ cat, q.kind = .cancel cat → (s.cluster (paCluster q.pa)).rings = [] →
      let hit : QEntry → Bool := fun e => e.msg.typ == 1 && e.msg.trig == q.pa && (cat == 0 || e.msg.cat == cat)
        && s.inSubtree q.region e.msg.region
      CompletesWith (exec .remoteRequest s) (fun t =>
        (t.cluster (paCluster q.pa)).queue = (s.cluster (paCluster q.pa)).queue.filter (fun e => !hit e)
        ∧ t.plat.fabric = s.plat.fabric ++ [.reply s.dev src q.issuer q.id
            (leBytes 8 ((s.cluster (paCluster q.pa)).queue.filter hit).length) 0 false])))
  ∧ (∀ (s : State) (c : CtxId) (id : Nat) (d : Reg) (o : Option TaskMsg) (n : Word),
    s.event = .atomicReply c id n false false → (s.ctx c).wait = .told id d o →
    ((o = none ∨ n = 0) → CompletesWith (exec .atomicReply s) (fun t => Keeps [d] [] [] leftWords (s.ctx c) (t.ctx c)
      ∧ Past (s.ctx c) (t.ctx c)
      ∧ (d ≠ 0 → (t.ctx c).greg d = (match o with
          | some m => BitVec.ofNat 64 m.cat
          | none => n))))
    ∧ (∀ m, o = some m → n ≠ 0 → CompletesWith (exec .atomicReply s) (fun t => ∃ u : State, u.cur = c
      ∧ u.my = { s.ctx c with wait := .none } ∧ u.liveTasks m.region = s.liveTasks m.region - 1
      ∧ t = { u.raise 0x0B n with cur := s.cur })))
  ∧ (∀ (s : State) (src : Nat) (k : CoreId) (c : CtxId) (id cat : Nat), s.event = .spawnatCancel src k c id cat →
    (tget 0 s.plat.answered (callerKey src c) = id → exec .spawnatOutcome s = .next s)
    ∧ (tget 0 s.plat.answered (callerKey src c) ≠ id → CompletesWith (exec .spawnatOutcome s) (fun t =>
        t.plat.withdrawn = s.plat.withdrawn ++ [(src, id)]
        ∧ t.plat.fabric = s.plat.fabric ++ [.spawnatReply s.dev src c id 3])))
  ∧ ∀ (s : State) (c : CtxId) (id pa : Nat) (m : TaskMsg) (d : Reg) (o : Nat), s.event = .spawnatAnswer c id o →
    (s.ctx c).wait = .recalled id pa m d →
    (o = 3 → CompletesWith (exec .spawnatOutcome s) (fun t => t.ctx c = { s.ctx c with wait := .none }
      ∧ t.liveTasks m.region = s.liveTasks m.region - 1))
    ∧ (o < 2 → CompletesWith (exec .spawnatOutcome s) (fun t => Past (s.ctx c) (t.ctx c)
      ∧ (d ≠ 0 → (t.ctx c).greg d = BitVec.ofNat 64 m.cat)))

/-- Ending and naming tasks (R60, R74, R141, R183 to R185). EXIT of a task whose INL is clear and that waits for nothing, with
its region's Annals off, empties the slot, frees the slice the slot owned, takes its cost from the cluster's pressure, counts
one live task less and asks for a dispatch; with INL set it clears INL and goes to TINRET; in a handler context it raises 0x01.
TFATAL ends the task of its slot. TID and RGID give the catalogue number and the region. TCANCEL in supervisor mode, in a
cluster with nothing spilled, frees exactly the armed entries of the counter that ga and the own subtree name and gives their
number; of a counter of another device it asks there and waits for the count (log entry 15); in task mode it raises 0x02;
another address raises 0x05. -/
def Claim.TaskEnds : Prop :=
  (∀ (s : State) (tk : Task), s.InSlot → s.my.task = some tk → s.my.wait = .none →
    ((s.my.cwv cwTSTAT).getLsbD 2 = true → ∃ t, exec .exit s = .next t ∧ t.my.pc = s.my.cwv cwTINRET
      ∧ t.my.cwv cwTSTAT = (s.my.cwv cwTSTAT &&& 3) ∧ OnlyMine s t ∧ Keeps [] [] [] (leftWords ++ [cwTSTAT]) s.my t.my)
    ∧ ((s.my.cwv cwTSTAT).getLsbD 2 = false → (s.regEff tk.msg.region 20).getLsbD 63 = false →
        smem tk.msg.cat s.plat.faultHandlers = false → ∃ t, exec .exit s = .next t ∧ t.my.task = none ∧ t.my.frame = none
          ∧ t.slice.owner ≠ some s.cur.ctx.val ∧ (t.cluster s.cur.core.cluster).sum = s.myCluster.sum - tk.msg.cost
          ∧ t.liveTasks tk.msg.region = s.liveTasks tk.msg.region - 1
          ∧ (s.pois = [] → ∀ c, c < s.regLoc tk.msg.region 14 ∨ s.regLoc tk.msg.region 14 + 8 ≤ c → t.byte c = s.byte c)
          ∧ .ev (.dispatch s.cur.core.cluster) ∈ t.agenda ∧ ∀ c, c ≠ s.cur → t.ctx c = s.ctx c))
  ∧ (∀ (s : State), ¬ s.InSlot → exec .exit s = .next (s.raise 0x01 ((encode .exit).setWidth 64)))
  ∧ (∀ (s : State) (c : CtxId), s.event = .tfatal c → c.isHandler = false → (s.ctx c).task ≠ none →
      CompletesWith (exec .tfatal s) (fun t => (t.ctx c).task = none ∧ .ev (.dispatch c.core.cluster) ∈ t.agenda))
  ∧ (∀ (s : State) (d : Reg), exec (.tid d) s = .next (s.done d (BitVec.ofNat 64 (s.catOf s.cur)))
      ∧ exec (.rgid d) s = .next (s.done d (BitVec.ofNat 64 (s.regionOf s.cur))))
  ∧ ∀ (s : State) (d a b : Reg),
    (s.sup s.cur = false → exec (.tcancel d a b) s = .next (s.raise 0x02 ((encode (.tcancel d a b)).setWidth 64)))
    ∧ (s.sup s.cur = true → s.Clean [a, b] [] →
      (s.counterPa (s.g b) = none → exec (.tcancel d a b) s = .next (s.raise 0x05 (s.g b)))
      ∧ (∀ pa, s.counterPa (s.g b) = some pa → paDev pa = s.dev → (s.cluster (paCluster pa)).rings = [] →
        let hit : QEntry → Bool := fun e => e.msg.typ == 1 && e.msg.trig == pa
          && (s.g a == 0 || e.msg.cat == (s.g a).toNat) && s.inSubtree (s.regionOf s.cur) e.msg.region
        ∃ t, exec (.tcancel d a b) s = .next t
          ∧ (t.cluster (paCluster pa)).queue = (s.cluster (paCluster pa)).queue.filter (fun e => !hit e)
          ∧ (d ≠ 0 → t.g d = BitVec.ofNat 64 ((s.cluster (paCluster pa)).queue.filter hit).length)
          ∧ Keeps [d] [] [] leftWords s.my t.my ∧ Past s.my t.my)
      ∧ (∀ pa, s.counterPa (s.g b) = some pa → paDev pa ≠ s.dev → ∃ t, exec (.tcancel d a b) s = .next t ∧ SameMem s t
          ∧ t.my = { s.my with wait := .told t.nextId d none }
          ∧ t.plat.fabric = s.plat.fabric ++ [.request s.dev (paDev pa) ⟨s.cur, t.nextId, pa, .cancel (s.g a).toNat,
              s.colourOf s.cur, s.regionOf s.cur, s.catOf s.cur⟩]))

/-- Region control blocks and PRD (R168, R169, R186, R207). RGRD of a region in the own subtree that is valid gives the
doubleword in force; RGWR, in supervisor mode, writes a doubleword whose set bits all have fields, but for the fields that
ignore writes, and no other byte; HDR from invalid to valid takes its depth and number from the parent and the region. A
region outside the subtree raises 0x02, a number above 4,095, an index above 31 or an invalid region 0x06. PRD of a cluster
and item that exist gives the item, and 0x06 else. -/
def Claim.RegionInstructions : Prop :=
  ∀ (s : State) (d g a b : Reg), s.Clean [g, a, b] [] →
    let r := (s.g a).toNat
    let k := (s.g b).toNat
    let own := s.inSubtree (s.regionOf s.cur) r
    (r ≤ 4095 → own = false → exec (.rgrd d a b) s = .next (s.raise 0x02 ((encode (.rgrd d a b)).setWidth 64)))
    ∧ (4095 < r ∨ (own = true ∧ (31 < k ∨ (k ≠ 0 ∧ s.regValid r = false))) →
        exec (.rgrd d a b) s = .next (s.raise 0x06 (s.g b))
        ∧ (s.sup s.cur = true → exec (.rgwr g a b) s = .next (s.raise 0x06 (s.g b))))
    ∧ (r ≤ 4095 → own = true → k ≤ 31 → k = 0 ∨ s.regValid r = true →
        exec (.rgrd d a b) s = .next (s.done d (s.regRead r k))
        ∧ (s.sup s.cur = true → k ≠ 0 → s.g g &&& ~~~(BitVec.ofNat 64 (regionBits k)) = 0 →
          ∃ t, exec (.rgwr g a b) s = .next t ∧ Keeps [] [] [] leftWords s.my t.my ∧ Past s.my t.my
            ∧ t.regOwn r k = (if k = 14 then s.regOwn r k
                else if k = 9 then (s.regOwn r k &&& 0xFFFFFFFF00000000) ||| (s.g g &&& 0x00000000FFFFFFFF)
                else if k = 2 then (s.regOwn r k &&& 0x3F00) ||| (s.g g &&& 0xFFFFFFFFFFFFC0FF)
                else s.g g)
            ∧ ∀ c, c < s.regLoc r k ∨ s.regLoc r k + 8 ≤ c → t.byte c = s.byte c)
        ∧ (s.sup s.cur = true → k ≠ 0 → s.g g &&& ~~~(BitVec.ofNat 64 (regionBits k)) ≠ 0 →
          exec (.rgwr g a b) s = .next (s.raise 0x06 (s.g b))))
    ∧ (s.sup s.cur = true → r ≤ 4095 → own = true → k = 0 → r ≠ 0 → s.regValid r = false → (s.g g).getLsbD 63 = true →
        s.g g &&& ~~~(0x8000000007FFFFFF : Word) = 0 →
        let p := (s.g g).toNat / 2 ^ 12 % 2 ^ 12
        (s.regValid p = false ∨ 6 < s.regDepth p → exec (.rgwr g a b) s = .next (s.raise 0x06 (s.g b)))
        ∧ (s.regValid p = true → s.regDepth p ≤ 6 → ∃ t, exec (.rgwr g a b) s = .next t
          ∧ t.regOwn r 0 = BitVec.ofNat 64 (2 ^ 63 + (s.regDepth p + 1) * 2 ^ 24 + p * 2 ^ 12 + r) ∧ Past s.my t.my))
    ∧ (s.sup s.cur = false → exec (.rgwr g a b) s = .next (s.raise 0x02 ((encode (.rgwr g a b)).setWidth 64)))
    ∧ (191 < r → exec (.prd d a b) s = .next (s.raise 0x06 (s.g a)))
    ∧ (r ≤ 191 → 4 < k → exec (.prd d a b) s = .next (s.raise 0x06 (s.g b)))
    ∧ (r ≤ 191 → k ≤ 4 → exec (.prd d a b) s = .next (s.done d (s.prdItem (clusterAt s.cur.core.die r) k)))

/-! ### Placing tasks -/

/-- Where tasks go (R171, R173, R174, R198 to R201). TASK_PLACEMENT at a cluster: a task that stays, with a queue entry free
and nothing of its region spilled, becomes a ready entry with the time as its stamp and its cost joins the pressure; one that
leaves goes one hop on, to the neighbour, which has it at the port it comes through, or to the package hub, with the route kind
of its class; one that falls back is enqueued at its fallback cluster. A cluster takes one decision in a cycle, a further one
waits; a pinned task is enqueued unasked, or waits for an entry; a cluster that has failed meanwhile ends it (log entry 29).
SWITCH_FORWARD sends a task to the lowest low cluster of the lowest low die but its own, and to the fabric where none is low
and the device reports another, which lowers TASKS (log entry 56). ARMED_TASK_ARRIVAL enters the task, also at a closed cluster,
with one armed entry more of its region (log entries 29 and 56), asks for its release in the next cycle where the test holds
(log entry 1), and ends it at a failed one; ARMED_RELEASE frees the entry and places the task as type 0. -/
def Claim.Placement : Prop :=
  (∀ (s : State) (cl : ClusterId) (m : TaskMsg) (port : Fin 6), s.event = .taskPlacement cl m port →
    let queued : ClusterId → State → Prop := fun f t =>
      (t.cluster f).queue = (s.cluster f).queue ++ [⟨m, s.time, 0, 0, 0, s.time⟩]
      ∧ (t.cluster f).sum = (s.cluster f).sum + m.cost ∧ SameMem s t ∧ t.agenda = s.agenda ++ [.ev (.dispatch f)]
    let room : ClusterId → Prop := fun f => (s.cluster f).queue.length < 256 ∧ (s.ring f m.region).held = 0
    let next := s.routed cl.die { m with hops := m.hops - 1, hopt := min 31 (m.hopt + 1) }
    let decided := s.setCluster cl { s.cluster cl with placed := some s.time }
    let here := fun n : Nat => (if cl.cl.val + 16 = n then 1 else if cl.cl.val = n + 1 then 2
      else if cl.cl.val = n + 16 then 3 else 4 : Fin 6)
    let takes : Prop := (s.cluster cl).failed = false ∧ (s.cluster cl).closed = false
    (m.typ = 2 → takes → (s.cluster cl).queue.length < 256 → CompletesWith (exec .taskPlacement s) (queued cl))
    ∧ (m.typ = 2 → takes → 256 ≤ (s.cluster cl).queue.length →
        exec .taskPlacement s = .next (s.after 1 (.taskPlacement cl m 0)))
    ∧ (m.typ = 2 → (s.cluster cl).failed = true →
        exec .taskPlacement s = .next (s.endUnrun m 5 (s.workingFor cl.die)))
    ∧ (m.typ = 2 → (s.cluster cl).failed = false → (s.cluster cl).closed = true →
        exec .taskPlacement s = .next (s.endUnrun m 4 cl))
    ∧ (m.typ ≠ 2 → (s.cluster cl).placed = some s.time →
        exec .taskPlacement s = .next (s.after 1 (.taskPlacement cl m port)))
    ∧ (m.typ ≠ 2 → (s.cluster cl).placed ≠ some s.time →
      (s.verdict cl m = .stay → room cl → CompletesWith (exec .taskPlacement s) (fun t => queued cl t
        ∧ (t.cluster cl).placed = some s.time))
      ∧ (∀ n, s.verdict cl m = .mesh n →
        exec .taskPlacement s = .next (decided.post (.taskPlacement (clusterAt cl.die n) next (here n))))
      ∧ (s.verdict cl m = .up →
        exec .taskPlacement s = .next (decided.post (.switchForward (some cl.die) next (smem m.cat s.plat.faultHandlers))))
      ∧ (s.verdict cl m = .fallback → ∀ f, s.fallbackOf cl.die m = some f → room f →
        CompletesWith (exec .taskPlacement s) (queued f))))
  ∧ (∀ (s : State) (x y : Fin 4) (m : TaskMsg) (c : Nat) (h : Bool), s.event = .switchForward (some x) m h →
      let f := 2 * s.schedDom m.region + (if m.kind then 1 else 0)
      let next := { m with hops := m.hops - 1, hopt := min 31 (m.hopt + 1) }
      (x ≠ y → s.dieLow y f = true → (∀ z, z ≠ x → z < y → s.dieLow z f = false) → tget none (s.die y).low f = some c →
        exec .switchForward s = .next (s.post (.taskPlacement (clusterAt y c) (s.routed y next) 5)))
      ∧ ((∀ z, z ≠ x → s.dieLow z f = false) → tget 63 s.plat.upDev f < 63 →
        smem m.cat s.plat.faultHandlers = false → ∃ t, exec .switchForward s = .next t
          ∧ t.plat.fabric = s.plat.fabric ++ [.task s.dev s.dev next h]
          ∧ t.liveTasks m.region = s.liveTasks m.region - 1))
  ∧ (∀ (s : State) (cl : ClusterId) (m : TaskMsg), s.event = .armedTaskArrival cl m → (s.cluster cl).failed = false →
      (m.cat / 2 ^ 37 ≠ s.dev → s.regValid m.region = true) →
      (s.cluster cl).queue.length < 256 → (s.cluster cl).armed.length < 128 →
      CompletesWith (exec .armedTaskArrival s) (fun t =>
        (t.cluster cl).queue = (s.cluster cl).queue ++ [⟨m, s.time, 0, 0, 0, s.time⟩]
        ∧ t.liveArmed m.region = (s.liveArmed m.region + 1) % 2 ^ 32
        ∧ t.liveTasks m.region = (if m.cat / 2 ^ 37 = s.dev then s.liveTasks m.region else (s.liveTasks m.region + 1) % 2 ^ 32)
        ∧ t.timers = s.timers ++
            (if ctrTest (s.ctr (paCoreId m.trig) ((paOff m.trig - 0x80000) / 4)) (BitVec.ofNat 32 m.target)
            then [(s.time + 1, .armedRelease cl m.cat)] else [])))
  ∧ (∀ (s : State) (cl : ClusterId) (m : TaskMsg), s.event = .armedTaskArrival cl m → (s.cluster cl).failed = true →
      m.cat / 2 ^ 37 = s.dev → exec .armedTaskArrival s = .next (s.endUnrun m 5 (s.workingFor cl.die)))
  ∧ ∀ (s : State) (cl : ClusterId) (cat : Nat) (l r : List QEntry) (e : QEntry), s.event = .armedRelease cl cat →
      (s.cluster cl).queue = l ++ e :: r → e.msg.typ = 1 → e.msg.cat = cat → (∀ f ∈ l, ¬ (f.msg.typ = 1 ∧ f.msg.cat = cat)) →
      (s.cluster cl).rings = [] → CompletesWith (exec .armedRelease s) (fun t => (t.cluster cl).queue = l ++ r
        ∧ t.liveArmed e.msg.region = s.liveArmed e.msg.region - 1
        ∧ t.agenda = s.agenda ++ [.ev (.taskPlacement cl { e.msg with typ := 0 } 0)])

/-- DISPATCH of a ready entry that stands alone in its cluster's queue, with nothing spilled (R59, R168, R172): the entry is
gone, and the slot it takes starts the task: pc at the entry, g10 to g15 the arguments, g2 the stack top, every other
register zero and unpoisoned, the mode of the region, TVEC and TMASK of the region, TENQ its stamp and TDISP the time. -/
def Claim.DispatchSetsUp : Prop :=
  ∀ (s : State) (cl : ClusterId) (e : QEntry) (c : CtxId), s.event = .dispatch cl → (s.cluster cl).dispatched ≠ some s.time →
    (s.cluster cl).queue = [e] → (s.cluster cl).rings = [] → e.msg.typ = 0 → s.ready cl e = true → s.slotFor cl e = some c →
    e.msg.args.length = 6 →
    let r := e.msg.region
    CompletesWith (exec .dispatch s) (fun t => (t.cluster cl).queue = [] ∧ SameMem s t ∧ (∀ z, z ≠ c → t.ctx z = s.ctx z)
      ∧ (let x := t.ctx c
         x.pc = e.msg.entry ∧ x.task = some (s.taskOf e.msg e.defer) ∧ x.wait = .none ∧ x.frame = none
         ∧ (∀ j : Nat, j < 6 → x.greg (BitVec.ofNat 5 (10 + j)) = e.msg.args.getD j 0)
         ∧ x.greg 2 = BitVec.ofNat 64 ((s.regEff r 12).toNat % 2 ^ 18)
             - BitVec.ofNat 64 (c.ctx.val * ((s.regEff r 12).toNat / 2 ^ 20 % 2 ^ 16))
         ∧ (∀ j : Reg, j ≠ 2 → j ∉ argRegs → x.greg j = 0) ∧ (∀ j, x.vreg j = 0) ∧ x.gpois = 0 ∧ x.vpois = 0
         ∧ x.sv = (s.taskOf e.msg e.defer).sup ∧ x.tb = false
         ∧ x.cwv cwTVEC = s.regEff r 3 &&& 0xFFFFFFFFFFFFFFFC ∧ x.cwv cwTMASK = s.regEff r 4 &&& 0x1FFFE
         ∧ x.cwv cwTJOIN = e.msg.join ∧ x.cwv cwTENQ = BitVec.ofNat 64 e.stamp ∧ x.cwv cwTDISP = BitVec.ofNat 64 s.time))

/-- Taking a slot away (R188, R189, R265, R318, R319). TASK_PREEMPTION with no save under way marks the victim, when its
region has a free save record and its cluster room, and the cluster notes it. SLOT_SAVE of a slot that can be saved, on quiet
memory with Annals off, no frame, wait or engine command, and no slice owned, writes the save record and empties the slot, and
the task stands in the queue as a saved entry. MIGRATION_ARRIVAL from this device with a slot free puts the task there; with
neither slot nor save record the source accesses remotely. -/
def Claim.SlotsMove : Prop :=
  (∀ (s : State) (cl : ClusterId) (p : Nat) (c : CtxId) (tk : Task), s.event = .taskPreemption cl →
    (s.cluster cl).saving = none → s.pressing cl = some p →
    s.victimOf ((s.running cl).filter (fun e => e.2.preempt && decide (e.2.msg.prio < p))) = some (c, tk) →
    s.saveFind tk.msg.region ≠ none → s.roomToSave cl tk.msg.region = true →
    CompletesWith (exec .taskPreemption s) (fun t => (t.cluster cl).saving = some c ∧ t.ctx c = { s.ctx c with saveReq := true }
      ∧ SameMem s t ∧ ∀ z, z ≠ c → t.ctx z = s.ctx z))
  ∧ (∀ (s : State) (c : CtxId) (tk : Task) (i : Nat), s.event = .slotSave c → c.isHandler = false → s.Quiet →
    (s.ctx c).task = some tk → (s.ctx c).wait = .none → (s.ctx c).frame = none → (s.ctx c).suspended = false → (s.ctx c).img = [] → s.canSave c = true →
    (s.core c.core).ports = [] → (s.core c.core).slice.owner ≠ some c.ctx.val → s.saveFind tk.msg.region = some i →
    (s.regEff tk.msg.region 20).getLsbD 63 = false → (s.cluster c.core.cluster).queue.length < 256 →
    (s.ring c.core.cluster tk.msg.region).held = 0 → 0 < i → i < 2 ^ 16 →
    (∀ j, j < 12 → (s.ctx c).cwv (cwECS + j) = 0) →
    CompletesWith (exec .slotSave s) (fun t => (t.ctx c).task = none ∧ (∀ z, z ≠ c → t.ctx z = s.ctx z)
      ∧ t.bytes (s.saveLoc tk.msg.region i) 6016 = s.saveBytes c false
      ∧ (t.cluster c.core.cluster).queue = (s.cluster c.core.cluster).queue
          ++ [⟨{ tk.msg with typ := 3 }, ((s.ctx c).cwv cwTENQ).toNat, tk.defer + 1, i, 0, s.time⟩]))
  ∧ ∀ (s : State) (c z : CtxId) (cl : ClusterId) (sh : Shipment) (tk : Task), s.event = .migrationArrival c s.dev cl sh →
    (s.ctx c).wait = .migrating → (s.ctx c).task = some tk → s.regValid sh.msg.region = true →
    (s.cluster cl).failed = false → (s.cluster cl).closed = false →
    (s.belowSlots cl sh.msg.region = true → s.bestSlot cl = some z → z ≠ c →
      CompletesWith (exec .migrationArrival s) (fun t => (t.ctx c).task = none ∧ (t.ctx z).pc = sh.pc
        ∧ (t.ctx z).g = sh.g ∧ (t.ctx z).q = sh.q ∧ (t.ctx z).v = sh.v
        ∧ (t.ctx z).task = some { s.taskOf sh.msg sh.defer with sup := (s.taskOf sh.msg sh.defer).sup || sh.handler }))
    ∧ (s.belowSlots cl sh.msg.region = false → s.saveFind sh.msg.region = none →
      exec .migrationArrival s = .next (s.setCtx c { s.ctx c with wait := .stayed }))

/-- DISPATCH of a saved entry that stands alone in its cluster's queue, on quiet memory (R172, R189, R265): the entry and its
save record are free, and the slot takes the task: pc, g1 to g31, q1 to q7, v0 to v31 and the control words of slot scope as the
record holds them, in the bits that the map names (log entry 62), TDISP the time, and the completions of the ECS words back in the
FIFOs of their ports (log entry 69). -/
def Claim.Restores : Prop :=
  ∀ (s : State) (cl : ClusterId) (e : QEntry) (c : CtxId), s.event = .dispatch cl → (s.cluster cl).dispatched ≠ some s.time →
    (s.cluster cl).queue = [e] → (s.cluster cl).rings = [] → e.msg.typ = 3 → s.ready cl e = true → s.slotFor cl e = some c →
    s.Quiet →
    let r := e.msg.region
    let bs := s.bytes (s.saveLoc r e.save) 6016
    let w := fun n => (wordsOf 752 bs).getD n 0
    let cw := fun n => w (48 + n) &&& cwNamed n
    CompletesWith (exec .dispatch s) (fun t => (t.cluster cl).queue = [] ∧ (t.byte (s.saveLoc r 0 + e.save / 8)).getLsbD (e.save % 8) = false
      ∧ (∀ z, z ≠ c → t.ctx z = s.ctx z)
      ∧ (let x := t.ctx c
         x.pc = w 0 ∧ x.task = some (s.taskOf e.msg e.defer) ∧ x.wait = .none
         ∧ (∀ j : Reg, j ≠ 0 → x.greg j = w (8 + j.toNat)) ∧ (∀ j : PReg, j ≠ 0 → x.qreg j = w (40 + j.toNat))
         ∧ (∀ j : Reg, x.vreg j = BitVec.ofNat 512 (leNat ((bs.drop (0xF80 + 64 * j.toNat)).take 64)))
         ∧ x.gpois = (w (48 + 7)).setWidth 32 &&& 0xFFFFFFFE ∧ x.vpois = (w 2).setWidth 32
         ∧ (∀ n, n < 0x1C0 → slotScope n = true → n ∉ [cwSTATUS, 0x007, cwTVEC, cwTDISP] →
            (∀ j, j < 12 → n ≠ cwECS + j) → x.cwv n = cw n)
         ∧ x.cwv cwTDISP = BitVec.ofNat 64 s.time)
      ∧ ∀ p, p < 4 → ((t.core c.core).port p).done = ((s.core c.core).port p).done
          ++ (((List.range 3).map (fun k => cw (cwECS + 3 * p + k))).filter (fun x => x != 0)).map (fun x => ⟨c.ctx.val, x, false, false⟩))

/-- Spilling (R173) on quiet memory. A task that stays in a cluster whose queue is full, or that holds records of its region, goes
to the tail of its region's ring, its stamp and defer count behind its message, and its cost joins the pressure; a ring that is
full, or not backed (log entry 70), ends it with a record of type 3. An entry that ARMED_RELEASE frees is refilled from the ring
whose oldest record is oldest. -/
def Claim.Spilling : Prop :=
  (∀ (s : State) (cl : ClusterId) (m : TaskMsg) (port : Fin 6), s.event = .taskPlacement cl m port → m.typ ≠ 2 → m.cost ≠ 0 →
    (s.cluster cl).placed ≠ some s.time → s.verdict cl m = .stay →
    256 ≤ (s.cluster cl).queue.length ∨ 0 < (s.ring cl m.region).held →
    let n := s.spillDepth m.region
    let x := s.ring cl m.region
    let loc := s.spillLoc cl m.region x.tail
    let fits : Prop := x.held < n ∧ s.areaBacked (s.spillLoc cl m.region 0) (128 * n) = true
    (fits → s.Quiet → CompletesWith (exec .taskPlacement s) (fun t => (t.cluster cl).queue = (s.cluster cl).queue
      ∧ t.bytes loc 112 = wordBytes (taskWords m) ++ leBytes 8 s.time ++ leBytes 8 1
      ∧ (∀ a, a < loc ∨ loc + 112 ≤ a → t.byte a = s.byte a)
      ∧ (t.ring cl m.region).tail = (x.tail + 1) % n ∧ (t.ring cl m.region).held = x.held + 1
      ∧ (t.cluster cl).sum = (s.cluster cl).sum + m.cost))
    ∧ (¬ fits → exec .taskPlacement s =
        .next ((s.setCluster cl { s.cluster cl with placed := some s.time }).endUnrun m 3 cl)))
  ∧ ∀ (s : State) (cl : ClusterId) (cat : Nat) (l r : List QEntry) (e q : QEntry) (qs : List QEntry) (g : Nat),
    s.event = .armedRelease cl cat → s.Quiet → (s.cluster cl).queue = l ++ e :: r → (s.cluster cl).queue.length ≤ 256 →
    e.msg.typ = 1 → e.msg.cat = cat → (∀ f ∈ l, ¬ (f.msg.typ = 1 ∧ f.msg.cat = cat)) →
    (s.ring cl g).entries = q :: qs →
    (∀ x ∈ (s.cluster cl).rings, x.1 ≠ g → ∀ f ∈ x.2.entries.head?, q.stamp < f.stamp) →
    CompletesWith (exec .armedRelease s) (fun t =>
      (t.cluster cl).queue = l ++ r ++ [s.spillRecord cl g (s.ring cl g).head q]
      ∧ (t.ring cl g).head = ((s.ring cl g).head + 1) % s.spillDepth g ∧ (t.ring cl g).held = (s.ring cl g).held - 1
      ∧ (t.ring cl g).entries = qs)

/-- The source of a migration (R317, R318). A scalar access of a task to an allowed page with MIG set, whose home lies on another
die, stalls while an older access is outstanding, and else ships the context to the home cluster, by an event on this device or by
the fabric, and waits. The answer of another device that took it empties the slot and lowers its region's live count; a refusal
leaves the access to be performed remotely. -/
def Claim.MigrationSource : Prop :=
  (∀ (i : Instr) (f : MemForm) (s u : State) (pa : Nat) (e : TlbEntry) (tk : Task), memForm i = some f → s.Clean f.sources [] →
    (f.ea s).toNat % f.size = 0 → 0x200000 ≤ (f.ea s).toNat → (f.ea s).toNat < 2 ^ 57 →
    s.translate s.cur.core (s.regionOf s.cur) (f.ea s).toNat false = (u, .ok pa e) →
    e.allows (!f.store) f.store false (u.sup u.cur) = true → u.dramOk pa = true → e.flags.getLsbD 5 = true →
    u.mayMigrate pa = true → u.my.task = some tk → u.my.frame = none →
    let sh := u.my.shipment tk (smem tk.msg.cat u.plat.faultHandlers)
    (u.anyOut u.cur = true → exec i s = .next u.stall)
    ∧ (u.anyOut u.cur = false → paDev pa = u.dev → ∀ cl, u.homeOf pa = some cl → CompletesWith (exec i s) (fun t =>
        t.my = { u.my with wait := .migrating } ∧ t.agenda = u.agenda ++ [.ev (.migrationArrival u.cur u.dev cl sh)]))
    ∧ (u.anyOut u.cur = false → paDev pa ≠ u.dev → CompletesWith (exec i s) (fun t =>
        t.my = { u.my with wait := .migrating }
        ∧ t.plat.fabric = u.plat.fabric ++ [.migrate u.dev (paDev pa) u.cur pa sh])))
  ∧ ∀ (s : State) (c : CtxId) (dest : Option Nat) (tk : Task), s.event = .migrationAnswer c dest →
    (s.ctx c).wait = .migrating → (s.ctx c).task = some tk →
    (dest = none → exec .migrationArrival s = .next (s.setCtx c { s.ctx c with wait := .stayed }))
    ∧ (dest ≠ none → (s.regEff tk.msg.region 20).getLsbD 63 = false → smem tk.msg.cat s.plat.faultHandlers = false →
        CompletesWith (exec .migrationArrival s) (fun t => (t.ctx c).task = none ∧ (t.ctx c).wait = .none
          ∧ .ev (.dispatch c.core.cluster) ∈ t.agenda ∧ t.liveTasks tk.msg.region = s.liveTasks tk.msg.region - 1))

/-- The Annals at EXIT (R183, R372 to R374): with ANNL enabling task ends and its ring backed, empty and with no loss, on quiet memory,
a task's EXIT appends a record of type 2 at WR: its header with the time, then catalogue number, TENQ, TDISP and TACCT, each below
2^63; WR advances by five words. -/
def Claim.AnnalsAtExit : Prop :=
  ∀ (s : State) (tk : Task), s.InSlot → s.Quiet → s.my.task = some tk → s.my.wait = .none →
    (s.my.cwv cwTSTAT).getLsbD 2 = false →
    let r := tk.msg.region
    let w := s.regEff r 20
    let a := dramLoc s.cur.core.die (w.toNat % 2 ^ 20 * 65536)
    let n := 2 ^ (w.toNat / 2 ^ 52 % 16 + 9)
    let wr := (s.dword a).toNat
    w.getLsbD 63 = true → w.getLsbD 56 = true → s.areaBacked a (64 + 8 * n) = true → wr + 5 < n → s.dword (a + 8) = s.dword a →
    s.dword (a + 16) = 0 → (∀ k, k < 64 + 8 * n → s.regLoc r 14 + 8 ≤ a + k ∨ a + k < s.regLoc r 14) →
    CompletesWith (exec .exit s) (fun t => t.dword a = BitVec.ofNat 64 (wr + 5)
      ∧ (List.range 5).map (fun k => (t.dword (a + 64 + 8 * (wr + k))).toNat)
        = (2 ^ 63 + 4 * 2 ^ 59 + 2 * 2 ^ 52 + s.time % 2 ^ 52)
          :: [tk.msg.cat, (s.my.cwv cwTENQ).toNat, (s.my.cwv cwTDISP).toNat, s.my.tacct].map (fun x => x % 2 ^ 63))

/-! ### Fields, the adaptive loop, failures -/

/-- FIELD_TICK (R195): the field of each router for domain d and kind k is 63 where a clear is due, 0 in a cluster of the
domain and kind whose pressure is low, and else 1 more than the least its neighbours and its up port reported, at most 63; and
ADAPTIVE_LOOP (R205) lowers LOW by one, not below LMIN, where the mean wait of a finished period is above five quarters of the
target, raises it by one, not above STAY as the tick took it (log entry 67), where it is below three quarters, and starts a new period. What the switches above
the device report is there for the next tick (R197). -/
def Claim.Fields : Prop :=
  (∀ s : State, s.event = .fieldTick → CompletesWith (exec .fieldTick s) (fun t => SameMem s t ∧ ∀ (d : Fin 4) (c f : Nat),
    c < 192 → f < 16 →
    (t.die d).field c f = if (s.die d).clear.getLsbD (f / 2) then 63
      else if (s.cluster (clusterAt d c)).maskAtTick.testBit (f / 2) = true ∧ planeCluster (clusterAt d c) = (f % 2 == 1)
          ∧ (s.cluster (clusterAt d c)).isLow s.time = true then 0
      else min 63 (1 + (neighbours c).foldl (fun m n => min m (s.report d n f)) (s.upReport d c f))))
  ∧ (∀ (s : State) (outer : Table Nat), s.event = .summaries outer →
      exec .fieldTick s = .next { s with plat := { s.plat with outer := outer } })
  ∧ ∀ (s : State) (cl : ClusterId), s.event = .adaptiveLoop cl →
    let x := s.cluster cl
    let a := (x.cwv cwADAPT).toNat
    let low := (x.cwv cwLOW).toNat % 2 ^ 16
    let w := x.adaptSum / (64 * x.adaptN)
    let goal := a / 2 ^ 32 % 2 ^ 16
    x.adaptN ≠ 0 → 2 ^ 63 ≤ a → CompletesWith (exec .adaptiveLoop s) (fun t => (t.cluster cl).adaptN = 0
      ∧ (t.cluster cl).adaptSum = 0 ∧ SameMem s t ∧ t.ctxs = s.ctxs
      ∧ (5 * goal < 4 * w → a % 2 ^ 16 < low → ((t.cluster cl).cwv cwLOW).toNat = low - 1)
      ∧ (4 * w < 3 * goal → low < x.stayAt s.time → ((t.cluster cl).cwv cwLOW).toNat = low + 1)
      ∧ (3 * goal ≤ 4 * w → 4 * w ≤ 5 * goal → (t.cluster cl).cwv cwLOW = x.cwv cwLOW))

/-- Failures (R202, R379): CLUSTER_FAILURE of a working cluster marks it failed, ends the task of each of its slots and
empties its queue, so that it publishes infinite pressure; CORE_FAILURE marks the core and ends its tasks; DIE_FAILURE of a
working die marks it and fails every cluster of it; VAULT_FAILURE marks the vault; a part that has failed already changes nothing. -/
def Claim.Failures : Prop :=
  (∀ (s : State) (cl : ClusterId), s.event = .clusterFailure cl →
    ((s.cluster cl).failed = true → exec .clusterFailure s = .next s)
    ∧ ((s.cluster cl).failed = false → CompletesWith (exec .clusterFailure s) (fun t => (t.cluster cl).failed = true
        ∧ (t.cluster cl).pressure = 0xFFFF ∧ (t.cluster cl).queue = []
        ∧ ∀ c : CtxId, c.core.cluster = cl → c.isHandler = false → (t.ctx c).task = none)))
  ∧ (∀ (s : State) (k : CoreId), s.event = .coreFailure k →
    ((s.core k).failed = true → exec .coreFailure s = .next s)
    ∧ ((s.core k).failed = false → CompletesWith (exec .coreFailure s) (fun t => (t.core k).failed = true
        ∧ ∀ c : CtxId, c.core = k → c.isHandler = false → (t.ctx c).task = none)))
  ∧ (∀ (s : State) (d : Fin 4), s.event = .dieFailure d → (s.die d).failed = true → exec .dieFailure s = .next s)
  ∧ (∀ (s : State) (d : Fin 4), s.event = .dieFailure d → (s.die d).failed = false →
      CompletesWith (exec .dieFailure s) (fun t => (t.die d).failed = true ∧ ∀ c, c < 192 → (t.cluster (clusterAt d c)).failed = true))
  ∧ ∀ (s : State) (cl : ClusterId), s.event = .vaultFailure cl →
    ((s.cluster cl).vaultFailed = true → exec .vaultFailure s = .next s)
    ∧ ((s.cluster cl).vaultFailed = false → CompletesWith (exec .vaultFailure s) (fun t => (t.cluster cl).vaultFailed = true
        ∧ SameMem s t ∧ t.ctxs = s.ctxs))

/-! ### Active messages -/

/-- SEND and SENDH (R243 to R245): with no poisoned operand, an entry that is a multiple of 4, a destination word and SRPLY in
order, a destination that R18 allows and room in the request queue, the message of R244 enters the queue, gd takes its tag and
the send count rises by one. An entry out of alignment raises 0x03, a word out of order 0x06, a destination that R18 refuses
0x05; with the queue full a slot waits and a handler takes 0x0C with TVAL 1. -/
def Claim.Sends : Prop :=
  ∀ (s : State) (d a b : Reg) (high : Bool), s.Clean ([a, b] ++ argRegs) [] →
    let i : Instr := if high then .sendh d a b else .send d a b
    let w := s.g b
    let mask := w.toNat / 2 ^ 14 % 2 ^ 16
    let rp := s.my.cwv cwSRPLY
    let asks := rp.getLsbD 63
    let bad : Prop := w.toNat / 2 ^ 3 % 2 ^ 11 ≠ 0 ∨ (mask ≠ 0 ∧ (w.toNat / 2 ^ 30 % 2 ^ 4 ≠ 0 ∨ asks = true))
      ∨ (asks = true ∧ rp.toNat % 2 ^ 6 ≠ 0)
    let m : ActMsg := ⟨if high then 9 else 8, w.toNat % 8, s.colourOf s.cur, s.regionOf s.cur, s.myCore.sendCount.toNat,
      s.catOf s.cur, s.g a, [s.g 10, s.g 11, s.g 12, s.g 13, s.g 14, s.g 15],
      if asks then s.corePa s.cur.core (rp.toNat % 2 ^ 18) else 0, asks && rp.getLsbD 62,
      if asks then rp.toNat / 2 ^ 56 % 2 ^ 6 else 0, 0, 0⟩
    ((s.g a).toNat % 4 ≠ 0 → exec i s = .next (s.raise 0x03 (s.g a)))
    ∧ ((s.g a).toNat % 4 = 0 → bad → exec i s = .next (s.raise 0x06 w))
    ∧ ((s.g a).toNat % 4 = 0 → ¬ bad → s.destOk w = false → exec i s = .next (s.raise 0x05 w))
    ∧ ((s.g a).toNat % 4 = 0 → ¬ bad → s.destOk w = true →
        (s.myCore.sendReq.length < 16 → CompletesWith (exec i s) (fun t =>
          t.myCore.sendReq = s.myCore.sendReq ++ [.msg m (destsOf w)] ∧ t.myCore.sendCount = s.myCore.sendCount + 1
          ∧ (d ≠ 0 → t.g d = BitVec.ofNat 64 s.myCore.sendCount.toNat) ∧ SameMem s t
          ∧ t.agenda = s.agenda ++ [.ev (.sendQueueInjection s.cur.core false)]
          ∧ Keeps [d] [] [] leftWords s.my t.my ∧ Past s.my t.my))
        ∧ (16 ≤ s.myCore.sendReq.length → s.InSlot → ∃ t, exec i s = .next t ∧ t.my = { s.my with wait := .full }
            ∧ t.myCore.sendReq = s.myCore.sendReq ∧ SameMem s t)
        ∧ (16 ≤ s.myCore.sendReq.length → ¬ s.InSlot → ∃ u : State, exec i s = .next (u.raise 0x0C 1) ∧ u.my = s.my
            ∧ u.myCore.sendReq = s.myCore.sendReq ∧ u.myCore.sendCount = s.myCore.sendCount))
    ∧ (mask = 0 → destsOf w = [destPa w])
    ∧ (mask ≠ 0 → ∀ pa, pa ∈ destsOf w ↔ ∃ n, n < 16 ∧ mask.testBit n = true ∧ pa = destPa w + n * 2 ^ 30)

/-- SENDT, HEND and the masks (R238, R246, R248 to R250). SENDT in a handler of a message that asked for a reply and has none
yet puts the reply in the reply queue, marks it and writes 1; with no reply asked or one sent it writes 0. HEND of a handler
that waits for nothing frees its message, closes the window of H0 and asks for the next start. CMASK and CUNMASK in supervisor
mode set and clear bits of CLMASK and give its old value, and raise 0x02 in task mode. HMASK opens a window of 256 in H0, and
HUNMASK closes one; an instruction out of its place raises 0x01. -/
def Claim.HandlerInstructions : Prop :=
  ∀ (s : State) (d a : Reg),
    (s.InSlot → exec (.sendt d) s = .next (s.raise 0x01 ((encode (.sendt d)).setWidth 64))
      ∧ exec .hend s = .next (s.raise 0x01 ((encode .hend).setWidth 64)))
    ∧ (¬ s.InSlot → s.Clean argRegs [] → ∀ h, s.my.handled = some h →
        (h.msg.raddr = 0 ∨ h.replied = true → exec (.sendt d) s = .next (s.done d 0))
        ∧ (h.msg.raddr ≠ 0 → h.replied = false → s.myCore.sendReply.length < 16 →
          CompletesWith (exec (.sendt d) s) (fun t => t.my.handled = some { h with replied := true } ∧ (d ≠ 0 → t.g d = 1)
            ∧ t.myCore.sendReply = s.myCore.sendReply ++ [.reply (replyTo h.msg (s.regionOf s.cur) 0
                [s.g 10, s.g 11, s.g 12, s.g 13, s.g 14, s.g 15]) (s.corePa s.cur.core 0)]
            ∧ SameMem s t ∧ Past s.my t.my)))
    ∧ (¬ s.InSlot → s.my.wait = .none → CompletesWith (exec .hend s) (fun t => t.my.handled = none ∧ (s.pois = [] → SameMem s t)
        ∧ (s.cur.ctx.val = 4 → t.myCore.winOpen = false) ∧ .ev (.handlerStart s.cur.core true) ∈ t.agenda
        ∧ .ev (.handlerStart s.cur.core false) ∈ t.agenda ∧ ∀ c, c ≠ s.cur → t.ctx c = s.ctx c))
    ∧ (s.sup s.cur = false → exec (.cmask d a) s = .next (s.raise 0x02 ((encode (.cmask d a)).setWidth 64))
        ∧ exec (.cunmask d a) s = .next (s.raise 0x02 ((encode (.cunmask d a)).setWidth 64)))
    ∧ (s.sup s.cur = true → s.Clean [a] [] →
        let old := s.myCore.cwv cwCLMASK
        let bits8 := (s.g a).toNat % 256
        CompletesWith (exec (.cmask d a) s) (fun t => (t.myCore.cwv cwCLMASK).toNat = old.toNat % 256 ||| bits8
          ∧ (d ≠ 0 → t.g d = old) ∧ SameMem s t ∧ Keeps [d] [] [] leftWords s.my t.my ∧ Past s.my t.my)
        ∧ CompletesWith (exec (.cunmask d a) s) (fun t => (t.myCore.cwv cwCLMASK).toNat = old.toNat % 256 &&& (255 - bits8)
          ∧ (d ≠ 0 → t.g d = old) ∧ SameMem s t ∧ Keeps [d] [] [] leftWords s.my t.my ∧ Past s.my t.my))
    ∧ (s.cur.ctx.val ≠ 4 → exec .hmask s = .next (s.raise 0x01 ((encode .hmask).setWidth 64))
        ∧ exec .hunmask s = .next (s.raise 0x01 ((encode .hunmask).setWidth 64)))
    ∧ (s.cur.ctx.val = 4 → CompletesWith (exec .hmask s) (fun t => t.myCore.winOpen = true
          ∧ t.myCore.winLeft = (if s.myCore.winOpen then s.myCore.winLeft else 256) ∧ SameMem s t
          ∧ Keeps [] [] [] leftWords s.my t.my ∧ Past s.my t.my)
        ∧ CompletesWith (exec .hunmask s) (fun t => t.myCore.winOpen = false ∧ SameMem s t
          ∧ Keeps [] [] [] leftWords s.my t.my ∧ Past s.my t.my))

/-- Messages on their way (R234, R235, R239, R247, R286). SEND_QUEUE_INJECTION takes the oldest packet of its queue and hands
a message to each core of this device it names, with the route kind of its class. MESSAGE_ARRIVAL of a message that R234 accepts, with an inbox entry free to it
and nothing of its priority spilled, stores it with its time and asks for a handler; one it refuses counts REJ and answers
with STATUS 1 where a reply is wanted. REPLY_SINK writes the line of R247 at RADDR and nothing else, and increments the counter
CNT under CV. ATOMIC_OPERATION_RESEND sends the message again. -/
def Claim.MessageEvents : Prop :=
  (∀ (s : State) (k : CoreId) (m : ActMsg) (pas : List Nat) (l : List OutPkt), s.event = .sendQueueInjection k false →
    (s.core k).sendReq = .msg m pas :: l → (∀ pa ∈ pas, paDev pa = s.dev) →
    CompletesWith (exec .sendQueueInjection s) (fun t => (t.core k).sendReq = l
      ∧ t.agenda = s.agenda ++ pas.map (fun pa => .ev (.messageArrival (paCoreId pa) (s.routedMsg k.die m))) ∧ SameMem s t ∧ t.ctxs = s.ctxs))
  ∧ (∀ (s : State) (k : CoreId) (m : ActMsg) (a : Nat) (l : List OutPkt), s.event = .sendQueueInjection k true →
    (s.core k).sendReply = .reply m a :: l → paDev m.raddr = s.dev →
    CompletesWith (exec .sendQueueInjection s) (fun t => (t.core k).sendReply = l
      ∧ t.agenda = s.agenda ++ [.ev (.replySink (paCoreId m.raddr) (s.routedMsg k.die m) a)] ∧ SameMem s t ∧ t.ctxs = s.ctxs))
  ∧ (∀ (s : State) (k : CoreId) (m : ActMsg), s.event = .messageArrival k m →
    let x := s.core k
    let h := (x.cwv (cwHTAB + m.rcls % 8)).toNat
    let lm := (x.cwv cwLMCOL).toNat % 2 ^ 6
    let taken : Prop := 2 ^ 63 ≤ h ∧ m.entry.toNat % 4 = 0 ∧ h % 2 ^ 18 ≤ m.entry.toNat
      ∧ m.entry.toNat < h / 2 ^ 32 % 2 ^ 18 ∧ (m.typ = 9 → h / 2 ^ 62 % 2 = 1) ∧ (m.colour = 0 ∨ lm = m.colour ∨ lm = 0)
    let used := x.inbox.length + (if (s.ctx ⟨k, 4⟩).handled.isSome then 1 else 0) + (if (s.ctx ⟨k, 5⟩).handled.isSome then 1 else 0)
    (m.typ = 5 ∨ m.typ = 11 ∨ taken → used ≤ (if m.typ = 9 then 31 else 27) → s.ringSlots k (m.typ == 9) = [] →
      CompletesWith (exec .messageArrival s) (fun t => (t.core k).inbox = x.inbox ++ [⟨m, s.time⟩] ∧ SameMem s t
        ∧ .ev (.handlerStart k (m.typ == 9)) ∈ t.agenda ∧ t.ctxs = s.ctxs))
    ∧ (m.typ ≠ 5 → m.typ ≠ 11 → ¬ taken → CompletesWith (exec .messageArrival s) (fun t => (t.core k).inbox = x.inbox
        ∧ (t.core k).cwv cwNCNT = BitVec.ofNat 64 (min ((x.cwv cwNCNT).toNat % 2 ^ 32 + 1) (2 ^ 32 - 1)
            + 2 ^ 32 * ((x.cwv cwNCNT).toNat / 2 ^ 32))
        ∧ (m.raddr ≠ 0 → paDev m.raddr = s.dev → t.agenda = s.agenda ++ [.ev (.replySink (paCoreId m.raddr)
            (s.routedMsg k.die (replyTo m x.svc 1 (List.replicate 6 0))) (s.corePa k 0))]))))
  ∧ (∀ (s : State) (k : CoreId) (m : ActMsg) (a : Nat), s.event = .replySink k m a → paOff m.raddr < 0x40000 →
    m.payload.length = 6 → m.tag < 2 ^ 16 → m.status < 2 ^ 8 → a < 2 ^ 64 →
    let loc := localLoc k (paOff m.raddr)
    CompletesWith (exec .replySink s) (fun t => (∀ j, j < 6 → t.dword (loc + 8 * j) = m.payload.getD j 0)
      ∧ t.dword (loc + 48) = BitVec.ofNat 64 (m.tag + 2 ^ 16 * m.status) ∧ t.dword (loc + 56) = BitVec.ofNat 64 a
      ∧ (∀ c, c < loc ∨ loc + 64 ≤ c → t.byte c = s.byte c)
      ∧ t.agenda = s.agenda ++ (if m.cv then [.ev (.counterChange k (BitVec.ofNat 6 m.cnt) false 1 false)] else [])))
  ∧ ∀ (s : State) (k : CoreId) (m : ActMsg), s.event = .atomicOperationResend k m →
    exec .atomicOperationResend s = .next (s.post (.messageArrival k m))

/-- Handlers (R236, R250, R286). HANDLER_START with the bank free and nothing spilled starts the oldest eligible message: the
bank's pc is its entry, g10 to g15 its payload, g2 the stack top, g8 and g9 words 0 and 9, every other register zero, the
mode supervisor; H1 does not start in the masked window, and an atomic operation message is handed on. MASKED_WINDOW_CLOSE
closes a window with nothing left. ATOMIC_OPERATION_MESSAGE performs the oldest message's operation at the local word, on
unpoisoned data of a core whose colour allows it, and answers the issuer with the old value. -/
def Claim.Handlers : Prop :=
  (∀ (s : State) (k : CoreId) (high : Bool) (e : InMsg), s.event = .handlerStart k high → (s.core k).spillSlots = [] →
    let c : CtxId := if high then ⟨k, 5⟩ else ⟨k, 4⟩
    let x := s.core k
    (s.ctx c).handled = none → x.waiting high = some e → e.msg.payload.length = 6 →
    (high = true → x.winOpen = true → exec .handlerStart s = .next s)
    ∧ ((high = true → x.winOpen = false) → e.msg.typ = 5 → exec .handlerStart s = .next (s.post (.atomicOperationMessage k)))
    ∧ ((high = true → x.winOpen = false) → e.msg.typ ≠ 5 → CompletesWith (exec .handlerStart s) (fun t =>
        (t.core k).inbox = x.inbox.erase e ∧ SameMem s t ∧ (∀ z, z ≠ c → t.ctx z = s.ctx z)
        ∧ (let y := t.ctx c
           y.pc = e.msg.entry ∧ y.handled = some ⟨e.msg, false⟩ ∧ y.wait = .none
           ∧ (∀ j, j < 6 → y.greg (BitVec.ofNat 5 (10 + j)) = e.msg.payload.getD j 0)
           ∧ y.greg 2 = BitVec.ofNat 64 (((s.ctx c).cwv cwHSP).toNat % 2 ^ 18)
           ∧ y.greg 8 = (actWords e.msg).getD 0 0 ∧ y.greg 9 = BitVec.ofNat 64 e.msg.raddr
           ∧ (∀ j : Reg, j ≠ 2 → j ≠ 8 → j ≠ 9 → j ∉ argRegs → y.greg j = 0) ∧ y.gpois = 0
           ∧ (∀ j : PReg, j ≠ 0 → y.qreg j = 0)
           ∧ y.sv = true ∧ y.pm = true ∧ y.tb = false ∧ y.cwv cwTCAUSE = cwReset cwTCAUSE ∧ y.cwv cwSRPLY = cwReset cwSRPLY
           ∧ y.cwv cwTVEC = (s.ctx c).cwv cwTVEC ∧ y.cwv cwTMASK = (s.ctx c).cwv cwTMASK))))
  ∧ (∀ (s : State) (k : CoreId), s.event = .maskedWindowClose k → (s.core k).winOpen = true →
    ((s.core k).winLeft = 0 → ∃ t, exec .maskedWindowClose s = .next t ∧ (t.core k).winOpen = false
      ∧ t.agenda = s.agenda ++ [.ev (.handlerStart k true)] ∧ SameMem s t ∧ t.ctxs = s.ctxs)
    ∧ ((s.core k).winLeft ≠ 0 → exec .maskedWindowClose s = .next s))
  ∧ ∀ (s : State) (k : CoreId) (e : InMsg) (op : AmoOp) (o : SysOp) (l : List SysOp), s.event = .atomicOperationMessage k →
    (s.core k).waiting false = some e → e.msg.typ = 5 → (s.ctx ⟨k, 4⟩).handled = none →
    s.plat.sysOps = o :: l → o.tag = e.msg.tag → o.src = s.dev → amoOfCode (e.msg.entry.toNat / 2 ^ 32 % 2 ^ 5) = some op →
    s.colourOk k e.msg.colour = true →
    let n := if e.msg.entry.getLsbD 37 then 4 else 8
    let loc := localLoc k (e.msg.entry.toNat % 2 ^ 30)
    let old := s.readLE loc n
    e.msg.entry.toNat % 2 ^ 30 < 0x40000 → s.poisAt loc n = false →
    CompletesWith (exec .atomicOperationMessage s) (fun t => (t.core k).inbox = (s.core k).inbox.erase e ∧ t.plat.sysOps = l
      ∧ .ev (.atomicReply o.issuer o.id (BitVec.ofNat 64 old) false false) ∈ t.agenda
      ∧ t.readLE loc n = (match amoNew op n old (e.msg.payload.getD 0 0).toNat (e.msg.payload.getD 1 0).toNat with
          | some v => v % 256 ^ n
          | none => old)
      ∧ ∀ c, c < loc ∨ loc + n ≤ c → t.byte c = s.byte c)

/-- The spill ring of an inbox (R235) on quiet memory. An accepted message that finds no entry free to its priority, or a record of
its priority spilled, goes to the lowest free slot of the ring, with its arrival time; with no slot free, or a ring that is not
backed (log entry 70), it is dropped: DROP rises, a reply has STATUS 2, and a built-in atomic is sent again after 64 cycles.
HANDLER_START refills the oldest record of high priority first, then of low, when the storage rules give it an entry. -/
def Claim.InboxRing : Prop :=
  (∀ (s : State) (k : CoreId) (m : ActMsg), s.event = .messageArrival k m →
    m.typ = 5 ∨ m.typ = 11 ∨ s.accepts k m = true →
    let x := s.core k
    let high := m.typ == 9
    let used := x.inbox.length + (if (s.ctx ⟨k, 4⟩).handled.isSome then 1 else 0) + (if (s.ctx ⟨k, 5⟩).handled.isSome then 1 else 0)
    let n := (s.regEff x.svc 22).toNat / 2 ^ 40 % 256
    (if high then 31 else 27) < used ∨ s.ringSlots k high ≠ [] →
    (∀ i, s.Quiet → s.areaBacked (s.ringLoc k 0) (128 * n) = true → i < n → i ∉ x.spillSlots → (∀ j, j < i → j ∈ x.spillSlots) →
      let loc := s.ringLoc k i
      CompletesWith (exec .messageArrival s) (fun t => (t.core k).inbox = x.inbox ∧ (t.core k).spillSlots = sins i x.spillSlots
        ∧ t.bytes loc 104 = wordBytes (actWords m) ++ leBytes 8 s.time
        ∧ (∀ a, a < loc ∨ loc + 128 ≤ a → t.byte a = s.byte a) ∧ t.ctxs = s.ctxs))
    ∧ (s.areaBacked (s.ringLoc k 0) (128 * n) = false ∨ (∀ i, i < n → i ∈ x.spillSlots) →
      CompletesWith (exec .messageArrival s) (fun t => (t.core k).inbox = x.inbox ∧ SameMem s t
        ∧ (t.core k).cwv cwNCNT = BitVec.ofNat 64 ((x.cwv cwNCNT).toNat % 2 ^ 32
            + 2 ^ 32 * min ((x.cwv cwNCNT).toNat / 2 ^ 32 + 1) (2 ^ 32 - 1))
        ∧ (m.typ = 5 → t.timers = s.timers ++ [(s.time + 64, .atomicOperationResend k m)])
        ∧ (m.typ ≠ 5 → m.raddr ≠ 0 → paDev m.raddr = s.dev → t.agenda = s.agenda ++ [.ev (.replySink (paCoreId m.raddr)
            (s.routedMsg k.die (replyTo m x.svc 2 (List.replicate 6 0))) (s.corePa k 0))]))))
  ∧ ∀ (s : State) (k : CoreId) (start high : Bool) (i : Nat), s.event = .handlerStart k start → s.Quiet →
    (s.ctx (if start then ⟨k, 5⟩ else ⟨k, 4⟩)).handled ≠ none →
    let x := s.core k
    let came := fun j => (s.dword (s.ringLoc k j + 96)).toNat
    let used := x.inbox.length + (if (s.ctx ⟨k, 4⟩).handled.isSome then 1 else 0) + (if (s.ctx ⟨k, 5⟩).handled.isSome then 1 else 0)
    i ∈ s.ringSlots k high → (∀ j ∈ s.ringSlots k high, j ≠ i → came i < came j) → (high = false → s.ringSlots k true = []) →
    (used ≤ (if high then 31 else 27) → CompletesWith (exec .handlerStart s) (fun t => SameMem s t ∧ t.ctxs = s.ctxs
      ∧ (t.core k).spillSlots = sdel i x.spillSlots
      ∧ (t.core k).inbox = x.inbox ++ [⟨actOfWords (wordsOf 12 (s.bytes (s.ringLoc k i) 96)), came i⟩]))
    ∧ ((if high then 31 else 27) < used → exec .handlerStart s = .next s)

/-! ### The Manifest -/

/-- MCHOPEN and MCHCLOSE (R344, R347). A die that R18 does not allow, or of this device, raises 0x05; a region with SCHMAX
channels in the cluster raises 0x0B with TVAL 5; with no channel free gd takes 2^63 + 1; with an entry of the outstanding
requests free, the lowest free channel is bound to the request, the open request goes to the destination die and the answer
that no reply came falls due after FTIME.CYC cycles. MCHCLOSE of a channel that the region has not open, or with writes
unreleased, raises 0x06; with every flag completed it frees the channel, sends the close and gives PERR. -/
def Claim.ChannelInstructions : Prop :=
  ∀ (s : State) (d a : Reg), s.Clean [a] [] →
    let v := s.g a
    let dev := v.toNat / 2 ^ 45 % 2 ^ 11
    let die : Fin 4 := Fin.ofNat 4 (v.toNat / 2 ^ 43 % 4)
    let cl := s.cur.core.cluster
    let r := s.regionOf s.cur
    let mine := (s.myCluster.channels.filter (fun e => match e.2 with
      | some x => x.region == r
      | none => false)).length
    let max := (s.regEff r 18).toNat / 2 ^ 48 % 2 ^ 5
    let free : Nat → Prop := fun n => n < 16 ∧ s.channel cl n = none ∧ ∀ m, m < n → s.channel cl m ≠ none
    let hold := let h := (s.myCluster.cwv cwMHOLD).toNat % 2 ^ 32; if h < 4096 then 4096 else h
    let tries := let n := (s.myCluster.cwv cwMTRIES).toNat % 2 ^ 4; if n = 0 then 1 else n
    let n' := v.toNat % 16
    (s.dlim ≤ dev ∨ dev = s.dev → exec (.mchopen d a) s = .next (s.raise 0x05 v))
    ∧ (dev < s.dlim → dev ≠ s.dev →
        (max ≤ mine → exec (.mchopen d a) s = .next (s.raise 0x0B 5))
        ∧ (mine < max → (∀ n, n < 16 → s.channel cl n ≠ none) →
            exec (.mchopen d a) s = .next (s.done d (BitVec.ofNat 64 (2 ^ 63 + 1))))
        ∧ (mine < max → ∀ n, free n → s.mayIssue s.cur 1 = true → CompletesWith (exec (.mchopen d a) s) (fun t =>
            t.channel cl n = some ⟨r, dev, die, 0, 0, 0, false, 0, hold, tries, [], some (s.cur, s.nextId + 1, d), []⟩
            ∧ (∀ m, m ≠ n → t.channel cl m = s.channel cl m)
            ∧ t.plat.fabric = s.plat.fabric ++ [.openReq s.dev dev die cl n (s.nextId + 1) r hold tries]
            ∧ t.timers = s.timers ++ [(s.time + (s.myCluster.cwv cwFTIME).toNat % 2 ^ 32,
                .openReply cl n (s.nextId + 1) 4 true true)]
            ∧ SameMem s t ∧ Keeps [] [] [] leftWords s.my t.my ∧ Past s.my t.my))
        ∧ (mine < max → ∀ n, free n → s.mayIssue s.cur 1 = false → exec (.mchopen d a) s = .next (s.stallOreq 1)))
    ∧ (s.channel cl n' = none → exec (.mchclose d a) s = .next (s.raise 0x06 v))
    ∧ (∀ x, s.channel cl n' = some x →
        (x.opening ≠ none ∨ x.region ≠ r ∨ x.scnt ≠ x.lastRel → exec (.mchclose d a) s = .next (s.raise 0x06 v))
        ∧ (x.opening = none → x.region = r → x.scnt = x.lastRel →
          (x.flags ≠ [] → exec (.mchclose d a) s = .next s.stallManifest)
          ∧ (x.flags = [] → CompletesWith (exec (.mchclose d a) s) (fun t => t.channel cl n' = none
              ∧ (∀ m, m ≠ n' → t.channel cl m = s.channel cl m) ∧ (d ≠ 0 → t.g d = if x.perr then 1 else 0)
              ∧ t.plat.fabric = s.plat.fabric ++ [.closeReq s.dev x.dev x.die x.state]
              ∧ SameMem s t ∧ Keeps [d] [] [] leftWords s.my t.my ∧ Past s.my t.my))))
    ∧ exec (.mchstat d a) s = .next (s.done d (match s.channel cl n' with
        | some x => if x.opening = none then BitVec.ofNat 64 (2 ^ 63 + (if x.perr then 2 ^ 62 else 0)
            + (if x.flags = [] then 0 else 2 ^ 61) + x.state * 2 ^ 52 + x.dev * 2 ^ 40 + x.die.val * 2 ^ 38 + x.scnt * 2 ^ 16
            + x.fcnt) else 0
        | none => 0))

/-- MREL (R345, R346). With MCHSEL not in force or no open channel of the region under it 0x06; an address out of alignment
0x03; a window flag address that is no local memory of the destination die, or a counter operand that is neither 0 nor a
counter there, or either that fails R209, 0x05, the core of the other device having been asked (log entry 13). Else, with fewer than four flags outstanding and no engine command of the context that may write on the
channel, the flag of count SCNT goes to the destination, whether its address is in the window or translated, is kept until its notice and
falls due to be sent again after twice MHOLD.CYC; no register is written. With either it waits. -/
def Claim.FlagRelease : Prop :=
  ∀ (s : State) (g a b : Reg), s.Clean [g, a, b] [] →
    let sel := s.my.cwv cwMCHSEL
    let cl := s.cur.core.cluster
    let n := sel.toNat % 16
    let named : Channel → Prop := fun x => sel.getLsbD 63 = true ∧ s.channel cl n = some x ∧ x.opening = none
      ∧ x.region = s.regionOf s.cur
    let va := s.g a
    let ctr := s.g b
    let aligned := va.toNat % 8 = 0 ∧ ctr.toNat % 4 = 0
    let there : Channel → Nat → Prop := fun x pa => paDev pa = x.dev ∧ paDie pa = x.die
    let may : Channel → Nat → Area → Prop := fun x pa k => areaOf (paOff pa) = k ∧ there x pa ∧ s.windowOk s.cur pa = true
    let ctrOk : Channel → Prop := fun x => ctr = 0 ∨ ∃ pa, s.place ctr = .win pa ∧ may x pa .ctrs
    let known : Channel → Prop := fun x => ∀ pa ∈ s.relWindows x va ctr, s.colourKnown pa = true
    let flag : Channel → State → Nat → Flag := fun x u pa => ⟨u.nextId + 1, pa,
      (s.g g &&& 0xFFFFFFFFFFFF0000) ||| BitVec.ofNat 64 x.scnt, if ctr = 0 then none else some (ctr.toNat % 2 ^ 56), x.scnt⟩
    let sent : Channel → State → Nat → Prop := fun x u pa => CompletesWith (exec (.mrel g a b) s) (fun t =>
      t.channel cl n = some { x with flags := x.flags ++ [⟨flag x u pa, 1⟩], lastRel := x.scnt }
      ∧ (∀ m, m ≠ n → t.channel cl m = s.channel cl m)
      ∧ t.plat.fabric = u.plat.fabric ++ [.flag s.dev x.dev x.die x.state (flag x u pa)]
      ∧ t.timers = u.timers ++ [(s.time + 2 * x.mhold, .flagResend cl n (u.nextId + 1))]
      ∧ SameMem u t ∧ Keeps [] [] [] leftWords u.my t.my ∧ Past u.my t.my)
    ((∀ x, ¬ named x) → exec (.mrel g a b) s = .next (s.raise 0x06 sel))
    ∧ (∀ x, named x →
      (va.toNat % 8 ≠ 0 → exec (.mrel g a b) s = .next (s.raise 0x03 va))
      ∧ (va.toNat % 8 = 0 → ctr.toNat % 4 ≠ 0 → exec (.mrel g a b) s = .next (s.raise 0x03 ctr))
      ∧ (aligned → ∀ l pa r, s.relWindows x va ctr = l ++ pa :: r → (∀ q ∈ l, s.colourKnown q = true) →
          s.colourKnown pa = false → exec (.mrel g a b) s = .next (s.askColour pa))
      ∧ (aligned → known x → (∀ pa, s.place va = .win pa → ¬ may x pa .mem) → s.place va ≠ .xl →
          exec (.mrel g a b) s = .next (s.raise 0x05 va))
      ∧ (aligned → known x → (s.place va = .xl ∨ ∃ pa, s.place va = .win pa ∧ may x pa .mem) → ¬ ctrOk x →
          exec (.mrel g a b) s = .next (s.raise 0x05 ctr))
      ∧ (aligned → known x → ctrOk x → ∀ pa, s.place va = .win pa → may x pa .mem →
          (s.engineOn n x = false → x.flags.length < 4 → sent x s pa)
          ∧ (s.engineOn n x = true ∨ 4 ≤ x.flags.length → exec (.mrel g a b) s = .next s.stallManifest))
      ∧ (aligned → known x → ctrOk x → s.place va = .xl → ∀ u tr, s.translate s.cur.core (s.regionOf s.cur) va.toNat false = (u, tr) →
          (tr = .absent → exec (.mrel g a b) s = .next (u.park va 1))
          ∧ (∀ f, tr = .fault f → exec (.mrel g a b) s = .next (u.raise f va))
          ∧ (∀ pa e, tr = .ok pa e →
            let refused := e.allows false true false (u.sup u.cur) = false ∨ u.dramOk pa = false ∨ ¬ there x pa
            (refused → exec (.mrel g a b) s = .next (u.raise 0x05 va))
            ∧ (¬ refused → u.engineOn n x = false → x.flags.length < 4 → sent x u pa)
            ∧ (¬ refused → u.engineOn n x = true ∨ 4 ≤ x.flags.length → exec (.mrel g a b) s = .next u.stallManifest))))

/-- Opening and closing at the hubs (R330, R344, R347). OPEN_REQUEST answers 4 for a failed die, 3 for a region whose block is
not valid here, 2 at RCHMAX or with every receive state in use, and else allots the lowest free receive state, empty, with
the sender's timer values raised to their least. OPEN_REPLY binds the channel and gives its receive state and number, or
frees it and gives the reason with bit 63; no reply in time is reason 4, and closes the request; a reply to another request
does nothing. CHANNEL_CLOSE frees the receive state, and that of a request exactly the request's own. -/
def Claim.ChannelEvents : Prop :=
  (∀ (s : State) (src : Nat) (d : Fin 4) (cl : ClusterId) (ch req region hold tries : Nat),
    s.event = .openRequest src d cl ch req region hold tries →
    let answer : Nat → Bool → Prop := fun v no => ∃ t, exec .openRequest s = .next t
      ∧ t.plat.fabric = s.plat.fabric ++ [.openReply s.dev src cl ch req v no] ∧ SameMem s t ∧ t.ctxs = s.ctxs
      ∧ (no = true → ∀ r, t.recv d r = s.recv d r)
      ∧ (no = false → s.recv d v = none ∧ (∀ r, r < v → s.recv d r ≠ none)
        ∧ t.recv d v = some ⟨src, cl, ch, req, region, 0, 0, [], [], [], 0, 0, Max.max 4096 hold, Max.max 1 tries⟩
        ∧ ∀ r, r ≠ v → t.recv d r = s.recv d r)
    let limit := (s.regEff region 18).toNat / 2 ^ 32 % 2 ^ 10
    let used := ((s.die d).states.filter (fun e => e.2.region == region)).length
    ((s.die d).failed = true → answer 4 true)
    ∧ ((s.die d).failed = false → s.regValid region = false → answer 3 true)
    ∧ ((s.die d).failed = false → s.regValid region = true → limit ≤ used ∨ (∀ r, r < 512 → s.recv d r ≠ none) → answer 2 true)
    ∧ ((s.die d).failed = false → s.regValid region = true → used < limit →
        ∀ r, r < 512 → s.recv d r = none → (∀ k, k < r → s.recv d k ≠ none) → answer r false))
  ∧ (∀ (s : State) (cl : ClusterId) (n v : Nat) (no late : Bool) (x : Channel) (c : CtxId) (id : Nat) (gd : Reg)
      (o : Outstanding), s.event = .openReply cl n id v no late → s.channel cl n = some x → x.opening = some (c, id, gd) →
    s.findOut c id = some o → o.dest = .g gd 8 false → o.discard = false → v < 2 ^ 40 → n < 2 ^ 16 →
    CompletesWith (exec .openReply s) (fun t => t.findOut c id = none ∧ SameMem s t
      ∧ (gd ≠ 0 → (t.ctx c).greg gd = BitVec.ofNat 64 (if no then 2 ^ 63 + v else v * 2 ^ 16 + n))
      ∧ t.channel cl n = (if no then none else some { x with opening := none, state := v })
      ∧ t.plat.fabric = s.plat.fabric ++ (if late then [.closeOpen s.dev x.dev x.die cl n id] else [])
      ∧ Keeps [gd] [] [] [] (s.ctx c) (t.ctx c) ∧ (t.ctx c).pc = (s.ctx c).pc))
  ∧ (∀ (s : State) (cl : ClusterId) (n v req : Nat) (no late : Bool) (x : Channel),
    s.event = .openReply cl n req v no late → s.channel cl n = some x →
    (∀ c id gd, x.opening = some (c, id, gd) → req ≠ id) → exec .openReply s = .next s)
  ∧ (∀ (s : State) (src ch req : Nat) (d : Fin 4) (cl : ClusterId), s.event = .openClose src d cl ch req →
    let its : Nat × RecvState → Prop := fun e => e.2.src = src ∧ e.2.cl = cl ∧ e.2.ch = ch ∧ e.2.req = req
    ((∀ e ∈ (s.die d).states, ¬ its e) → exec .channelClose s = .next s)
    ∧ (∀ e, (s.die d).states = [e] → its e → CompletesWith (exec .channelClose s) (fun t => t.recv d e.1 = none
        ∧ SameMem s t ∧ t.ctxs = s.ctxs)))
  ∧ ∀ (s : State) (d : Fin 4) (r : Nat), s.event = .channelClose d r →
    CompletesWith (exec .channelClose s) (fun t => t.recv d r = none ∧ (∀ k, k ≠ r → t.recv d k = s.recv d k)
      ∧ SameMem s t ∧ t.ctxs = s.ctxs)

/-- Counted writes at their receiver (R336). A sequence number behind BASE, out of the window, marked or under way is dropped
and counted in MCNT.DUP of cluster 0 of the die; any other write to DRAM or local memory of this device puts its bytes there
and nowhere else and asks for the home's acknowledgement, which marks it; one that the
colour rule of R209 does not let reach its core is not performed (the model's choice, log entry 13); the memory is quiet and the marks complete no
held flag. -/
def Claim.CountedWrites : Prop :=
  (∀ (s : State) (src : Nat) (d : Fin 4) (r seq pa : Nat) (bs : List Byte) (x : RecvState),
    s.event = .countedWriteArrival src d r seq pa 0 bs 0 none → s.recv d r = some x →
    let i := (seq + 65536 - x.base % 65536) % 65536
    let seen := 1024 ≤ i ∨ x.window.getLsbD i = true ∨ seq ∈ x.pending
    let c0 := clusterAt d 0
    let loc := if paOnDie pa then localLoc (paCoreId pa) (paOff pa) else paLoc pa
    (seen → CompletesWith (exec .countedWriteArrival s) (fun t => SameMem s t ∧ t.agenda = s.agenda ∧ t.recv d r = some x
        ∧ ((t.cluster c0).cwv cwMCNT).toNat % 2 ^ 16 = min (((s.cluster c0).cwv cwMCNT).toNat % 2 ^ 16 + 1) 65535
        ∧ ((t.cluster c0).cwv cwMCNT).toNat / 2 ^ 16 = ((s.cluster c0).cwv cwMCNT).toNat / 2 ^ 16))
    ∧ (¬ seen → src ≠ s.dev → paDev pa = s.dev → s.Quiet →
        (paOnDie pa = true ∧ s.onDieOk pa = true ∧ s.manifestOk x.region pa = true ∧ paOff pa < 0x40000) ∨ (paOnDie pa = false ∧ s.dramOk pa = true) →
        CompletesWith (exec .countedWriteArrival s) (fun t => t.bytes loc bs.length = bs
          ∧ (∀ c, c < loc ∨ loc + bs.length ≤ c → t.byte c = s.byte c)
          ∧ t.recv d r = some { x with pending := x.pending ++ [seq] }
          ∧ t.agenda = s.agenda ++ [.ev (.homeAcknowledge d r seq)]))
    ∧ (¬ seen → paOnDie pa = true → s.manifestOk x.region pa = false → exec .countedWriteArrival s = .next s))
  ∧ ∀ (s : State) (d : Fin 4) (r seq : Nat) (x : RecvState), s.event = .homeAcknowledge d r seq → s.recv d r = some x →
    let i := (seq + 65536 - x.base % 65536) % 65536
    (seq ∈ x.pending → i < 1024 → x.held = [] → CompletesWith (exec .homeAcknowledge s) (fun t => SameMem s t
      ∧ t.agenda = s.agenda ∧ ∃ y, t.recv d r = some y ∧ y.base = x.base ∧ y.pending = x.pending.filter (fun p => p != seq)
      ∧ ∀ j, j < 1024 → y.window.getLsbD j = (x.window.getLsbD j || decide (j = i))))
    ∧ (seq ∉ x.pending → exec .homeAcknowledge s = .next s)

/-- Counted writes at their sender (R332 to R335). A scalar store of a context whose MCHSEL is in force to a page of another device:
0x06 with TVAL MCHSEL where no open channel of the region stands under it; on a channel that covers the address with its window
full 0x06 with TVAL 0x401 where no flag is outstanding, else 0x400 under TRY, else it waits; with room the write takes the
sequence number SCNT, its journal record, backed and on quiet memory, holds it, and SCNT counts on. -/
def Claim.CountedSends : Prop :=
  ∀ (i : Instr) (f : MemForm) (s u : State) (pa : Nat) (e : TlbEntry), memForm i = some f → f.store = true →
    s.Clean f.sources [] → (f.ea s).toNat % f.size = 0 → 0x200000 ≤ (f.ea s).toNat → (f.ea s).toNat < 2 ^ 57 →
    s.translate s.cur.core (s.regionOf s.cur) (f.ea s).toNat false = (u, .ok pa e) →
    e.allows false true false (u.sup u.cur) = true → u.dramOk pa = true → e.flags.getLsbD 5 = false ∨ u.mayMigrate pa = false →
    paDev pa ≠ u.dev → (u.my.cwv cwMCHSEL).getLsbD 63 = true →
    let sel := u.my.cwv cwMCHSEL
    let cl := u.cur.core.cluster
    let n := sel.toNat % 16
    let data := leBytes f.size (u.g f.data).toNat
    let mine : Channel → Prop := fun x => u.channel cl n = some x ∧ x.opening = none ∧ x.region = u.regionOf u.cur
    ((∀ x, ¬ mine x) → exec i s = .next (u.raise 0x06 sel))
    ∧ ∀ x, mine x → paDev pa = x.dev → paDie pa = x.die →
      let full := 1024 < (x.scnt + 1 + 65536 - x.fcnt) % 65536
      (full → x.flags = [] → exec i s = .next (u.raise 0x06 0x401))
      ∧ (full → x.flags ≠ [] → sel.getLsbD 62 = true → exec i s = .next (u.raise 0x06 0x400))
      ∧ (full → x.flags ≠ [] → sel.getLsbD 62 = false → exec i s = .next u.stallManifest)
      ∧ (¬ full → u.NoBreak → u.mayIssue u.cur 1 = true → u.Quiet → u.areaBacked (u.journalLoc x.region cl n x.scnt) 80 = true →
        let loc := u.journalLoc x.region cl n x.scnt
        CompletesWith (exec i s) (fun t => t.channel cl n
            = some { x with scnt := (x.scnt + 1) % 65536, puts := tset none x.puts (x.scnt % 1024) none }
          ∧ t.bytes loc 80 = leBytes 8 (x.scnt + (f.size - 1) * 2 ^ 16) ++ leBytes 8 pa ++ data ++ List.replicate (64 - f.size) 0
          ∧ (∀ a, a < loc ∨ loc + 80 ≤ a → t.byte a = u.byte a)
          ∧ t.plat.fabric = u.plat.fabric ++ [.counted u.dev x.dev x.die x.state x.scnt pa 0 data 0 none]
          ∧ Keeps [] [] [] leftWords u.my t.my ∧ Past u.my t.my))

/-- Flags at their receiver (R337, R338). FLAG_ARRIVAL of a flag whose writes have all been performed, with no flag held before
it, writes the flag word at its address and nothing else, asks for its counter's increment, sets BASE to the flag's count,
shifts the window and sends the notice; one with writes missing is held, with the timer started for MHOLD.CYC, and changes no
memory; a repeat of a completed flag, known by its number (log entry 54), sends its notice once more; one whose word or counter R209 does not allow is not
performed and its notice says poisoned (the model's choice, log entry 13). HOLD_TIMER_EXPIRY of the running timer asks for a RECOUNT and
starts the timer again while tries are left, and else completes the flag poisoned. -/
def Claim.FlagsReceived : Prop :=
  (∀ (s : State) (d : Fin 4) (r : Nat) (f : Flag) (x : RecvState), s.event = .flagArrival d r f → s.recv d r = some x →
    let n := (f.count + 65536 - x.base % 65536) % 65536
    let loc := paLoc f.addr
    let covered := ∀ i, i < n → x.window.getLsbD i = true
    let allowed := s.manifestOk x.region f.addr && (match f.counter with
      | some pa => s.manifestOk x.region pa
      | none => true)
    let notice : Bool → Packet := fun bad => .notice s.dev x.src x.cl x.ch f.id f.count bad
    (∀ bad, x.last.lookup f.id = some bad → ∃ t, exec .flagArrival s = .next t ∧ SameMem s t ∧ t.recv d r = some x
      ∧ t.plat.fabric = s.plat.fabric ++ [notice bad])
    ∧ (x.last.lookup f.id = none → x.held = [] → 32768 ≤ n → ∃ t, exec .flagArrival s = .next t ∧ SameMem s t
      ∧ t.recv d r = some x ∧ t.plat.fabric = s.plat.fabric ++ [notice false])
    ∧ (x.last.lookup f.id = none → x.held = [] → n ≤ 1024 → f.count < 65536 → x.base < 65536 → x.pending = [] → s.Quiet →
        (covered → allowed = true → CompletesWith (exec .flagArrival s) (fun t => t.dword loc = f.word
          ∧ (∀ c, c < loc ∨ loc + 8 ≤ c → t.byte c = s.byte c)
          ∧ t.agenda = s.agenda ++ (match f.counter with
              | some pa => [.ev (.counterFromAbove (paCoreId pa) (ctrNo (paOff pa)) false)]
              | none => [])
          ∧ t.plat.fabric = s.plat.fabric ++ [notice false]
          ∧ ∃ y, t.recv d r = some y ∧ y.base = f.count ∧ y.held = [] ∧ y.window = x.window >>> n))
        ∧ (covered → allowed = false → CompletesWith (exec .flagArrival s) (fun t => SameMem s t ∧ t.agenda = s.agenda
          ∧ t.plat.fabric = s.plat.fabric ++ [notice true]
          ∧ ∃ y, t.recv d r = some y ∧ y.base = f.count ∧ y.held = [] ∧ y.window = x.window >>> n))
        ∧ (¬ covered → CompletesWith (exec .flagArrival s) (fun t => SameMem s t ∧ t.agenda = s.agenda
          ∧ t.plat.fabric = s.plat.fabric
          ∧ t.timers = s.timers ++ [(s.time + x.mhold, .holdTimerExpiry d r (s.nextId + 1))]
          ∧ t.recv d r = some { x with held := [f], gen := s.nextId + 1, expiries := 0 }))))
  ∧ ∀ (s : State) (d : Fin 4) (r gen : Nat) (f : Flag) (x : RecvState), s.event = .holdTimerExpiry d r gen →
    s.recv d r = some x → x.held = [f] →
    let loc := paLoc f.addr
    let allowed := s.manifestOk x.region f.addr && (match f.counter with
      | some pa => s.manifestOk x.region pa
      | none => true)
    (x.gen ≠ gen → exec .holdTimerExpiry s = .next s)
    ∧ (x.gen = gen → x.expiries < x.mtries → CompletesWith (exec .holdTimerExpiry s) (fun t => SameMem s t
        ∧ t.plat.fabric = s.plat.fabric ++ [.recount s.dev x.src x.cl x.ch x.base f.count x.window]
        ∧ t.timers = s.timers ++ [(s.time + x.mhold, .holdTimerExpiry d r (s.nextId + 1))]
        ∧ t.recv d r = some { x with gen := s.nextId + 1, expiries := x.expiries + 1 }))
    ∧ (x.gen = gen → x.mtries ≤ x.expiries → s.Quiet → allowed = true → CompletesWith (exec .holdTimerExpiry s) (fun t =>
        (∀ c, c < loc ∨ loc + 8 ≤ c → t.byte c = s.byte c) ∧ t.poisAt loc 8 = true
        ∧ t.agenda = s.agenda ++ (match f.counter with
            | some pa => [.ev (.counterFromAbove (paCoreId pa) (ctrNo (paOff pa)) true)]
            | none => [])
        ∧ t.plat.fabric = s.plat.fabric ++ [.notice s.dev x.src x.cl x.ch f.id f.count true]
        ∧ ∃ y, t.recv d r = some y ∧ y.base = f.count ∧ y.held = []))

/-- Flags and journals at their sender (R337, R338, R340). A notice of a flag outstanding ends it and raises FCNT to its count;
a poisoned one sets PERR and counts MCNT.PF too. FLAG_RESEND sends the flag again and falls due again while tries are left, and
else ends the flag as poisoned. RECOUNT of a receiver that misses nothing counts in MCNT.RC, and of one that misses sequence
numbers sends each of them again from its journal record, in ascending order, as part of its put (log entry 49). A good notice leaves memory alone when the
region's Annals are off. -/
def Claim.FlagsAtSender : Prop :=
  ∀ (s : State) (cl : ClusterId) (n : Nat) (x : Channel), s.channel cl n = some x →
    let quietRegion := (s.regEff x.region 20).getLsbD 63 = false
    let mc := (s.cluster cl).cwv cwMCNT
    let gone : Flag → Bool → State → Prop := fun f bad t => ∃ y, t.channel cl n = some y
      ∧ y.flags = x.flags.filter (fun o => o.flag.id != f.id) ∧ y.perr = (x.perr || bad) ∧ y.scnt = x.scnt
      ∧ y.fcnt = (if (f.count + 65536 - x.fcnt % 65536) % 65536 < 32768 then f.count else x.fcnt)
    (∀ (id count : Nat) (bad : Bool), s.event = .flagCompleteNotice cl n id count bad →
      ((∀ o ∈ x.flags, o.flag.id ≠ id) → exec .flagCompleteNotice s = .next s)
      ∧ (∀ o, x.flagOf id = some o → quietRegion → bad = false →
          CompletesWith (exec .flagCompleteNotice s) (fun t => gone o.flag false t ∧ SameMem s t ∧ t.ctxs = s.ctxs))
      ∧ (∀ o, x.flagOf id = some o → bad = true →
          CompletesWith (exec .flagCompleteNotice s) (fun t => gone o.flag true t
            ∧ ((t.cluster cl).cwv cwMCNT).toNat / 2 ^ 16 % 2 ^ 16 = min (mc.toNat / 2 ^ 16 % 2 ^ 16 + 1) 65535)))
    ∧ (∀ (id : Nat) (o : OutFlag), s.event = .flagResend cl n id → x.flagOf id = some o →
      (o.sends ≤ x.mtries → CompletesWith (exec .flagResend s) (fun t => SameMem s t
        ∧ t.plat.fabric = s.plat.fabric ++ [.flag s.dev x.dev x.die x.state o.flag]
        ∧ t.timers = s.timers ++ [(s.time + 2 * x.mhold, .flagResend cl n o.flag.id)]
        ∧ ∃ y, t.channel cl n = some y ∧ y.flags = x.flags.map (fun p => if p.flag.id = id then { p with sends := p.sends + 1 } else p)))
      ∧ (x.mtries < o.sends → CompletesWith (exec .flagResend s) (fun t => gone o.flag true t)))
    ∧ ∀ (base c : Nat) (window : BitVec 1024), s.event = .recount cl n base c window → x.opening = none →
      let count := min 1024 ((c + 65536 - base % 65536) % 65536)
      ((∀ i, i < count → window.getLsbD i = true) → CompletesWith (exec .recount s) (fun t => SameMem s t
        ∧ t.plat.fabric = s.plat.fabric ∧ t.channel cl n = some x
        ∧ ((t.cluster cl).cwv cwMCNT).toNat / 2 ^ 48 = min (mc.toNat / 2 ^ 48 + 1) 65535))
      ∧ (s.Quiet →
          let miss := (List.range count).filter (fun i => !window.getLsbD i)
          let rec1 : Nat → Nat := fun i => s.journalLoc x.region cl n ((base + i) % 65536)
          let held : Nat → Bool := fun i => decide ((s.dword (rec1 i)).toNat % 2 ^ 16 = (base + i) % 65536)
          CompletesWith (exec .recount s) (fun t => SameMem s t ∧ t.channel cl n = some x
            ∧ t.plat.fabric = s.plat.fabric ++ (miss.filter held).map (fun i =>
              let h := (s.dword (rec1 i)).toNat
              .counted s.dev x.dev x.die x.state ((base + i) % 65536) ((s.dword (rec1 i + 8)).toNat % 2 ^ 56)
                (h / 2 ^ 24 % 8) (s.bytes (rec1 i + 16) (h / 2 ^ 16 % 64 + 1)) 0
                (tget none x.puts ((base + i) % 65536 % 1024)))))

/-! ### Links -/

/-- Links (R329, R350 to R353). What 256 bytes hold under the key and nonce they were sent with is the flit that was sent.
FLIT_RECEIVE on a link that is up takes one slot: bytes that fail their tag are discarded whole and asked for again; an intact
flit that is the next in order is accepted once and its body received, unless idle; one accepted before is discarded. A slot at
the sending end sends the flit that is to be sent again, or a new one with the bytes that wait, and keeps it (the numbering, and
the nonce taken before the slot counter moves on, are log entry 10). LANE_RETIREMENT asks for a quiet point; at the one agreed,
an accepted flit that answers, the lanes that wait for it retire and what is in flight is sent again, and below 8 lanes the link
goes down; a lane retired before changes nothing. LINK_OR_SWITCH_FAILURE loses exactly the packets it held, and a link goes down. -/
def Claim.Links : Prop :=
  (∀ (f : Flit) (key : BitVec 256) (nonce : BitVec 96), f.fseq < 2 ^ 32 → f.ack < 2 ^ 32 → f.body.length = 228 →
    flitOf key nonce (flitWire f key nonce) = some f)
  ∧ ∀ (s : State) (l : Fin 18), (s.link l).up = true →
    let x := s.link l
    let others : State → Prop := fun t => ∀ k, k ≠ l → t.link k = s.link k
    let behind : Flit → Flit → Bool := fun f g => let n := (g.fseq + 2 ^ 32 - f.ack % 2 ^ 32) % 2 ^ 32
      decide (0 < n) && decide (n < 2 ^ 31)
    (∀ bs : List Byte, s.event = .flitReceive l bs →
      let got := flitOf x.rxKey (x.rxSalt ++ BitVec.ofNat 64 x.rxSlot) bs
      let lanes := ((List.range 16).filter (fun n => x.retiring.getLsbD n)).length
      (∀ f, got = some f → f.fseq = (x.ack + 1) % 2 ^ 32 → f.quiet = true → x.quiet ≠ 0 → x.retiring ≠ 0 →
        CompletesWith (exec .flitReceive s) (fun t => SameMem s t ∧ others t
          ∧ (t.link l).up = decide (8 ≤ x.width - lanes) ∧ (t.link l).width = x.width - lanes
          ∧ (t.link l).retired = x.retired ||| x.retiring
          ∧ (8 ≤ x.width - lanes → (t.link l).retiring = 0 ∧ (t.link l).again = (t.link l).retry.length)))
      ∧ (x.retiring = 0 → 8 ≤ x.width → CompletesWith (exec .flitReceive s) (fun t => SameMem s t ∧ t.ctxs = s.ctxs ∧ others t
      ∧ let y := t.link l
        y.rxSlot = x.rxSlot + 1 ∧ y.sent = x.sent ∧ y.txSlot = x.txSlot
        ∧ (got = none → y.ack = x.ack ∧ y.nak = true ∧ y.retry = x.retry ∧ y.failedChecks = x.failedChecks + 1)
        ∧ (∀ f, got = some f → y.failedChecks = x.failedChecks ∧ y.retry = x.retry.filter (behind f)
          ∧ (f.nak = true → y.again = y.retry.length)
          ∧ (f.fseq = (x.ack + 1) % 2 ^ 32 → y.ack = f.fseq ∧ y.nak = false
            ∧ (let rx := if f.idle then x.rx else x.rx ++ f.body
               Config.packetOf rx = none → y.rx = rx ∧ t.agenda = s.agenda))
          ∧ (f.fseq ≠ (x.ack + 1) % 2 ^ 32 → y.ack = x.ack)))))
    ∧ (s.event = .flitSlot l → x.retiring = 0 → 8 ≤ x.width → CompletesWith (exec .flitReceive s) (fun t => SameMem s t ∧ t.ctxs = s.ctxs ∧ others t
      ∧ let y := t.link l
        let q := (s.loadLink l).link l
        let sealed := fun f : Flit => flitWire { f with ack := x.ack, nak := x.nak } x.txKey (x.txSalt ++ BitVec.ofNat 64 x.txSlot)
        y.txSlot = x.txSlot + 1 ∧ y.nak = false ∧ y.ack = x.ack ∧ y.rx = x.rx
        ∧ (x.again = 0 → y.fseq = (x.fseq + 1) % 2 ^ 32 ∧ y.tx = q.tx.drop 228 ∧ ∃ f, y.retry = x.retry ++ [f]
          ∧ f.fseq = y.fseq ∧ f.idle = decide (q.tx = []) ∧ f.body = q.tx.take 228 ∧ y.sent = x.sent ++ [sealed f])
        ∧ (∀ l' f r, x.retry = l' ++ f :: r → x.again = r.length + 1 → y.fseq = x.fseq ∧ y.retry = x.retry
          ∧ y.again = r.length ∧ y.resent = x.resent + 1 ∧ y.sent = x.sent ++ [sealed f])))
    ∧ (∀ lane : Fin 16, s.event = .laneRetirement l lane →
        (x.retired.getLsbD lane.val = true → exec .laneRetirement s = .next s)
        ∧ (x.retired.getLsbD lane.val = false → x.retiring.getLsbD lane.val = false → CompletesWith (exec .laneRetirement s)
          (fun t => SameMem s t ∧ others t
          ∧ t.link l = { x with retiring := x.retiring ||| (1#16 <<< lane.val), quiet := if x.quiet = 0 then 1 else x.quiet }
          ∧ Noticed s t 0x01 ([5, 0, 0, 0, BitVec.ofNat 8 l.val, BitVec.ofNat 8 lane.val] ++ List.replicate 26 0))))
    ∧ ∀ lost : List Nat, (s.event = .linkOrSwitchFailure none lost → CompletesWith (exec .linkOrSwitchFailure s) (fun t =>
          t = { s with plat := { s.plat with fabric := dropNth lost 0 s.plat.fabric } }))
        ∧ (s.event = .linkOrSwitchFailure (some l) lost → CompletesWith (exec .linkOrSwitchFailure s) (fun t =>
          (t.link l).up = false ∧ others t ∧ t.plat.fabric = dropNth lost 0 s.plat.fabric ∧ SameMem s t))

/-! ### Debugging -/

/-- Debug stops and resumes (R66, R376, R377). DEBUG_STOP of a context that holds a task or a handler, is not stopped, has no
live frame and waits for nothing sets DBGST bit 63 and sends the notice of a debug stop (its bytes are log entry 20), and changes
nothing else of the context; a context that is stopped or holds nothing stays as it is. DBGCTL_STOP asks for the stop. DBGCTL_RESUME of a stopped
context whose stop suspended no frame clears bit 63, sets SKIP where bit 2 of DBGCTL asks for it, and shows the completions written
meanwhile. -/
def Claim.DebugStops : Prop :=
  ∀ (s : State) (c : CtxId),
    let x := s.ctx c
    let runs := x.live = true ∧ x.stopped = false
    (∀ e i, (e, i) ∈ [(Event.debugStop c, Instr.debugStop), (.dbgctlStop c, .dbgctlStop)] → s.event = e → ¬ runs →
        exec i s = .next s)
    ∧ (s.event = .debugStop c → runs → x.frame = none → x.wait = .none → CompletesWith (exec .debugStop s) (fun t =>
        (t.ctx c).cwv cwDBGST = (x.cwv cwDBGST ||| 0x8000000000000000) ∧ (t.ctx c).pc = x.pc
        ∧ Keeps [] [] [] [cwDBGST] x (t.ctx c) ∧ SameMem s t ∧ (∀ d, d ≠ c → t.ctx d = s.ctx d)
        ∧ Noticed s t 0x03 (leBytes 8 (s.catOf c) ++ leBytes 8 (s.corePa c.core 0) ++ leBytes 8 c.ctx.val
            ++ leBytes 8 ((x.cwv cwDBGST).toNat ||| 2 ^ 63))))
    ∧ (s.event = .dbgctlStop c → runs → exec .dbgctlStop s = .next (s.setCtx c { x with stopReq := true }))
    ∧ ∀ skip, s.event = .dbgctlResume c skip →
      (x.stopped = false ∨ x.live = false → exec .dbgctlResume s = .next s)
      ∧ (x.stopped = true → x.live = true → x.suspended = false → CompletesWith (exec .dbgctlResume s) (fun t =>
          (t.ctx c).cwv cwDBGST = ((x.cwv cwDBGST &&& 0x7FFFFFFFFFFFFFFF) ||| (if skip then 0x4000000000000000 else 0))
          ∧ (t.ctx c).pc = x.pc ∧ Keeps [] [] [] [cwDBGST] x (t.ctx c) ∧ SameMem s t ∧ (∀ d, d ≠ c → t.ctx d = s.ctx d)
          ∧ ∀ p, ∀ e ∈ ((t.core c.core).port p).done, e.ctx = c.ctx.val → e.hidden = false))

/-- Writes to the core control window and by a debugger (R66, R79). A control word whose context can take it is written as its
own write does, and waits while its slot is inside an instruction; DBGCTL asks for a stop and then a resume; the register files ask for a debugger's write. DEBUGGER_WRITE puts
the doubleword into the g register, the q register, the pc, the poison word or the lane of the v register its offset names,
and clears the poison of the register written, only in a stopped context. -/
def Claim.ControlWindow : Prop :=
  (∀ (s : State) (k : CoreId) (off : BitVec 16) (w : Word), s.event = .controlWindowWrite k off w →
    let o := off.toNat
    let c : CtxId := ⟨k, Fin.ofNat 6 (o / 0x1000)⟩
    let head : List Event → State := fun es => { s with agenda := es.map .ev ++ s.agenda }
    (o < 0x6000 → s.midInstruction c (o % 0x1000 / 8) = true →
      exec .controlWindowWrite s = .next (s.after 1 (.controlWindowWrite k off w)))
    ∧ (o < 0x6000 → s.midInstruction c (o % 0x1000 / 8) = false → o % 0x1000 / 8 < 0x1C0 → s.deadSlotWord c (o % 0x1000 / 8) = false →
      exec .controlWindowWrite s = .next (s.cwWrite c (o % 0x1000 / 8) w))
    ∧ (o < 0x6000 → s.midInstruction c (o % 0x1000 / 8) = false → 0x1C0 ≤ o % 0x1000 / 8 ∨ s.deadSlotWord c (o % 0x1000 / 8) = true → exec .controlWindowWrite s = .next s)
    ∧ (0x6000 ≤ o → o < 0x6030 → let d : CtxId := ⟨k, Fin.ofNat 6 ((o - 0x6000) / 8)⟩
        exec .controlWindowWrite s = .next (head ((if w.getLsbD 0 then [.dbgctlStop d] else [])
          ++ (if w.getLsbD 1 then [.dbgctlResume d (w.getLsbD 2)] else []))))
    ∧ (0x8000 ≤ o → o < 0xE000 → exec .controlWindowWrite s = .next (head
        [.debuggerWrite ⟨k, Fin.ofNat 6 ((o - 0x8000) / 0x1000)⟩ (BitVec.ofNat 12 (o % 0x1000)) w]))
    ∧ (0x6030 ≤ o → o < 0x8000 ∨ 0xE000 ≤ o → exec .controlWindowWrite s = .next s))
  ∧ ∀ (s : State) (c : CtxId) (off : BitVec 12) (w : Word), s.event = .debuggerWrite c off w →
    let x := s.ctx c
    let p := off.toNat
    (x.stopped = false ∨ x.live = false → exec .debuggerWrite s = .next s)
    ∧ (x.stopped = true → x.live = true → CompletesWith (exec .debuggerWrite s) (fun t =>
        let y := t.ctx c
        SameMem s t ∧ (∀ d, d ≠ c → t.ctx d = s.ctx d)
        ∧ (∀ r : Reg, p = 8 * r.toNat → r ≠ 0 → y.greg r = w ∧ y.gpois.getLsbD r.toNat = false ∧ y.pc = x.pc
            ∧ Keeps [r] [] [] [] x y)
        ∧ (∀ r : PReg, p = 0x100 + 8 * r.toNat → r ≠ 0 → y.qreg r = w ∧ y.pc = x.pc ∧ Keeps [] [r] [] [] x y)
        ∧ (p = 0x140 → y = { x with pc := w })
        ∧ (p = 0x148 → c.isHandler = false → (∀ j, 0 < j → j < 32 → y.gpois.getLsbD j = w.getLsbD j)
            ∧ (∀ j, j < 32 → y.vpois.getLsbD j = w.getLsbD (32 + j)) ∧ y.g = x.g ∧ y.v = x.v ∧ y.cw = x.cw ∧ y.pc = x.pc)
        ∧ (∀ (r : Reg) (j : Nat), p = 0x400 + 64 * r.toNat + 8 * j → j < 8 → c.isHandler = false →
            (∀ n, n < 8 → laneAt 64 (y.vreg r) n = if n = j then w.toNat else laneAt 64 (x.vreg r) n)
            ∧ y.vpois.getLsbD r.toNat = false ∧ y.pc = x.pc ∧ Keeps [] [] [r] [] x y)))

/-- The scrub and ECC elsewhere (R78, R117, R294, R378): a clean word changes nothing; a correctable error counts in ERRCNT.CE of the cluster; an uncorrectable one
poisons the word, counts in ERRCNT.UE and makes a record for the service region of the core, whose fault queue lies apart from
the word. An error that ECC finds elsewhere counts there; an uncorrectable one poisons the register, and drops a clean slice
line. -/
def Claim.Scrubbing : Prop :=
  (∀ (s : State) (p : EccAt) (found : ScrubFind), s.event = .eccError p found →
    let e := (s.cluster (s.eccCluster p)).cwv cwERRCNT
    let low : Nat := e.toNat % 2 ^ 32
    let high : Nat := e.toNat / 2 ^ 32
    let count : State → Word := fun t => (t.cluster (s.eccCluster p)).cwv cwERRCNT
    (found = .clean → exec .scrub s = .next s)
    ∧ (found = .correctable → CompletesWith (exec .scrub s) (fun t => SameMem s t ∧ t.ctxs = s.ctxs
        ∧ (count t).toNat = min (low + 1) (2 ^ 32 - 1) + 2 ^ 32 * high))
    ∧ (found = .uncorrectable → CompletesWith (exec .scrub s) (fun t => t.mem = s.mem
        ∧ (count t).toNat = low + 2 ^ 32 * min (high + 1) (2 ^ 32 - 1)
        ∧ (∀ c r, p = .greg c r → r ≠ 0 → (t.ctx c).gpois.getLsbD r.toNat = true ∧ (t.ctx c).greg r = (s.ctx c).greg r)
        ∧ (∀ c r, p = .vreg c r → (t.ctx c).vpois.getLsbD r.toNat = true ∧ (t.ctx c).vreg r = (s.ctx c).vreg r)
        ∧ (∀ loc l, p = .line loc → tget none (s.cluster (s.homeOr loc)).lines (lineNo loc) = some l →
            (l.dirty = true → smem (loc / 8) t.pois = true)
            ∧ (l.dirty = false → t.pois = s.pois ∧ tget none (t.cluster (s.homeOr loc)).lines (lineNo loc) = none)))))
  ∧ ∀ (s : State) (k : CoreId) (w : BitVec 15) (found : ScrubFind), s.event = .scrub k w found →
    let e := (s.cluster k.cluster).cwv cwERRCNT
    let loc := localLoc k (8 * w.toNat)
    let r := (s.core k).svc
    let ce : Nat → State → Prop := fun n t => ((t.cluster k.cluster).cwv cwERRCNT).toNat % 2 ^ 32
      = min (e.toNat % 2 ^ 32 + n) (2 ^ 32 - 1)
    let ue : Nat → State → Prop := fun n t => ((t.cluster k.cluster).cwv cwERRCNT).toNat / 2 ^ 32
      = min (e.toNat / 2 ^ 32 + n) (2 ^ 32 - 1)
    (found = .clean → exec .scrub s = .next s)
    ∧ (found = .correctable → CompletesWith (exec .scrub s) (fun t => SameMem s t ∧ t.ctxs = s.ctxs ∧ ce 1 t ∧ ue 0 t))
    ∧ (found = .uncorrectable → CompletesWith (exec .scrub s) (fun t => ce 0 t ∧ ue 1 t ∧ t.ctxs = s.ctxs
        ∧ ((s.regOwn r 9).toNat % 2 ^ 16 = 0 → apart loc 8 (s.regLoc r 9) 8 → t.poisAt loc 8 = true
          ∧ ∀ c, c < s.regLoc r 9 ∨ s.regLoc r 9 + 8 ≤ c → t.byte c = s.byte c)))

/-- Records of fault queues (R187). A queue of N slots, one of them free, takes the record at slot TAIL: its header with V, the
type and the sequence count, TCAUSE, TVAL, TPC and the body padded with zero bytes; TAIL moves on modulo N and the count
modulo 2^16, on quiet memory. A full queue, or one of no slots (log entry 40), counts the record as lost and keeps its other bytes. -/
def Claim.FaultRecords : Prop :=
  ∀ (s : State) (r typ tcause tval tpc : Nat) (body : List Byte), typ < 2 ^ 8 → tcause < 2 ^ 64 → tval < 2 ^ 64 →
    tpc < 2 ^ 64 → body.length ≤ 96 → tget 0 s.recSeq r < 2 ^ 16 →
    let ctl := (s.regOwn r 9).toNat
    let n := ctl % 2 ^ 16
    let head := ctl / 2 ^ 16 % 2 ^ 16
    let tail := ctl / 2 ^ 32 % 2 ^ 16
    let pa := (s.regOwn r 7).toNat + 128 * tail
    let q := s.regLoc r 9
    let u := s.faultRecord r typ tcause tval tpc body
    (n = 0 ∨ (tail + 1) % n = head → u.2 = none
      ∧ (u.1.regOwn r 9).toNat = ctl % 2 ^ 48 + 2 ^ 48 * min (ctl / 2 ^ 48 + 1) (2 ^ 16 - 1)
      ∧ (∀ c, c < q ∨ q + 8 ≤ c → u.1.byte c = s.byte c))
    ∧ (n ≠ 0 → (tail + 1) % n ≠ head → paDev pa = s.dev → paOnDie pa = false → s.areaBacked (paLoc pa) 128 = true → s.Quiet → apart (paLoc pa) 128 q 8 → u.2 = some tail
      ∧ (u.1.regOwn r 9).toNat = ctl % 2 ^ 32 + 2 ^ 32 * ((tail + 1) % n) + 2 ^ 48 * (ctl / 2 ^ 48)
      ∧ tget 0 u.1.recSeq r = (tget 0 s.recSeq r + 1) % 2 ^ 16
      ∧ (u.1.dword (paLoc pa)).toNat = 2 ^ 63 + typ * 2 ^ 48 + tget 0 s.recSeq r
      ∧ (u.1.dword (paLoc pa + 8)).toNat = tcause ∧ (u.1.dword (paLoc pa + 16)).toNat = tval
      ∧ (u.1.dword (paLoc pa + 24)).toNat = tpc
      ∧ u.1.bytes (paLoc pa + 32) 96 = body ++ List.replicate (96 - body.length) 0
      ∧ ∀ c, c < paLoc pa ∨ paLoc pa + 128 ≤ c → c < q ∨ q + 8 ≤ c → u.1.byte c = s.byte c)

/-! ### The control port -/

/-- The rules that every frame obeys (R386 to R389). With the port or its rail down nothing happens; a frame that comes before the
one ahead of it is complete waits a cycle; a frame whose tag fails under a session is counted as discarded and does nothing
else; one out of order is refused with status 0x01 and leaves the number expected as it is; one that needs a session and has
none is refused with 0x02; a reserved bit of FLAGS or a LEN above 1 MiB with 0x03; one of a fitting length in a phase that its
type does not allow with 0x02 (Firmware outside Hold is log entry 46); the number expected rises by one, and the frame has no
other effect. An unknown TYPE is refused with 0x03, without a session with 0x02. -/
def Claim.FrameRules : Prop :=
  (∀ (s : State) (f : CFrame) (n : Nat) (typ : Nat) (i : Instr) (e : Event),
    (typ, i, e) ∈ [(0x01, .identity, .identity f), (0x02, .attest, .attest f), (0x03, .firmware, .firmware f),
      (0x04, .status, .status f), (0x10, .write, .write f), (0x11, .read, .read f n), (0x20, .launch, .launch f),
      (0x21, .close, .close f), (0x22, .partition, .partition f), (0x23, .breakpoint, .breakpoint f),
      (0x30, .telemetry, .telemetry f), (0x40, .management, .management f), (0x3F, .reset, .reset f)] →
    s.event = e →
    let len := if typ = 0x11 then n else f.payload.length
    let shut := s.plat.portUp = false ∨ s.plat.vaux = false
    let forged := s.plat.authentic typ f len = false
    let barred := s.plat.session = none ∧ typ ∉ [0x01, 0x02, 0x03, 0x04, 0x3F]
    let phase := (typ = 0x03 ∧ s.plat.phase ≠ 1) ∨ (typ ∈ [0x10, 0x11] ∧ s.plat.phase < 4)
      ∨ (typ ∈ [0x20, 0x21, 0x22, 0x23] ∧ (s.plat.phase ≠ 5 ∨ s.plat.failPhase ≠ 0))
    let fits := (typ = 0x11 → f.payload = []) ∧ (typ = 0x20 → len = 88) ∧ (typ ∈ [0x21, 0x22] → len = 0) ∧ (typ = 0x23 → len = 16)
    (shut → exec i s = .next s)
    ∧ (¬ shut → s.portBusy = true → exec i s = .next (s.after 1 s.event))
    ∧ (s.portBusy = false → ¬ shut → forged → exec i s = .next { s with plat := { s.plat with discarded := min (s.plat.discarded + 1) (2 ^ 32 - 1) } })
    ∧ (s.portBusy = false → ¬ shut → ¬ forged → f.seq ≠ s.plat.expSeq → exec i s = .next { s with plat := { s.plat with
        sent := s.plat.sent ++ [replyFrame s.plat typ f.seq 0x01 s.plat.phase []] } })
    ∧ (s.portBusy = false → ¬ shut → ¬ forged → f.seq = s.plat.expSeq →
        (barred → CompletesWith (exec i s) (fun t => RefusedFrame s t typ f 0x02))
        ∧ (¬ barred → 2 ≤ f.flags ∨ 0x100000 < len → CompletesWith (exec i s) (fun t => RefusedFrame s t typ f 0x03))
        ∧ (¬ barred → f.flags < 2 → len ≤ 0x100000 → fits → phase →
          CompletesWith (exec i s) (fun t => RefusedFrame s t typ f 0x02))))
  ∧ ∀ (s : State) (f : CFrame), s.event = .unknownFrame f → s.plat.portUp = true → s.plat.vaux = true → s.portBusy = false →
    (s.plat.authentic f.typ f f.payload.length = false → exec .unknownFrame s
      = .next { s with plat := { s.plat with discarded := min (s.plat.discarded + 1) (2 ^ 32 - 1) } })
    ∧ (s.plat.authentic f.typ f f.payload.length = true → f.seq = s.plat.expSeq →
      CompletesWith (exec .unknownFrame s)
        (fun t => RefusedFrame s t (f.typ % 0x8000) f (if s.plat.session = none then 0x02 else 0x03)))

/-- Frames of the boot ROM (R384, R385, R387). Identity answers with the record of R384; Attest answers with the signed report
and starts a session, its own reply still under the old one (log entry 9), or is refused with 0x07 where E does not decrypt; Status answers with the status doubleword; Firmware in
Hold hands the image to phase 2, and is refused with 0x03 for a malformed image (log entry 9) and 0x06 for a bad signature or
rollback number; Reset returns the device to Hold. -/
def Claim.BootFrames : Prop :=
  ∀ (s : State) (f : CFrame),
    let moved : State → Prop := fun t => t.plat.expSeq = s.plat.expSeq + 1 ∧ SameMem s t ∧ t.ctxs = s.ctxs
    (s.event = .identity f → s.Accepts 0x01 f f.payload.length → f.payload = [] →
      CompletesWith (exec .identity s) (fun t => moved t ∧ Replied s t 0x01 f 0
        (leBytes 8 (Config.productForm.toNat + Config.rollbackMin.toNat * 2 ^ 16 + Config.certificate.length % 2 ^ 16 * 2 ^ 48)
          ++ leBytes 8 65537 ++ beBytes 384 Config.modulus.toNat ++ Config.certificate)))
    ∧ (s.event = .attest f → s.Accepts 0x02 f f.payload.length → f.payload.length = 416 →
      let e := (s.plat.opened f).payload.drop 32
      let nonce := (s.plat.opened f).payload.take 32
      ((∀ k, Config.decrypt e = some k → k.length ≠ 32) → CompletesWith (exec .attest s) (fun t => RefusedFrame s t 0x02 f 0x07))
      ∧ (∀ k, Config.decrypt e = some k → k.length = 32 → s.plat.digest.length = 32 →
        ∃ t out, exec .attest s = .next t ∧ SameMem s t ∧ t.ctxs = s.ctxs ∧ t.plat.expSeq = 0
          ∧ t.plat.noticeSeq = 0 ∧ t.plat.session = some (sessionOf nonce k) ∧ Replied s t 0x02 f 0 out
          ∧ out.length = 528 ∧ out.take 32 = nonce ∧ (out.drop 32).take 32 = sha256 Config.bootRom
          ∧ (out.drop 64).take 32 = s.plat.digest ∧ (out.drop 96).take 32 = sha256 e
          ∧ (out.drop 128).take 8 = leBytes 8 (if s.plat.joined then s.plat.dev else 0x7FF)
          ∧ out.drop 144 = beBytes 384 (Config.sign (out.take 144)).toNat))
    ∧ (s.event = .firmware f → s.Accepts 0x03 f f.payload.length →
      let img := Config.imageOf (s.plat.opened f).payload
      CompletesWith (exec .firmware s) (fun t => moved t ∧ t.agenda = .ev (.verify (s.plat.opened f).payload) :: s.agenda
        ∧ (img.wellFormed = false → Replied s t 0x03 f 0x03 [])
        ∧ (img.wellFormed = true → img.signed = false ∨ img.rollback < Config.rollbackMin.toNat → Replied s t 0x03 f 0x06 [])
        ∧ (img.wellFormed = true → img.signed = true → Config.rollbackMin.toNat ≤ img.rollback → RepliedIf s t 0x03 f)))
    ∧ (s.event = .status f → s.Accepts 0x04 f f.payload.length → f.payload = [] →
      CompletesWith (exec .status s) (fun t => moved t ∧ Replied s t 0x04 f 0 (leBytes 8 (s.plat.phase
        + s.plat.failPhase * 2 ^ 4 + s.plat.cause * 2 ^ 8 + s.plat.failedDies.toNat * 2 ^ 16))))
    ∧ (s.event = .reset f → s.Accepts 0x3F f f.payload.length → f.payload = [] →
      CompletesWith (exec .reset s) (fun t => State.InHold s t ∧ t.clusters = [] ∧ RepliedIf s t 0x3F f))

/-- Write and Read frames (R387, R388) of a joined device with quiet memory. Write puts the payload at ADDR in DRAM, in local
memory of a core or, doubleword by doubleword, into a control window, and changes no other byte. Read answers with the bytes
and a poison map of zeros, and with status 0x04, zeros and the map for a poisoned word of local memory. A range off the
device is refused with 0x03. -/
def Claim.MemoryFrames : Prop :=
  ∀ (s : State) (f : CFrame) (n : Nat), s.plat.joined = true →
    let pa := f.addr
    let mine : Nat → Prop := fun n => paDev pa = s.dev ∧ pa < 2 ^ 56 ∧ (pa + n - 1) / 2 ^ 36 = pa / 2 ^ 36
    let dram : Nat → Prop := fun n => mine n ∧ paOnDie pa = false ∧ s.dramOk pa = true ∧ s.dramOk (pa + n - 1) = true
    let own : Nat → Prop := fun n => mine n ∧ paOnDie pa = true ∧ s.onDieOk pa = true ∧ paOff pa + n ≤ 0x40000
    let ctl : Nat → Prop := fun n => mine n ∧ paOnDie pa = true ∧ s.onDieOk pa = true ∧ 0x100000 ≤ paOff pa
      ∧ paOff pa + n ≤ 0x110000 ∧ pa % 8 = 0 ∧ n % 8 = 0
    let loc := paLoc pa
    let len := f.payload.length
    let data := (s.plat.opened f).payload
    (s.event = .write f → s.Accepts 0x10 f len → 0 < len →
      (s.Quiet → dram len ∨ own len → CompletesWith (exec .write s) (fun t => t.bytes loc len = data
        ∧ (∀ c, c < loc ∨ loc + len ≤ c → t.byte c = s.byte c) ∧ RepliedIf s t 0x10 f ∧ t.ctxs = s.ctxs
        ∧ t.plat.expSeq = s.plat.expSeq + 1))
      ∧ (ctl len → CompletesWith (exec .write s) (fun t => SameMem s t ∧ RepliedIf s t 0x10 f
        ∧ t.agenda = (List.range (len / 8)).map (fun j => .ev (.controlWindowWrite (paCoreId pa)
            (BitVec.ofNat 16 (paOff pa - 0x100000 + 8 * j)) (BitVec.ofNat 64 (leNat ((data.drop (8 * j)).take 8)))))
          ++ s.agenda))
      ∧ (paDev pa ≠ s.dev → CompletesWith (exec .write s) (fun t => RefusedFrame s t 0x10 f 0x03)))
    ∧ (s.event = .read f n → s.Accepts 0x11 f n → 0 < n → f.payload = [] →
      (s.Quiet → dram n ∨ own n → CompletesWith (exec .read s) (fun t => SameMem s t ∧ t.ctxs = s.ctxs
        ∧ t.plat.expSeq = s.plat.expSeq + 1
        ∧ Replied s t 0x11 f 0 (s.bytes loc n ++ List.replicate (((n + 7) / 8 + 7) / 8) 0)))
      ∧ (own n → n = 8 → s.poisAt loc 8 = true → CompletesWith (exec .read s) (fun t =>
          Replied s t 0x11 f 0x04 (List.replicate 8 0 ++ [1])))
      ∧ (ctl n → CompletesWith (exec .read s) (fun t => SameMem s t ∧ t.ctxs = s.ctxs
          ∧ Replied s t 0x11 f 0 ((List.range (n / 8)).flatMap (fun j =>
              leBytes 8 (s.ctlRead (paCoreId pa) (paOff pa - 0x100000 + 8 * j)).toNat)
            ++ List.replicate ((n / 8 + 7) / 8) 0)))
      ∧ (paDev pa ≠ s.dev → CompletesWith (exec .read s) (fun t => RefusedFrame s t 0x11 f 0x03)))

/-- Launch, Close, Partition and Breakpoint (R190, R202, R375, R393) in phase 5. A Launch whose doubleword has a reserved bit or
COST 0, or whose ADDR names no cluster, is refused with 0x03, and one to a closed or failed cluster with 0x05; else the task
message takes its fields from the payload and the next catalogue number of the cluster, the region has one live task more, the
task is given to the placement rule there as one spawned there, or with PIN to the queue, and the reply carries the number.
Close closes the cluster. (That the core and offset fields of ADDR are zero is log entry 46.) Partition stops a running colour, or restarts a stopped one, and asks for the save of the slots of
the colour or withdraws that (that one frame does either is log entry 16). Breakpoint writes an entry of the table (log entry 17). -/
def Claim.JobFrames : Prop :=
  ∀ (s : State) (f : CFrame),
    let pa := f.addr
    let named := pa < 2 ^ 56 ∧ paDev pa = s.dev ∧ s.onDieOk pa = true ∧ pa % 2 ^ 34 = 0
    let cl : ClusterId := ⟨paDie pa, Fin.ofNat 192 (paCl pa)⟩
    let x := s.cluster cl
    let w : Nat → Nat := fun k => leNat (((s.plat.opened f).payload.drop (8 * k)).take 8)
    let r := w 0 % 2 ^ 12
    let good := w 0 / 2 ^ 12 % 2 ^ 4 = 0 ∧ w 0 / 2 ^ 26 = 0 ∧ w 0 / 2 ^ 16 % 2 ^ 8 ≠ 0 ∧ w 9 / 2 ^ 32 = 0
    let cat := s.dev * 2 ^ 37 + cl.die.val * 2 ^ 35 + cl.cl.val * 2 ^ 27 + x.seq
    let pin := (w 0).testBit 25
    let is : TaskMsg → Prop := fun m => m.typ = (if pin then 2 else 0) ∧ m.region = r ∧ m.cost = w 0 / 2 ^ 16 % 2 ^ 8
      ∧ m.kind = (w 0).testBit 24 ∧ m.entry.toNat = w 1 ∧ m.args.map BitVec.toNat = [w 2, w 3, w 4, w 5, w 6, w 7]
      ∧ m.cat = cat ∧ m.prio = s.regPrio r ∧ m.colour = s.schedColour r ∧ m.join.toNat = w 10
    let launched : State → Prop := fun t => t.liveTasks r = s.liveTasks r + 1 ∧ t.liveArmed r = s.liveArmed r
      ∧ (∀ c, c < s.regLoc r 14 ∨ s.regLoc r 14 + 8 ≤ c → t.byte c = s.byte c)
      ∧ (t.cluster cl).seq = (x.seq + 1) % 2 ^ 27 ∧ t.ctxs = s.ctxs ∧ Replied s t 0x20 f 0 (leBytes 8 cat)
    (s.event = .launch f → s.Accepts 0x20 f f.payload.length → f.payload.length = 88 →
      (¬ named ∨ ¬ good → CompletesWith (exec .launch s) (fun t => RefusedFrame s t 0x20 f 0x03))
      ∧ (named → good → x.closed = true ∨ x.failed = true → CompletesWith (exec .launch s) (fun t => RefusedFrame s t 0x20 f 0x05))
      ∧ (named → good → x.closed = false → x.failed = false → s.liveTasks r + 1 < 2 ^ 32 →
        ∃ t m, exec .launch s = .next t ∧ launched t ∧ is m ∧ t.agenda = s.agenda ++ [.ev (.taskPlacement cl m 0)]))
    ∧ (s.event = .close f → s.Accepts 0x21 f f.payload.length → f.payload = [] →
      (¬ named → CompletesWith (exec .close s) (fun t => RefusedFrame s t 0x21 f 0x03))
      ∧ (named → x.closed = true ∨ x.failed = true → CompletesWith (exec .close s) (fun t => RefusedFrame s t 0x21 f 0x05))
      ∧ (named → x.closed = false → x.failed = false → CompletesWith (exec .close s) (fun t => t.cluster cl = { x with closed := true }
        ∧ (∀ d, d ≠ cl → t.cluster d = s.cluster d) ∧ SameMem s t ∧ t.ctxs = s.ctxs ∧ RepliedIf s t 0x21 f)))
    ∧ (s.event = .partition f → s.Accepts 0x22 f f.payload.length → f.payload = [] →
      (63 < pa → CompletesWith (exec .partition s) (fun t => RefusedFrame s t 0x22 f 0x03))
      ∧ (pa ≤ 63 → CompletesWith (exec .partition s) (fun t => SameMem s t ∧ RepliedIf s t 0x22 f
        ∧ (∀ j, j < 64 → t.plat.stopped.getLsbD j = (s.plat.stopped.getLsbD j != decide (j = pa)))
        ∧ ∀ c, (∀ k, (s.ctx c).task = some k → k.msg.colour = pa →
              t.ctx c = { s.ctx c with saveReq := !s.plat.stopped.getLsbD pa })
            ∧ ((∀ k, (s.ctx c).task = some k → k.msg.colour ≠ pa) → t.ctx c = s.ctx c))))
    ∧ (s.event = .breakpoint f → s.Accepts 0x23 f f.payload.length → f.payload.length = 16 →
      (7 < pa ∨ w 0 / 2 ^ 52 % 2 ^ 7 ≠ 0 → CompletesWith (exec .breakpoint s) (fun t => RefusedFrame s t 0x23 f 0x03))
      ∧ (pa ≤ 7 → w 0 / 2 ^ 52 % 2 ^ 7 = 0 → CompletesWith (exec .breakpoint s) (fun t => SameMem s t ∧ RepliedIf s t 0x23 f
        ∧ (tget 0 t.plat.bpc pa).toNat = w 0 ∧ (tget 0 t.plat.bpa pa).toNat = w 1
        ∧ (∀ k, k ≠ pa → tget 0 t.plat.bpc k = tget 0 s.plat.bpc k ∧ tget 0 t.plat.bpa k = tget 0 s.plat.bpa k))))

/-- Telemetry and Management (R390, R391). Telemetry answers with 25,056 bytes: the device record, four die records, 768 cluster
records and 18 link records, of which the fields are as the table of R390 gives. Management of register 0 answers with the
catalogue, 64 bytes for each register; of another with its value in 8 bytes, or, for a write, with what its access code makes
of it; a write of what R399 and R400 do not allow, or a register that is not there, is refused with 0x03 (which registers there
are, and what they govern, is log entry 24). -/
def Claim.ServiceFrames : Prop :=
  ∀ (s : State) (f : CFrame),
    let r := f.addr % 2 ^ 32
    let old := tget (Config.mgmtReset r) s.plat.mgmt r
    let v := BitVec.ofNat 64 (leNat (s.plat.opened f).payload)
    (s.event = .telemetry f → s.Accepts 0x30 f f.payload.length → f.payload = [] →
      ∃ t out, exec .telemetry s = .next t ∧ SameMem s t ∧ t.ctxs = s.ctxs ∧ Replied s t 0x30 f 0 out ∧ out.length = 25056
        ∧ (let at' : Nat → Nat → Nat := fun a n => leNat ((out.drop a).take n)
           at' 0 8 = s.time % 2 ^ 64 ∧ at' 8 4 = s.plat.power % 2 ^ 32 ∧ at' 19 1 = s.plat.phase % 2 ^ 8
           ∧ at' 20 4 = s.plat.discarded % 2 ^ 32 ∧ at' 24 4 = s.plat.lost % 2 ^ 32
           ∧ (s.plat.joined = false → at' 16 2 = 0xFFFF) ∧ (s.plat.joined = true → at' 16 2 = s.plat.dev % 2 ^ 16)
           ∧ (∀ d : Fin 4, at' (64 + 32 * d.val) 4 = tget 0 s.plat.diePower d.val % 2 ^ 32)
           ∧ (∀ (d : Fin 4) (c : Fin 192), let x := s.cluster ⟨d, c⟩; let a := 192 + 32 * (192 * d.val + c.val)
              at' a 4 = x.power % 2 ^ 32 ∧ at' (a + 4) 1 = x.duty % 2 ^ 8 ∧ at' (a + 6) 2 = x.flux % 2 ^ 16 ∧ at' (a + 8) 2 = tempBits x.temp
              ∧ at' (a + 5) 1 = x.closed.toNat + 2 * x.failed.toNat + 4 * x.tripped.toNat + 8 * x.persisted.toNat
                  + 16 * x.rreq.toNat
              ∧ at' (a + 10) 2 = x.pressure % 2 ^ 16 ∧ at' (a + 12) 4 = x.budget % 2 ^ 32
              ∧ at' (a + 16) 8 = (x.cwv cwERRCNT).toNat)
           ∧ (∀ l : Fin 18, let a := 24768 + 16 * l.val
              at' a 1 = (s.link l).up.toNat + 2 * (s.link l).training.toNat ∧ at' (a + 2) 2 = (s.link l).retired.toNat)))
    ∧ (s.event = .management f → s.Accepts 0x40 f f.payload.length → f.addr < 2 ^ 33 →
      (f.addr = 0 → f.payload = [] → ∃ t out, exec .management s = .next t ∧ SameMem s t ∧ Replied s t 0x40 f 0 out
        ∧ t.plat.mgmt = s.plat.mgmt ∧ ∀ k m, (Config.mgmtRegs.filter (fun m => m.number != 0))[k]? = some m →
          (out.drop (64 * (k + 1))).take 64 = leBytes 4 m.number.toNat ++ leBytes 2 m.width.toNat ++ [Config.mgmtCode m.access, 0]
            ++ (m.name ++ List.replicate 56 0).take 56)
      ∧ (∀ m, mgmtReg r = some m → r ≠ 0 →
        (f.addr < 2 ^ 32 → f.payload = [] → CompletesWith (exec .management s) (fun t => SameMem s t
          ∧ Replied s t 0x40 f 0 (leBytes 8 (if m.access = .wo then 0 else old).toNat) ∧ t.plat.mgmt = s.plat.mgmt))
        ∧ (2 ^ 32 ≤ f.addr → f.payload.length = 8 →
          let low := BitVec.ofNat 64 (2 ^ min 64 m.width.toNat - 1)
          let within := m.access ≠ .rw ∨ mgmtWithin m.governs (Config.mgmtMeans m.number (v &&& low)) = true
          (within → CompletesWith (exec .management s) (fun t => SameMem s t ∧ Replied s t 0x40 f 0 []
            ∧ tget (Config.mgmtReset r) t.plat.mgmt r = (match m.access with
                | .rw => v &&& low
                | .w1c => old &&& ~~~v
                | .ro | .wo => old)
            ∧ ∀ k, k ≠ r → tget (Config.mgmtReset k) t.plat.mgmt k = tget (Config.mgmtReset k) s.plat.mgmt k))
          ∧ (¬ within → CompletesWith (exec .management s) (fun t => RefusedFrame s t 0x40 f 0x03))))
      ∧ (r ≠ 0 → mgmtReg r = none → CompletesWith (exec .management s) (fun t => RefusedFrame s t 0x40 f 0x03)))

/-! ### Start-up, rails, power and heat -/

/-- The phases of start-up (R383, R424). HOLD clears the device. VERIFY in Hold waits for every rail and the end of a trip, then takes
a good image's digest and rollback number and gives phase 2, or stays in phase 1 with the cause of the failure. INITIALISE after
phase 2 writes VMAP of each die, marks the clusters that failed and the dies with none left, and gives phase 3. JOIN after
phase 3 takes the device number, RTBASE and EDGE where they are in order and lets the links train with their keys; when they
have, those that came up are up, and phase 4 is reached. READY after phase 4 makes region 0 valid with the block where it is
valid (log entry 18), and gives phase 5. Each end of a phase is noticed with code 0x07 and the status word (log entry 46). -/
def Claim.StartUp : Prop :=
  let told : State → State → Prop := fun s t => Noticed s t 0x07 (padTo 32 (leBytes 8 t.plat.statusWord))
  (∀ s : State, CompletesWith (exec .hold s) (fun t => State.InHold s t ∧ t.clusters = [] ∧ t.plat.sent = s.plat.sent))
  ∧ (∀ (s : State) (bs : List Byte), s.event = .verify bs →
    let img := Config.imageOf bs
    let bad := if img.wellFormed = false then 0x21 else if img.signed = false then 0x22
      else if img.rollback < Config.rollbackMin.toNat then 0x23 else 0
    (s.plat.phase ≠ 1 → exec .verify s = .next s)
    ∧ (s.plat.phase = 1 → s.plat.mayLeaveHold = false → exec .verify s = .next (s.after 1 (.verify bs)))
    ∧ (s.plat.phase = 1 → s.plat.mayLeaveHold = true → CompletesWith (exec .verify s) (fun t => SameMem s t ∧ t.ctxs = s.ctxs
        ∧ t.plat.cause = bad ∧ t.plat.phase = (if bad = 0 then 2 else 1) ∧ t.plat.failPhase = (if bad = 0 then 0 else 2)
        ∧ (bad = 0 → t.plat.verified = true ∧ t.plat.digest = sha256 bs ∧ t.plat.imgRollback = img.rollback)
        ∧ (bad ≠ 0 → t.plat.verified = s.plat.verified ∧ t.plat.digest = s.plat.digest)
        ∧ told s t)))
  ∧ (∀ (s : State) (vmaps : List (Nat × Nat)) (failed : List ClusterId), s.event = .initialise vmaps failed →
    (s.plat.phase ≠ 2 ∨ s.plat.verified = false → exec .initialise s = .next s)
    ∧ (s.plat.phase = 2 → s.plat.verified = true → vmaps.length = 4 → CompletesWith (exec .initialise s) (fun t =>
        t.plat.phase = 3 ∧ SameMem s t
        ∧ (∀ d : Fin 4, let e := vmaps.getD d.val (0, 0)
            (t.die d).vmap = BitVec.ofNat 64 (e.1 % 2 ^ 16 + e.2 % 2 ^ 16 * 2 ^ 32))
        ∧ (∀ c, (t.cluster c).failed = ((s.cluster c).failed || failed.elem c))
        ∧ (∀ d, (t.die d).failed = true ↔ (s.die d).failed = true ∨ ∀ c, (t.cluster ⟨d, c⟩).failed = true)
        ∧ (∀ d : Fin 4, t.plat.failedDies.getLsbD d.val = (t.die d).failed)
        ∧ t.plat.failPhase = (if ∀ d, (t.die d).failed = true then 3 else 0)
        ∧ t.plat.cause = (if ∀ d, (t.die d).failed = true then 0x31 else 0)
        ∧ ∃ (u : State) (l : List OutFrame), u.plat.portUp = s.plat.portUp ∧ u.plat.sent = s.plat.sent ++ l ∧ told u t)))
  ∧ (∀ (s : State) (dev dlim rtbase : Nat) (edge : Word) (links : List (Fin 18 × LinkKeys)), s.event = .join dev dlim rtbase edge links →
    let good := dev ≤ 1151 ∧ dev < dlim ∧ dlim ≤ 1152 ∧ paDev rtbase = dev ∧ paOnDie rtbase = false
      ∧ rtbase / 2 ^ 36 % 2 ^ 6 = 0 ∧ s.backed rtbase = true ∧ rtbase < 2 ^ 56
    let open' := s.plat.phase = 3 ∧ s.plat.failPhase = 0 ∧ s.plat.joined = false
    (¬ open' → exec .join s = .next s)
    ∧ (open' → ¬ good → CompletesWith (exec .join s) (fun t => SameMem s t ∧ t.plat.phase = 4 ∧ t.plat.failPhase = 4
        ∧ t.plat.cause = 0x41 ∧ t.plat.joined = false ∧ told s t))
    ∧ (open' → good → CompletesWith (exec .join s) (fun t => SameMem s t ∧ t.plat.phase = 3 ∧ t.plat.joined = true
        ∧ t.plat.dev = dev ∧ t.plat.rtbase = rtbase ∧ t.plat.edge = BitVec.ofNat 64 (dlim * 2 ^ 32 + edge.toNat % 2 ^ 32)
        ∧ (∀ l, (t.link l).up = false ∧ (t.link l).training = (links.map (fun e => e.1)).elem l)
        ∧ ((links.map (fun e => e.1)).Nodup → ∀ e ∈ links, (t.link e.1).txKey = e.2.txKey ∧ (t.link e.1).rxKey = e.2.rxKey
            ∧ (t.link e.1).txSalt = e.2.txSalt ∧ (t.link e.1).rxSalt = e.2.rxSalt))))
  ∧ (∀ (s : State) (up : List (Fin 18)), s.event = .linksTrained up →
    let open' := s.plat.phase = 3 ∧ s.plat.failPhase = 0 ∧ s.plat.joined = true
    (¬ open' → exec .join s = .next s)
    ∧ (open' → CompletesWith (exec .join s) (fun t => SameMem s t ∧ t.plat.phase = 4 ∧ t.plat.failPhase = 0 ∧ t.plat.cause = 0
        ∧ told s t ∧ ∀ l, if (s.link l).training then (t.link l).up = up.elem l ∧ (t.link l).training = false
          ∧ (t.link l).width = (if up.elem l then 16 else 0) else t.link l = s.link l)))
  ∧ ∀ (s : State) (block : List Word), s.event = .ready block →
    (s.plat.phase ≠ 4 ∨ s.plat.failPhase ≠ 0 → exec .ready s = .next s)
    ∧ (s.plat.phase = 4 → s.plat.failPhase = 0 → CompletesWith (exec .ready s) (fun t => t.plat.phase = 5 ∧ told s t
        ∧ (blockOk block = false → t.plat.failPhase = 5 ∧ t.plat.cause = 0x51 ∧ SameMem s t)
        ∧ (blockOk block = true → t.plat.failPhase = 0 ∧ t.plat.cause = 0
          ∧ (∀ k, k < 32 → t.regOwn 0 k = block.getD k 0) ∧ t.regValid 0 = true
          ∧ ∀ c, c < s.regLoc 0 0 ∨ s.regLoc 0 0 + 256 ≤ c → t.byte c = s.byte c)))

/-- Rails, power and heat (R394 to R401; the port, R392). POWER_GOOD takes the groups in their order, RAIL_FALL takes a group and
those above it and holds the device. POWER_REDIVISION at a multiple of 10 µs gives each cluster named its budget and its duty, 4
to 16 sixteenths, and 4 while it trips, where all budgets stay within 3,400 W; a cluster whose power exceeds its budget falls in
duty (log entry 21), also when its power is read. A DRAM stack at 115 °C or more asserts the trip output; other readings are kept
for Telemetry, a VDIE voltage in the steps of R399. TRIP of a reading past 105 °C or 250 W/cm² sets the duty to 4 and starts the
count of 1 ms once; another ends the trip; TRIP_PERSISTED marks and notices it. A reading of 115 °C asserts the trip output, holds
the device and notices it. MODULE_FAULT of a value outside 40 to 60 V, 2.0 L/min or 15 to 40 °C holds the device and notices
cause and value. CONTROL_PORT_DOWN and CONTROL_PORT_UP take the port down and up, when the notices kept go out in order (trip
points and the bytes of notices are log entries 19 and 20). -/
def Claim.PowerAndHeat : Prop :=
  let clamp : Nat → Nat := fun n => if n < 4 then 4 else if 16 < n then 16 else n
  let dutyOf : Cluster → Nat → Nat → Nat → Nat := fun x budget power n => if x.tripped then 4
    else clamp (if budget ≠ 0 ∧ budget < power then min n (x.duty - 1) else n)
  let tripped : State → State → ClusterId → Int → Nat → Prop := fun s t cl temp flux => t.plat.trip = true ∧ t.plat.phase = 1
    ∧ t.mem = [] ∧ t.ctxs = [] ∧ t.agenda = [] ∧ (s.plat.portUp = true → t.plat.sent = s.plat.sent
      ++ [OutFrame.mk 0x50 0 0x02 (padTo 32 (leBytes 1 cl.die.val ++ leBytes 1 cl.cl.val ++ leBytes 2 (tempBits temp)
        ++ leBytes 2 flux)) []])
  (∀ (s : State) (g : Fin 3), s.event = .powerGood g → CompletesWith (exec .powerGood s) (fun t => SameMem s t ∧ t.ctxs = s.ctxs
      ∧ t.plat.vaux = (s.plat.vaux || decide (g = 0))
      ∧ t.plat.vlinkMem = (s.plat.vlinkMem || (decide (g = 1) && s.plat.vaux))
      ∧ t.plat.vdie = (s.plat.vdie || (decide (g = 2) && s.plat.vlinkMem))))
  ∧ (∀ (s : State) (g : Fin 3), s.event = .railFall g → CompletesWith (exec .railFall s) (fun t => State.InHold s t
      ∧ t.clusters = [] ∧ t.plat.vdie = false ∧ t.plat.vlinkMem = (s.plat.vlinkMem && decide (1 < g.val))
      ∧ t.plat.vaux = (s.plat.vaux && decide (0 < g.val))))
  ∧ (∀ (s : State) (shares : List (ClusterId × Nat × Nat)), s.event = .powerRedivision shares →
    (s.time % 33000 ≠ 0 ∨ 3400000 < s.budgets shares → exec .powerRedivision s = .next s)
    ∧ (s.time % 33000 = 0 → s.budgets shares ≤ 3400000 → (shares.map (fun e => e.1)).Nodup →
      CompletesWith (exec .powerRedivision s) (fun t => SameMem s t ∧ t.ctxs = s.ctxs ∧ ∀ c,
        (∀ b n, (c, b, n) ∈ shares → (t.cluster c).budget = b
          ∧ (t.cluster c).duty = dutyOf (s.cluster c) b (s.cluster c).power n)
        ∧ (c ∉ shares.map (fun e => e.1) → t.cluster c = s.cluster c))))
  ∧ (∀ (s : State) (power : Nat) (dies : List (Fin 4 × Nat × Int × Nat)) (cs : List (ClusterId × Nat))
      (ms : List (Fin 18 × Nat)), s.event = .powerReadings power dies cs ms → (dies.map (fun e => e.1)).Nodup →
    (cs.map (fun e => e.1)).Nodup → (ms.map (fun e => e.1)).Nodup →
    (∀ d p c v, (d, p, c, v) ∈ dies → 1150 ≤ c → (∀ e ∈ dies, e.1 ≠ d → e.2.2.1 < 1150) →
      CompletesWith (exec .powerRedivision s) (fun t => tripped s t (clusterAt d 0) c (s.cluster (clusterAt d 0)).flux))
    ∧ ((∀ e ∈ dies, e.2.2.1 < 1150) → CompletesWith (exec .powerRedivision s) (fun t => SameMem s t ∧ t.ctxs = s.ctxs
      ∧ t.plat.power = power
      ∧ (∀ d p c v, (d, p, c, v) ∈ dies → tget 0 t.plat.diePower d.val = p ∧ tget 0 t.plat.dramTemp d.val = c
        ∧ tget 0 t.plat.vdieMv d.val = if 600 ≤ v ∧ v ≤ 900 ∧ v % 5 = 0 then v else tget 0 s.plat.vdieMv d.val)
      ∧ (∀ c p, (c, p) ∈ cs → t.cluster c
          = { s.cluster c with power := p, duty := dutyOf (s.cluster c) (s.cluster c).budget p (s.cluster c).duty })
      ∧ ∀ l m, (l, m) ∈ ms → t.link l = { s.link l with margin := m })))
  ∧ (∀ (s : State) (cl : ClusterId) (temp : Int) (flux : Nat), s.event = .trip cl temp flux →
    let hot := 1050 < temp ∨ 1000 < flux
    (1150 ≤ temp → CompletesWith (exec .trip s) (fun t => tripped s t cl temp flux))
    ∧ (temp < 1150 → CompletesWith (exec .trip s) (fun t => SameMem s t ∧ t.ctxs = s.ctxs ∧ (t.cluster cl).temp = temp
      ∧ (t.cluster cl).flux = flux ∧ (t.cluster cl).tripped = decide hot
      ∧ (hot → (t.cluster cl).duty = 4
        ∧ t.timers = s.timers ++ (if (s.cluster cl).tripped then [] else [(s.time + 3300000, .tripPersisted cl)]))
      ∧ (¬ hot → (t.cluster cl).persisted = false ∧ (t.cluster cl).duty = (s.cluster cl).duty
        ∧ ∀ n, (n, Event.tripPersisted cl) ∉ t.timers))))
  ∧ (∀ (s : State) (cl : ClusterId), s.event = .tripPersisted cl →
    ((s.cluster cl).tripped = false → exec .tripPersisted s = .next s)
    ∧ ((s.cluster cl).tripped = true → CompletesWith (exec .tripPersisted s) (fun t => SameMem s t ∧ t.ctxs = s.ctxs
        ∧ t.cluster cl = { s.cluster cl with persisted := true }
        ∧ Noticed s t 0x02 (padTo 32 (leBytes 1 cl.die.val ++ leBytes 1 cl.cl.val ++ leBytes 2 (tempBits (s.cluster cl).temp)
            ++ leBytes 2 (s.cluster cl).flux)))))
  ∧ (∀ (s : State) (cl : ClusterId) (temp : Int), s.event = .tripOutput cl temp →
    (temp < 1150 → exec .tripOutput s = .next s)
    ∧ (1150 ≤ temp → CompletesWith (exec .tripOutput s) (fun t => tripped s t cl temp (s.cluster cl).flux)))
  ∧ (∀ (s : State) (cause : Fin 4) (v : BitVec 32), s.event = .moduleFault cause v →
    (cause = 0 → exec .moduleFault s = .next { s with plat := { s.plat with moduleHeld := false } })
    ∧ (moduleWithin cause v = true → cause ≠ 0 → exec .moduleFault s = .next s)
    ∧ (moduleWithin cause v = false → CompletesWith (exec .moduleFault s) (fun t => t.plat.moduleHeld = true ∧ t.plat.phase = 1 ∧ t.mem = []
        ∧ t.ctxs = [] ∧ t.agenda = []
        ∧ (s.plat.portUp = true → t.plat.sent = s.plat.sent ++ [OutFrame.mk 0x50 0 0x06 (padTo 32 (leBytes 4 cause.val ++ leBytes 4 v.toNat)) []]))))
  ∧ ∀ s : State, exec .controlPortDown s = .next { s with plat := { s.plat with portUp := false } }
    ∧ CompletesWith (exec .controlPortUp s) (fun t => t.plat.portUp = true ∧ t.plat.kept = [] ∧ SameMem s t ∧ t.ctxs = s.ctxs
      ∧ t.plat.noticeSeq = s.plat.noticeSeq + s.plat.kept.length
      ∧ t.plat.sent.length = s.plat.sent.length + s.plat.kept.length
      ∧ (∀ k, k < s.plat.sent.length → t.plat.sent[k]? = s.plat.sent[k]?)
      ∧ ∀ k f, s.plat.kept[k]? = some f →
        t.plat.sent[s.plat.sent.length + k]? = some (s.plat.sealed 3 { f with seq := s.plat.noticeSeq + k }))

/-! ### Every step goes on -/

/-- No instruction and no event stops the machine: exec answers a next state for each, whatever the state; the faults of the
ISA are next states (R73, R74). -/
def Claim.NoInstructionStops : Prop := ∀ (i : Instr) (s : State), Completes (exec i s)

/-- No step stops the machine. -/
def Claim.NoStepStops : Prop := ∀ s : State, Completes (step s)

/-- GANG_TIMEOUT (R159, R160): a member that still waits withdraws from the barrier; with GTIME.TF clear GSTAT is 1 and it
moves on, with it set it raises 0x10 with TVAL the time. A member that waits no longer stays as it is. -/
def Claim.GangTimeouts : Prop :=
  ∀ (s : State) (c : CtxId) (id : Nat), s.event = .gangTimeout c id →
    let x := s.ctx c
    let out := (s.setCore c.core { s.core c.core with gangAt := none }).setCtx c { x with wait := .none }
    let time := x.cwv cwGTIME
    (x.wait ≠ .gang id → exec .gangTimeout s = .next s)
    ∧ (x.wait = .gang id → time.getLsbD 63 = false → CompletesWith (exec .gangTimeout s) (fun t =>
        (t.ctx c).cwv cwGSTAT = 1 ∧ (t.ctx c).wait = .none ∧ (t.core c.core).gangAt = none ∧ SameMem s t
        ∧ Keeps [] [] [] (leftWords ++ [cwGSTAT]) x (t.ctx c) ∧ Past x (t.ctx c) ∧ ∀ d, d ≠ c → t.ctx d = s.ctx d))
    ∧ (x.wait = .gang id → time.getLsbD 63 = true →
        exec .gangTimeout s = .next (out.as c (fun u => u.raise 0x10 (BitVec.ofNat 64 (time.toNat % 2 ^ 32)))))

/-- ILLEGAL_INSTRUCTION (R31): a word that is no instruction raises fault 0x01 with the word as TVAL. -/
def Claim.IllegalWords : Prop :=
  ∀ (s : State) (w : IWord), s.event = .illegalInstruction w →
    exec .illegalInstruction s = .next (s.raise 0x01 (w.setWidth 64))

/-! ### The statements made of several claims -/

/-- Reset: phase 1, nothing running, control words at their reset values, canonical memory (zero values: log entries
2, 3, 5): reset state, reset memory canonical. -/
def Obligations.ResetState : Prop :=
  Claim.ResetState
    ∧ Claim.ResetMemoryCanonical

/-- A step performs the head of the agenda (log entry 1); captured words; words that are no instruction: step head of
agenda, step runs captured, illegal words. -/
def Obligations.StepDispatch : Prop :=
  Claim.StepHeadOfAgenda
    ∧ Claim.StepRunsCaptured
    ∧ Claim.IllegalWords

/-- A step runs the instruction decoded from the bytes at the program counter: step runs decoded, step runs fetched.
-/
def Obligations.StepRunsDecoded : Prop :=
  Claim.StepRunsDecoded
    ∧ Claim.StepRunsFetched

/-- No instruction, event or step stops the machine: no instruction stops, no step stops. -/
def Obligations.NothingStops : Prop :=
  Claim.NoInstructionStops
    ∧ Claim.NoStepStops

/-- Registers read back, g0 and q0 are hard-wired, and what writing gd and moving on does: register file, done effect.
-/
def Obligations.RegisterAccess : Prop :=
  Claim.RegisterFile
    ∧ Claim.DoneEffect

/-- Instructions of registers alone: frame, poison and handler faults: reg only frame, reg only poison. -/
def Obligations.RegisterOnlyFrame : Prop :=
  Claim.RegOnlyFrame
    ∧ Claim.RegOnlyPoison

/-- Results of the scalar arithmetic instructions: map a results, remainder results, clz popc results, immediate
results. -/
def Obligations.ScalarResults : Prop :=
  Claim.MapAResults
    ∧ Claim.RemainderResults
    ∧ Claim.ClzPopcResults
    ∧ Claim.ImmediateResults

/-- J, JAL, IFENCE and RDC: jump targets, ifence and rdc. -/
def Obligations.JumpTargets : Prop :=
  Claim.JumpTargets
    ∧ Claim.IfenceAndRdc

/-- CWR and CWW over every control word, and the rules of the trap words: control word access, trap word rules. -/
def Obligations.ControlWords : Prop :=
  Claim.ControlWordAccess
    ∧ Claim.TrapWordRules

/-- Scalar loads and stores of local memory: result, bytes stored, frame: local loads, local stores. -/
def Obligations.LocalLoadsAndStores : Prop :=
  Claim.LocalLoads
    ∧ Claim.LocalStores

/-- Scalar loads and stores: faults, and what they do at every place (log entry 13): load store faults, load store by
place. -/
def Obligations.LoadsAndStoresByPlace : Prop :=
  Claim.LoadStoreFaults
    ∧ Claim.LoadStoreByPlace

/-- Integer and bitwise vector results, lane by lane: vector integer results, vector bitwise results. -/
def Obligations.VectorIntegerResults : Prop :=
  Claim.VectorIntegerResults
    ∧ Claim.VectorBitwiseResults

/-- Floating-point vector results, flags and special values: vector float results, float special values. -/
def Obligations.VectorFloatResults : Prop :=
  Claim.VectorFloatResults
    ∧ Claim.FloatSpecialValues

/-- Vector compares and predicate operations: compare results, predicate results. -/
def Obligations.VectorComparesAndPredicates : Prop :=
  Claim.CompareResults
    ∧ Claim.PredicateResults

/-- Reductions, permutations and VCOMPRESS: reduction results, permute results, compress result. -/
def Obligations.VectorMovesAndReductions : Prop :=
  Claim.ReductionResults
    ∧ Claim.PermuteResults
    ∧ Claim.CompressResult

/-- Conversions and VTOPK: conversion results, topk results. -/
def Obligations.VectorConversionsAndTopk : Prop :=
  Claim.ConversionResults
    ∧ Claim.TopkResults

/-- VRCP, VRSQ and the special values of VEXP2; the flags of the conversions: float bounds, conversion flags. -/
def Obligations.FloatBounds : Prop :=
  Claim.FloatBounds
    ∧ Claim.ConversionFlags

/-- Vector loads and stores of local memory, elements, and their faults: vector memory local, vector elements local,
vector memory faults. -/
def Obligations.VectorMemory : Prop :=
  Claim.VectorMemoryLocal
    ∧ Claim.VectorElementsLocal
    ∧ Claim.VectorMemoryFaults

/-- Repeat frames: order, strides, saving and resuming: frame order, strided registers, frame save resume, held traps.
-/
def Obligations.RepeatFrames : Prop :=
  Claim.FrameOrder
    ∧ Claim.StridedRegisters
    ∧ Claim.FrameSaveResume
    ∧ Claim.HeldTraps

/-- Matrix slice: clearing, loading weights, faults: slice register forms, slice load weights, slice faults. -/
def Obligations.SliceWeights : Prop :=
  Claim.SliceRegisterForms
    ∧ Claim.SliceLoadWeights
    ∧ Claim.SliceFaults

/-- MMA and MMAS: rows of products, their queue (log entry 33), and what a product is: slice multiply, multiply
meaning, slice queue. -/
def Obligations.SliceMultiply : Prop :=
  Claim.SliceMultiply
    ∧ Claim.MultiplyMeaning
    ∧ Claim.SliceQueue

/-- Accumulator moves, save and restore of the matrix slice: slice accumulator moves, slice save restore. -/
def Obligations.SliceMoves : Prop :=
  Claim.SliceAccumulatorMoves
    ∧ Claim.SliceSaveRestore

/-- Mailbox counters: instructions, their changes, tests and timeouts (release of armed entries: log entry 1): counter
instructions, counter events. -/
def Obligations.MailboxCounters : Prop :=
  Claim.CounterInstructions
    ∧ Claim.CounterEvents

/-- Tagged loads and stores, their waits, the waking of waits, and timeouts: tagged instructions, tagged waits, tag
wakes. -/
def Obligations.TaggedMemory : Prop :=
  Claim.TaggedInstructions
    ∧ Claim.TaggedWaits
    ∧ Claim.TagWakes

/-- Stash windows, accesses through them, arrival arms, recall and MFILL (log entries 31 and 48): stash and arms,
stash access, stash recall, mfill result. -/
def Obligations.StashWindows : Prop :=
  Claim.StashAndArms
    ∧ Claim.StashAccess
    ∧ Claim.StashRecall
    ∧ Claim.MfillResult

/-- GANG and its timeouts; fences (log entry 6), ordered accesses and atomics on local memory: gang barrier, gang
timeouts, ordering instructions, atomic results. -/
def Obligations.GangsOrderingAndAtomics : Prop :=
  Claim.GangBarrier
    ∧ Claim.GangTimeouts
    ∧ Claim.OrderingInstructions
    ∧ Claim.AtomicResults

/-- Cache-line and translation instructions, PROBE (log entry 48), the table walk and what an access does with it:
lines and translations, table walk, access translated. -/
def Obligations.LinesAndTranslations : Prop :=
  Claim.LinesAndTranslations
    ∧ Claim.TableWalk
    ∧ Claim.AccessTranslated

/-- Requests at their homes, from other devices, and replies to issuers: memory requests, remote requests, replies to
issuers. -/
def Obligations.MemoryRequests : Prop :=
  Claim.MemoryRequests
    ∧ Claim.RemoteRequests
    ∧ Claim.RepliesToIssuers

/-- Engine ports: ENQ, DEQ, cancelling, completion and starts: engine commands, engine completions. -/
def Obligations.EngineCommands : Prop :=
  Claim.EngineCommands
    ∧ Claim.EngineCompletions

/-- GATHER, SCATTER and reducing scatter; PCHK and PREC: missing entries, sums, eviction: index engine, palimpsest
decisions. -/
def Obligations.IndexEngineAndDecisions : Prop :=
  Claim.IndexEngine
    ∧ Claim.PalimpsestDecisions

/-- BMV, PCHK and PREC commands, and the carrel's product: carrel and cache commands, carrel turn. -/
def Obligations.CarrelAndCache : Prop :=
  Claim.CarrelAndCacheCommands
    ∧ Claim.CarrelTurn

/-- SPAWN, SPAWNTRIG and SPAWNAT, here and at other devices (log entries 15 and 30): spawns, spawnat outcome, far
spawns. -/
def Obligations.Spawns : Prop :=
  Claim.Spawns
    ∧ Claim.SpawnatOutcome
    ∧ Claim.FarSpawns

/-- EXIT with its Annals record, TFATAL, TCANCEL (log entry 15), and region control blocks: task ends, annals at exit,
region instructions. -/
def Obligations.TaskEndsAndRegions : Prop :=
  Claim.TaskEnds
    ∧ Claim.AnnalsAtExit
    ∧ Claim.RegionInstructions

/-- Placing tasks and dispatching them into slots (log entries 1, 29 and 56): placement, dispatch sets up. -/
def Obligations.PlacementAndDispatch : Prop :=
  Claim.Placement
    ∧ Claim.DispatchSetsUp

/-- Pre-emption, save, restore, spilling and migration of tasks (log entries 62, 69 and 70): slots move, restores,
spilling, migration source. -/
def Obligations.SlotsMove : Prop :=
  Claim.SlotsMove
    ∧ Claim.Restores
    ∧ Claim.Spilling
    ∧ Claim.MigrationSource

/-- Pressure fields, the adaptive loop (log entry 67), failures of parts: fields, failures. -/
def Obligations.FieldsAndFailures : Prop :=
  Claim.Fields
    ∧ Claim.Failures

/-- SEND, SENDH, SENDT, HEND and the handler masks: sends, handler instructions. -/
def Obligations.SendsAndHandlers : Prop :=
  Claim.Sends
    ∧ Claim.HandlerInstructions

/-- Active messages on their way, the inbox and its spill ring, replies, handler starts: message events, handlers,
inbox ring. -/
def Obligations.MessagesAndHandlerStarts : Prop :=
  Claim.MessageEvents
    ∧ Claim.Handlers
    ∧ Claim.InboxRing

/-- MCHOPEN, MCHCLOSE, MCHSTAT and MREL (R209 at another device: log entry 13): channel instructions, flag release. -/
def Obligations.ChannelInstructions : Prop :=
  Claim.ChannelInstructions
    ∧ Claim.FlagRelease

/-- Opening and closing channels; counted writes at the sender and the receiver (log entry 13): channel events,
counted sends, counted writes. -/
def Obligations.ChannelsAndCountedWrites : Prop :=
  Claim.ChannelEvents
    ∧ Claim.CountedSends
    ∧ Claim.CountedWrites

/-- Manifest flags at receiver and sender: completion, repeats (log entry 54), RECOUNT, resend: flags received, flags
at sender. -/
def Obligations.Flags : Prop :=
  Claim.FlagsReceived
    ∧ Claim.FlagsAtSender

/-- Fabric links (log entry 10), the scrub and fault-queue records (log entry 40): links, scrubbing, fault records. -/
def Obligations.LinksScrubAndRecords : Prop :=
  Claim.Links
    ∧ Claim.Scrubbing
    ∧ Claim.FaultRecords

/-- Debug stops and their notice (log entry 20), resumes, the control window: debug stops, control window. -/
def Obligations.Debugging : Prop :=
  Claim.DebugStops
    ∧ Claim.ControlWindow

/-- Identity, Attest, Firmware, Status, Reset, job and service frames (log entries 9, 16, 17, 24 and 46): boot frames,
job frames, service frames. -/
def Obligations.BootAndJobFrames : Prop :=
  Claim.BootFrames
    ∧ Claim.JobFrames
    ∧ Claim.ServiceFrames

/-- Control-port frames and refusals, Write and Read; start-up phases, rails, power and heat (log entries 46 and 9):
frame rules, memory frames, start up, power and heat. -/
def Obligations.FrameRulesStartUpAndPower : Prop :=
  Claim.FrameRules
    ∧ Claim.MemoryFrames
    ∧ Claim.StartUp
    ∧ Claim.PowerAndHeat
end

