-- ==== Sys2Proof/Laws/Decode.lean ====
section
/-! SUPPORT. What the decoder reads from a word laid out by a format: each field of each format, and the map that each major
opcode names (R27, R30). -/

namespace Sys2Proof.Laws
theorem fMaj_mkR (m : BitVec 6) (a : BitVec 5) (b : BitVec 5) (c : BitVec 5) (f : BitVec 11) : fMaj (mkR m a b c f) = m := by
  show BitVec.extractLsb' 26 6 (m ++ a ++ b ++ c ++ f : BitVec (6+5+5+5+11)) = _
  rw [BitVec.extractLsb'_append_eq_of_le (by decide)]
  rw [BitVec.extractLsb'_append_eq_of_le (by decide)]
  rw [BitVec.extractLsb'_append_eq_of_le (by decide)]
  rw [BitVec.extractLsb'_append_eq_of_le (by decide)]
  exact BitVec.extractLsb'_eq_self
theorem fA_mkR (m : BitVec 6) (a : BitVec 5) (b : BitVec 5) (c : BitVec 5) (f : BitVec 11) : fA (mkR m a b c f) = a := by
  show BitVec.extractLsb' 21 5 (m ++ a ++ b ++ c ++ f : BitVec (6+5+5+5+11)) = _
  rw [BitVec.extractLsb'_append_eq_of_le (by decide)]
  rw [BitVec.extractLsb'_append_eq_of_le (by decide)]
  rw [BitVec.extractLsb'_append_eq_of_le (by decide)]
  rw [BitVec.extractLsb'_append_eq_of_add_le (by decide)]
  exact BitVec.extractLsb'_eq_self
theorem fB_mkR (m : BitVec 6) (a : BitVec 5) (b : BitVec 5) (c : BitVec 5) (f : BitVec 11) : fB (mkR m a b c f) = b := by
  show BitVec.extractLsb' 16 5 (m ++ a ++ b ++ c ++ f : BitVec (6+5+5+5+11)) = _
  rw [BitVec.extractLsb'_append_eq_of_le (by decide)]
  rw [BitVec.extractLsb'_append_eq_of_le (by decide)]
  rw [BitVec.extractLsb'_append_eq_of_add_le (by decide)]
  exact BitVec.extractLsb'_eq_self
theorem fC_mkR (m : BitVec 6) (a : BitVec 5) (b : BitVec 5) (c : BitVec 5) (f : BitVec 11) : fC (mkR m a b c f) = c := by
  show BitVec.extractLsb' 11 5 (m ++ a ++ b ++ c ++ f : BitVec (6+5+5+5+11)) = _
  rw [BitVec.extractLsb'_append_eq_of_le (by decide)]
  rw [BitVec.extractLsb'_append_eq_of_add_le (by decide)]
  exact BitVec.extractLsb'_eq_self
theorem fF_mkR (m : BitVec 6) (a : BitVec 5) (b : BitVec 5) (c : BitVec 5) (f : BitVec 11) : fF (mkR m a b c f) = f := by
  show BitVec.extractLsb' 0 11 (m ++ a ++ b ++ c ++ f : BitVec (6+5+5+5+11)) = _
  rw [BitVec.extractLsb'_append_eq_of_add_le (by decide)]
  exact BitVec.extractLsb'_eq_self
theorem fMaj_mkI (m : BitVec 6) (a : BitVec 5) (b : BitVec 5) (i : BitVec 16) : fMaj (mkI m a b i) = m := by
  show BitVec.extractLsb' 26 6 (m ++ a ++ b ++ i : BitVec (6+5+5+16)) = _
  rw [BitVec.extractLsb'_append_eq_of_le (by decide)]
  rw [BitVec.extractLsb'_append_eq_of_le (by decide)]
  rw [BitVec.extractLsb'_append_eq_of_le (by decide)]
  exact BitVec.extractLsb'_eq_self
theorem fA_mkI (m : BitVec 6) (a : BitVec 5) (b : BitVec 5) (i : BitVec 16) : fA (mkI m a b i) = a := by
  show BitVec.extractLsb' 21 5 (m ++ a ++ b ++ i : BitVec (6+5+5+16)) = _
  rw [BitVec.extractLsb'_append_eq_of_le (by decide)]
  rw [BitVec.extractLsb'_append_eq_of_le (by decide)]
  rw [BitVec.extractLsb'_append_eq_of_add_le (by decide)]
  exact BitVec.extractLsb'_eq_self
theorem fB_mkI (m : BitVec 6) (a : BitVec 5) (b : BitVec 5) (i : BitVec 16) : fB (mkI m a b i) = b := by
  show BitVec.extractLsb' 16 5 (m ++ a ++ b ++ i : BitVec (6+5+5+16)) = _
  rw [BitVec.extractLsb'_append_eq_of_le (by decide)]
  rw [BitVec.extractLsb'_append_eq_of_add_le (by decide)]
  exact BitVec.extractLsb'_eq_self
theorem fImm_mkI (m : BitVec 6) (a : BitVec 5) (b : BitVec 5) (i : BitVec 16) : fImm (mkI m a b i) = i := by
  show BitVec.extractLsb' 0 16 (m ++ a ++ b ++ i : BitVec (6+5+5+16)) = _
  rw [BitVec.extractLsb'_append_eq_of_add_le (by decide)]
  exact BitVec.extractLsb'_eq_self
theorem fMaj_mkJ (m : BitVec 6) (d : BitVec 26) : fMaj (mkJ m d) = m := by
  show BitVec.extractLsb' 26 6 (m ++ d : BitVec (6+26)) = _
  rw [BitVec.extractLsb'_append_eq_of_le (by decide)]
  exact BitVec.extractLsb'_eq_self
theorem ex0_26_mkJ (m : BitVec 6) (d : BitVec 26) : (mkJ m d).extractLsb' 0 26 = d := by
  show BitVec.extractLsb' 0 26 (m ++ d : BitVec (6+26)) = _
  rw [BitVec.extractLsb'_append_eq_of_add_le (by decide)]
  exact BitVec.extractLsb'_eq_self
theorem fMaj_mkV (m : BitVec 6) (a : BitVec 5) (b : BitVec 5) (c : BitVec 5) (q : BitVec 3) (f : BitVec 8) : fMaj (mkV m a b c q f) = m := by
  show BitVec.extractLsb' 26 6 (m ++ a ++ b ++ c ++ q ++ f : BitVec (6+5+5+5+3+8)) = _
  rw [BitVec.extractLsb'_append_eq_of_le (by decide)]
  rw [BitVec.extractLsb'_append_eq_of_le (by decide)]
  rw [BitVec.extractLsb'_append_eq_of_le (by decide)]
  rw [BitVec.extractLsb'_append_eq_of_le (by decide)]
  rw [BitVec.extractLsb'_append_eq_of_le (by decide)]
  exact BitVec.extractLsb'_eq_self
theorem fA_mkV (m : BitVec 6) (a : BitVec 5) (b : BitVec 5) (c : BitVec 5) (q : BitVec 3) (f : BitVec 8) : fA (mkV m a b c q f) = a := by
  show BitVec.extractLsb' 21 5 (m ++ a ++ b ++ c ++ q ++ f : BitVec (6+5+5+5+3+8)) = _
  rw [BitVec.extractLsb'_append_eq_of_le (by decide)]
  rw [BitVec.extractLsb'_append_eq_of_le (by decide)]
  rw [BitVec.extractLsb'_append_eq_of_le (by decide)]
  rw [BitVec.extractLsb'_append_eq_of_le (by decide)]
  rw [BitVec.extractLsb'_append_eq_of_add_le (by decide)]
  exact BitVec.extractLsb'_eq_self
theorem fB_mkV (m : BitVec 6) (a : BitVec 5) (b : BitVec 5) (c : BitVec 5) (q : BitVec 3) (f : BitVec 8) : fB (mkV m a b c q f) = b := by
  show BitVec.extractLsb' 16 5 (m ++ a ++ b ++ c ++ q ++ f : BitVec (6+5+5+5+3+8)) = _
  rw [BitVec.extractLsb'_append_eq_of_le (by decide)]
  rw [BitVec.extractLsb'_append_eq_of_le (by decide)]
  rw [BitVec.extractLsb'_append_eq_of_le (by decide)]
  rw [BitVec.extractLsb'_append_eq_of_add_le (by decide)]
  exact BitVec.extractLsb'_eq_self
theorem fC_mkV (m : BitVec 6) (a : BitVec 5) (b : BitVec 5) (c : BitVec 5) (q : BitVec 3) (f : BitVec 8) : fC (mkV m a b c q f) = c := by
  show BitVec.extractLsb' 11 5 (m ++ a ++ b ++ c ++ q ++ f : BitVec (6+5+5+5+3+8)) = _
  rw [BitVec.extractLsb'_append_eq_of_le (by decide)]
  rw [BitVec.extractLsb'_append_eq_of_le (by decide)]
  rw [BitVec.extractLsb'_append_eq_of_add_le (by decide)]
  exact BitVec.extractLsb'_eq_self
theorem fQ_mkV (m : BitVec 6) (a : BitVec 5) (b : BitVec 5) (c : BitVec 5) (q : BitVec 3) (f : BitVec 8) : fQ (mkV m a b c q f) = q := by
  show BitVec.extractLsb' 8 3 (m ++ a ++ b ++ c ++ q ++ f : BitVec (6+5+5+5+3+8)) = _
  rw [BitVec.extractLsb'_append_eq_of_le (by decide)]
  rw [BitVec.extractLsb'_append_eq_of_add_le (by decide)]
  exact BitVec.extractLsb'_eq_self
theorem fFn_mkV (m : BitVec 6) (a : BitVec 5) (b : BitVec 5) (c : BitVec 5) (q : BitVec 3) (f : BitVec 8) : fFn (mkV m a b c q f) = f := by
  show BitVec.extractLsb' 0 8 (m ++ a ++ b ++ c ++ q ++ f : BitVec (6+5+5+5+3+8)) = _
  rw [BitVec.extractLsb'_append_eq_of_add_le (by decide)]
  exact BitVec.extractLsb'_eq_self
theorem fMaj_mkM (m : BitVec 2) (v : BitVec 5) (g : BitVec 5) (pl : BitVec 3) (md : BitVec 3) (f : BitVec 8) : fMaj (mkM m v g pl md f) = 0x30 := by
  show BitVec.extractLsb' 26 6 ((0x30 : BitVec 6) ++ m ++ v ++ g ++ pl ++ md ++ f : BitVec (6+2+5+5+3+3+8)) = _
  rw [BitVec.extractLsb'_append_eq_of_le (by decide)]
  rw [BitVec.extractLsb'_append_eq_of_le (by decide)]
  rw [BitVec.extractLsb'_append_eq_of_le (by decide)]
  rw [BitVec.extractLsb'_append_eq_of_le (by decide)]
  rw [BitVec.extractLsb'_append_eq_of_le (by decide)]
  rw [BitVec.extractLsb'_append_eq_of_le (by decide)]
  exact BitVec.extractLsb'_eq_self
theorem fM_mkM (m : BitVec 2) (v : BitVec 5) (g : BitVec 5) (pl : BitVec 3) (md : BitVec 3) (f : BitVec 8) : fM (mkM m v g pl md f) = m := by
  show BitVec.extractLsb' 24 2 ((0x30 : BitVec 6) ++ m ++ v ++ g ++ pl ++ md ++ f : BitVec (6+2+5+5+3+3+8)) = _
  rw [BitVec.extractLsb'_append_eq_of_le (by decide)]
  rw [BitVec.extractLsb'_append_eq_of_le (by decide)]
  rw [BitVec.extractLsb'_append_eq_of_le (by decide)]
  rw [BitVec.extractLsb'_append_eq_of_le (by decide)]
  rw [BitVec.extractLsb'_append_eq_of_le (by decide)]
  rw [BitVec.extractLsb'_append_eq_of_add_le (by decide)]
  exact BitVec.extractLsb'_eq_self
theorem fV_mkM (m : BitVec 2) (v : BitVec 5) (g : BitVec 5) (pl : BitVec 3) (md : BitVec 3) (f : BitVec 8) : fV (mkM m v g pl md f) = v := by
  show BitVec.extractLsb' 19 5 ((0x30 : BitVec 6) ++ m ++ v ++ g ++ pl ++ md ++ f : BitVec (6+2+5+5+3+3+8)) = _
  rw [BitVec.extractLsb'_append_eq_of_le (by decide)]
  rw [BitVec.extractLsb'_append_eq_of_le (by decide)]
  rw [BitVec.extractLsb'_append_eq_of_le (by decide)]
  rw [BitVec.extractLsb'_append_eq_of_le (by decide)]
  rw [BitVec.extractLsb'_append_eq_of_add_le (by decide)]
  exact BitVec.extractLsb'_eq_self
theorem fG_mkM (m : BitVec 2) (v : BitVec 5) (g : BitVec 5) (pl : BitVec 3) (md : BitVec 3) (f : BitVec 8) : fG (mkM m v g pl md f) = g := by
  show BitVec.extractLsb' 14 5 ((0x30 : BitVec 6) ++ m ++ v ++ g ++ pl ++ md ++ f : BitVec (6+2+5+5+3+3+8)) = _
  rw [BitVec.extractLsb'_append_eq_of_le (by decide)]
  rw [BitVec.extractLsb'_append_eq_of_le (by decide)]
  rw [BitVec.extractLsb'_append_eq_of_le (by decide)]
  rw [BitVec.extractLsb'_append_eq_of_add_le (by decide)]
  exact BitVec.extractLsb'_eq_self
theorem fPl_mkM (m : BitVec 2) (v : BitVec 5) (g : BitVec 5) (pl : BitVec 3) (md : BitVec 3) (f : BitVec 8) : fPl (mkM m v g pl md f) = pl := by
  show BitVec.extractLsb' 11 3 ((0x30 : BitVec 6) ++ m ++ v ++ g ++ pl ++ md ++ f : BitVec (6+2+5+5+3+3+8)) = _
  rw [BitVec.extractLsb'_append_eq_of_le (by decide)]
  rw [BitVec.extractLsb'_append_eq_of_le (by decide)]
  rw [BitVec.extractLsb'_append_eq_of_add_le (by decide)]
  exact BitVec.extractLsb'_eq_self
theorem fQ_mkM (m : BitVec 2) (v : BitVec 5) (g : BitVec 5) (pl : BitVec 3) (md : BitVec 3) (f : BitVec 8) : fQ (mkM m v g pl md f) = md := by
  show BitVec.extractLsb' 8 3 ((0x30 : BitVec 6) ++ m ++ v ++ g ++ pl ++ md ++ f : BitVec (6+2+5+5+3+3+8)) = _
  rw [BitVec.extractLsb'_append_eq_of_le (by decide)]
  rw [BitVec.extractLsb'_append_eq_of_add_le (by decide)]
  exact BitVec.extractLsb'_eq_self
theorem fFn_mkM (m : BitVec 2) (v : BitVec 5) (g : BitVec 5) (pl : BitVec 3) (md : BitVec 3) (f : BitVec 8) : fFn (mkM m v g pl md f) = f := by
  show BitVec.extractLsb' 0 8 ((0x30 : BitVec 6) ++ m ++ v ++ g ++ pl ++ md ++ f : BitVec (6+2+5+5+3+3+8)) = _
  rw [BitVec.extractLsb'_append_eq_of_add_le (by decide)]
  exact BitVec.extractLsb'_eq_self
theorem fMaj_mkE (a : BitVec 5) (b : BitVec 5) (c : BitVec 5) (port : BitVec 2) (opt : BitVec 3) (f : BitVec 6) : fMaj (mkE a b c port opt f) = 0x34 := by
  show BitVec.extractLsb' 26 6 ((0x34 : BitVec 6) ++ a ++ b ++ c ++ port ++ opt ++ f : BitVec (6+5+5+5+2+3+6)) = _
  rw [BitVec.extractLsb'_append_eq_of_le (by decide)]
  rw [BitVec.extractLsb'_append_eq_of_le (by decide)]
  rw [BitVec.extractLsb'_append_eq_of_le (by decide)]
  rw [BitVec.extractLsb'_append_eq_of_le (by decide)]
  rw [BitVec.extractLsb'_append_eq_of_le (by decide)]
  rw [BitVec.extractLsb'_append_eq_of_le (by decide)]
  exact BitVec.extractLsb'_eq_self
theorem fA_mkE (a : BitVec 5) (b : BitVec 5) (c : BitVec 5) (port : BitVec 2) (opt : BitVec 3) (f : BitVec 6) : fA (mkE a b c port opt f) = a := by
  show BitVec.extractLsb' 21 5 ((0x34 : BitVec 6) ++ a ++ b ++ c ++ port ++ opt ++ f : BitVec (6+5+5+5+2+3+6)) = _
  rw [BitVec.extractLsb'_append_eq_of_le (by decide)]
  rw [BitVec.extractLsb'_append_eq_of_le (by decide)]
  rw [BitVec.extractLsb'_append_eq_of_le (by decide)]
  rw [BitVec.extractLsb'_append_eq_of_le (by decide)]
  rw [BitVec.extractLsb'_append_eq_of_le (by decide)]
  rw [BitVec.extractLsb'_append_eq_of_add_le (by decide)]
  exact BitVec.extractLsb'_eq_self
theorem fB_mkE (a : BitVec 5) (b : BitVec 5) (c : BitVec 5) (port : BitVec 2) (opt : BitVec 3) (f : BitVec 6) : fB (mkE a b c port opt f) = b := by
  show BitVec.extractLsb' 16 5 ((0x34 : BitVec 6) ++ a ++ b ++ c ++ port ++ opt ++ f : BitVec (6+5+5+5+2+3+6)) = _
  rw [BitVec.extractLsb'_append_eq_of_le (by decide)]
  rw [BitVec.extractLsb'_append_eq_of_le (by decide)]
  rw [BitVec.extractLsb'_append_eq_of_le (by decide)]
  rw [BitVec.extractLsb'_append_eq_of_le (by decide)]
  rw [BitVec.extractLsb'_append_eq_of_add_le (by decide)]
  exact BitVec.extractLsb'_eq_self
theorem fC_mkE (a : BitVec 5) (b : BitVec 5) (c : BitVec 5) (port : BitVec 2) (opt : BitVec 3) (f : BitVec 6) : fC (mkE a b c port opt f) = c := by
  show BitVec.extractLsb' 11 5 ((0x34 : BitVec 6) ++ a ++ b ++ c ++ port ++ opt ++ f : BitVec (6+5+5+5+2+3+6)) = _
  rw [BitVec.extractLsb'_append_eq_of_le (by decide)]
  rw [BitVec.extractLsb'_append_eq_of_le (by decide)]
  rw [BitVec.extractLsb'_append_eq_of_le (by decide)]
  rw [BitVec.extractLsb'_append_eq_of_add_le (by decide)]
  exact BitVec.extractLsb'_eq_self
theorem ex9_2_mkE (a : BitVec 5) (b : BitVec 5) (c : BitVec 5) (port : BitVec 2) (opt : BitVec 3) (f : BitVec 6) : (mkE a b c port opt f).extractLsb' 9 2 = port := by
  show BitVec.extractLsb' 9 2 ((0x34 : BitVec 6) ++ a ++ b ++ c ++ port ++ opt ++ f : BitVec (6+5+5+5+2+3+6)) = _
  rw [BitVec.extractLsb'_append_eq_of_le (by decide)]
  rw [BitVec.extractLsb'_append_eq_of_le (by decide)]
  rw [BitVec.extractLsb'_append_eq_of_add_le (by decide)]
  exact BitVec.extractLsb'_eq_self
theorem ex6_3_mkE (a : BitVec 5) (b : BitVec 5) (c : BitVec 5) (port : BitVec 2) (opt : BitVec 3) (f : BitVec 6) : (mkE a b c port opt f).extractLsb' 6 3 = opt := by
  show BitVec.extractLsb' 6 3 ((0x34 : BitVec 6) ++ a ++ b ++ c ++ port ++ opt ++ f : BitVec (6+5+5+5+2+3+6)) = _
  rw [BitVec.extractLsb'_append_eq_of_le (by decide)]
  rw [BitVec.extractLsb'_append_eq_of_add_le (by decide)]
  exact BitVec.extractLsb'_eq_self
theorem ex0_6_mkE (a : BitVec 5) (b : BitVec 5) (c : BitVec 5) (port : BitVec 2) (opt : BitVec 3) (f : BitVec 6) : (mkE a b c port opt f).extractLsb' 0 6 = f := by
  show BitVec.extractLsb' 0 6 ((0x34 : BitVec 6) ++ a ++ b ++ c ++ port ++ opt ++ f : BitVec (6+5+5+5+2+3+6)) = _
  rw [BitVec.extractLsb'_append_eq_of_add_le (by decide)]
  exact BitVec.extractLsb'_eq_self
theorem fMaj_mkL (a : BitVec 5) (b : BitVec 5) (c : BitVec 5) (op : BitVec 5) (sc : BitVec 2) (md : BitVec 4) : fMaj (mkL a b c op sc md) = 0x3A := by
  show BitVec.extractLsb' 26 6 ((0x3A : BitVec 6) ++ a ++ b ++ c ++ op ++ sc ++ md : BitVec (6+5+5+5+5+2+4)) = _
  rw [BitVec.extractLsb'_append_eq_of_le (by decide)]
  rw [BitVec.extractLsb'_append_eq_of_le (by decide)]
  rw [BitVec.extractLsb'_append_eq_of_le (by decide)]
  rw [BitVec.extractLsb'_append_eq_of_le (by decide)]
  rw [BitVec.extractLsb'_append_eq_of_le (by decide)]
  rw [BitVec.extractLsb'_append_eq_of_le (by decide)]
  exact BitVec.extractLsb'_eq_self
theorem fA_mkL (a : BitVec 5) (b : BitVec 5) (c : BitVec 5) (op : BitVec 5) (sc : BitVec 2) (md : BitVec 4) : fA (mkL a b c op sc md) = a := by
  show BitVec.extractLsb' 21 5 ((0x3A : BitVec 6) ++ a ++ b ++ c ++ op ++ sc ++ md : BitVec (6+5+5+5+5+2+4)) = _
  rw [BitVec.extractLsb'_append_eq_of_le (by decide)]
  rw [BitVec.extractLsb'_append_eq_of_le (by decide)]
  rw [BitVec.extractLsb'_append_eq_of_le (by decide)]
  rw [BitVec.extractLsb'_append_eq_of_le (by decide)]
  rw [BitVec.extractLsb'_append_eq_of_le (by decide)]
  rw [BitVec.extractLsb'_append_eq_of_add_le (by decide)]
  exact BitVec.extractLsb'_eq_self
theorem fB_mkL (a : BitVec 5) (b : BitVec 5) (c : BitVec 5) (op : BitVec 5) (sc : BitVec 2) (md : BitVec 4) : fB (mkL a b c op sc md) = b := by
  show BitVec.extractLsb' 16 5 ((0x3A : BitVec 6) ++ a ++ b ++ c ++ op ++ sc ++ md : BitVec (6+5+5+5+5+2+4)) = _
  rw [BitVec.extractLsb'_append_eq_of_le (by decide)]
  rw [BitVec.extractLsb'_append_eq_of_le (by decide)]
  rw [BitVec.extractLsb'_append_eq_of_le (by decide)]
  rw [BitVec.extractLsb'_append_eq_of_le (by decide)]
  rw [BitVec.extractLsb'_append_eq_of_add_le (by decide)]
  exact BitVec.extractLsb'_eq_self
theorem fC_mkL (a : BitVec 5) (b : BitVec 5) (c : BitVec 5) (op : BitVec 5) (sc : BitVec 2) (md : BitVec 4) : fC (mkL a b c op sc md) = c := by
  show BitVec.extractLsb' 11 5 ((0x3A : BitVec 6) ++ a ++ b ++ c ++ op ++ sc ++ md : BitVec (6+5+5+5+5+2+4)) = _
  rw [BitVec.extractLsb'_append_eq_of_le (by decide)]
  rw [BitVec.extractLsb'_append_eq_of_le (by decide)]
  rw [BitVec.extractLsb'_append_eq_of_le (by decide)]
  rw [BitVec.extractLsb'_append_eq_of_add_le (by decide)]
  exact BitVec.extractLsb'_eq_self
theorem ex6_5_mkL (a : BitVec 5) (b : BitVec 5) (c : BitVec 5) (op : BitVec 5) (sc : BitVec 2) (md : BitVec 4) : (mkL a b c op sc md).extractLsb' 6 5 = op := by
  show BitVec.extractLsb' 6 5 ((0x3A : BitVec 6) ++ a ++ b ++ c ++ op ++ sc ++ md : BitVec (6+5+5+5+5+2+4)) = _
  rw [BitVec.extractLsb'_append_eq_of_le (by decide)]
  rw [BitVec.extractLsb'_append_eq_of_le (by decide)]
  rw [BitVec.extractLsb'_append_eq_of_add_le (by decide)]
  exact BitVec.extractLsb'_eq_self
theorem ex4_2_mkL (a : BitVec 5) (b : BitVec 5) (c : BitVec 5) (op : BitVec 5) (sc : BitVec 2) (md : BitVec 4) : (mkL a b c op sc md).extractLsb' 4 2 = sc := by
  show BitVec.extractLsb' 4 2 ((0x3A : BitVec 6) ++ a ++ b ++ c ++ op ++ sc ++ md : BitVec (6+5+5+5+5+2+4)) = _
  rw [BitVec.extractLsb'_append_eq_of_le (by decide)]
  rw [BitVec.extractLsb'_append_eq_of_add_le (by decide)]
  exact BitVec.extractLsb'_eq_self
theorem ex0_4_mkL (a : BitVec 5) (b : BitVec 5) (c : BitVec 5) (op : BitVec 5) (sc : BitVec 2) (md : BitVec 4) : (mkL a b c op sc md).extractLsb' 0 4 = md := by
  show BitVec.extractLsb' 0 4 ((0x3A : BitVec 6) ++ a ++ b ++ c ++ op ++ sc ++ md : BitVec (6+5+5+5+5+2+4)) = _
  rw [BitVec.extractLsb'_append_eq_of_add_le (by decide)]
  exact BitVec.extractLsb'_eq_self
theorem hi_2_3 (x : BitVec 2) (y : BitVec 3) : BitVec.extractLsb' 3 2 (x ++ y : BitVec 5) = x := by
  show BitVec.extractLsb' 3 2 (x ++ y : BitVec (2 + 3)) = _
  rw [BitVec.extractLsb'_append_eq_of_le (by decide)]
  exact BitVec.extractLsb'_eq_self
theorem lo_2_3 (x : BitVec 2) (y : BitVec 3) : BitVec.extractLsb' 0 3 (x ++ y : BitVec 5) = y := by
  show BitVec.extractLsb' 0 3 (x ++ y : BitVec (2 + 3)) = _
  rw [BitVec.extractLsb'_append_eq_of_add_le (by decide)]
  exact BitVec.extractLsb'_eq_self
theorem hi_1_4 (x : BitVec 1) (y : BitVec 4) : BitVec.extractLsb' 4 1 (x ++ y : BitVec 5) = x := by
  show BitVec.extractLsb' 4 1 (x ++ y : BitVec (1 + 4)) = _
  rw [BitVec.extractLsb'_append_eq_of_le (by decide)]
  exact BitVec.extractLsb'_eq_self
theorem lo_1_4 (x : BitVec 1) (y : BitVec 4) : BitVec.extractLsb' 0 4 (x ++ y : BitVec 5) = y := by
  show BitVec.extractLsb' 0 4 (x ++ y : BitVec (1 + 4)) = _
  rw [BitVec.extractLsb'_append_eq_of_add_le (by decide)]
  exact BitVec.extractLsb'_eq_self
theorem hi_4_1 (x : BitVec 4) (y : BitVec 1) : BitVec.extractLsb' 1 4 (x ++ y : BitVec 5) = x := by
  show BitVec.extractLsb' 1 4 (x ++ y : BitVec (4 + 1)) = _
  rw [BitVec.extractLsb'_append_eq_of_le (by decide)]
  exact BitVec.extractLsb'_eq_self
theorem lo_4_1 (x : BitVec 4) (y : BitVec 1) : BitVec.extractLsb' 0 1 (x ++ y : BitVec 5) = y := by
  show BitVec.extractLsb' 0 1 (x ++ y : BitVec (4 + 1)) = _
  rw [BitVec.extractLsb'_append_eq_of_add_le (by decide)]
  exact BitVec.extractLsb'_eq_self
theorem hi_3_2 (x : BitVec 3) (y : BitVec 2) : BitVec.extractLsb' 2 3 (x ++ y : BitVec 5) = x := by
  show BitVec.extractLsb' 2 3 (x ++ y : BitVec (3 + 2)) = _
  rw [BitVec.extractLsb'_append_eq_of_le (by decide)]
  exact BitVec.extractLsb'_eq_self
theorem lo_3_2 (x : BitVec 3) (y : BitVec 2) : BitVec.extractLsb' 0 2 (x ++ y : BitVec 5) = y := by
  show BitVec.extractLsb' 0 2 (x ++ y : BitVec (3 + 2)) = _
  rw [BitVec.extractLsb'_append_eq_of_add_le (by decide)]
  exact BitVec.extractLsb'_eq_self
theorem hi_2_6 (x : BitVec 2) (y : BitVec 6) : BitVec.extractLsb' 6 2 (x ++ y : BitVec 8) = x := by
  show BitVec.extractLsb' 6 2 (x ++ y : BitVec (2 + 6)) = _
  rw [BitVec.extractLsb'_append_eq_of_le (by decide)]
  exact BitVec.extractLsb'_eq_self
theorem lo_2_6 (x : BitVec 2) (y : BitVec 6) : BitVec.extractLsb' 0 6 (x ++ y : BitVec 8) = y := by
  show BitVec.extractLsb' 0 6 (x ++ y : BitVec (2 + 6)) = _
  rw [BitVec.extractLsb'_append_eq_of_add_le (by decide)]
  exact BitVec.extractLsb'_eq_self
theorem hi_3_5 (x : BitVec 3) (y : BitVec 5) : BitVec.extractLsb' 5 3 (x ++ y : BitVec 8) = x := by
  show BitVec.extractLsb' 5 3 (x ++ y : BitVec (3 + 5)) = _
  rw [BitVec.extractLsb'_append_eq_of_le (by decide)]
  exact BitVec.extractLsb'_eq_self
theorem lo_3_5 (x : BitVec 3) (y : BitVec 5) : BitVec.extractLsb' 0 5 (x ++ y : BitVec 8) = y := by
  show BitVec.extractLsb' 0 5 (x ++ y : BitVec (3 + 5)) = _
  rw [BitVec.extractLsb'_append_eq_of_add_le (by decide)]
  exact BitVec.extractLsb'_eq_self
theorem hi_1_2 (x : BitVec 1) (y : BitVec 2) : BitVec.extractLsb' 2 1 (x ++ y : BitVec 3) = x := by
  show BitVec.extractLsb' 2 1 (x ++ y : BitVec (1 + 2)) = _
  rw [BitVec.extractLsb'_append_eq_of_le (by decide)]
  exact BitVec.extractLsb'_eq_self
theorem lo_1_2 (x : BitVec 1) (y : BitVec 2) : BitVec.extractLsb' 0 2 (x ++ y : BitVec 3) = y := by
  show BitVec.extractLsb' 0 2 (x ++ y : BitVec (1 + 2)) = _
  rw [BitVec.extractLsb'_append_eq_of_add_le (by decide)]
  exact BitVec.extractLsb'_eq_self
theorem hi_10_6 (x : BitVec 10) (y : BitVec 6) : BitVec.extractLsb' 6 10 (x ++ y : BitVec 16) = x := by
  show BitVec.extractLsb' 6 10 (x ++ y : BitVec (10 + 6)) = _
  rw [BitVec.extractLsb'_append_eq_of_le (by decide)]
  exact BitVec.extractLsb'_eq_self
theorem lo_10_6 (x : BitVec 10) (y : BitVec 6) : BitVec.extractLsb' 0 6 (x ++ y : BitVec 16) = y := by
  show BitVec.extractLsb' 0 6 (x ++ y : BitVec (10 + 6)) = _
  rw [BitVec.extractLsb'_append_eq_of_add_le (by decide)]
  exact BitVec.extractLsb'_eq_self
theorem hi_4_12 (x : BitVec 4) (y : BitVec 12) : BitVec.extractLsb' 12 4 (x ++ y : BitVec 16) = x := by
  show BitVec.extractLsb' 12 4 (x ++ y : BitVec (4 + 12)) = _
  rw [BitVec.extractLsb'_append_eq_of_le (by decide)]
  exact BitVec.extractLsb'_eq_self
theorem lo_4_12 (x : BitVec 4) (y : BitVec 12) : BitVec.extractLsb' 0 12 (x ++ y : BitVec 16) = y := by
  show BitVec.extractLsb' 0 12 (x ++ y : BitVec (4 + 12)) = _
  rw [BitVec.extractLsb'_append_eq_of_add_le (by decide)]
  exact BitVec.extractLsb'_eq_self
theorem hi_2_1 (x : BitVec 2) (y : BitVec 1) : BitVec.extractLsb' 1 2 (x ++ y : BitVec 3) = x := by
  show BitVec.extractLsb' 1 2 (x ++ y : BitVec (2 + 1)) = _
  rw [BitVec.extractLsb'_append_eq_of_le (by decide)]
  exact BitVec.extractLsb'_eq_self
theorem lo_2_1 (x : BitVec 2) (y : BitVec 1) : BitVec.extractLsb' 0 1 (x ++ y : BitVec 3) = y := by
  show BitVec.extractLsb' 0 1 (x ++ y : BitVec (2 + 1)) = _
  rw [BitVec.extractLsb'_append_eq_of_add_le (by decide)]
  exact BitVec.extractLsb'_eq_self
theorem hi_8_3 (x : BitVec 8) (y : BitVec 3) : BitVec.extractLsb' 3 8 (x ++ y : BitVec 11) = x := by
  show BitVec.extractLsb' 3 8 (x ++ y : BitVec (8 + 3)) = _
  rw [BitVec.extractLsb'_append_eq_of_le (by decide)]
  exact BitVec.extractLsb'_eq_self
theorem lo_8_3 (x : BitVec 8) (y : BitVec 3) : BitVec.extractLsb' 0 3 (x ++ y : BitVec 11) = y := by
  show BitVec.extractLsb' 0 3 (x ++ y : BitVec (8 + 3)) = _
  rw [BitVec.extractLsb'_append_eq_of_add_le (by decide)]
  exact BitVec.extractLsb'_eq_self
theorem ex6_10_mkI (m : BitVec 6) (a b : BitVec 5) (i : BitVec 16) : (mkI m a b i).extractLsb' 6 10 = i.extractLsb' 6 10 := by
  show BitVec.extractLsb' 6 10 (m ++ a ++ b ++ i : BitVec (6+5+5+16)) = _
  rw [BitVec.extractLsb'_append_eq_of_add_le (by decide)]
theorem ex0_6_mkI (m : BitVec 6) (a b : BitVec 5) (i : BitVec 16) : (mkI m a b i).extractLsb' 0 6 = i.extractLsb' 0 6 := by
  show BitVec.extractLsb' 0 6 (m ++ a ++ b ++ i : BitVec (6+5+5+16)) = _
  rw [BitVec.extractLsb'_append_eq_of_add_le (by decide)]
theorem ex12_4_mkI (m : BitVec 6) (a b : BitVec 5) (i : BitVec 16) : (mkI m a b i).extractLsb' 12 4 = i.extractLsb' 12 4 := by
  show BitVec.extractLsb' 12 4 (m ++ a ++ b ++ i : BitVec (6+5+5+16)) = _
  rw [BitVec.extractLsb'_append_eq_of_add_le (by decide)]
theorem ex0_12_mkI (m : BitVec 6) (a b : BitVec 5) (i : BitVec 16) : (mkI m a b i).extractLsb' 0 12 = i.extractLsb' 0 12 := by
  show BitVec.extractLsb' 0 12 (m ++ a ++ b ++ i : BitVec (6+5+5+16)) = _
  rw [BitVec.extractLsb'_append_eq_of_add_le (by decide)]
/-- The word of rptIWord. -/
def rptIWord (l : BitVec 4) (d : BitVec 2) (a : BitVec 2) (b : BitVec 2) (n : BitVec 15) : IWord := (0x3C : BitVec 6) ++ l ++ d ++ a ++ b ++ (0 : BitVec 1) ++ n
theorem fMaj_rptIWord (l : BitVec 4) (d : BitVec 2) (a : BitVec 2) (b : BitVec 2) (n : BitVec 15) : fMaj (rptIWord l d a b n) = (0x3C : BitVec 6) := by
  show BitVec.extractLsb' 26 6 ((0x3C : BitVec 6) ++ l ++ d ++ a ++ b ++ (0 : BitVec 1) ++ n : BitVec (6+4+2+2+2+1+15)) = _
  rw [BitVec.extractLsb'_append_eq_of_le (by decide)]
  rw [BitVec.extractLsb'_append_eq_of_le (by decide)]
  rw [BitVec.extractLsb'_append_eq_of_le (by decide)]
  rw [BitVec.extractLsb'_append_eq_of_le (by decide)]
  rw [BitVec.extractLsb'_append_eq_of_le (by decide)]
  rw [BitVec.extractLsb'_append_eq_of_le (by decide)]
  exact BitVec.extractLsb'_eq_self
theorem ex22_4_rptIWord (l : BitVec 4) (d : BitVec 2) (a : BitVec 2) (b : BitVec 2) (n : BitVec 15) : (rptIWord l d a b n).extractLsb' 22 4 = l := by
  show BitVec.extractLsb' 22 4 ((0x3C : BitVec 6) ++ l ++ d ++ a ++ b ++ (0 : BitVec 1) ++ n : BitVec (6+4+2+2+2+1+15)) = _
  rw [BitVec.extractLsb'_append_eq_of_le (by decide)]
  rw [BitVec.extractLsb'_append_eq_of_le (by decide)]
  rw [BitVec.extractLsb'_append_eq_of_le (by decide)]
  rw [BitVec.extractLsb'_append_eq_of_le (by decide)]
  rw [BitVec.extractLsb'_append_eq_of_le (by decide)]
  rw [BitVec.extractLsb'_append_eq_of_add_le (by decide)]
  exact BitVec.extractLsb'_eq_self
theorem ex20_2_rptIWord (l : BitVec 4) (d : BitVec 2) (a : BitVec 2) (b : BitVec 2) (n : BitVec 15) : (rptIWord l d a b n).extractLsb' 20 2 = d := by
  show BitVec.extractLsb' 20 2 ((0x3C : BitVec 6) ++ l ++ d ++ a ++ b ++ (0 : BitVec 1) ++ n : BitVec (6+4+2+2+2+1+15)) = _
  rw [BitVec.extractLsb'_append_eq_of_le (by decide)]
  rw [BitVec.extractLsb'_append_eq_of_le (by decide)]
  rw [BitVec.extractLsb'_append_eq_of_le (by decide)]
  rw [BitVec.extractLsb'_append_eq_of_le (by decide)]
  rw [BitVec.extractLsb'_append_eq_of_add_le (by decide)]
  exact BitVec.extractLsb'_eq_self
theorem ex18_2_rptIWord (l : BitVec 4) (d : BitVec 2) (a : BitVec 2) (b : BitVec 2) (n : BitVec 15) : (rptIWord l d a b n).extractLsb' 18 2 = a := by
  show BitVec.extractLsb' 18 2 ((0x3C : BitVec 6) ++ l ++ d ++ a ++ b ++ (0 : BitVec 1) ++ n : BitVec (6+4+2+2+2+1+15)) = _
  rw [BitVec.extractLsb'_append_eq_of_le (by decide)]
  rw [BitVec.extractLsb'_append_eq_of_le (by decide)]
  rw [BitVec.extractLsb'_append_eq_of_le (by decide)]
  rw [BitVec.extractLsb'_append_eq_of_add_le (by decide)]
  exact BitVec.extractLsb'_eq_self
theorem ex16_2_rptIWord (l : BitVec 4) (d : BitVec 2) (a : BitVec 2) (b : BitVec 2) (n : BitVec 15) : (rptIWord l d a b n).extractLsb' 16 2 = b := by
  show BitVec.extractLsb' 16 2 ((0x3C : BitVec 6) ++ l ++ d ++ a ++ b ++ (0 : BitVec 1) ++ n : BitVec (6+4+2+2+2+1+15)) = _
  rw [BitVec.extractLsb'_append_eq_of_le (by decide)]
  rw [BitVec.extractLsb'_append_eq_of_le (by decide)]
  rw [BitVec.extractLsb'_append_eq_of_add_le (by decide)]
  exact BitVec.extractLsb'_eq_self
theorem ex15_1_rptIWord (l : BitVec 4) (d : BitVec 2) (a : BitVec 2) (b : BitVec 2) (n : BitVec 15) : (rptIWord l d a b n).extractLsb' 15 1 = (0 : BitVec 1) := by
  show BitVec.extractLsb' 15 1 ((0x3C : BitVec 6) ++ l ++ d ++ a ++ b ++ (0 : BitVec 1) ++ n : BitVec (6+4+2+2+2+1+15)) = _
  rw [BitVec.extractLsb'_append_eq_of_le (by decide)]
  rw [BitVec.extractLsb'_append_eq_of_add_le (by decide)]
  exact BitVec.extractLsb'_eq_self
theorem ex0_15_rptIWord (l : BitVec 4) (d : BitVec 2) (a : BitVec 2) (b : BitVec 2) (n : BitVec 15) : (rptIWord l d a b n).extractLsb' 0 15 = n := by
  show BitVec.extractLsb' 0 15 ((0x3C : BitVec 6) ++ l ++ d ++ a ++ b ++ (0 : BitVec 1) ++ n : BitVec (6+4+2+2+2+1+15)) = _
  rw [BitVec.extractLsb'_append_eq_of_add_le (by decide)]
  exact BitVec.extractLsb'_eq_self
/-- The word of rptRWord. -/
def rptRWord (l : BitVec 4) (d : BitVec 2) (a : BitVec 2) (b : BitVec 2) (r : BitVec 5) : IWord := (0x3C : BitVec 6) ++ l ++ d ++ a ++ b ++ (1 : BitVec 1) ++ r ++ (0 : BitVec 10)
theorem fMaj_rptRWord (l : BitVec 4) (d : BitVec 2) (a : BitVec 2) (b : BitVec 2) (r : BitVec 5) : fMaj (rptRWord l d a b r) = (0x3C : BitVec 6) := by
  show BitVec.extractLsb' 26 6 ((0x3C : BitVec 6) ++ l ++ d ++ a ++ b ++ (1 : BitVec 1) ++ r ++ (0 : BitVec 10) : BitVec (6+4+2+2+2+1+5+10)) = _
  rw [BitVec.extractLsb'_append_eq_of_le (by decide)]
  rw [BitVec.extractLsb'_append_eq_of_le (by decide)]
  rw [BitVec.extractLsb'_append_eq_of_le (by decide)]
  rw [BitVec.extractLsb'_append_eq_of_le (by decide)]
  rw [BitVec.extractLsb'_append_eq_of_le (by decide)]
  rw [BitVec.extractLsb'_append_eq_of_le (by decide)]
  rw [BitVec.extractLsb'_append_eq_of_le (by decide)]
  exact BitVec.extractLsb'_eq_self
theorem ex22_4_rptRWord (l : BitVec 4) (d : BitVec 2) (a : BitVec 2) (b : BitVec 2) (r : BitVec 5) : (rptRWord l d a b r).extractLsb' 22 4 = l := by
  show BitVec.extractLsb' 22 4 ((0x3C : BitVec 6) ++ l ++ d ++ a ++ b ++ (1 : BitVec 1) ++ r ++ (0 : BitVec 10) : BitVec (6+4+2+2+2+1+5+10)) = _
  rw [BitVec.extractLsb'_append_eq_of_le (by decide)]
  rw [BitVec.extractLsb'_append_eq_of_le (by decide)]
  rw [BitVec.extractLsb'_append_eq_of_le (by decide)]
  rw [BitVec.extractLsb'_append_eq_of_le (by decide)]
  rw [BitVec.extractLsb'_append_eq_of_le (by decide)]
  rw [BitVec.extractLsb'_append_eq_of_le (by decide)]
  rw [BitVec.extractLsb'_append_eq_of_add_le (by decide)]
  exact BitVec.extractLsb'_eq_self
theorem ex20_2_rptRWord (l : BitVec 4) (d : BitVec 2) (a : BitVec 2) (b : BitVec 2) (r : BitVec 5) : (rptRWord l d a b r).extractLsb' 20 2 = d := by
  show BitVec.extractLsb' 20 2 ((0x3C : BitVec 6) ++ l ++ d ++ a ++ b ++ (1 : BitVec 1) ++ r ++ (0 : BitVec 10) : BitVec (6+4+2+2+2+1+5+10)) = _
  rw [BitVec.extractLsb'_append_eq_of_le (by decide)]
  rw [BitVec.extractLsb'_append_eq_of_le (by decide)]
  rw [BitVec.extractLsb'_append_eq_of_le (by decide)]
  rw [BitVec.extractLsb'_append_eq_of_le (by decide)]
  rw [BitVec.extractLsb'_append_eq_of_le (by decide)]
  rw [BitVec.extractLsb'_append_eq_of_add_le (by decide)]
  exact BitVec.extractLsb'_eq_self
theorem ex18_2_rptRWord (l : BitVec 4) (d : BitVec 2) (a : BitVec 2) (b : BitVec 2) (r : BitVec 5) : (rptRWord l d a b r).extractLsb' 18 2 = a := by
  show BitVec.extractLsb' 18 2 ((0x3C : BitVec 6) ++ l ++ d ++ a ++ b ++ (1 : BitVec 1) ++ r ++ (0 : BitVec 10) : BitVec (6+4+2+2+2+1+5+10)) = _
  rw [BitVec.extractLsb'_append_eq_of_le (by decide)]
  rw [BitVec.extractLsb'_append_eq_of_le (by decide)]
  rw [BitVec.extractLsb'_append_eq_of_le (by decide)]
  rw [BitVec.extractLsb'_append_eq_of_le (by decide)]
  rw [BitVec.extractLsb'_append_eq_of_add_le (by decide)]
  exact BitVec.extractLsb'_eq_self
theorem ex16_2_rptRWord (l : BitVec 4) (d : BitVec 2) (a : BitVec 2) (b : BitVec 2) (r : BitVec 5) : (rptRWord l d a b r).extractLsb' 16 2 = b := by
  show BitVec.extractLsb' 16 2 ((0x3C : BitVec 6) ++ l ++ d ++ a ++ b ++ (1 : BitVec 1) ++ r ++ (0 : BitVec 10) : BitVec (6+4+2+2+2+1+5+10)) = _
  rw [BitVec.extractLsb'_append_eq_of_le (by decide)]
  rw [BitVec.extractLsb'_append_eq_of_le (by decide)]
  rw [BitVec.extractLsb'_append_eq_of_le (by decide)]
  rw [BitVec.extractLsb'_append_eq_of_add_le (by decide)]
  exact BitVec.extractLsb'_eq_self
theorem ex15_1_rptRWord (l : BitVec 4) (d : BitVec 2) (a : BitVec 2) (b : BitVec 2) (r : BitVec 5) : (rptRWord l d a b r).extractLsb' 15 1 = (1 : BitVec 1) := by
  show BitVec.extractLsb' 15 1 ((0x3C : BitVec 6) ++ l ++ d ++ a ++ b ++ (1 : BitVec 1) ++ r ++ (0 : BitVec 10) : BitVec (6+4+2+2+2+1+5+10)) = _
  rw [BitVec.extractLsb'_append_eq_of_le (by decide)]
  rw [BitVec.extractLsb'_append_eq_of_le (by decide)]
  rw [BitVec.extractLsb'_append_eq_of_add_le (by decide)]
  exact BitVec.extractLsb'_eq_self
theorem ex0_10_rptRWord (l : BitVec 4) (d : BitVec 2) (a : BitVec 2) (b : BitVec 2) (r : BitVec 5) : (rptRWord l d a b r).extractLsb' 0 10 = (0 : BitVec 10) := by
  show BitVec.extractLsb' 0 10 ((0x3C : BitVec 6) ++ l ++ d ++ a ++ b ++ (1 : BitVec 1) ++ r ++ (0 : BitVec 10) : BitVec (6+4+2+2+2+1+5+10)) = _
  rw [BitVec.extractLsb'_append_eq_of_add_le (by decide)]
  exact BitVec.extractLsb'_eq_self
theorem ex10_5_rptRWord (l : BitVec 4) (d : BitVec 2) (a : BitVec 2) (b : BitVec 2) (r : BitVec 5) : (rptRWord l d a b r).extractLsb' 10 5 = r := by
  show BitVec.extractLsb' 10 5 ((0x3C : BitVec 6) ++ l ++ d ++ a ++ b ++ (1 : BitVec 1) ++ r ++ (0 : BitVec 10) : BitVec (6+4+2+2+2+1+5+10)) = _
  rw [BitVec.extractLsb'_append_eq_of_le (by decide)]
  rw [BitVec.extractLsb'_append_eq_of_add_le (by decide)]
  exact BitVec.extractLsb'_eq_self
theorem decode_0x01 (w : IWord) (h : fMaj w = 0x01) : decode w = decA w := by
  unfold decode; rw [h]; rfl
theorem decode_0x02 (w : IWord) (h : fMaj w = 0x02) : decode w = some (.addi (fA w) (fB w) (fImm w)) := by
  unfold decode; rw [h]; rfl
theorem decode_0x03 (w : IWord) (h : fMaj w = 0x03) : decode w = some (.andi (fA w) (fB w) (fImm w)) := by
  unfold decode; rw [h]; rfl
theorem decode_0x04 (w : IWord) (h : fMaj w = 0x04) : decode w = some (.ori (fA w) (fB w) (fImm w)) := by
  unfold decode; rw [h]; rfl
theorem decode_0x05 (w : IWord) (h : fMaj w = 0x05) : decode w = some (.xori (fA w) (fB w) (fImm w)) := by
  unfold decode; rw [h]; rfl
theorem decode_0x06 (w : IWord) (h : fMaj w = 0x06) : decode w = some (.clti (fA w) (fB w) (fImm w)) := by
  unfold decode; rw [h]; rfl
theorem decode_0x07 (w : IWord) (h : fMaj w = 0x07) : decode w = some (.cltiu (fA w) (fB w) (fImm w)) := by
  unfold decode; rw [h]; rfl
theorem decode_0x08 (w : IWord) (h : fMaj w = 0x08) : decode w = some (.insh0 (fA w) (fB w) (fImm w)) := by
  unfold decode; rw [h]; rfl
theorem decode_0x09 (w : IWord) (h : fMaj w = 0x09) : decode w = some (.insh1 (fA w) (fB w) (fImm w)) := by
  unfold decode; rw [h]; rfl
theorem decode_0x0a (w : IWord) (h : fMaj w = 0x0a) : decode w = some (.insh2 (fA w) (fB w) (fImm w)) := by
  unfold decode; rw [h]; rfl
theorem decode_0x0b (w : IWord) (h : fMaj w = 0x0b) : decode w = some (.insh3 (fA w) (fB w) (fImm w)) := by
  unfold decode; rw [h]; rfl
theorem decode_0x0c (w : IWord) (h : fMaj w = 0x0c) : decode w = req (w.extractLsb' 6 10 == 0) (.slli (fA w) (fB w) (w.extractLsb' 0 6)) := by
  unfold decode; rw [h]; rfl
theorem decode_0x0d (w : IWord) (h : fMaj w = 0x0d) : decode w = req (w.extractLsb' 6 10 == 0) (.srli (fA w) (fB w) (w.extractLsb' 0 6)) := by
  unfold decode; rw [h]; rfl
theorem decode_0x0e (w : IWord) (h : fMaj w = 0x0e) : decode w = req (w.extractLsb' 6 10 == 0) (.srai (fA w) (fB w) (w.extractLsb' 0 6)) := by
  unfold decode; rw [h]; rfl
theorem decode_0x10 (w : IWord) (h : fMaj w = 0x10) : decode w = some (.ldB (fA w) (fB w) (fImm w)) := by
  unfold decode; rw [h]; rfl
theorem decode_0x11 (w : IWord) (h : fMaj w = 0x11) : decode w = some (.ldBu (fA w) (fB w) (fImm w)) := by
  unfold decode; rw [h]; rfl
theorem decode_0x12 (w : IWord) (h : fMaj w = 0x12) : decode w = some (.ldH (fA w) (fB w) (fImm w)) := by
  unfold decode; rw [h]; rfl
theorem decode_0x13 (w : IWord) (h : fMaj w = 0x13) : decode w = some (.ldHu (fA w) (fB w) (fImm w)) := by
  unfold decode; rw [h]; rfl
theorem decode_0x14 (w : IWord) (h : fMaj w = 0x14) : decode w = some (.ldW (fA w) (fB w) (fImm w)) := by
  unfold decode; rw [h]; rfl
theorem decode_0x15 (w : IWord) (h : fMaj w = 0x15) : decode w = some (.ldWu (fA w) (fB w) (fImm w)) := by
  unfold decode; rw [h]; rfl
theorem decode_0x16 (w : IWord) (h : fMaj w = 0x16) : decode w = some (.ldD (fA w) (fB w) (fImm w)) := by
  unfold decode; rw [h]; rfl
theorem decode_0x17 (w : IWord) (h : fMaj w = 0x17) : decode w = some (.stB (fA w) (fB w) (fImm w)) := by
  unfold decode; rw [h]; rfl
theorem decode_0x18 (w : IWord) (h : fMaj w = 0x18) : decode w = some (.stH (fA w) (fB w) (fImm w)) := by
  unfold decode; rw [h]; rfl
theorem decode_0x19 (w : IWord) (h : fMaj w = 0x19) : decode w = some (.stW (fA w) (fB w) (fImm w)) := by
  unfold decode; rw [h]; rfl
theorem decode_0x1a (w : IWord) (h : fMaj w = 0x1a) : decode w = some (.stD (fA w) (fB w) (fImm w)) := by
  unfold decode; rw [h]; rfl
theorem decode_0x1c (w : IWord) (h : fMaj w = 0x1c) : decode w = some (.beq (fA w) (fB w) (fImm w)) := by
  unfold decode; rw [h]; rfl
theorem decode_0x1d (w : IWord) (h : fMaj w = 0x1d) : decode w = some (.bne (fA w) (fB w) (fImm w)) := by
  unfold decode; rw [h]; rfl
theorem decode_0x1e (w : IWord) (h : fMaj w = 0x1e) : decode w = some (.blt (fA w) (fB w) (fImm w)) := by
  unfold decode; rw [h]; rfl
theorem decode_0x1f (w : IWord) (h : fMaj w = 0x1f) : decode w = some (.bge (fA w) (fB w) (fImm w)) := by
  unfold decode; rw [h]; rfl
theorem decode_0x20 (w : IWord) (h : fMaj w = 0x20) : decode w = some (.bltu (fA w) (fB w) (fImm w)) := by
  unfold decode; rw [h]; rfl
theorem decode_0x21 (w : IWord) (h : fMaj w = 0x21) : decode w = some (.bgeu (fA w) (fB w) (fImm w)) := by
  unfold decode; rw [h]; rfl
theorem decode_0x22 (w : IWord) (h : fMaj w = 0x22) : decode w = some (.j (w.extractLsb' 0 26)) := by
  unfold decode; rw [h]; rfl
theorem decode_0x23 (w : IWord) (h : fMaj w = 0x23) : decode w = some (.jal (w.extractLsb' 0 26)) := by
  unfold decode; rw [h]; rfl
theorem decode_0x24 (w : IWord) (h : fMaj w = 0x24) : decode w = decB w := by
  unfold decode; rw [h]; rfl
theorem decode_0x25 (w : IWord) (h : fMaj w = 0x25) : decode w = req (fB w == 0 && w.extractLsb' 12 4 == 0) (.cwrd (fA w) (w.extractLsb' 0 12)) := by
  unfold decode; rw [h]; rfl
theorem decode_0x26 (w : IWord) (h : fMaj w = 0x26) : decode w = req (fA w == 0 && w.extractLsb' 12 4 == 0) (.cwwr (w.extractLsb' 0 12) (fB w)) := by
  unfold decode; rw [h]; rfl
theorem decode_0x28 (w : IWord) (h : fMaj w = 0x28) : decode w = decC w := by
  unfold decode; rw [h]; rfl
theorem decode_0x29 (w : IWord) (h : fMaj w = 0x29) : decode w = decD w := by
  unfold decode; rw [h]; rfl
theorem decode_0x2a (w : IWord) (h : fMaj w = 0x2a) : decode w = decE w := by
  unfold decode; rw [h]; rfl
theorem decode_0x2b (w : IWord) (h : fMaj w = 0x2b) : decode w = decF w := by
  unfold decode; rw [h]; rfl
theorem decode_0x2c (w : IWord) (h : fMaj w = 0x2c) : decode w = decG w := by
  unfold decode; rw [h]; rfl
theorem decode_0x30 (w : IWord) (h : fMaj w = 0x30) : decode w = decH w := by
  unfold decode; rw [h]; rfl
theorem decode_0x34 (w : IWord) (h : fMaj w = 0x34) : decode w = decI w := by
  unfold decode; rw [h]; rfl
theorem decode_0x38 (w : IWord) (h : fMaj w = 0x38) : decode w = decJ w := by
  unfold decode; rw [h]; rfl
theorem decode_0x39 (w : IWord) (h : fMaj w = 0x39) : decode w = decK w := by
  unfold decode; rw [h]; rfl
theorem decode_0x3a (w : IWord) (h : fMaj w = 0x3a) : decode w = decL w := by
  unfold decode; rw [h]; rfl
theorem decode_0x3b (w : IWord) (h : fMaj w = 0x3b) : decode w = decM w := by
  unfold decode; rw [h]; rfl
theorem decode_0x3c (w : IWord) (h : fMaj w = 0x3c) : decode w = decRpt w := by
  unfold decode; rw [h]; rfl
theorem decode_0x3d (w : IWord) (h : fMaj w = 0x3d) : decode w = decN w := by
  unfold decode; rw [h]; rfl
end Sys2Proof.Laws
end

