-- ==== Sys2Proof/Laws/Table.lean ====
section
/-! SUPPORT. Tables and memory: reading what was written, leaving the rest alone, and the canonical form of memory, which
every memory operation keeps. -/

namespace Sys2Proof.Machine

/-! ### Tables -/

@[simp] theorem tget_nil {α : Type} (d : α) (n : Nat) : tget d [] n = d := rfl

@[simp] theorem tget_tput_same {α : Type} (d : α) (t : Table α) (n : Nat) (x : α) : tget d (tput t n x) n = x := by
  induction t with
  | nil => simp [tput, tget]
  | cons e t ih =>
    obtain ⟨k, v⟩ := e
    simp only [tput]
    split
    · simp [tget]
    · split
      · simp [tget]
      · rename_i h
        simp [tget, h, ih]

theorem tget_tput_other {α : Type} (d : α) (t : Table α) {m n : Nat} (x : α) (h : m ≠ n) :
    tget d (tput t n x) m = tget d t m := by
  induction t with
  | nil => simp [tput, tget, h]
  | cons e t ih =>
    obtain ⟨k, v⟩ := e
    simp only [tput]
    split
    · simp [tget, h]
    · split
      · rename_i hk
        subst hk
        simp [tget, h]
      · simp [tget, ih]

@[simp] theorem tget_tdel_same {α : Type} (d : α) (t : Table α) (n : Nat) : tget d (tdel t n) n = d := by
  induction t with
  | nil => rfl
  | cons e t ih =>
    obtain ⟨k, v⟩ := e
    by_cases h : k = n
    · simpa [tdel, h] using ih
    · have h' : n ≠ k := fun e => h e.symm
      simpa [tdel, h, tget, h'] using ih

theorem tget_tdel_other {α : Type} (d : α) (t : Table α) {m n : Nat} (h : m ≠ n) :
    tget d (tdel t n) m = tget d t m := by
  induction t with
  | nil => rfl
  | cons e t ih =>
    obtain ⟨k, v⟩ := e
    by_cases hk : k = n
    · subst hk
      have : tget d (tdel ((k, v) :: t) k) m = tget d (tdel t k) m := by simp [tdel]
      rw [this, ih]
      simp [tget, h]
    · have : tdel ((k, v) :: t) n = (k, v) :: tdel t n := by simp [tdel, hk]
      rw [this]
      simp [tget, ih]

@[simp] theorem tget_tset_same {α : Type} [DecidableEq α] (z : α) (t : Table α) (n : Nat) (x : α) :
    tget z (tset z t n x) n = x := by
  unfold tset
  split
  · rename_i h
    simp [h]
  · simp

theorem tget_tset_other {α : Type} [DecidableEq α] (z : α) (t : Table α) {m n : Nat} (x : α) (h : m ≠ n) :
    tget z (tset z t n x) m = tget z t m := by
  unfold tset
  split
  · exact tget_tdel_other z t h
  · exact tget_tput_other z t x h

/-! ### The canonical form (log entry 2) -/

/-- Every number listed in a table is above `a`. -/
def above (a : Nat) (t : Table Byte) : Prop := ∀ e ∈ t, a < e.1

theorem wf_cons_iff (a : Nat) (b : Byte) (t : Table Byte) :
    Memory.wf ((a, b) :: t) = true ↔ b ≠ 0 ∧ above a t ∧ Memory.wf t = true := by
  induction t generalizing a b with
  | nil => simp [Memory.wf, above]
  | cons e t ih =>
    obtain ⟨k, v⟩ := e
    have hk := ih k v
    simp only [Memory.wf, Bool.and_eq_true, bne_iff_ne, decide_eq_true_eq, above, List.mem_cons, forall_eq_or_imp]
    constructor
    · rintro ⟨⟨h1, h2⟩, h3⟩
      exact ⟨h1, ⟨h2, fun e he => lt_trans h2 ((hk.1 h3).2.1 e he)⟩, h3⟩
    · rintro ⟨h1, ⟨h2, _⟩, h3⟩
      exact ⟨⟨h1, h2⟩, h3⟩

@[simp] theorem wf_nil : Memory.wf [] = true := rfl

theorem above_tput {a n : Nat} {t : Table Byte} {b : Byte} (h : above a t) (hn : a < n) : above a (tput t n b) := by
  induction t with
  | nil => simp [tput, above, hn]
  | cons e t ih =>
    obtain ⟨k, v⟩ := e
    have hk : a < k := h (k, v) (by simp)
    have ht : above a t := fun e he => h e (by simp [he])
    simp only [tput]
    split
    · intro e he
      simp only [List.mem_cons] at he
      rcases he with rfl | rfl | he
      · exact hn
      · exact hk
      · exact ht e he
    · split
      · intro e he
        simp only [List.mem_cons] at he
        rcases he with rfl | he
        · exact hn
        · exact ht e he
      · intro e he
        simp only [List.mem_cons] at he
        rcases he with rfl | he
        · exact hk
        · exact ih ht e he

theorem above_tdel {a n : Nat} {t : Table Byte} (h : above a t) : above a (tdel t n) :=
  fun e he => h e (List.mem_of_mem_filter he)

theorem wf_tput {t : Table Byte} {n : Nat} {b : Byte} (h : Memory.wf t = true) (hb : b ≠ 0) :
    Memory.wf (tput t n b) = true := by
  induction t with
  | nil => simpa [tput, Memory.wf] using hb
  | cons e t ih =>
    obtain ⟨k, v⟩ := e
    obtain ⟨h1, h2, h3⟩ := (wf_cons_iff k v t).1 h
    simp only [tput]
    split
    · rename_i hlt
      refine (wf_cons_iff _ _ _).2 ⟨hb, ?_, h⟩
      intro e he
      simp only [List.mem_cons] at he
      rcases he with rfl | he
      · exact hlt
      · exact lt_trans hlt (h2 e he)
    · split
      · rename_i hEq
        subst hEq
        exact (wf_cons_iff _ _ _).2 ⟨hb, h2, h3⟩
      · rename_i hlt hne
        exact (wf_cons_iff _ _ _).2 ⟨h1, above_tput h2 (by omega), ih h3⟩

theorem wf_tdel {t : Table Byte} {n : Nat} (h : Memory.wf t = true) : Memory.wf (tdel t n) = true := by
  induction t with
  | nil => rfl
  | cons e t ih =>
    obtain ⟨k, v⟩ := e
    obtain ⟨h1, h2, h3⟩ := (wf_cons_iff k v t).1 h
    by_cases hk : k = n
    · have : tdel ((k, v) :: t) n = tdel t n := by simp [tdel, hk]
      rw [this]
      exact ih h3
    · have : tdel ((k, v) :: t) n = (k, v) :: tdel t n := by simp [tdel, hk]
      rw [this]
      exact (wf_cons_iff _ _ _).2 ⟨h1, above_tdel h2, ih h3⟩

/-- Writing a byte keeps the canonical form. -/
theorem wf_memPut {m : Table Byte} (h : Memory.wf m = true) (a : Nat) (b : Byte) : Memory.wf (memPut m a b) = true := by
  unfold memPut tset
  split
  · exact wf_tdel h
  · rename_i hb
    exact wf_tput h hb

/-- Writing bytes keeps the canonical form. -/
theorem wf_memPuts {m : Table Byte} (h : Memory.wf m = true) (a : Nat) (bs : List Byte) :
    Memory.wf (memPuts m a bs) = true := by
  induction bs generalizing m a with
  | nil => exact h
  | cons b t ih => exact ih (wf_memPut h a b) (a + 1)

/-- Writing bytes through the state keeps the canonical form. -/
theorem wf_poke {s : State} (h : Memory.wf s.mem = true) (a : Nat) (bs : List Byte) (bad : Bool) :
    Memory.wf (s.poke a bs bad).mem = true := wf_memPuts h a bs

theorem wf_pokeMarked {s : State} (h : Memory.wf s.mem = true) (a : Nat) (bs : List Byte) (bad : Nat) :
    Memory.wf (s.pokeMarked a bs bad).mem = true := wf_poke h a bs false
theorem wf_pokeD {s : State} (h : Memory.wf s.mem = true) (a x : Nat) : Memory.wf (s.pokeD a x).mem = true :=
  wf_memPuts h a _

theorem wf_reset : Memory.wf State.reset.mem = true := rfl

/-! ### Reading what was written -/

@[simp] theorem byte_memPut_same (m : Table Byte) (a : Nat) (b : Byte) : tget 0 (memPut m a b) a = b :=
  tget_tset_same 0 m a b

theorem byte_memPut_other (m : Table Byte) {a c : Nat} (b : Byte) (h : c ≠ a) : tget 0 (memPut m a b) c = tget 0 m c :=
  tget_tset_other 0 m b h

/-- Below the bytes written, and above them, memory is as before. -/
theorem byte_memPuts_outside (m : Table Byte) (a : Nat) (bs : List Byte) {c : Nat} (h : c < a ∨ a + bs.length ≤ c) :
    tget 0 (memPuts m a bs) c = tget 0 m c := by
  induction bs generalizing m a with
  | nil => rfl
  | cons b t ih =>
    simp only [List.length_cons] at h
    rw [memPuts, ih _ _ (by omega)]
    exact byte_memPut_other m b (by omega)

/-- Byte i of what was written reads back. -/
theorem byte_memPuts_inside (m : Table Byte) (a : Nat) (bs : List Byte) {i : Nat} (h : i < bs.length) :
    tget 0 (memPuts m a bs) (a + i) = bs[i] := by
  induction bs generalizing m a i with
  | nil => simp at h
  | cons b t ih =>
    cases i with
    | zero =>
      rw [memPuts, Nat.add_zero, byte_memPuts_outside _ _ _ (by omega)]
      exact byte_memPut_same m a b
    | succ i =>
      have := ih (memPut m a b) (a + 1) (i := i) (by simpa using h)
      rw [memPuts, show a + (i + 1) = a + 1 + i by omega]
      simpa using this

theorem byte_poke_outside (s : State) (a : Nat) (bs : List Byte) (bad : Bool) {c : Nat} (h : c < a ∨ a + bs.length ≤ c) :
    (s.poke a bs bad).byte c = s.byte c := byte_memPuts_outside s.mem a bs h

theorem byte_poke_inside (s : State) (a : Nat) (bs : List Byte) (bad : Bool) {i : Nat} (h : i < bs.length) :
    (s.poke a bs bad).byte (a + i) = bs[i] := byte_memPuts_inside s.mem a bs h

@[simp] theorem bytes_length (s : State) (a n : Nat) : (s.bytes a n).length = n := by
  induction n generalizing a with
  | zero => rfl
  | succ n ih => simp [State.bytes, ih]

theorem bytes_get (s : State) (a n : Nat) {i : Nat} (h : i < n) : (s.bytes a n)[i]'(by simpa using h) = s.byte (a + i) := by
  induction n generalizing a i with
  | zero => omega
  | succ n ih =>
    cases i with
    | zero => simp [State.bytes]
    | succ i =>
      have := ih (a + 1) (i := i) (by omega)
      simp only [State.bytes, List.getElem_cons_succ]
      rw [this, show a + (i + 1) = a + 1 + i by omega]

/-- What was written reads back whole. -/
theorem bytes_poke_same (s : State) (a : Nat) (bs : List Byte) (bad : Bool) : (s.poke a bs bad).bytes a bs.length = bs := by
  apply List.ext_getElem
  · simp
  · intro i h1 h2
    rw [bytes_get _ _ _ (by simpa using h1), byte_poke_inside s a bs bad h2]

/-- Bytes clear of those written read as before. -/
theorem bytes_poke_clear (s : State) (a : Nat) (bs : List Byte) (bad : Bool) (c n : Nat)
    (h : c + n ≤ a ∨ a + bs.length ≤ c) : (s.poke a bs bad).bytes c n = s.bytes c n := by
  apply List.ext_getElem
  · simp
  · intro i h1 h2
    rw [bytes_get _ _ _ (by simpa using h1), bytes_get _ _ _ (by simpa using h1), byte_poke_outside]
    simp at h1
    omega

/-! ### Little-endian numbers (R102) -/

@[simp] theorem leBytes_length (n x : Nat) : (leBytes n x).length = n := by
  induction n generalizing x with
  | zero => rfl
  | succ n ih => simp [leBytes, ih]

theorem leNat_leBytes (n x : Nat) : leNat (leBytes n x) = x % 256 ^ n := by
  induction n generalizing x with
  | zero => simp [leBytes, leNat, Nat.mod_one]
  | succ n ih =>
    simp only [leBytes, leNat, ih, BitVec.toNat_ofNat, show (2 : Nat) ^ 8 = 256 from rfl]
    rw [pow_succ', Nat.mod_mul]

theorem leNat_lt (bs : List Byte) : leNat bs < 256 ^ bs.length := by
  induction bs with
  | nil => simp [leNat]
  | cons b t ih =>
    have := b.isLt
    simp only [leNat, List.length_cons, pow_succ']
    omega

/-- A number written reads back modulo its width. -/
theorem readLE_poke (s : State) (a n x : Nat) (bad : Bool) : (s.poke a (leBytes n x) bad).readLE a n = x % 256 ^ n := by
  have h := bytes_poke_same s a (leBytes n x) bad
  rw [leBytes_length] at h
  rw [State.readLE, h, leNat_leBytes]

/-! ### Keys -/

theorem CoreId_key_inj {a b : CoreId} (h : a.key = b.key) : a = b := by
  obtain ⟨d, c, n⟩ := a
  obtain ⟨d', c', n'⟩ := b
  simp only [CoreId.key] at h
  have := d.isLt; have := c.isLt; have := n.isLt
  have := d'.isLt; have := c'.isLt; have := n'.isLt
  have h1 : n.val = n'.val := by omega
  have h2 : c.val = c'.val := by omega
  have h3 : d.val = d'.val := by omega
  simp [Fin.ext_iff, h1, h2, h3]

theorem CtxId_key_inj {a b : CtxId} (h : a.key = b.key) : a = b := by
  obtain ⟨k, n⟩ := a
  obtain ⟨k', n'⟩ := b
  simp only [CtxId.key] at h
  have := n.isLt; have := n'.isLt
  have h1 : n.val = n'.val := by omega
  have h2 : k.key = k'.key := by omega
  rw [CoreId_key_inj h2]
  simp [Fin.ext_iff, h1]

theorem ClusterId_key_inj {a b : ClusterId} (h : a.key = b.key) : a = b := by
  obtain ⟨d, c⟩ := a
  obtain ⟨d', c'⟩ := b
  simp only [ClusterId.key] at h
  have := c.isLt; have := c'.isLt
  have h1 : c.val = c'.val := by omega
  have h2 : d.val = d'.val := by omega
  simp [Fin.ext_iff, h1, h2]

end Sys2Proof.Machine
end

