-- ==== Sys2Proof/Laws/State.lean ====
section
/-! SUPPORT. What each update of State and of a context leaves in each field: one lemma per field per update, true by rfl. -/

namespace Sys2Proof.Machine

/-! ### setCtx -/

@[simp] theorem setCtx_time (s : State) (c : CtxId) (x : Ctx) : (s.setCtx c x).time = s.time := rfl
@[simp] theorem setCtx_cur (s : State) (c : CtxId) (x : Ctx) : (s.setCtx c x).cur = s.cur := rfl
@[simp] theorem setCtx_agenda (s : State) (c : CtxId) (x : Ctx) : (s.setCtx c x).agenda = s.agenda := rfl
@[simp] theorem setCtx_timers (s : State) (c : CtxId) (x : Ctx) : (s.setCtx c x).timers = s.timers := rfl
@[simp] theorem setCtx_event (s : State) (c : CtxId) (x : Ctx) : (s.setCtx c x).event = s.event := rfl
@[simp] theorem setCtx_faulted (s : State) (c : CtxId) (x : Ctx) : (s.setCtx c x).faulted = s.faulted := rfl
@[simp] theorem setCtx_nextId (s : State) (c : CtxId) (x : Ctx) : (s.setCtx c x).nextId = s.nextId := rfl
@[simp] theorem setCtx_free (s : State) (c : CtxId) (x : Ctx) : (s.setCtx c x).free = s.free := rfl
@[simp] theorem setCtx_mem (s : State) (c : CtxId) (x : Ctx) : (s.setCtx c x).mem = s.mem := rfl
@[simp] theorem setCtx_pois (s : State) (c : CtxId) (x : Ctx) : (s.setCtx c x).pois = s.pois := rfl
@[simp] theorem setCtx_tags (s : State) (c : CtxId) (x : Ctx) : (s.setCtx c x).tags = s.tags := rfl
@[simp] theorem setCtx_counters (s : State) (c : CtxId) (x : Ctx) : (s.setCtx c x).counters = s.counters := rfl
@[simp] theorem setCtx_ctxs (s : State) (c : CtxId) (x : Ctx) : (s.setCtx c x).ctxs = tput s.ctxs c.key x := rfl
@[simp] theorem setCtx_cores (s : State) (c : CtxId) (x : Ctx) : (s.setCtx c x).cores = s.cores := rfl
@[simp] theorem setCtx_clusters (s : State) (c : CtxId) (x : Ctx) : (s.setCtx c x).clusters = s.clusters := rfl
@[simp] theorem setCtx_dies (s : State) (c : CtxId) (x : Ctx) : (s.setCtx c x).dies = s.dies := rfl
@[simp] theorem setCtx_recSeq (s : State) (c : CtxId) (x : Ctx) : (s.setCtx c x).recSeq = s.recSeq := rfl
@[simp] theorem setCtx_regs (s : State) (c : CtxId) (x : Ctx) : (s.setCtx c x).regs = s.regs := rfl
@[simp] theorem setCtx_plat (s : State) (c : CtxId) (x : Ctx) : (s.setCtx c x).plat = s.plat := rfl

/-! ### setMy -/

@[simp] theorem setMy_time (s : State) (x : Ctx) : (s.setMy x).time = s.time := rfl
@[simp] theorem setMy_cur (s : State) (x : Ctx) : (s.setMy x).cur = s.cur := rfl
@[simp] theorem setMy_agenda (s : State) (x : Ctx) : (s.setMy x).agenda = s.agenda := rfl
@[simp] theorem setMy_timers (s : State) (x : Ctx) : (s.setMy x).timers = s.timers := rfl
@[simp] theorem setMy_event (s : State) (x : Ctx) : (s.setMy x).event = s.event := rfl
@[simp] theorem setMy_faulted (s : State) (x : Ctx) : (s.setMy x).faulted = s.faulted := rfl
@[simp] theorem setMy_nextId (s : State) (x : Ctx) : (s.setMy x).nextId = s.nextId := rfl
@[simp] theorem setMy_free (s : State) (x : Ctx) : (s.setMy x).free = s.free := rfl
@[simp] theorem setMy_mem (s : State) (x : Ctx) : (s.setMy x).mem = s.mem := rfl
@[simp] theorem setMy_pois (s : State) (x : Ctx) : (s.setMy x).pois = s.pois := rfl
@[simp] theorem setMy_tags (s : State) (x : Ctx) : (s.setMy x).tags = s.tags := rfl
@[simp] theorem setMy_counters (s : State) (x : Ctx) : (s.setMy x).counters = s.counters := rfl
@[simp] theorem setMy_ctxs (s : State) (x : Ctx) : (s.setMy x).ctxs = tput s.ctxs s.cur.key x := rfl
@[simp] theorem setMy_cores (s : State) (x : Ctx) : (s.setMy x).cores = s.cores := rfl
@[simp] theorem setMy_clusters (s : State) (x : Ctx) : (s.setMy x).clusters = s.clusters := rfl
@[simp] theorem setMy_dies (s : State) (x : Ctx) : (s.setMy x).dies = s.dies := rfl
@[simp] theorem setMy_recSeq (s : State) (x : Ctx) : (s.setMy x).recSeq = s.recSeq := rfl
@[simp] theorem setMy_regs (s : State) (x : Ctx) : (s.setMy x).regs = s.regs := rfl
@[simp] theorem setMy_plat (s : State) (x : Ctx) : (s.setMy x).plat = s.plat := rfl

/-! ### setCore -/

@[simp] theorem setCore_time (s : State) (k : CoreId) (x : Core) : (s.setCore k x).time = s.time := rfl
@[simp] theorem setCore_cur (s : State) (k : CoreId) (x : Core) : (s.setCore k x).cur = s.cur := rfl
@[simp] theorem setCore_agenda (s : State) (k : CoreId) (x : Core) : (s.setCore k x).agenda = s.agenda := rfl
@[simp] theorem setCore_timers (s : State) (k : CoreId) (x : Core) : (s.setCore k x).timers = s.timers := rfl
@[simp] theorem setCore_event (s : State) (k : CoreId) (x : Core) : (s.setCore k x).event = s.event := rfl
@[simp] theorem setCore_faulted (s : State) (k : CoreId) (x : Core) : (s.setCore k x).faulted = s.faulted := rfl
@[simp] theorem setCore_nextId (s : State) (k : CoreId) (x : Core) : (s.setCore k x).nextId = s.nextId := rfl
@[simp] theorem setCore_free (s : State) (k : CoreId) (x : Core) : (s.setCore k x).free = s.free := rfl
@[simp] theorem setCore_mem (s : State) (k : CoreId) (x : Core) : (s.setCore k x).mem = s.mem := rfl
@[simp] theorem setCore_pois (s : State) (k : CoreId) (x : Core) : (s.setCore k x).pois = s.pois := rfl
@[simp] theorem setCore_tags (s : State) (k : CoreId) (x : Core) : (s.setCore k x).tags = s.tags := rfl
@[simp] theorem setCore_counters (s : State) (k : CoreId) (x : Core) : (s.setCore k x).counters = s.counters := rfl
@[simp] theorem setCore_ctxs (s : State) (k : CoreId) (x : Core) : (s.setCore k x).ctxs = s.ctxs := rfl
@[simp] theorem setCore_cores (s : State) (k : CoreId) (x : Core) : (s.setCore k x).cores = tput s.cores k.key x := rfl
@[simp] theorem setCore_clusters (s : State) (k : CoreId) (x : Core) : (s.setCore k x).clusters = s.clusters := rfl
@[simp] theorem setCore_dies (s : State) (k : CoreId) (x : Core) : (s.setCore k x).dies = s.dies := rfl
@[simp] theorem setCore_recSeq (s : State) (k : CoreId) (x : Core) : (s.setCore k x).recSeq = s.recSeq := rfl
@[simp] theorem setCore_regs (s : State) (k : CoreId) (x : Core) : (s.setCore k x).regs = s.regs := rfl
@[simp] theorem setCore_plat (s : State) (k : CoreId) (x : Core) : (s.setCore k x).plat = s.plat := rfl

/-! ### setMyCore -/

@[simp] theorem setMyCore_time (s : State) (x : Core) : (s.setMyCore x).time = s.time := rfl
@[simp] theorem setMyCore_cur (s : State) (x : Core) : (s.setMyCore x).cur = s.cur := rfl
@[simp] theorem setMyCore_agenda (s : State) (x : Core) : (s.setMyCore x).agenda = s.agenda := rfl
@[simp] theorem setMyCore_timers (s : State) (x : Core) : (s.setMyCore x).timers = s.timers := rfl
@[simp] theorem setMyCore_event (s : State) (x : Core) : (s.setMyCore x).event = s.event := rfl
@[simp] theorem setMyCore_faulted (s : State) (x : Core) : (s.setMyCore x).faulted = s.faulted := rfl
@[simp] theorem setMyCore_nextId (s : State) (x : Core) : (s.setMyCore x).nextId = s.nextId := rfl
@[simp] theorem setMyCore_free (s : State) (x : Core) : (s.setMyCore x).free = s.free := rfl
@[simp] theorem setMyCore_mem (s : State) (x : Core) : (s.setMyCore x).mem = s.mem := rfl
@[simp] theorem setMyCore_pois (s : State) (x : Core) : (s.setMyCore x).pois = s.pois := rfl
@[simp] theorem setMyCore_tags (s : State) (x : Core) : (s.setMyCore x).tags = s.tags := rfl
@[simp] theorem setMyCore_counters (s : State) (x : Core) : (s.setMyCore x).counters = s.counters := rfl
@[simp] theorem setMyCore_ctxs (s : State) (x : Core) : (s.setMyCore x).ctxs = s.ctxs := rfl
@[simp] theorem setMyCore_cores (s : State) (x : Core) : (s.setMyCore x).cores = tput s.cores s.cur.core.key x := rfl
@[simp] theorem setMyCore_clusters (s : State) (x : Core) : (s.setMyCore x).clusters = s.clusters := rfl
@[simp] theorem setMyCore_dies (s : State) (x : Core) : (s.setMyCore x).dies = s.dies := rfl
@[simp] theorem setMyCore_recSeq (s : State) (x : Core) : (s.setMyCore x).recSeq = s.recSeq := rfl
@[simp] theorem setMyCore_regs (s : State) (x : Core) : (s.setMyCore x).regs = s.regs := rfl
@[simp] theorem setMyCore_plat (s : State) (x : Core) : (s.setMyCore x).plat = s.plat := rfl

/-! ### setCluster -/

@[simp] theorem setCluster_time (s : State) (c : ClusterId) (x : Cluster) : (s.setCluster c x).time = s.time := rfl
@[simp] theorem setCluster_cur (s : State) (c : ClusterId) (x : Cluster) : (s.setCluster c x).cur = s.cur := rfl
@[simp] theorem setCluster_agenda (s : State) (c : ClusterId) (x : Cluster) : (s.setCluster c x).agenda = s.agenda := rfl
@[simp] theorem setCluster_timers (s : State) (c : ClusterId) (x : Cluster) : (s.setCluster c x).timers = s.timers := rfl
@[simp] theorem setCluster_event (s : State) (c : ClusterId) (x : Cluster) : (s.setCluster c x).event = s.event := rfl
@[simp] theorem setCluster_faulted (s : State) (c : ClusterId) (x : Cluster) : (s.setCluster c x).faulted = s.faulted := rfl
@[simp] theorem setCluster_nextId (s : State) (c : ClusterId) (x : Cluster) : (s.setCluster c x).nextId = s.nextId := rfl
@[simp] theorem setCluster_free (s : State) (c : ClusterId) (x : Cluster) : (s.setCluster c x).free = s.free := rfl
@[simp] theorem setCluster_mem (s : State) (c : ClusterId) (x : Cluster) : (s.setCluster c x).mem = s.mem := rfl
@[simp] theorem setCluster_pois (s : State) (c : ClusterId) (x : Cluster) : (s.setCluster c x).pois = s.pois := rfl
@[simp] theorem setCluster_tags (s : State) (c : ClusterId) (x : Cluster) : (s.setCluster c x).tags = s.tags := rfl
@[simp] theorem setCluster_counters (s : State) (c : ClusterId) (x : Cluster) : (s.setCluster c x).counters = s.counters := rfl
@[simp] theorem setCluster_ctxs (s : State) (c : ClusterId) (x : Cluster) : (s.setCluster c x).ctxs = s.ctxs := rfl
@[simp] theorem setCluster_cores (s : State) (c : ClusterId) (x : Cluster) : (s.setCluster c x).cores = s.cores := rfl
@[simp] theorem setCluster_clusters (s : State) (c : ClusterId) (x : Cluster) : (s.setCluster c x).clusters = tput s.clusters c.key x := rfl
@[simp] theorem setCluster_dies (s : State) (c : ClusterId) (x : Cluster) : (s.setCluster c x).dies = s.dies := rfl
@[simp] theorem setCluster_recSeq (s : State) (c : ClusterId) (x : Cluster) : (s.setCluster c x).recSeq = s.recSeq := rfl
@[simp] theorem setCluster_regs (s : State) (c : ClusterId) (x : Cluster) : (s.setCluster c x).regs = s.regs := rfl
@[simp] theorem setCluster_plat (s : State) (c : ClusterId) (x : Cluster) : (s.setCluster c x).plat = s.plat := rfl

/-! ### setDie -/

@[simp] theorem setDie_time (s : State) (d : Fin 4) (x : Die) : (s.setDie d x).time = s.time := rfl
@[simp] theorem setDie_cur (s : State) (d : Fin 4) (x : Die) : (s.setDie d x).cur = s.cur := rfl
@[simp] theorem setDie_agenda (s : State) (d : Fin 4) (x : Die) : (s.setDie d x).agenda = s.agenda := rfl
@[simp] theorem setDie_timers (s : State) (d : Fin 4) (x : Die) : (s.setDie d x).timers = s.timers := rfl
@[simp] theorem setDie_event (s : State) (d : Fin 4) (x : Die) : (s.setDie d x).event = s.event := rfl
@[simp] theorem setDie_faulted (s : State) (d : Fin 4) (x : Die) : (s.setDie d x).faulted = s.faulted := rfl
@[simp] theorem setDie_nextId (s : State) (d : Fin 4) (x : Die) : (s.setDie d x).nextId = s.nextId := rfl
@[simp] theorem setDie_free (s : State) (d : Fin 4) (x : Die) : (s.setDie d x).free = s.free := rfl
@[simp] theorem setDie_mem (s : State) (d : Fin 4) (x : Die) : (s.setDie d x).mem = s.mem := rfl
@[simp] theorem setDie_pois (s : State) (d : Fin 4) (x : Die) : (s.setDie d x).pois = s.pois := rfl
@[simp] theorem setDie_tags (s : State) (d : Fin 4) (x : Die) : (s.setDie d x).tags = s.tags := rfl
@[simp] theorem setDie_counters (s : State) (d : Fin 4) (x : Die) : (s.setDie d x).counters = s.counters := rfl
@[simp] theorem setDie_ctxs (s : State) (d : Fin 4) (x : Die) : (s.setDie d x).ctxs = s.ctxs := rfl
@[simp] theorem setDie_cores (s : State) (d : Fin 4) (x : Die) : (s.setDie d x).cores = s.cores := rfl
@[simp] theorem setDie_clusters (s : State) (d : Fin 4) (x : Die) : (s.setDie d x).clusters = s.clusters := rfl
@[simp] theorem setDie_dies (s : State) (d : Fin 4) (x : Die) : (s.setDie d x).dies = tput s.dies d.val x := rfl
@[simp] theorem setDie_recSeq (s : State) (d : Fin 4) (x : Die) : (s.setDie d x).recSeq = s.recSeq := rfl
@[simp] theorem setDie_regs (s : State) (d : Fin 4) (x : Die) : (s.setDie d x).regs = s.regs := rfl
@[simp] theorem setDie_plat (s : State) (d : Fin 4) (x : Die) : (s.setDie d x).plat = s.plat := rfl

/-! ### post -/

@[simp] theorem post_time (s : State) (e : Event) : (s.post e).time = s.time := rfl
@[simp] theorem post_cur (s : State) (e : Event) : (s.post e).cur = s.cur := rfl
@[simp] theorem post_agenda (s : State) (e : Event) : (s.post e).agenda = s.agenda ++ [.ev e] := rfl
@[simp] theorem post_timers (s : State) (e : Event) : (s.post e).timers = s.timers := rfl
@[simp] theorem post_event (s : State) (e : Event) : (s.post e).event = s.event := rfl
@[simp] theorem post_faulted (s : State) (e : Event) : (s.post e).faulted = s.faulted := rfl
@[simp] theorem post_nextId (s : State) (e : Event) : (s.post e).nextId = s.nextId := rfl
@[simp] theorem post_free (s : State) (e : Event) : (s.post e).free = s.free := rfl
@[simp] theorem post_mem (s : State) (e : Event) : (s.post e).mem = s.mem := rfl
@[simp] theorem post_pois (s : State) (e : Event) : (s.post e).pois = s.pois := rfl
@[simp] theorem post_tags (s : State) (e : Event) : (s.post e).tags = s.tags := rfl
@[simp] theorem post_counters (s : State) (e : Event) : (s.post e).counters = s.counters := rfl
@[simp] theorem post_ctxs (s : State) (e : Event) : (s.post e).ctxs = s.ctxs := rfl
@[simp] theorem post_cores (s : State) (e : Event) : (s.post e).cores = s.cores := rfl
@[simp] theorem post_clusters (s : State) (e : Event) : (s.post e).clusters = s.clusters := rfl
@[simp] theorem post_dies (s : State) (e : Event) : (s.post e).dies = s.dies := rfl
@[simp] theorem post_recSeq (s : State) (e : Event) : (s.post e).recSeq = s.recSeq := rfl
@[simp] theorem post_regs (s : State) (e : Event) : (s.post e).regs = s.regs := rfl
@[simp] theorem post_plat (s : State) (e : Event) : (s.post e).plat = s.plat := rfl

/-! ### posts -/

@[simp] theorem posts_time (s : State) (es : List Event) : (s.posts es).time = s.time := rfl
@[simp] theorem posts_cur (s : State) (es : List Event) : (s.posts es).cur = s.cur := rfl
@[simp] theorem posts_agenda (s : State) (es : List Event) : (s.posts es).agenda = s.agenda ++ es.map .ev := rfl
@[simp] theorem posts_timers (s : State) (es : List Event) : (s.posts es).timers = s.timers := rfl
@[simp] theorem posts_event (s : State) (es : List Event) : (s.posts es).event = s.event := rfl
@[simp] theorem posts_faulted (s : State) (es : List Event) : (s.posts es).faulted = s.faulted := rfl
@[simp] theorem posts_nextId (s : State) (es : List Event) : (s.posts es).nextId = s.nextId := rfl
@[simp] theorem posts_free (s : State) (es : List Event) : (s.posts es).free = s.free := rfl
@[simp] theorem posts_mem (s : State) (es : List Event) : (s.posts es).mem = s.mem := rfl
@[simp] theorem posts_pois (s : State) (es : List Event) : (s.posts es).pois = s.pois := rfl
@[simp] theorem posts_tags (s : State) (es : List Event) : (s.posts es).tags = s.tags := rfl
@[simp] theorem posts_counters (s : State) (es : List Event) : (s.posts es).counters = s.counters := rfl
@[simp] theorem posts_ctxs (s : State) (es : List Event) : (s.posts es).ctxs = s.ctxs := rfl
@[simp] theorem posts_cores (s : State) (es : List Event) : (s.posts es).cores = s.cores := rfl
@[simp] theorem posts_clusters (s : State) (es : List Event) : (s.posts es).clusters = s.clusters := rfl
@[simp] theorem posts_dies (s : State) (es : List Event) : (s.posts es).dies = s.dies := rfl
@[simp] theorem posts_recSeq (s : State) (es : List Event) : (s.posts es).recSeq = s.recSeq := rfl
@[simp] theorem posts_regs (s : State) (es : List Event) : (s.posts es).regs = s.regs := rfl
@[simp] theorem posts_plat (s : State) (es : List Event) : (s.posts es).plat = s.plat := rfl

/-! ### after -/

@[simp] theorem after_time (s : State) (n : Nat) (e : Event) : (s.after n e).time = s.time := rfl
@[simp] theorem after_cur (s : State) (n : Nat) (e : Event) : (s.after n e).cur = s.cur := rfl
@[simp] theorem after_agenda (s : State) (n : Nat) (e : Event) : (s.after n e).agenda = s.agenda := rfl
@[simp] theorem after_timers (s : State) (n : Nat) (e : Event) : (s.after n e).timers = s.timers ++ [(s.time + n, e)] := rfl
@[simp] theorem after_event (s : State) (n : Nat) (e : Event) : (s.after n e).event = s.event := rfl
@[simp] theorem after_faulted (s : State) (n : Nat) (e : Event) : (s.after n e).faulted = s.faulted := rfl
@[simp] theorem after_nextId (s : State) (n : Nat) (e : Event) : (s.after n e).nextId = s.nextId := rfl
@[simp] theorem after_free (s : State) (n : Nat) (e : Event) : (s.after n e).free = s.free := rfl
@[simp] theorem after_mem (s : State) (n : Nat) (e : Event) : (s.after n e).mem = s.mem := rfl
@[simp] theorem after_pois (s : State) (n : Nat) (e : Event) : (s.after n e).pois = s.pois := rfl
@[simp] theorem after_tags (s : State) (n : Nat) (e : Event) : (s.after n e).tags = s.tags := rfl
@[simp] theorem after_counters (s : State) (n : Nat) (e : Event) : (s.after n e).counters = s.counters := rfl
@[simp] theorem after_ctxs (s : State) (n : Nat) (e : Event) : (s.after n e).ctxs = s.ctxs := rfl
@[simp] theorem after_cores (s : State) (n : Nat) (e : Event) : (s.after n e).cores = s.cores := rfl
@[simp] theorem after_clusters (s : State) (n : Nat) (e : Event) : (s.after n e).clusters = s.clusters := rfl
@[simp] theorem after_dies (s : State) (n : Nat) (e : Event) : (s.after n e).dies = s.dies := rfl
@[simp] theorem after_recSeq (s : State) (n : Nat) (e : Event) : (s.after n e).recSeq = s.recSeq := rfl
@[simp] theorem after_regs (s : State) (n : Nat) (e : Event) : (s.after n e).regs = s.regs := rfl
@[simp] theorem after_plat (s : State) (n : Nat) (e : Event) : (s.after n e).plat = s.plat := rfl

/-! ### fresh -/

@[simp] theorem fresh_time (s : State) : (s.fresh).time = s.time := rfl
@[simp] theorem fresh_cur (s : State) : (s.fresh).cur = s.cur := rfl
@[simp] theorem fresh_agenda (s : State) : (s.fresh).agenda = s.agenda := rfl
@[simp] theorem fresh_timers (s : State) : (s.fresh).timers = s.timers := rfl
@[simp] theorem fresh_event (s : State) : (s.fresh).event = s.event := rfl
@[simp] theorem fresh_faulted (s : State) : (s.fresh).faulted = s.faulted := rfl
@[simp] theorem fresh_nextId (s : State) : (s.fresh).nextId = s.nextId + 1 := rfl
@[simp] theorem fresh_free (s : State) : (s.fresh).free = s.free := rfl
@[simp] theorem fresh_mem (s : State) : (s.fresh).mem = s.mem := rfl
@[simp] theorem fresh_pois (s : State) : (s.fresh).pois = s.pois := rfl
@[simp] theorem fresh_tags (s : State) : (s.fresh).tags = s.tags := rfl
@[simp] theorem fresh_counters (s : State) : (s.fresh).counters = s.counters := rfl
@[simp] theorem fresh_ctxs (s : State) : (s.fresh).ctxs = s.ctxs := rfl
@[simp] theorem fresh_cores (s : State) : (s.fresh).cores = s.cores := rfl
@[simp] theorem fresh_clusters (s : State) : (s.fresh).clusters = s.clusters := rfl
@[simp] theorem fresh_dies (s : State) : (s.fresh).dies = s.dies := rfl
@[simp] theorem fresh_recSeq (s : State) : (s.fresh).recSeq = s.recSeq := rfl
@[simp] theorem fresh_regs (s : State) : (s.fresh).regs = s.regs := rfl
@[simp] theorem fresh_plat (s : State) : (s.fresh).plat = s.plat := rfl

/-! ### freeNext -/

@[simp] theorem freeNext_time (s : State) : (s.freeNext).time = s.time := rfl
@[simp] theorem freeNext_cur (s : State) : (s.freeNext).cur = s.cur := rfl
@[simp] theorem freeNext_agenda (s : State) : (s.freeNext).agenda = s.agenda := rfl
@[simp] theorem freeNext_timers (s : State) : (s.freeNext).timers = s.timers := rfl
@[simp] theorem freeNext_event (s : State) : (s.freeNext).event = s.event := rfl
@[simp] theorem freeNext_faulted (s : State) : (s.freeNext).faulted = s.faulted := rfl
@[simp] theorem freeNext_nextId (s : State) : (s.freeNext).nextId = s.nextId := rfl
@[simp] theorem freeNext_free (s : State) : (s.freeNext).free = s.free + 1 := rfl
@[simp] theorem freeNext_mem (s : State) : (s.freeNext).mem = s.mem := rfl
@[simp] theorem freeNext_pois (s : State) : (s.freeNext).pois = s.pois := rfl
@[simp] theorem freeNext_tags (s : State) : (s.freeNext).tags = s.tags := rfl
@[simp] theorem freeNext_counters (s : State) : (s.freeNext).counters = s.counters := rfl
@[simp] theorem freeNext_ctxs (s : State) : (s.freeNext).ctxs = s.ctxs := rfl
@[simp] theorem freeNext_cores (s : State) : (s.freeNext).cores = s.cores := rfl
@[simp] theorem freeNext_clusters (s : State) : (s.freeNext).clusters = s.clusters := rfl
@[simp] theorem freeNext_dies (s : State) : (s.freeNext).dies = s.dies := rfl
@[simp] theorem freeNext_recSeq (s : State) : (s.freeNext).recSeq = s.recSeq := rfl
@[simp] theorem freeNext_regs (s : State) : (s.freeNext).regs = s.regs := rfl
@[simp] theorem freeNext_plat (s : State) : (s.freeNext).plat = s.plat := rfl

/-! ### poke -/

@[simp] theorem poke_time (s : State) (a : Nat) (bs : List Byte) (bad : Bool) : (s.poke a bs bad).time = s.time := rfl
@[simp] theorem poke_cur (s : State) (a : Nat) (bs : List Byte) (bad : Bool) : (s.poke a bs bad).cur = s.cur := rfl
@[simp] theorem poke_agenda (s : State) (a : Nat) (bs : List Byte) (bad : Bool) : (s.poke a bs bad).agenda = s.agenda := rfl
@[simp] theorem poke_timers (s : State) (a : Nat) (bs : List Byte) (bad : Bool) : (s.poke a bs bad).timers = s.timers := rfl
@[simp] theorem poke_event (s : State) (a : Nat) (bs : List Byte) (bad : Bool) : (s.poke a bs bad).event = s.event := rfl
@[simp] theorem poke_faulted (s : State) (a : Nat) (bs : List Byte) (bad : Bool) : (s.poke a bs bad).faulted = s.faulted := rfl
@[simp] theorem poke_nextId (s : State) (a : Nat) (bs : List Byte) (bad : Bool) : (s.poke a bs bad).nextId = s.nextId := rfl
@[simp] theorem poke_free (s : State) (a : Nat) (bs : List Byte) (bad : Bool) : (s.poke a bs bad).free = s.free := rfl
@[simp] theorem poke_mem (s : State) (a : Nat) (bs : List Byte) (bad : Bool) : (s.poke a bs bad).mem = memPuts s.mem a bs := rfl
@[simp] theorem poke_pois (s : State) (a : Nat) (bs : List Byte) (bad : Bool) : (s.poke a bs bad).pois = poisAfter s.pois a bs.length bad := rfl
@[simp] theorem poke_tags (s : State) (a : Nat) (bs : List Byte) (bad : Bool) : (s.poke a bs bad).tags = s.tags := rfl
@[simp] theorem poke_counters (s : State) (a : Nat) (bs : List Byte) (bad : Bool) : (s.poke a bs bad).counters = s.counters := rfl
@[simp] theorem poke_ctxs (s : State) (a : Nat) (bs : List Byte) (bad : Bool) : (s.poke a bs bad).ctxs = s.ctxs := rfl
@[simp] theorem poke_cores (s : State) (a : Nat) (bs : List Byte) (bad : Bool) : (s.poke a bs bad).cores = s.cores := rfl
@[simp] theorem poke_clusters (s : State) (a : Nat) (bs : List Byte) (bad : Bool) : (s.poke a bs bad).clusters = s.clusters := rfl
@[simp] theorem poke_dies (s : State) (a : Nat) (bs : List Byte) (bad : Bool) : (s.poke a bs bad).dies = s.dies := rfl
@[simp] theorem poke_recSeq (s : State) (a : Nat) (bs : List Byte) (bad : Bool) : (s.poke a bs bad).recSeq = s.recSeq := rfl
@[simp] theorem poke_regs (s : State) (a : Nat) (bs : List Byte) (bad : Bool) : (s.poke a bs bad).regs = s.regs := rfl
@[simp] theorem poke_plat (s : State) (a : Nat) (bs : List Byte) (bad : Bool) : (s.poke a bs bad).plat = s.plat := rfl

/-! ### Accessors after updates -/

@[simp] theorem core_setCtx (s : State) (c : CtxId) (x : Ctx) (d : CoreId) : (s.setCtx c x).core d = s.core d := rfl
@[simp] theorem cluster_setCtx (s : State) (c : CtxId) (x : Ctx) (d : ClusterId) : (s.setCtx c x).cluster d = s.cluster d := rfl
@[simp] theorem die_setCtx (s : State) (c : CtxId) (x : Ctx) (d : Fin 4) : (s.setCtx c x).die d = s.die d := rfl
@[simp] theorem byte_setCtx (s : State) (c : CtxId) (x : Ctx) (d : Nat) : (s.setCtx c x).byte d = s.byte d := rfl
@[simp] theorem core_setMy (s : State) (x : Ctx) (d : CoreId) : (s.setMy x).core d = s.core d := rfl
@[simp] theorem cluster_setMy (s : State) (x : Ctx) (d : ClusterId) : (s.setMy x).cluster d = s.cluster d := rfl
@[simp] theorem die_setMy (s : State) (x : Ctx) (d : Fin 4) : (s.setMy x).die d = s.die d := rfl
@[simp] theorem byte_setMy (s : State) (x : Ctx) (d : Nat) : (s.setMy x).byte d = s.byte d := rfl
@[simp] theorem ctx_setCore (s : State) (k : CoreId) (x : Core) (d : CtxId) : (s.setCore k x).ctx d = s.ctx d := rfl
@[simp] theorem cluster_setCore (s : State) (k : CoreId) (x : Core) (d : ClusterId) : (s.setCore k x).cluster d = s.cluster d := rfl
@[simp] theorem die_setCore (s : State) (k : CoreId) (x : Core) (d : Fin 4) : (s.setCore k x).die d = s.die d := rfl
@[simp] theorem byte_setCore (s : State) (k : CoreId) (x : Core) (d : Nat) : (s.setCore k x).byte d = s.byte d := rfl
@[simp] theorem ctx_setMyCore (s : State) (x : Core) (d : CtxId) : (s.setMyCore x).ctx d = s.ctx d := rfl
@[simp] theorem cluster_setMyCore (s : State) (x : Core) (d : ClusterId) : (s.setMyCore x).cluster d = s.cluster d := rfl
@[simp] theorem die_setMyCore (s : State) (x : Core) (d : Fin 4) : (s.setMyCore x).die d = s.die d := rfl
@[simp] theorem byte_setMyCore (s : State) (x : Core) (d : Nat) : (s.setMyCore x).byte d = s.byte d := rfl
@[simp] theorem ctx_setCluster (s : State) (c : ClusterId) (x : Cluster) (d : CtxId) : (s.setCluster c x).ctx d = s.ctx d := rfl
@[simp] theorem core_setCluster (s : State) (c : ClusterId) (x : Cluster) (d : CoreId) : (s.setCluster c x).core d = s.core d := rfl
@[simp] theorem die_setCluster (s : State) (c : ClusterId) (x : Cluster) (d : Fin 4) : (s.setCluster c x).die d = s.die d := rfl
@[simp] theorem byte_setCluster (s : State) (c : ClusterId) (x : Cluster) (d : Nat) : (s.setCluster c x).byte d = s.byte d := rfl
@[simp] theorem ctx_setDie (s : State) (z : Fin 4) (x : Die) (d : CtxId) : (s.setDie z x).ctx d = s.ctx d := rfl
@[simp] theorem core_setDie (s : State) (z : Fin 4) (x : Die) (d : CoreId) : (s.setDie z x).core d = s.core d := rfl
@[simp] theorem cluster_setDie (s : State) (z : Fin 4) (x : Die) (d : ClusterId) : (s.setDie z x).cluster d = s.cluster d := rfl
@[simp] theorem byte_setDie (s : State) (z : Fin 4) (x : Die) (d : Nat) : (s.setDie z x).byte d = s.byte d := rfl
@[simp] theorem ctx_post (s : State) (e : Event) (d : CtxId) : (s.post e).ctx d = s.ctx d := rfl
@[simp] theorem core_post (s : State) (e : Event) (d : CoreId) : (s.post e).core d = s.core d := rfl
@[simp] theorem cluster_post (s : State) (e : Event) (d : ClusterId) : (s.post e).cluster d = s.cluster d := rfl
@[simp] theorem die_post (s : State) (e : Event) (d : Fin 4) : (s.post e).die d = s.die d := rfl
@[simp] theorem byte_post (s : State) (e : Event) (d : Nat) : (s.post e).byte d = s.byte d := rfl
@[simp] theorem ctx_posts (s : State) (es : List Event) (d : CtxId) : (s.posts es).ctx d = s.ctx d := rfl
@[simp] theorem core_posts (s : State) (es : List Event) (d : CoreId) : (s.posts es).core d = s.core d := rfl
@[simp] theorem cluster_posts (s : State) (es : List Event) (d : ClusterId) : (s.posts es).cluster d = s.cluster d := rfl
@[simp] theorem die_posts (s : State) (es : List Event) (d : Fin 4) : (s.posts es).die d = s.die d := rfl
@[simp] theorem byte_posts (s : State) (es : List Event) (d : Nat) : (s.posts es).byte d = s.byte d := rfl
@[simp] theorem ctx_after (s : State) (n : Nat) (e : Event) (d : CtxId) : (s.after n e).ctx d = s.ctx d := rfl
@[simp] theorem core_after (s : State) (n : Nat) (e : Event) (d : CoreId) : (s.after n e).core d = s.core d := rfl
@[simp] theorem cluster_after (s : State) (n : Nat) (e : Event) (d : ClusterId) : (s.after n e).cluster d = s.cluster d := rfl
@[simp] theorem die_after (s : State) (n : Nat) (e : Event) (d : Fin 4) : (s.after n e).die d = s.die d := rfl
@[simp] theorem byte_after (s : State) (n : Nat) (e : Event) (d : Nat) : (s.after n e).byte d = s.byte d := rfl
@[simp] theorem ctx_fresh (s : State) (d : CtxId) : (s.fresh).ctx d = s.ctx d := rfl
@[simp] theorem core_fresh (s : State) (d : CoreId) : (s.fresh).core d = s.core d := rfl
@[simp] theorem cluster_fresh (s : State) (d : ClusterId) : (s.fresh).cluster d = s.cluster d := rfl
@[simp] theorem die_fresh (s : State) (d : Fin 4) : (s.fresh).die d = s.die d := rfl
@[simp] theorem byte_fresh (s : State) (d : Nat) : (s.fresh).byte d = s.byte d := rfl
@[simp] theorem ctx_freeNext (s : State) (d : CtxId) : (s.freeNext).ctx d = s.ctx d := rfl
@[simp] theorem core_freeNext (s : State) (d : CoreId) : (s.freeNext).core d = s.core d := rfl
@[simp] theorem cluster_freeNext (s : State) (d : ClusterId) : (s.freeNext).cluster d = s.cluster d := rfl
@[simp] theorem die_freeNext (s : State) (d : Fin 4) : (s.freeNext).die d = s.die d := rfl
@[simp] theorem byte_freeNext (s : State) (d : Nat) : (s.freeNext).byte d = s.byte d := rfl
@[simp] theorem pokeMarked_mem (s : State) (a : Nat) (bs : List Byte) (bad : Nat) : (s.pokeMarked a bs bad).mem = memPuts s.mem a bs := rfl
@[simp] theorem pokeMarked_time (s : State) (a : Nat) (bs : List Byte) (bad : Nat) : (s.pokeMarked a bs bad).time = s.time := rfl
@[simp] theorem pokeMarked_cur (s : State) (a : Nat) (bs : List Byte) (bad : Nat) : (s.pokeMarked a bs bad).cur = s.cur := rfl
@[simp] theorem pokeMarked_agenda (s : State) (a : Nat) (bs : List Byte) (bad : Nat) : (s.pokeMarked a bs bad).agenda = s.agenda := rfl
@[simp] theorem pokeMarked_timers (s : State) (a : Nat) (bs : List Byte) (bad : Nat) : (s.pokeMarked a bs bad).timers = s.timers := rfl
@[simp] theorem pokeMarked_event (s : State) (a : Nat) (bs : List Byte) (bad : Nat) : (s.pokeMarked a bs bad).event = s.event := rfl
@[simp] theorem pokeMarked_faulted (s : State) (a : Nat) (bs : List Byte) (bad : Nat) : (s.pokeMarked a bs bad).faulted = s.faulted := rfl
@[simp] theorem pokeMarked_nextId (s : State) (a : Nat) (bs : List Byte) (bad : Nat) : (s.pokeMarked a bs bad).nextId = s.nextId := rfl
@[simp] theorem pokeMarked_free (s : State) (a : Nat) (bs : List Byte) (bad : Nat) : (s.pokeMarked a bs bad).free = s.free := rfl
@[simp] theorem pokeMarked_tags (s : State) (a : Nat) (bs : List Byte) (bad : Nat) : (s.pokeMarked a bs bad).tags = s.tags := rfl
@[simp] theorem pokeMarked_counters (s : State) (a : Nat) (bs : List Byte) (bad : Nat) : (s.pokeMarked a bs bad).counters = s.counters := rfl
@[simp] theorem pokeMarked_ctxs (s : State) (a : Nat) (bs : List Byte) (bad : Nat) : (s.pokeMarked a bs bad).ctxs = s.ctxs := rfl
@[simp] theorem pokeMarked_cores (s : State) (a : Nat) (bs : List Byte) (bad : Nat) : (s.pokeMarked a bs bad).cores = s.cores := rfl
@[simp] theorem pokeMarked_clusters (s : State) (a : Nat) (bs : List Byte) (bad : Nat) : (s.pokeMarked a bs bad).clusters = s.clusters := rfl
@[simp] theorem pokeMarked_dies (s : State) (a : Nat) (bs : List Byte) (bad : Nat) : (s.pokeMarked a bs bad).dies = s.dies := rfl
@[simp] theorem pokeMarked_recSeq (s : State) (a : Nat) (bs : List Byte) (bad : Nat) : (s.pokeMarked a bs bad).recSeq = s.recSeq := rfl
@[simp] theorem pokeMarked_regs (s : State) (a : Nat) (bs : List Byte) (bad : Nat) : (s.pokeMarked a bs bad).regs = s.regs := rfl
@[simp] theorem pokeMarked_plat (s : State) (a : Nat) (bs : List Byte) (bad : Nat) : (s.pokeMarked a bs bad).plat = s.plat := rfl
@[simp] theorem ctx_poke (s : State) (a : Nat) (bs : List Byte) (bad : Bool) (d : CtxId) : (s.poke a bs bad).ctx d = s.ctx d := rfl
@[simp] theorem core_poke (s : State) (a : Nat) (bs : List Byte) (bad : Bool) (d : CoreId) : (s.poke a bs bad).core d = s.core d := rfl
@[simp] theorem cluster_poke (s : State) (a : Nat) (bs : List Byte) (bad : Bool) (d : ClusterId) : (s.poke a bs bad).cluster d = s.cluster d := rfl
@[simp] theorem die_poke (s : State) (a : Nat) (bs : List Byte) (bad : Bool) (d : Fin 4) : (s.poke a bs bad).die d = s.die d := rfl

@[simp] theorem ctx_setCtx_same (s : State) (c : CtxId) (x : Ctx) : (s.setCtx c x).ctx c = x := tget_tput_same _ _ _ _
theorem ctx_setCtx_other (s : State) {c d : CtxId} (x : Ctx) (h : d ≠ c) : (s.setCtx c x).ctx d = s.ctx d :=
  tget_tput_other _ _ _ (fun e => h (CtxId_key_inj e))
@[simp] theorem ctx_setMy_same (s : State) (x : Ctx) : (s.setMy x).ctx s.cur = x := tget_tput_same _ _ _ _
theorem ctx_setMy_other (s : State) {d : CtxId} (x : Ctx) (h : d ≠ s.cur) : (s.setMy x).ctx d = s.ctx d :=
  ctx_setCtx_other s x h
@[simp] theorem my_setMy (s : State) (x : Ctx) : (s.setMy x).my = x := tget_tput_same _ _ _ _
@[simp] theorem core_setCore_same (s : State) (k : CoreId) (x : Core) : (s.setCore k x).core k = x := tget_tput_same _ _ _ _
theorem core_setCore_other (s : State) {k d : CoreId} (x : Core) (h : d ≠ k) : (s.setCore k x).core d = s.core d :=
  tget_tput_other _ _ _ (fun e => h (CoreId_key_inj e))
@[simp] theorem myCore_setMyCore (s : State) (x : Core) : (s.setMyCore x).myCore = x := tget_tput_same _ _ _ _
@[simp] theorem cluster_setCluster_same (s : State) (c : ClusterId) (x : Cluster) : (s.setCluster c x).cluster c = x :=
  tget_tput_same _ _ _ _
theorem cluster_setCluster_other (s : State) {c d : ClusterId} (x : Cluster) (h : d ≠ c) :
    (s.setCluster c x).cluster d = s.cluster d := tget_tput_other _ _ _ (fun e => h (ClusterId_key_inj e))
@[simp] theorem die_setDie_same (s : State) (d : Fin 4) (x : Die) : (s.setDie d x).die d = x := tget_tput_same _ _ _ _
theorem die_setDie_other (s : State) {d e : Fin 4} (x : Die) (h : e ≠ d) : (s.setDie d x).die e = s.die e :=
  tget_tput_other _ _ _ (fun h' => h (Fin.ext h'))

/-! ### Registers of a context (R58, R78, R117) -/

@[simp] theorem greg_zero (x : Ctx) : x.greg 0 = 0 := rfl
@[simp] theorem qreg_zero (x : Ctx) : x.qreg 0 = BitVec.allOnes 64 := rfl
theorem greg_setG_same (x : Ctx) {r : Reg} (w : Word) (h : r ≠ 0) : (x.setG r w).greg r = w := by
  rw [Ctx.greg, Ctx.setG, if_neg h, if_neg h]
  exact tget_tput_same _ _ _ _
theorem greg_setG_other (x : Ctx) {r d : Reg} (w : Word) (h : d ≠ r) : (x.setG r w).greg d = x.greg d := by
  unfold Ctx.setG
  split
  · rfl
  · simp only [Ctx.greg]
    split
    · rfl
    · exact tget_tput_other _ _ _ (fun e => h (BitVec.eq_of_toNat_eq e))
/-- A write to g0 is discarded. -/
@[simp] theorem setG_zero (x : Ctx) (w : Word) : x.setG 0 w = x := rfl
theorem qreg_setQ_same (x : Ctx) {r : PReg} (w : Word) (h : r ≠ 0) : (x.setQ r w).qreg r = w := by
  rw [Ctx.qreg, Ctx.setQ, if_neg h, if_neg h]
  exact tget_tput_same _ _ _ _
theorem qreg_setQ_other (x : Ctx) {r d : PReg} (w : Word) (h : d ≠ r) : (x.setQ r w).qreg d = x.qreg d := by
  unfold Ctx.setQ
  split
  · rfl
  · simp only [Ctx.qreg]
    split
    · rfl
    · exact tget_tput_other _ _ _ (fun e => h (BitVec.eq_of_toNat_eq e))
/-- A write to q0 is discarded. -/
@[simp] theorem setQ_zero (x : Ctx) (w : Word) : x.setQ 0 w = x := rfl
@[simp] theorem vreg_setV_same (x : Ctx) (r : Reg) (w : VWord) : (x.setV r w).vreg r = w := tget_tput_same _ _ _ _
theorem vreg_setV_other (x : Ctx) {r d : Reg} (w : VWord) (h : d ≠ r) : (x.setV r w).vreg d = x.vreg d :=
  tget_tput_other _ _ _ (fun e => h (BitVec.eq_of_toNat_eq e))

@[simp] theorem setG_q (x : Ctx) (r : Reg) (w : Word) : (x.setG r w).q = x.q := by unfold Ctx.setG; split <;> rfl
@[simp] theorem setG_v (x : Ctx) (r : Reg) (w : Word) : (x.setG r w).v = x.v := by unfold Ctx.setG; split <;> rfl
@[simp] theorem setG_vpois (x : Ctx) (r : Reg) (w : Word) : (x.setG r w).vpois = x.vpois := by unfold Ctx.setG; split <;> rfl
@[simp] theorem setG_pc (x : Ctx) (r : Reg) (w : Word) : (x.setG r w).pc = x.pc := by unfold Ctx.setG; split <;> rfl
@[simp] theorem setG_cw (x : Ctx) (r : Reg) (w : Word) : (x.setG r w).cw = x.cw := by unfold Ctx.setG; split <;> rfl
@[simp] theorem setG_frame (x : Ctx) (r : Reg) (w : Word) : (x.setG r w).frame = x.frame := by unfold Ctx.setG; split <;> rfl
@[simp] theorem setG_onFrame (x : Ctx) (r : Reg) (w : Word) : (x.setG r w).onFrame = x.onFrame := by unfold Ctx.setG; split <;> rfl
@[simp] theorem setG_heldTrap (x : Ctx) (r : Reg) (w : Word) : (x.setG r w).heldTrap = x.heldTrap := by unfold Ctx.setG; split <;> rfl
@[simp] theorem setG_suspended (x : Ctx) (r : Reg) (w : Word) : (x.setG r w).suspended = x.suspended := by unfold Ctx.setG; split <;> rfl
@[simp] theorem setG_fq (x : Ctx) (r : Reg) (w : Word) : (x.setG r w).fq = x.fq := by unfold Ctx.setG; split <;> rfl
@[simp] theorem setG_wait (x : Ctx) (r : Reg) (w : Word) : (x.setG r w).wait = x.wait := by unfold Ctx.setG; split <;> rfl
@[simp] theorem setG_task (x : Ctx) (r : Reg) (w : Word) : (x.setG r w).task = x.task := by unfold Ctx.setG; split <;> rfl
@[simp] theorem setG_handled (x : Ctx) (r : Reg) (w : Word) : (x.setG r w).handled = x.handled := by unfold Ctx.setG; split <;> rfl
@[simp] theorem setG_rbuf (x : Ctx) (r : Reg) (w : Word) : (x.setG r w).rbuf = x.rbuf := by unfold Ctx.setG; split <;> rfl
@[simp] theorem setG_rpois (x : Ctx) (r : Reg) (w : Word) : (x.setG r w).rpois = x.rpois := by unfold Ctx.setG; split <;> rfl
@[simp] theorem setG_skipNow (x : Ctx) (r : Reg) (w : Word) : (x.setG r w).skipNow = x.skipNow := by unfold Ctx.setG; split <;> rfl
@[simp] theorem setG_stopReq (x : Ctx) (r : Reg) (w : Word) : (x.setG r w).stopReq = x.stopReq := by unfold Ctx.setG; split <;> rfl
@[simp] theorem setG_saveReq (x : Ctx) (r : Reg) (w : Word) : (x.setG r w).saveReq = x.saveReq := by unfold Ctx.setG; split <;> rfl
@[simp] theorem setG_left (x : Ctx) (r : Reg) (w : Word) : (x.setG r w).left = x.left := by unfold Ctx.setG; split <;> rfl
@[simp] theorem setG_img (x : Ctx) (r : Reg) (w : Word) : (x.setG r w).img = x.img := by unfold Ctx.setG; split <;> rfl
@[simp] theorem setQ_g (x : Ctx) (r : PReg) (w : Word) : (x.setQ r w).g = x.g := by unfold Ctx.setQ; split <;> rfl
@[simp] theorem setQ_v (x : Ctx) (r : PReg) (w : Word) : (x.setQ r w).v = x.v := by unfold Ctx.setQ; split <;> rfl
@[simp] theorem setQ_gpois (x : Ctx) (r : PReg) (w : Word) : (x.setQ r w).gpois = x.gpois := by unfold Ctx.setQ; split <;> rfl
@[simp] theorem setQ_vpois (x : Ctx) (r : PReg) (w : Word) : (x.setQ r w).vpois = x.vpois := by unfold Ctx.setQ; split <;> rfl
@[simp] theorem setQ_pc (x : Ctx) (r : PReg) (w : Word) : (x.setQ r w).pc = x.pc := by unfold Ctx.setQ; split <;> rfl
@[simp] theorem setQ_cw (x : Ctx) (r : PReg) (w : Word) : (x.setQ r w).cw = x.cw := by unfold Ctx.setQ; split <;> rfl
@[simp] theorem setQ_frame (x : Ctx) (r : PReg) (w : Word) : (x.setQ r w).frame = x.frame := by unfold Ctx.setQ; split <;> rfl
@[simp] theorem setQ_onFrame (x : Ctx) (r : PReg) (w : Word) : (x.setQ r w).onFrame = x.onFrame := by unfold Ctx.setQ; split <;> rfl
@[simp] theorem setQ_heldTrap (x : Ctx) (r : PReg) (w : Word) : (x.setQ r w).heldTrap = x.heldTrap := by unfold Ctx.setQ; split <;> rfl
@[simp] theorem setQ_suspended (x : Ctx) (r : PReg) (w : Word) : (x.setQ r w).suspended = x.suspended := by unfold Ctx.setQ; split <;> rfl
@[simp] theorem setQ_fq (x : Ctx) (r : PReg) (w : Word) : (x.setQ r w).fq = x.fq := by unfold Ctx.setQ; split <;> rfl
@[simp] theorem setQ_wait (x : Ctx) (r : PReg) (w : Word) : (x.setQ r w).wait = x.wait := by unfold Ctx.setQ; split <;> rfl
@[simp] theorem setQ_task (x : Ctx) (r : PReg) (w : Word) : (x.setQ r w).task = x.task := by unfold Ctx.setQ; split <;> rfl
@[simp] theorem setQ_handled (x : Ctx) (r : PReg) (w : Word) : (x.setQ r w).handled = x.handled := by unfold Ctx.setQ; split <;> rfl
@[simp] theorem setQ_rbuf (x : Ctx) (r : PReg) (w : Word) : (x.setQ r w).rbuf = x.rbuf := by unfold Ctx.setQ; split <;> rfl
@[simp] theorem setQ_rpois (x : Ctx) (r : PReg) (w : Word) : (x.setQ r w).rpois = x.rpois := by unfold Ctx.setQ; split <;> rfl
@[simp] theorem setQ_skipNow (x : Ctx) (r : PReg) (w : Word) : (x.setQ r w).skipNow = x.skipNow := by unfold Ctx.setQ; split <;> rfl
@[simp] theorem setQ_stopReq (x : Ctx) (r : PReg) (w : Word) : (x.setQ r w).stopReq = x.stopReq := by unfold Ctx.setQ; split <;> rfl
@[simp] theorem setQ_saveReq (x : Ctx) (r : PReg) (w : Word) : (x.setQ r w).saveReq = x.saveReq := by unfold Ctx.setQ; split <;> rfl
@[simp] theorem setQ_left (x : Ctx) (r : PReg) (w : Word) : (x.setQ r w).left = x.left := by unfold Ctx.setQ; split <;> rfl
@[simp] theorem setQ_img (x : Ctx) (r : PReg) (w : Word) : (x.setQ r w).img = x.img := by unfold Ctx.setQ; split <;> rfl
@[simp] theorem poisG_g (x : Ctx) (r : Reg) : (x.poisG r).g = x.g := by unfold Ctx.poisG; split <;> rfl
@[simp] theorem poisG_q (x : Ctx) (r : Reg) : (x.poisG r).q = x.q := by unfold Ctx.poisG; split <;> rfl
@[simp] theorem poisG_v (x : Ctx) (r : Reg) : (x.poisG r).v = x.v := by unfold Ctx.poisG; split <;> rfl
@[simp] theorem poisG_vpois (x : Ctx) (r : Reg) : (x.poisG r).vpois = x.vpois := by unfold Ctx.poisG; split <;> rfl
@[simp] theorem poisG_pc (x : Ctx) (r : Reg) : (x.poisG r).pc = x.pc := by unfold Ctx.poisG; split <;> rfl
@[simp] theorem poisG_cw (x : Ctx) (r : Reg) : (x.poisG r).cw = x.cw := by unfold Ctx.poisG; split <;> rfl
@[simp] theorem poisG_frame (x : Ctx) (r : Reg) : (x.poisG r).frame = x.frame := by unfold Ctx.poisG; split <;> rfl
@[simp] theorem poisG_onFrame (x : Ctx) (r : Reg) : (x.poisG r).onFrame = x.onFrame := by unfold Ctx.poisG; split <;> rfl
@[simp] theorem poisG_heldTrap (x : Ctx) (r : Reg) : (x.poisG r).heldTrap = x.heldTrap := by unfold Ctx.poisG; split <;> rfl
@[simp] theorem poisG_suspended (x : Ctx) (r : Reg) : (x.poisG r).suspended = x.suspended := by unfold Ctx.poisG; split <;> rfl
@[simp] theorem poisG_fq (x : Ctx) (r : Reg) : (x.poisG r).fq = x.fq := by unfold Ctx.poisG; split <;> rfl
@[simp] theorem poisG_wait (x : Ctx) (r : Reg) : (x.poisG r).wait = x.wait := by unfold Ctx.poisG; split <;> rfl
@[simp] theorem poisG_task (x : Ctx) (r : Reg) : (x.poisG r).task = x.task := by unfold Ctx.poisG; split <;> rfl
@[simp] theorem poisG_handled (x : Ctx) (r : Reg) : (x.poisG r).handled = x.handled := by unfold Ctx.poisG; split <;> rfl
@[simp] theorem poisG_rbuf (x : Ctx) (r : Reg) : (x.poisG r).rbuf = x.rbuf := by unfold Ctx.poisG; split <;> rfl
@[simp] theorem poisG_rpois (x : Ctx) (r : Reg) : (x.poisG r).rpois = x.rpois := by unfold Ctx.poisG; split <;> rfl
@[simp] theorem poisG_skipNow (x : Ctx) (r : Reg) : (x.poisG r).skipNow = x.skipNow := by unfold Ctx.poisG; split <;> rfl
@[simp] theorem poisG_stopReq (x : Ctx) (r : Reg) : (x.poisG r).stopReq = x.stopReq := by unfold Ctx.poisG; split <;> rfl
@[simp] theorem poisG_saveReq (x : Ctx) (r : Reg) : (x.poisG r).saveReq = x.saveReq := by unfold Ctx.poisG; split <;> rfl
@[simp] theorem poisG_left (x : Ctx) (r : Reg) : (x.poisG r).left = x.left := by unfold Ctx.poisG; split <;> rfl
@[simp] theorem poisG_img (x : Ctx) (r : Reg) : (x.poisG r).img = x.img := by unfold Ctx.poisG; split <;> rfl
@[simp] theorem setV_g (x : Ctx) (r : Reg) (w : VWord) : (x.setV r w).g = x.g := rfl
@[simp] theorem setV_q (x : Ctx) (r : Reg) (w : VWord) : (x.setV r w).q = x.q := rfl
@[simp] theorem setV_gpois (x : Ctx) (r : Reg) (w : VWord) : (x.setV r w).gpois = x.gpois := rfl
@[simp] theorem setV_vpois (x : Ctx) (r : Reg) (w : VWord) : (x.setV r w).vpois = x.vpois := rfl
@[simp] theorem setV_pc (x : Ctx) (r : Reg) (w : VWord) : (x.setV r w).pc = x.pc := rfl
@[simp] theorem setV_cw (x : Ctx) (r : Reg) (w : VWord) : (x.setV r w).cw = x.cw := rfl
@[simp] theorem setV_frame (x : Ctx) (r : Reg) (w : VWord) : (x.setV r w).frame = x.frame := rfl
@[simp] theorem setV_onFrame (x : Ctx) (r : Reg) (w : VWord) : (x.setV r w).onFrame = x.onFrame := rfl
@[simp] theorem setV_heldTrap (x : Ctx) (r : Reg) (w : VWord) : (x.setV r w).heldTrap = x.heldTrap := rfl
@[simp] theorem setV_suspended (x : Ctx) (r : Reg) (w : VWord) : (x.setV r w).suspended = x.suspended := rfl
@[simp] theorem setV_fq (x : Ctx) (r : Reg) (w : VWord) : (x.setV r w).fq = x.fq := rfl
@[simp] theorem setV_wait (x : Ctx) (r : Reg) (w : VWord) : (x.setV r w).wait = x.wait := rfl
@[simp] theorem setV_task (x : Ctx) (r : Reg) (w : VWord) : (x.setV r w).task = x.task := rfl
@[simp] theorem setV_handled (x : Ctx) (r : Reg) (w : VWord) : (x.setV r w).handled = x.handled := rfl
@[simp] theorem setV_rbuf (x : Ctx) (r : Reg) (w : VWord) : (x.setV r w).rbuf = x.rbuf := rfl
@[simp] theorem setV_rpois (x : Ctx) (r : Reg) (w : VWord) : (x.setV r w).rpois = x.rpois := rfl
@[simp] theorem setV_skipNow (x : Ctx) (r : Reg) (w : VWord) : (x.setV r w).skipNow = x.skipNow := rfl
@[simp] theorem setV_stopReq (x : Ctx) (r : Reg) (w : VWord) : (x.setV r w).stopReq = x.stopReq := rfl
@[simp] theorem setV_saveReq (x : Ctx) (r : Reg) (w : VWord) : (x.setV r w).saveReq = x.saveReq := rfl
@[simp] theorem setV_left (x : Ctx) (r : Reg) (w : VWord) : (x.setV r w).left = x.left := rfl
@[simp] theorem setV_img (x : Ctx) (r : Reg) (w : VWord) : (x.setV r w).img = x.img := rfl
@[simp] theorem setV_late (x : Ctx) (r : Reg) (w : VWord) : (x.setV r w).late = x.late := rfl
@[simp] theorem poisV_g (x : Ctx) (r : Reg) : (x.poisV r).g = x.g := rfl
@[simp] theorem poisV_q (x : Ctx) (r : Reg) : (x.poisV r).q = x.q := rfl
@[simp] theorem poisV_v (x : Ctx) (r : Reg) : (x.poisV r).v = x.v := rfl
@[simp] theorem poisV_gpois (x : Ctx) (r : Reg) : (x.poisV r).gpois = x.gpois := rfl
@[simp] theorem poisV_pc (x : Ctx) (r : Reg) : (x.poisV r).pc = x.pc := rfl
@[simp] theorem poisV_cw (x : Ctx) (r : Reg) : (x.poisV r).cw = x.cw := rfl
@[simp] theorem poisV_frame (x : Ctx) (r : Reg) : (x.poisV r).frame = x.frame := rfl
@[simp] theorem poisV_onFrame (x : Ctx) (r : Reg) : (x.poisV r).onFrame = x.onFrame := rfl
@[simp] theorem poisV_heldTrap (x : Ctx) (r : Reg) : (x.poisV r).heldTrap = x.heldTrap := rfl
@[simp] theorem poisV_suspended (x : Ctx) (r : Reg) : (x.poisV r).suspended = x.suspended := rfl
@[simp] theorem poisV_fq (x : Ctx) (r : Reg) : (x.poisV r).fq = x.fq := rfl
@[simp] theorem poisV_wait (x : Ctx) (r : Reg) : (x.poisV r).wait = x.wait := rfl
@[simp] theorem poisV_task (x : Ctx) (r : Reg) : (x.poisV r).task = x.task := rfl
@[simp] theorem poisV_handled (x : Ctx) (r : Reg) : (x.poisV r).handled = x.handled := rfl
@[simp] theorem poisV_rbuf (x : Ctx) (r : Reg) : (x.poisV r).rbuf = x.rbuf := rfl
@[simp] theorem poisV_rpois (x : Ctx) (r : Reg) : (x.poisV r).rpois = x.rpois := rfl
@[simp] theorem poisV_skipNow (x : Ctx) (r : Reg) : (x.poisV r).skipNow = x.skipNow := rfl
@[simp] theorem poisV_stopReq (x : Ctx) (r : Reg) : (x.poisV r).stopReq = x.stopReq := rfl
@[simp] theorem poisV_saveReq (x : Ctx) (r : Reg) : (x.poisV r).saveReq = x.saveReq := rfl
@[simp] theorem poisV_left (x : Ctx) (r : Reg) : (x.poisV r).left = x.left := rfl
@[simp] theorem poisV_img (x : Ctx) (r : Reg) : (x.poisV r).img = x.img := rfl
@[simp] theorem poisV_late (x : Ctx) (r : Reg) : (x.poisV r).late = x.late := rfl
@[simp] theorem cleanV_g (x : Ctx) (r : Reg) : (x.cleanV r).g = x.g := rfl
@[simp] theorem cleanV_q (x : Ctx) (r : Reg) : (x.cleanV r).q = x.q := rfl
@[simp] theorem cleanV_v (x : Ctx) (r : Reg) : (x.cleanV r).v = x.v := rfl
@[simp] theorem cleanV_gpois (x : Ctx) (r : Reg) : (x.cleanV r).gpois = x.gpois := rfl
@[simp] theorem cleanV_pc (x : Ctx) (r : Reg) : (x.cleanV r).pc = x.pc := rfl
@[simp] theorem cleanV_cw (x : Ctx) (r : Reg) : (x.cleanV r).cw = x.cw := rfl
@[simp] theorem cleanV_frame (x : Ctx) (r : Reg) : (x.cleanV r).frame = x.frame := rfl
@[simp] theorem cleanV_onFrame (x : Ctx) (r : Reg) : (x.cleanV r).onFrame = x.onFrame := rfl
@[simp] theorem cleanV_heldTrap (x : Ctx) (r : Reg) : (x.cleanV r).heldTrap = x.heldTrap := rfl
@[simp] theorem cleanV_suspended (x : Ctx) (r : Reg) : (x.cleanV r).suspended = x.suspended := rfl
@[simp] theorem cleanV_fq (x : Ctx) (r : Reg) : (x.cleanV r).fq = x.fq := rfl
@[simp] theorem cleanV_wait (x : Ctx) (r : Reg) : (x.cleanV r).wait = x.wait := rfl
@[simp] theorem cleanV_task (x : Ctx) (r : Reg) : (x.cleanV r).task = x.task := rfl
@[simp] theorem cleanV_handled (x : Ctx) (r : Reg) : (x.cleanV r).handled = x.handled := rfl
@[simp] theorem cleanV_rbuf (x : Ctx) (r : Reg) : (x.cleanV r).rbuf = x.rbuf := rfl
@[simp] theorem cleanV_rpois (x : Ctx) (r : Reg) : (x.cleanV r).rpois = x.rpois := rfl
@[simp] theorem cleanV_skipNow (x : Ctx) (r : Reg) : (x.cleanV r).skipNow = x.skipNow := rfl
@[simp] theorem cleanV_stopReq (x : Ctx) (r : Reg) : (x.cleanV r).stopReq = x.stopReq := rfl
@[simp] theorem cleanV_saveReq (x : Ctx) (r : Reg) : (x.cleanV r).saveReq = x.saveReq := rfl
@[simp] theorem cleanV_left (x : Ctx) (r : Reg) : (x.cleanV r).left = x.left := rfl
@[simp] theorem cleanV_img (x : Ctx) (r : Reg) : (x.cleanV r).img = x.img := rfl
@[simp] theorem cleanV_late (x : Ctx) (r : Reg) : (x.cleanV r).late = x.late := rfl

@[simp] theorem qreg_setG (x : Ctx) (r : Reg) (w : Word) (d : PReg) : (x.setG r w).qreg d = x.qreg d := by simp [Ctx.qreg]
@[simp] theorem vreg_setG (x : Ctx) (r : Reg) (w : Word) (d : Reg) : (x.setG r w).vreg d = x.vreg d := by simp [Ctx.vreg]
@[simp] theorem greg_setQ (x : Ctx) (r : PReg) (w : Word) (d : Reg) : (x.setQ r w).greg d = x.greg d := by simp [Ctx.greg]
@[simp] theorem vreg_setQ (x : Ctx) (r : PReg) (w : Word) (d : Reg) : (x.setQ r w).vreg d = x.vreg d := by simp [Ctx.vreg]
@[simp] theorem greg_setV (x : Ctx) (r : Reg) (w : VWord) (d : Reg) : (x.setV r w).greg d = x.greg d := by simp [Ctx.greg]
@[simp] theorem qreg_setV (x : Ctx) (r : Reg) (w : VWord) (d : PReg) : (x.setV r w).qreg d = x.qreg d := by simp [Ctx.qreg]
@[simp] theorem greg_poisG (x : Ctx) (r : Reg) (d : Reg) : (x.poisG r).greg d = x.greg d := by simp [Ctx.greg]
@[simp] theorem qreg_poisG (x : Ctx) (r : Reg) (d : PReg) : (x.poisG r).qreg d = x.qreg d := by simp [Ctx.qreg]
@[simp] theorem vreg_poisG (x : Ctx) (r : Reg) (d : Reg) : (x.poisG r).vreg d = x.vreg d := by simp [Ctx.vreg]
@[simp] theorem greg_poisV (x : Ctx) (r : Reg) (d : Reg) : (x.poisV r).greg d = x.greg d := by simp [Ctx.greg]
@[simp] theorem qreg_poisV (x : Ctx) (r : Reg) (d : PReg) : (x.poisV r).qreg d = x.qreg d := by simp [Ctx.qreg]
@[simp] theorem vreg_poisV (x : Ctx) (r : Reg) (d : Reg) : (x.poisV r).vreg d = x.vreg d := by simp [Ctx.vreg]
@[simp] theorem greg_cleanV (x : Ctx) (r : Reg) (d : Reg) : (x.cleanV r).greg d = x.greg d := by simp [Ctx.greg]
@[simp] theorem qreg_cleanV (x : Ctx) (r : Reg) (d : PReg) : (x.cleanV r).qreg d = x.qreg d := by simp [Ctx.qreg]
@[simp] theorem vreg_cleanV (x : Ctx) (r : Reg) (d : Reg) : (x.cleanV r).vreg d = x.vreg d := by simp [Ctx.vreg]

end Sys2Proof.Machine
end

