-- ==== Sys2Proof/Laws/Ops.lean ====
section
/-! SUPPORT. What the shared operations do, said once: the source checks, moving on, writing registers, the forms of the
instructions of registers alone. -/

namespace Sys2Proof.Machine

/-! ### Checks that pass -/

theorem guardP_clean {s : State} {gs vs : List Reg} (h : s.Clean gs vs) (k : State) : s.guardP gs vs k = k := by
  unfold State.guardP
  rw [h]

theorem slotOnly_slot {s : State} (h : s.InSlot) (i : Instr) (k : State) : s.slotOnly i k = k := by
  unfold State.slotOnly
  rw [h]
  rfl

theorem supOnly_sup {s : State} (h : s.sup s.cur = true) (i : Instr) (k : State) : s.supOnly i k = k := by
  unfold State.supOnly
  rw [h]
  rfl

/-- The sources are clean exactly when no poison bit of them is set. -/
theorem clean_iff (s : State) (gs vs : List Reg) :
    s.Clean gs vs ↔ (∀ r ∈ gs, s.my.gpois.getLsbD r.toNat = false) ∧ (∀ r ∈ vs, s.my.vpois.getLsbD r.toNat = false) := by
  have low : ∀ l : List Reg, lowest l = none ↔ l = [] := by
    intro l
    cases l with
    | nil => simp [lowest]
    | cons r t =>
      simp only [lowest, reduceCtorEq, iff_false]
      split <;> simp
  unfold State.Clean Ctx.poisoned
  cases hg : lowest (gs.filter (fun r => s.my.gpois.getLsbD r.toNat)) with
  | some n =>
    have : ¬ gs.filter (fun r => s.my.gpois.getLsbD r.toNat) = [] := fun e => by simp [e, lowest] at hg
    simp only [List.filter_eq_nil_iff, not_forall] at this
    obtain ⟨r, hr, hb⟩ := this
    simp only [reduceCtorEq, false_iff, not_and]
    intro h
    simp [h r hr] at hb
  | none =>
    have h1 := (low _).1 hg
    cases hv : lowest (vs.filter (fun r => s.my.vpois.getLsbD r.toNat)) with
    | some n =>
      have : ¬ vs.filter (fun r => s.my.vpois.getLsbD r.toNat) = [] := fun e => by simp [e, lowest] at hv
      simp only [List.filter_eq_nil_iff, not_forall] at this
      obtain ⟨r, hr, hb⟩ := this
      simp only [reduceCtorEq, false_iff, not_and]
      intro _ h
      simp [h r hr] at hb
    | none =>
      have h2 := (low _).1 hv
      simp only [List.filter_eq_nil_iff] at h1 h2
      simp only [true_iff]
      exact ⟨fun r hr => by simpa using h1 r hr, fun r hr => by simpa using h2 r hr⟩

/-! ### Only the current context changes -/

theorem onlyMine_refl (s : State) : OnlyMine s s := ⟨rfl, fun _ _ => rfl⟩

theorem onlyMine_setMy (s : State) (x : Ctx) : OnlyMine s (s.setMy x) :=
  ⟨rfl, fun _ h => ctx_setMy_other s x h⟩

theorem OnlyMine.cur {s t : State} (h : OnlyMine s t) : t.cur = s.cur := by
  have := congrArg State.cur h.1
  exact this

theorem OnlyMine.trans {s t u : State} (h : OnlyMine s t) (k : OnlyMine t u) : OnlyMine s u := by
  refine ⟨?_, fun c hc => ?_⟩
  · have h1 := h.1
    have k1 := k.1
    rw [← h1]
    conv_rhs => rw [← k1]
  · rw [k.2 c (by rw [h.cur]; exact hc), h.2 c hc]

theorem OnlyMine.mem {s t : State} (h : OnlyMine s t) : t.mem = s.mem := by
  have := congrArg State.mem h.1
  exact this
theorem OnlyMine.sameMem {s t : State} (h : OnlyMine s t) : SameMem s t := by
  have h1 := congrArg State.mem h.1
  have h2 := congrArg State.pois h.1
  exact ⟨h1, h2⟩
theorem OnlyMine.byte {s t : State} (h : OnlyMine s t) (a : Nat) : t.byte a = s.byte a := by
  unfold State.byte
  rw [h.mem]

/-! ### Registers kept -/

theorem Keeps.refl (gs : List Reg) (qs : List PReg) (vs : List Reg) (cws : List Nat) (x : Ctx) : Keeps gs qs vs cws x x :=
  ⟨fun _ _ => ⟨rfl, rfl⟩, fun _ _ => rfl, fun _ _ => ⟨rfl, rfl⟩, fun _ _ => rfl, rfl, rfl⟩

theorem Keeps.trans {gs qs vs cws x y z} (h : Keeps gs qs vs cws x y) (k : Keeps gs qs vs cws y z) :
    Keeps gs qs vs cws x z :=
  ⟨fun r hr => ⟨(k.g r hr).1.trans (h.g r hr).1, (k.g r hr).2.trans (h.g r hr).2⟩, fun r hr => (k.q r hr).trans (h.q r hr),
   fun r hr => ⟨(k.v r hr).1.trans (h.v r hr).1, (k.v r hr).2.trans (h.v r hr).2⟩,
   fun n hn => (k.cw n hn).trans (h.cw n hn), k.task.trans h.task, k.handled.trans h.handled⟩

theorem Keeps.mono {gs gs' : List Reg} {qs qs' : List PReg} {vs vs' : List Reg} {cws cws' : List Nat} {x y : Ctx}
    (h : Keeps gs qs vs cws x y) (hg : gs ⊆ gs') (hq : qs ⊆ qs') (hv : vs ⊆ vs') (hc : cws ⊆ cws') :
    Keeps gs' qs' vs' cws' x y :=
  ⟨fun r hr => h.g r (fun m => hr (hg m)), fun r hr => h.q r (fun m => hr (hq m)), fun r hr => h.v r (fun m => hr (hv m)),
   fun n hn => h.cw n (fun m => hn (hc m)), h.task, h.handled⟩

theorem cwv_tput_other (x : Ctx) {m n : Nat} (w : Word) (h : m ≠ n) :
    tget (cwReset m) (tput x.cw n w) m = x.cwv m := tget_tput_other _ _ _ h

theorem keeps_setG (x : Ctx) (r : Reg) (w : Word) : Keeps [r] [] [] [] x (x.setG r w) := by
  refine ⟨fun k hk => ?_, fun _ _ => ?_, fun _ _ => ?_, fun _ _ => ?_, ?_, ?_⟩
  · have hk : k ≠ r := by simpa using hk
    refine ⟨greg_setG_other _ _ hk, ?_⟩
    unfold Ctx.setG
    split
    · rfl
    · simp only [BitVec.getLsbD_and, BitVec.getLsbD_not, BitVec.getLsbD_shiftLeft]
      have hne : k.toNat ≠ r.toNat := fun e => hk (BitVec.eq_of_toNat_eq e)
      have hk32 := k.isLt
      by_cases h2 : k.toNat < r.toNat
      · simp [h2, hk32]
      · have : k.toNat - r.toNat ≠ 0 := by omega
        simp [h2, this, hk32]
  all_goals (unfold Ctx.setG; split <;> first | rfl | exact ⟨rfl, rfl⟩)

theorem keeps_setQ (x : Ctx) (r : PReg) (w : Word) : Keeps [] [r] [] [] x (x.setQ r w) := by
  refine ⟨fun k hk => ?_, fun k hk => ?_, fun _ _ => ?_, fun _ _ => ?_, ?_, ?_⟩
  · unfold Ctx.setQ; split <;> exact ⟨rfl, rfl⟩
  · exact qreg_setQ_other _ _ (by simpa using hk)
  all_goals (unfold Ctx.setQ; split <;> first | rfl | exact ⟨rfl, rfl⟩)

theorem keeps_setV (x : Ctx) (r : Reg) (w : VWord) : Keeps [] [] [r] [] x (x.setV r w) := by
  refine ⟨fun _ _ => ⟨rfl, rfl⟩, fun _ _ => rfl, fun k hk => ⟨?_, rfl⟩, fun _ _ => rfl, rfl, rfl⟩
  exact vreg_setV_other _ _ (by simpa using hk)

theorem keeps_cleanV (x : Ctx) (r : Reg) : Keeps [] [] [r] [] x (x.cleanV r) := by
  refine ⟨fun _ _ => ⟨rfl, rfl⟩, fun _ _ => rfl, fun k hk => ⟨rfl, ?_⟩, fun _ _ => rfl, rfl, rfl⟩
  have hk : k ≠ r := by simpa using hk
  have hne : k.toNat ≠ r.toNat := fun e => hk (BitVec.eq_of_toNat_eq e)
  have hk32 := k.isLt
  simp only [Ctx.cleanV, BitVec.getLsbD_and, BitVec.getLsbD_not, BitVec.getLsbD_shiftLeft]
  by_cases h2 : k.toNat < r.toNat
  · simp [h2, hk32]
  · have : k.toNat - r.toNat ≠ 0 := by omega
    simp [h2, this, hk32]

theorem keeps_setCw (x : Ctx) (n : Nat) (w : Word) : Keeps [] [] [] [n] x (x.setCw n w) := by
  refine ⟨fun _ _ => ⟨rfl, rfl⟩, fun _ _ => rfl, fun _ _ => ⟨rfl, rfl⟩, fun k hk => ?_, rfl, rfl⟩
  exact cwv_tput_other x w (by simpa using hk)

theorem keeps_leave (x : Ctx) : Keeps [] [] [] leftWords x x.leave := by
  refine ⟨fun _ _ => ⟨rfl, rfl⟩, fun _ _ => rfl, fun _ _ => ⟨rfl, rfl⟩, fun k hk => ?_, rfl, rfl⟩
  simp only [leftWords, List.mem_cons, List.not_mem_nil, or_false, not_or] at hk
  unfold Ctx.leave Ctx.cwv
  dsimp only
  split
  · exact cwv_tput_other x _ hk.2
  · rfl

theorem keeps_stepFrame (x : Ctx) (f : Frame) : Keeps [] [] [] leftWords x (x.stepFrame f) := by
  unfold Ctx.stepFrame
  split
  · exact ⟨fun _ _ => ⟨rfl, rfl⟩, fun _ _ => rfl, fun _ _ => ⟨rfl, rfl⟩, fun _ _ => rfl, rfl, rfl⟩
  · refine ⟨fun _ _ => ⟨rfl, rfl⟩, fun _ _ => rfl, fun _ _ => ⟨rfl, rfl⟩, fun k hk => ?_, rfl, rfl⟩
    simp only [leftWords, List.mem_cons, List.not_mem_nil, or_false, not_or] at hk
    exact cwv_tput_other x _ hk.1

/-- Moving on keeps every register. -/
theorem keeps_advance (x : Ctx) : Keeps [] [] [] leftWords x x.advance := by
  refine (keeps_leave x).trans ?_
  unfold Ctx.advance
  dsimp only
  split
  · exact keeps_stepFrame _ _
  · exact ⟨fun _ _ => ⟨rfl, rfl⟩, fun _ _ => rfl, fun _ _ => ⟨rfl, rfl⟩, fun _ _ => rfl, rfl, rfl⟩

/-- Moving on passes the instruction. -/
theorem past_advance (x : Ctx) : Past x x.advance := by
  constructor
  · intro h
    unfold Ctx.advance
    have : x.leave.onFrame = false := h
    dsimp only
    rw [this]
    exact ⟨rfl, rfl⟩
  · intro f h hf
    unfold Ctx.advance
    have h1 : x.leave.onFrame = true := h
    have h2 : x.leave.frame = some f := hf
    dsimp only
    rw [h1, h2]
    dsimp only
    unfold Ctx.stepFrame
    cases hn : f.next with
    | none => exact ⟨rfl, rfl⟩
    | some g => exact ⟨rfl, rfl⟩

/-- Writing registers before moving on does not touch where the context stands. -/
structure SameSpot (x y : Ctx) : Prop where
  pc : y.pc = x.pc
  frame : y.frame = x.frame
  onFrame : y.onFrame = x.onFrame

theorem SameSpot.refl (x : Ctx) : SameSpot x x := ⟨rfl, rfl, rfl⟩
theorem SameSpot.trans {x y z : Ctx} (h : SameSpot x y) (k : SameSpot y z) : SameSpot x z :=
  ⟨k.pc.trans h.pc, k.frame.trans h.frame, k.onFrame.trans h.onFrame⟩

theorem spot_setG (x : Ctx) (r : Reg) (w : Word) : SameSpot x (x.setG r w) := by
  unfold Ctx.setG; split <;> exact ⟨rfl, rfl, rfl⟩
theorem spot_setQ (x : Ctx) (r : PReg) (w : Word) : SameSpot x (x.setQ r w) := by
  unfold Ctx.setQ; split <;> exact ⟨rfl, rfl, rfl⟩

theorem SameSpot.past {x y z : Ctx} (h : SameSpot x y) (k : Past y z) : Past x z := by
  constructor
  · intro e
    have := k.1 (by rw [h.onFrame]; exact e)
    rw [h.pc, h.frame] at this
    exact this
  · intro f e hf
    have := k.2 f (by rw [h.onFrame]; exact e) (by rw [h.frame]; exact hf)
    rw [h.pc] at this
    exact this

/-- Changes of the current context's registers alone, before it moves on. -/
structure Writes (gs : List Reg) (qs : List PReg) (vs : List Reg) (cws : List Nat) (s t : State) : Prop where
  only : OnlyMine s t
  keeps : Keeps gs qs vs cws s.my t.my
  spot : SameSpot s.my t.my

theorem Writes.refl (gs qs vs cws s) : Writes gs qs vs cws s s := ⟨onlyMine_refl s, Keeps.refl _ _ _ _ _, SameSpot.refl _⟩
theorem Writes.trans {gs qs vs cws s t u} (h : Writes gs qs vs cws s t) (k : Writes gs qs vs cws t u) :
    Writes gs qs vs cws s u := ⟨h.only.trans k.only, h.keeps.trans k.keeps, h.spot.trans k.spot⟩
theorem Writes.mono {gs gs' : List Reg} {qs qs' : List PReg} {vs vs' : List Reg} {cws cws' : List Nat} {s t : State}
    (h : Writes gs qs vs cws s t) (hg : gs ⊆ gs') (hq : qs ⊆ qs') (hv : vs ⊆ vs') (hc : cws ⊆ cws') :
    Writes gs' qs' vs' cws' s t := ⟨h.only, h.keeps.mono hg hq hv hc, h.spot⟩

theorem writes_setMy {gs qs vs cws} (s : State) {y : Ctx} (h : Keeps gs qs vs cws s.my y) (k : SameSpot s.my y) :
    Writes gs qs vs cws s (s.setMy y) :=
  ⟨onlyMine_setMy s y, by rw [my_setMy]; exact h, by rw [my_setMy]; exact k⟩

theorem writes_setQ (s : State) (r : PReg) (w : Word) : Writes [] [r] [] [] s (s.setQ r w) :=
  writes_setMy s (keeps_setQ _ _ _) (spot_setQ _ _ _)

theorem writes_setV (s : State) (r : Reg) (w : VWord) : Writes [] [] [r] [] s (s.setV r w) :=
  writes_setMy s (keeps_setV _ _ _) ⟨rfl, rfl, rfl⟩

theorem writes_addFlags (s : State) (fl : Nat) : Writes [] [] [] [cwFFLAGS] s (s.addFlags fl) :=
  writes_setMy s (keeps_setCw _ _ _) ⟨rfl, rfl, rfl⟩

theorem writes_setLanes (s : State) (vd : Reg) (w : Nat) (act : List Bool) (new : List Nat) :
    Writes [] [] [vd] [] s (s.setLanes vd w act new) := by
  unfold State.setLanes
  refine writes_setMy s ?_ ?_
  · split
    · exact (keeps_setV _ _ _).trans (keeps_cleanV _ _)
    · exact keeps_setV _ _ _
  · split <;> exact ⟨rfl, rfl, rfl⟩

theorem writes_setAll (s : State) (vd : Reg) (w : Nat) (l : List Nat) : Writes [] [] [vd] [] s (s.setAll vd w l) :=
  writes_setLanes s vd w _ l

/-- Writing registers and moving on. -/
theorem Writes.advance {gs qs vs cws s t} (h : Writes gs qs vs cws s t) : RegFrame gs qs vs cws s t.advance := by
  refine ⟨h.only.trans (onlyMine_setMy _ _), ?_, ?_⟩
  · unfold State.advance
    rw [my_setMy]
    exact (h.keeps.mono (List.Subset.refl _) (List.Subset.refl _) (List.Subset.refl _)
      (List.subset_append_right _ _)).trans ((keeps_advance _).mono (List.nil_subset _) (List.nil_subset _)
        (List.nil_subset _) (List.subset_append_left _ _))
  · unfold State.advance
    rw [my_setMy]
    exact h.spot.past (past_advance _)

theorem done_eq (s : State) (gd : Reg) (w : Word) : s.done gd w = s.setMy (s.my.setG gd w).advance := rfl

/-- What `done` does: gd written, everything else kept, past the instruction. -/
theorem regFrame_done (s : State) (gd : Reg) (w : Word) : RegFrame [gd] [] [] [] s (s.done gd w) := by
  refine ⟨onlyMine_setMy _ _, ?_, ?_⟩
  · rw [done_eq, my_setMy]
    exact ((keeps_setG _ gd w).mono (List.Subset.refl _) (List.Subset.refl _) (List.Subset.refl _) (List.nil_subset _)).trans
      ((keeps_advance _).mono (List.nil_subset _) (List.Subset.refl _) (List.Subset.refl _) (List.subset_append_left _ _))
  · rw [done_eq, my_setMy]
    exact (spot_setG _ _ _).past (past_advance _)

@[simp] theorem greg_advance (x : Ctx) (r : Reg) : x.advance.greg r = x.greg r := ((keeps_advance x).g r (by simp)).1
@[simp] theorem qreg_advance (x : Ctx) (r : PReg) : x.advance.qreg r = x.qreg r := (keeps_advance x).q r (by simp)
@[simp] theorem vreg_advance (x : Ctx) (r : Reg) : x.advance.vreg r = x.vreg r := ((keeps_advance x).v r (by simp)).1
@[simp] theorem my_advance (s : State) : s.advance.my = s.my.advance := my_setMy _ _
@[simp] theorem my_done (s : State) (gd : Reg) (w : Word) : (s.done gd w).my = (s.my.setG gd w).advance := my_setMy _ _

/-- The destination reads the value written; g0 reads zero. -/
theorem g_done (s : State) (gd : Reg) (w : Word) : (s.done gd w).g gd = if gd = 0 then 0 else w := by
  unfold State.g
  rw [my_done, greg_advance]
  split
  · rename_i h
    subst h
    rfl
  · rename_i h
    exact greg_setG_same _ _ h

/-! ### A doubleword of a region control block written (R169) -/

@[simp] theorem regPut_time (s : State) (n k v : Nat) : (s.regPut n k v).time = s.time := rfl
@[simp] theorem regPut_cur (s : State) (n k v : Nat) : (s.regPut n k v).cur = s.cur := rfl
@[simp] theorem regPut_agenda (s : State) (n k v : Nat) : (s.regPut n k v).agenda = s.agenda := rfl
@[simp] theorem regPut_timers (s : State) (n k v : Nat) : (s.regPut n k v).timers = s.timers := rfl
@[simp] theorem regPut_event (s : State) (n k v : Nat) : (s.regPut n k v).event = s.event := rfl
@[simp] theorem regPut_faulted (s : State) (n k v : Nat) : (s.regPut n k v).faulted = s.faulted := rfl
@[simp] theorem regPut_nextId (s : State) (n k v : Nat) : (s.regPut n k v).nextId = s.nextId := rfl
@[simp] theorem regPut_free (s : State) (n k v : Nat) : (s.regPut n k v).free = s.free := rfl
@[simp] theorem regPut_tags (s : State) (n k v : Nat) : (s.regPut n k v).tags = s.tags := rfl
@[simp] theorem regPut_counters (s : State) (n k v : Nat) : (s.regPut n k v).counters = s.counters := rfl
@[simp] theorem regPut_ctxs (s : State) (n k v : Nat) : (s.regPut n k v).ctxs = s.ctxs := rfl
@[simp] theorem regPut_cores (s : State) (n k v : Nat) : (s.regPut n k v).cores = s.cores := rfl
@[simp] theorem regPut_clusters (s : State) (n k v : Nat) :
    (s.regPut n k v).clusters = s.regMark (s.regLoc n k) n := rfl
@[simp] theorem regPut_dies (s : State) (n k v : Nat) : (s.regPut n k v).dies = s.dies := rfl
@[simp] theorem regPut_recSeq (s : State) (n k v : Nat) : (s.regPut n k v).recSeq = s.recSeq := rfl
@[simp] theorem regPut_plat (s : State) (n k v : Nat) : (s.regPut n k v).plat = s.plat := rfl
@[simp] theorem regPut_regs (s : State) (n k v : Nat) : (s.regPut n k v).regs = tset 0 s.regs (32 * n + k) (word v) := rfl


/-! ### What a save keeps, and what is known of other devices -/

@[simp] theorem cwv_setCw (x : Ctx) (i : Nat) (w : Word) : (x.setCw i w).cwv i = w := by
  simp [Ctx.cwv, Ctx.setCw]
@[simp] theorem cwv_setCw_other (x : Ctx) {i j : Nat} (w : Word) (h : j ≠ i) : (x.setCw i w).cwv j = x.cwv j := cwv_tput_other x w h

/-- A restored context has no mode bit that was not kept for it, and the TVEC that was kept (R10). -/
theorem within_modes (x : Ctx) (m : Word × Word) : (x.within m).modes = (x.cwv cwSTATUS &&& m.1 &&& 3, m.2) := by
  have h : cwSTATUS ≠ cwTVEC := by decide
  simp only [Ctx.modes, Ctx.within, cwv_setCw, cwv_setCw_other _ _ h]
  congr 1
  rw [BitVec.and_assoc, BitVec.and_assoc]
  congr 1
  ext i hi
  simp only [BitVec.getElem_and, BitVec.getElem_or, Bool.and_or_distrib_right]
  have h4 : ((4 : Word)[i] && (3 : Word)[i]) = false := by
    rw [← BitVec.getElem_and]; simp
  rw [h4, Bool.or_false]

/-- Nothing is left to ask when the colour rule is known at every address (R209). -/
theorem unasked_none (s : State) (pas : List Nat) : s.unasked pas = none ↔ ∀ pa ∈ pas, s.colourKnown pa = true := by
  simp [State.unasked]
/-- What is asked first is one of the addresses, and not known. -/
theorem unasked_some {s : State} {pas : List Nat} {pa : Nat} (h : s.unasked pas = some pa) :
    pa ∈ pas ∧ s.colourKnown pa = false := by
  refine ⟨List.mem_of_find?_eq_some h, ?_⟩
  simpa using List.find?_some h
end Sys2Proof.Machine
end

