-- ==== Sys2Proof/Laws/Forms.lean ====
section
/-! SUPPORT. What the shared operand forms do: each completes on clean sources and writes what its frame names; a plain
access to local memory. -/

namespace Sys2Proof.Machine

/-- A lane-wise operation of two vectors completes and writes its destination vector only. -/
theorem vec2_form {s : State} {i w vd va vb q f} (hs : s.InSlot) (h : s.Clean [] [va, vb]) :
    CompletesWith (opVec2 s i w vd va vb q f) (fun t => RegFrame [] [] [vd] [] s t) := by
  refine ⟨_, rfl, ?_⟩
  rw [slotOnly_slot hs, guardP_clean h]
  exact (writes_setLanes _ _ _ _ _).advance

/-- A lane-wise operation of one vector. -/
theorem vec1_form {s : State} {i w vd va q f} (hs : s.InSlot) (h : s.Clean [] [va]) :
    CompletesWith (opVec1 s i w vd va q f) (fun t => RegFrame [] [] [vd] [] s t) := by
  refine ⟨_, rfl, ?_⟩
  rw [slotOnly_slot hs, guardP_clean h]
  exact (writes_setLanes _ _ _ _ _).advance

/-- A lane-wise floating-point operation also sets accrued exception bits. -/
theorem float_form {s : State} {i w vd q srcs r} (hs : s.InSlot) (h : s.Clean [] srcs) :
    CompletesWith (opFloat s i w vd q srcs r) (fun t => RegFrame [] [] [vd] [cwFFLAGS] s t) := by
  refine ⟨_, rfl, ?_⟩
  rw [slotOnly_slot hs, guardP_clean h]
  exact (((writes_setLanes s vd w _ _).mono (List.Subset.refl _) (List.Subset.refl _) (List.Subset.refl _) (List.nil_subset _)).trans
    ((writes_addFlags _ _).mono (List.Subset.refl _) (List.Subset.refl _) (List.nil_subset _) (List.Subset.refl _))).advance

/-- A lane-wise comparison writes its predicate and the accrued exception bits. -/
theorem cmp_form {s : State} {i w qd va vb q f} (hs : s.InSlot) (h : s.Clean [] [va, vb]) :
    CompletesWith (opCmp s i w qd va vb q f) (fun t => RegFrame [] [qd] [] [cwFFLAGS] s t) := by
  refine ⟨_, rfl, ?_⟩
  rw [slotOnly_slot hs, guardP_clean h]
  exact (((writes_setQ s qd _).mono (List.Subset.refl _) (List.Subset.refl _) (List.Subset.refl _) (List.nil_subset _)).trans
    ((writes_addFlags _ _).mono (List.Subset.refl _) (List.nil_subset _) (List.Subset.refl _) (List.Subset.refl _))).advance

/-- A narrowing conversion writes its vector and the accrued exception bits. -/
theorem narrow_form {s : State} {i w hh vd va q f} (hs : s.InSlot) (h : s.Clean [] [va]) :
    CompletesWith (opNarrow s i w hh vd va q f) (fun t => RegFrame [] [] [vd] [cwFFLAGS] s t) := by
  refine ⟨_, rfl, ?_⟩
  rw [slotOnly_slot hs, guardP_clean h]
  exact (((writes_setLanes s vd w _ _).mono (List.Subset.refl _) (List.Subset.refl _) (List.Subset.refl _) (List.nil_subset _)).trans
    ((writes_addFlags _ _).mono (List.Subset.refl _) (List.Subset.refl _) (List.nil_subset _) (List.Subset.refl _))).advance

/-- A scalar operation of two registers completes and writes its destination register only. -/
theorem op2_form {s : State} {d a b f} (h : s.Clean [a, b] []) :
    CompletesWith (op2 s d a b f) (fun t => RegFrame [d] [] [] [] s t) := by
  refine ⟨_, rfl, ?_⟩
  rw [guardP_clean h]; exact regFrame_done _ _ _

/-- A scalar operation of one register. -/
theorem op1_form {s : State} {d a f} (h : s.Clean [a] []) :
    CompletesWith (op1 s d a f) (fun t => RegFrame [d] [] [] [] s t) := by
  refine ⟨_, rfl, ?_⟩
  rw [guardP_clean h]; exact regFrame_done _ _ _
/-- An aligned access inside local memory that meets no stash line and no watched address goes to that place at once. -/
theorem access_plain {s : State} {i : Instr} {a : Word} {k : Asked} {n : Nat} (h : s.PlainLocal a n) (hk : k.size = n) (hn : 0 < n) :
    s.access i a k = (s, some (.own a.toNat)) := by
  have h1 := h.inside
  unfold State.access
  rw [hk, if_neg (by simp [h.aligned])]
  have hpl : s.place a = .loc a.toNat := by
    unfold State.place
    dsimp only
    rw [if_pos (by omega), if_neg]
    unfold areaOf
    rw [if_pos (by omega)]
    simp
  have har : areaOf a.toNat = .mem := by unfold areaOf; rw [if_pos (by omega)]
  have hr : s.resolve i a k = (s, some (.own a.toNat)) := by
    unfold State.resolve
    dsimp only
    rw [hpl]
    dsimp only
    rw [har]
    simp only [Asked.areaOk]
    have hs : s.stashReady a a.toNat k.wr k.lane = (s, true) := by
      unfold State.stashReady
      dsimp only
      have := h.noStash 0 hn
      unfold State.myCore at this
      rw [Nat.add_zero] at this
      rw [this]
    rw [hs]
    simp
  rw [hr]
  dsimp only
  have hc : ∀ l, l = [] → s.channelOk l = (s, true) := by
    intro l hl
    unfold State.channelOk State.chanTest
    rw [hl]; simp
  rw [hc _ (by split <;> rfl)]
  dsimp only
  have hw : ∀ l r w, s.watchHit l r w = none := by
    intro l r w
    unfold State.watchHit
    split
    · rfl
    · rw [List.findSome?_eq_none_iff]
      intro n _
      rw [h.noBreak n]
      simp
  rw [hw]


end Sys2Proof.Machine
end

