-- ==== Sys2Proof/Laws/Memory.lean ====
section
/-! SUPPORT. Every operation that writes memory keeps its canonical form: the region blocks, the Annals, fault records, home
slices, stash copies, the banks of a core. -/

namespace Sys2Proof.Machine

/-- A fold of operations that keep the form keeps it. -/
theorem wf_foldl {β : Type} (f : State → β → State)
    (hf : ∀ s e, Memory.wf s.mem = true → Memory.wf (f s e).mem = true) (l : List β) (s : State)
    (h : Memory.wf s.mem = true) : Memory.wf (l.foldl f s).mem = true := by
  induction l generalizing s with
  | nil => exact h
  | cons e t ih => exact ih _ (hf _ _ h)

theorem wf_regPut {s : State} (h : Memory.wf s.mem = true) (n k v : Nat) : Memory.wf (s.regPut n k v).mem = true :=
  wf_pokeD h _ _

theorem wf_setLive {s : State} (h : Memory.wf s.mem = true) (n a b : Nat) : Memory.wf (s.setLive n a b).mem = true :=
  wf_regPut h _ _ _

/-- Both branches keep the form. -/
theorem wf_ite {p : Prop} [Decidable p] {u v : State} (hu : Memory.wf u.mem = true) (hv : Memory.wf v.mem = true) :
    Memory.wf (if p then u else v).mem = true := by
  split
  · exact hu
  · exact hv

@[simp] theorem mem_count (s : State) (k : CoreId) (ev : Nat) (r : Option Nat) (n : Nat) : (s.count k ev r n).mem = s.mem := by
  unfold State.count; exact setCore_mem _ _ _

@[simp] theorem mem_errs (s : State) (c : ClusterId) (a b : Nat) : (s.errs c a b).mem = s.mem := by
  unfold State.errs; exact setCluster_mem _ _ _

@[simp] theorem mem_setStash (s : State) (k : CoreId) (key : Nat) (l : Option StashLine) : (s.setStash k key l).mem = s.mem := by
  unfold State.setStash; exact setCore_mem _ _ _

theorem wf_writeBack {s : State} (h : Memory.wf s.mem = true) (c : ClusterId) (n : Nat) (l : Line) :
    Memory.wf (s.writeBack c n l).mem = true := by
  unfold State.writeBack
  split
  · rw [post_mem]; exact h
  · exact h

@[simp] theorem mem_putLine (s : State) (c : ClusterId) (n : Nat) (l : Line) : (s.putLine c n l).mem = s.mem :=
  setCluster_mem _ _ _

@[simp] theorem mem_dropLine (s : State) (c : ClusterId) (n : Nat) : (s.dropLine c n).mem = s.mem :=
  setCluster_mem _ _ _

@[simp] theorem mem_countFor (s : State) (k : Option CoreId) (e r : Nat) : (s.countFor k e r).mem = s.mem := by
  cases k
  · rfl
  · exact mem_count _ _ _ _ _

theorem wf_evict {s : State} (h : Memory.wf s.mem = true) (c : ClusterId) (n : Nat) : Memory.wf (s.evict c n).mem = true := by
  unfold State.evict
  split
  · exact h
  · rw [mem_dropLine]; exact wf_writeBack h _ _ _

theorem wf_makeRoom {s : State} (h : Memory.wf s.mem = true) (c : ClusterId) (o : Option Nat) (k : Option CoreId) (r : Nat) :
    Memory.wf (s.makeRoom c o k r).mem = true := by
  unfold State.makeRoom
  split
  · exact h
  · split
    · split
      · exact wf_evict (by rw [mem_countFor]; exact h) _ _
      · exact wf_evict h _ _
    · exact wf_evict h _ _

theorem wf_missLine {s : State} (h : Memory.wf s.mem = true) (c : ClusterId) (n r : Nat) (w : Bool) (k : Option CoreId) :
    Memory.wf (s.missLine c n r w k).mem = true := by
  unfold State.missLine
  split
  · exact h
  · dsimp only
    rw [mem_putLine]; exact wf_makeRoom h _ _ _ _

theorem wf_touch {s : State} (h : Memory.wf s.mem = true) (loc r : Nat) (w : Bool) (k : Option CoreId) :
    Memory.wf (s.touch loc r w k).mem = true := by
  unfold State.touch
  split
  · exact h
  · dsimp only
    split
    · rw [mem_putLine, fresh_mem]; exact h
    · exact wf_missLine (by rw [mem_countFor, fresh_mem]; exact h) _ _ _ _ _

theorem wf_spoil {s : State} (h : Memory.wf s.mem = true) (loc r : Nat) : Memory.wf (s.spoil loc r).mem = true := by
  unfold State.spoil
  split
  · rw [post_mem]; exact h
  · exact h

theorem wf_stashCopy {s : State} (h : Memory.wf s.mem = true) (k : CoreId) (key : Nat) (l : StashLine) :
    Memory.wf (s.stashCopy k key l).mem = true :=
  wf_poke (wf_touch h _ _ _ _) _ _ _

theorem wf_stashWriteBack {s : State} (h : Memory.wf s.mem = true) (k : CoreId) (key : Nat) (l : StashLine) :
    Memory.wf (s.stashWriteBack k key l).mem = true := by
  have hc := wf_stashCopy h k key l
  unfold State.stashWriteBack
  exact wf_ite (wf_ite (wf_spoil hc _ _) hc) h

theorem wf_recallOne {s : State} (h : Memory.wf s.mem = true) (k : CoreId) (key : Nat) (b : Bool) :
    Memory.wf (s.recallOne k key b).mem = true := by
  unfold State.recallOne
  split
  · exact h
  · rw [mem_setStash, mem_count]; exact wf_stashWriteBack h _ _ _

theorem wf_recall {s : State} (h : Memory.wf s.mem = true) (loc : Nat) (w : Bool) (e : Option CoreId) :
    Memory.wf (s.recall loc w e).mem = true := by
  unfold State.recall
  refine wf_foldl _ ?_ _ _ h
  intro u x hu
  refine wf_ite hu ?_
  split
  · exact wf_ite (wf_recallOne hu _ _ _) hu
  · exact hu

@[simp] theorem mem_fillNote (s : State) (loc n r : Nat) (w : Bool) (k : Option CoreId) (l : Nat) :
    (s.fillNote loc n r w k l).mem = s.mem := by
  unfold State.fillNote
  split <;> rfl

theorem wf_homeAccess {s : State} (h : Memory.wf s.mem = true) (loc n r : Nat) (w : Bool) (k : Option CoreId) :
    Memory.wf (s.homeAccess loc n r w k).mem = true :=
  wf_foldl _ (fun _ _ hu => wf_touch (by rw [mem_fillNote]; exact wf_recall hu _ _ _) _ _ _ _) _ _ h

theorem wf_homeTake {s : State} (h : Memory.wf s.mem = true) (loc n r : Nat) (w : Bool) (k : Option CoreId) :
    Memory.wf (s.homeTake loc n r w k).mem = true :=
  wf_foldl _ (fun _ _ hu => wf_touch (wf_recall hu _ _ _) _ _ _ _) _ _ h

theorem wf_hwWrite {s : State} (h : Memory.wf s.mem = true) (pa : Nat) (bs : List Byte) (bad : Bool) (r : Nat) :
    Memory.wf (s.hwWrite pa bs bad r).mem = true := by
  unfold State.hwWrite
  split
  · exact h
  split
  · exact wf_poke (wf_homeAccess h _ _ _ _ _) _ _ _
  · exact h

theorem wf_homeD {s : State} (h : Memory.wf s.mem = true) (loc r x : Nat) : Memory.wf (s.homeD loc r x).mem = true :=
  wf_pokeD (wf_homeAccess h _ _ _ _ _) _ _

theorem wf_annWrite (r a w : Nat) (l : List Nat) {s : State} (h : Memory.wf s.mem = true) :
    Memory.wf (annWrite s r a w l).mem = true := by
  induction l generalizing s w with
  | nil => exact h
  | cons x t ih => exact ih (w + 1) (wf_homeD h _ _ _)

theorem wf_annAppend {s : State} (h : Memory.wf s.mem = true) (r a n typ : Nat) (d : List Nat) :
    Memory.wf (annAppend s r a n typ d).mem = true := by
  have h := wf_homeAccess h a 24 r false none
  unfold annAppend
  generalize s.homeAccess a 24 r false none = u at h ⊢
  dsimp only
  refine wf_ite (wf_homeD h _ _ _) ?_
  refine wf_homeD (wf_annWrite _ _ _ _ ?_) _ _ _
  refine wf_ite (wf_annWrite _ _ _ _ ?_) ?_
  all_goals refine wf_ite (wf_homeD (wf_annWrite _ _ _ _ ?_) _ _ _) ?_
  all_goals exact wf_ite (wf_annWrite _ _ _ _ h) h

theorem wf_annals {s : State} (h : Memory.wf s.mem = true) (d : Fin 4) (r typ : Nat) (l : List Nat) :
    Memory.wf (s.annals d r typ l).mem = true := by
  unfold State.annals
  dsimp only
  split
  · exact wf_annAppend h _ _ _ _ _
  · exact h

theorem wf_poisonRecord {s : State} (h : Memory.wf s.mem = true) (d : Fin 4) (r pa k : Nat) :
    Memory.wf (s.poisonRecord d r pa k).mem = true := wf_annals h _ _ _ _

theorem wf_faultRecord {s : State} (h : Memory.wf s.mem = true) (r typ a b c : Nat) (body : List Byte) :
    Memory.wf (s.faultRecord r typ a b c body).1.mem = true := by
  unfold State.faultRecord
  dsimp only
  split
  · exact wf_regPut h _ _ _
  · exact wf_regPut (wf_hwWrite h _ _ _ _) _ _ _

theorem mem_spawnHandler (s : State) (r : Nat) (cl : ClusterId) (a b : Word) : (s.spawnHandler r cl a b).mem = s.mem := by
  unfold State.spawnHandler
  dsimp only
  split <;> rfl

theorem wf_recordFault {s : State} (h : Memory.wf s.mem = true) (r typ a b c : Nat) (body : List Byte) (cl : ClusterId)
    (w : Word) : Memory.wf (s.recordFault r typ a b c body cl w).mem = true := by
  have hr := wf_faultRecord h r typ a b c body
  unfold State.recordFault
  generalize s.faultRecord r typ a b c body = x at hr
  obtain ⟨u, o⟩ := x
  cases o <;> simpa only [mem_spawnHandler] using hr

theorem mem_notice (s : State) (code : Nat) (p : List Byte) : (s.notice code p).mem = s.mem := by
  unfold State.notice
  dsimp only
  repeat' split
  all_goals rfl

theorem wf_taskRecord {s : State} (h : Memory.wf s.mem = true) (m : TaskMsg) (typ a b c : Nat) (cl : ClusterId) :
    Memory.wf (s.taskRecord m typ a b c cl).mem = true := by
  unfold State.taskRecord
  repeat' split
  · rw [mem_notice]; exact h
  · exact wf_recordFault h _ _ _ _ _ _ _ _
  · exact wf_recordFault h _ _ _ _ _ _ _ _

theorem wf_cleanLine {s : State} (h : Memory.wf s.mem = true) (loc : Nat) : Memory.wf (s.cleanLine loc).mem = true := by
  unfold State.cleanLine
  repeat' split
  · exact h
  · exact h
  · rw [mem_putLine]; exact wf_writeBack h _ _ _

theorem wf_undirty {s : State} (h : Memory.wf s.mem = true) (n : Nat) (l : Line) : Memory.wf (s.undirty n l).mem = true := by
  unfold State.undirty
  split
  · exact wf_memPuts h _ _
  · exact h

theorem wf_forgetLine {s : State} (h : Memory.wf s.mem = true) (loc : Nat) : Memory.wf (s.forgetLine loc).mem = true := by
  unfold State.forgetLine
  split
  · exact h
  · split
    · exact h
    · rw [mem_dropLine]; exact wf_undirty h _ _

theorem wf_discardLine {s : State} (h : Memory.wf s.mem = true) (loc r : Nat) (k : Option CoreId) :
    Memory.wf (s.discardLine loc r k).mem = true := wf_touch (wf_forgetLine h _) _ _ _ _

theorem wf_pokeMasked {s : State} (h : Memory.wf s.mem = true) (loc : Nat) (m : BitVec 64) (bs : List Byte) :
    Memory.wf (s.pokeMasked loc m bs).mem = true := by
  unfold State.pokeMasked
  refine wf_foldl _ ?_ _ _ h
  intro u x hu
  refine wf_ite (wf_poke hu _ _ _) ?_
  · exact wf_foldl _ (fun _ _ hv => wf_poke hv _ _ _) _ _ hu

end Sys2Proof.Machine
end

