-- ==== Sys2Proof/Laws/PerInstr.lean ====
section
/-! SUPPORT. One lemma per constructor: decoding what an instruction encodes to gives it back. -/

set_option linter.unusedSimpArgs false

namespace Sys2Proof.Laws.RoundTrip

/-- An encoded, well-formed instruction is what its word decodes to. -/
def Statement (i : Instr) : Prop := i.encoded = true → wellFormed i = true → decode (encode i) = some i

theorem add (gd : Reg) (ga : Reg) (gb : Reg) : Statement (.add gd ga gb) := by
  intro _ hw
  show decode (mkR 0x01 gd ga gb 0x000) = _
  rw [decode_0x01 _ (by simp only [fMaj_mkR]; try rfl)]
  simp only [decA, fA_mkR, fB_mkR, fC_mkR, fF_mkR]
  rfl

theorem sub (gd : Reg) (ga : Reg) (gb : Reg) : Statement (.sub gd ga gb) := by
  intro _ hw
  show decode (mkR 0x01 gd ga gb 0x001) = _
  rw [decode_0x01 _ (by simp only [fMaj_mkR]; try rfl)]
  simp only [decA, fA_mkR, fB_mkR, fC_mkR, fF_mkR]
  rfl

theorem and (gd : Reg) (ga : Reg) (gb : Reg) : Statement (.and gd ga gb) := by
  intro _ hw
  show decode (mkR 0x01 gd ga gb 0x002) = _
  rw [decode_0x01 _ (by simp only [fMaj_mkR]; try rfl)]
  simp only [decA, fA_mkR, fB_mkR, fC_mkR, fF_mkR]
  rfl

theorem or (gd : Reg) (ga : Reg) (gb : Reg) : Statement (.or gd ga gb) := by
  intro _ hw
  show decode (mkR 0x01 gd ga gb 0x003) = _
  rw [decode_0x01 _ (by simp only [fMaj_mkR]; try rfl)]
  simp only [decA, fA_mkR, fB_mkR, fC_mkR, fF_mkR]
  rfl

theorem xor (gd : Reg) (ga : Reg) (gb : Reg) : Statement (.xor gd ga gb) := by
  intro _ hw
  show decode (mkR 0x01 gd ga gb 0x004) = _
  rw [decode_0x01 _ (by simp only [fMaj_mkR]; try rfl)]
  simp only [decA, fA_mkR, fB_mkR, fC_mkR, fF_mkR]
  rfl

theorem andn (gd : Reg) (ga : Reg) (gb : Reg) : Statement (.andn gd ga gb) := by
  intro _ hw
  show decode (mkR 0x01 gd ga gb 0x005) = _
  rw [decode_0x01 _ (by simp only [fMaj_mkR]; try rfl)]
  simp only [decA, fA_mkR, fB_mkR, fC_mkR, fF_mkR]
  rfl

theorem sll (gd : Reg) (ga : Reg) (gb : Reg) : Statement (.sll gd ga gb) := by
  intro _ hw
  show decode (mkR 0x01 gd ga gb 0x006) = _
  rw [decode_0x01 _ (by simp only [fMaj_mkR]; try rfl)]
  simp only [decA, fA_mkR, fB_mkR, fC_mkR, fF_mkR]
  rfl

theorem srl (gd : Reg) (ga : Reg) (gb : Reg) : Statement (.srl gd ga gb) := by
  intro _ hw
  show decode (mkR 0x01 gd ga gb 0x007) = _
  rw [decode_0x01 _ (by simp only [fMaj_mkR]; try rfl)]
  simp only [decA, fA_mkR, fB_mkR, fC_mkR, fF_mkR]
  rfl

theorem sra (gd : Reg) (ga : Reg) (gb : Reg) : Statement (.sra gd ga gb) := by
  intro _ hw
  show decode (mkR 0x01 gd ga gb 0x008) = _
  rw [decode_0x01 _ (by simp only [fMaj_mkR]; try rfl)]
  simp only [decA, fA_mkR, fB_mkR, fC_mkR, fF_mkR]
  rfl

theorem clt (gd : Reg) (ga : Reg) (gb : Reg) : Statement (.clt gd ga gb) := by
  intro _ hw
  show decode (mkR 0x01 gd ga gb 0x009) = _
  rw [decode_0x01 _ (by simp only [fMaj_mkR]; try rfl)]
  simp only [decA, fA_mkR, fB_mkR, fC_mkR, fF_mkR]
  rfl

theorem cltu (gd : Reg) (ga : Reg) (gb : Reg) : Statement (.cltu gd ga gb) := by
  intro _ hw
  show decode (mkR 0x01 gd ga gb 0x00a) = _
  rw [decode_0x01 _ (by simp only [fMaj_mkR]; try rfl)]
  simp only [decA, fA_mkR, fB_mkR, fC_mkR, fF_mkR]
  rfl

theorem min (gd : Reg) (ga : Reg) (gb : Reg) : Statement (.min gd ga gb) := by
  intro _ hw
  show decode (mkR 0x01 gd ga gb 0x00b) = _
  rw [decode_0x01 _ (by simp only [fMaj_mkR]; try rfl)]
  simp only [decA, fA_mkR, fB_mkR, fC_mkR, fF_mkR]
  rfl

theorem max (gd : Reg) (ga : Reg) (gb : Reg) : Statement (.max gd ga gb) := by
  intro _ hw
  show decode (mkR 0x01 gd ga gb 0x00c) = _
  rw [decode_0x01 _ (by simp only [fMaj_mkR]; try rfl)]
  simp only [decA, fA_mkR, fB_mkR, fC_mkR, fF_mkR]
  rfl

theorem minu (gd : Reg) (ga : Reg) (gb : Reg) : Statement (.minu gd ga gb) := by
  intro _ hw
  show decode (mkR 0x01 gd ga gb 0x00d) = _
  rw [decode_0x01 _ (by simp only [fMaj_mkR]; try rfl)]
  simp only [decA, fA_mkR, fB_mkR, fC_mkR, fF_mkR]
  rfl

theorem maxu (gd : Reg) (ga : Reg) (gb : Reg) : Statement (.maxu gd ga gb) := by
  intro _ hw
  show decode (mkR 0x01 gd ga gb 0x00e) = _
  rw [decode_0x01 _ (by simp only [fMaj_mkR]; try rfl)]
  simp only [decA, fA_mkR, fB_mkR, fC_mkR, fF_mkR]
  rfl

theorem mul (gd : Reg) (ga : Reg) (gb : Reg) : Statement (.mul gd ga gb) := by
  intro _ hw
  show decode (mkR 0x01 gd ga gb 0x010) = _
  rw [decode_0x01 _ (by simp only [fMaj_mkR]; try rfl)]
  simp only [decA, fA_mkR, fB_mkR, fC_mkR, fF_mkR]
  rfl

theorem mulh (gd : Reg) (ga : Reg) (gb : Reg) : Statement (.mulh gd ga gb) := by
  intro _ hw
  show decode (mkR 0x01 gd ga gb 0x011) = _
  rw [decode_0x01 _ (by simp only [fMaj_mkR]; try rfl)]
  simp only [decA, fA_mkR, fB_mkR, fC_mkR, fF_mkR]
  rfl

theorem mulhu (gd : Reg) (ga : Reg) (gb : Reg) : Statement (.mulhu gd ga gb) := by
  intro _ hw
  show decode (mkR 0x01 gd ga gb 0x012) = _
  rw [decode_0x01 _ (by simp only [fMaj_mkR]; try rfl)]
  simp only [decA, fA_mkR, fB_mkR, fC_mkR, fF_mkR]
  rfl

theorem div (gd : Reg) (ga : Reg) (gb : Reg) : Statement (.div gd ga gb) := by
  intro _ hw
  show decode (mkR 0x01 gd ga gb 0x014) = _
  rw [decode_0x01 _ (by simp only [fMaj_mkR]; try rfl)]
  simp only [decA, fA_mkR, fB_mkR, fC_mkR, fF_mkR]
  rfl

theorem divu (gd : Reg) (ga : Reg) (gb : Reg) : Statement (.divu gd ga gb) := by
  intro _ hw
  show decode (mkR 0x01 gd ga gb 0x015) = _
  rw [decode_0x01 _ (by simp only [fMaj_mkR]; try rfl)]
  simp only [decA, fA_mkR, fB_mkR, fC_mkR, fF_mkR]
  rfl

theorem rem (gd : Reg) (ga : Reg) (gb : Reg) : Statement (.rem gd ga gb) := by
  intro _ hw
  show decode (mkR 0x01 gd ga gb 0x016) = _
  rw [decode_0x01 _ (by simp only [fMaj_mkR]; try rfl)]
  simp only [decA, fA_mkR, fB_mkR, fC_mkR, fF_mkR]
  rfl

theorem remu (gd : Reg) (ga : Reg) (gb : Reg) : Statement (.remu gd ga gb) := by
  intro _ hw
  show decode (mkR 0x01 gd ga gb 0x017) = _
  rw [decode_0x01 _ (by simp only [fMaj_mkR]; try rfl)]
  simp only [decA, fA_mkR, fB_mkR, fC_mkR, fF_mkR]
  rfl

theorem clz (gd : Reg) (ga : Reg) : Statement (.clz gd ga) := by
  intro _ hw
  show decode (mkR 0x01 gd ga 0 0x018) = _
  rw [decode_0x01 _ (by simp only [fMaj_mkR]; try rfl)]
  simp only [decA, fA_mkR, fB_mkR, fC_mkR, fF_mkR]
  rfl

theorem popc (gd : Reg) (ga : Reg) : Statement (.popc gd ga) := by
  intro _ hw
  show decode (mkR 0x01 gd ga 0 0x019) = _
  rw [decode_0x01 _ (by simp only [fMaj_mkR]; try rfl)]
  simp only [decA, fA_mkR, fB_mkR, fC_mkR, fF_mkR]
  rfl

theorem sel (gd : Reg) (ga : Reg) (gb : Reg) (n : PReg) : Statement (.sel gd ga gb n) := by
  intro _ hw
  show decode (mkR 0x01 gd ga gb ((0x10 : BitVec 8) ++ n)) = _
  rw [decode_0x01 _ (by simp only [fMaj_mkR]; try rfl)]
  simp only [decA, fA_mkR, fB_mkR, fC_mkR, fF_mkR, hi_2_3, lo_2_3, hi_1_4, lo_1_4, hi_4_1, lo_4_1, hi_3_2, lo_3_2, hi_2_6, lo_2_6, hi_3_5, lo_3_5, hi_1_2, lo_1_2, hi_10_6, lo_10_6, hi_4_12, lo_4_12, hi_2_1, lo_2_1]
  have hall : ∀ k : PReg, k = 0 ∨ k = 1 ∨ k = 2 ∨ k = 3 ∨ k = 4 ∨ k = 5 ∨ k = 6 ∨ k = 7 := by decide
  rcases hall n with rfl | rfl | rfl | rfl | rfl | rfl | rfl | rfl <;> rfl

theorem addi (gd : Reg) (ga : Reg) (imm : BitVec 16) : Statement (.addi gd ga imm) := by
  intro _ hw
  show decode (mkI 0x02 gd ga imm) = _
  rw [decode_0x02 _ (by simp only [fMaj_mkI]; try rfl)]
  simp only [fA_mkI, fB_mkI, fImm_mkI]

theorem andi (gd : Reg) (ga : Reg) (imm : BitVec 16) : Statement (.andi gd ga imm) := by
  intro _ hw
  show decode (mkI 0x03 gd ga imm) = _
  rw [decode_0x03 _ (by simp only [fMaj_mkI]; try rfl)]
  simp only [fA_mkI, fB_mkI, fImm_mkI]

theorem ori (gd : Reg) (ga : Reg) (imm : BitVec 16) : Statement (.ori gd ga imm) := by
  intro _ hw
  show decode (mkI 0x04 gd ga imm) = _
  rw [decode_0x04 _ (by simp only [fMaj_mkI]; try rfl)]
  simp only [fA_mkI, fB_mkI, fImm_mkI]

theorem xori (gd : Reg) (ga : Reg) (imm : BitVec 16) : Statement (.xori gd ga imm) := by
  intro _ hw
  show decode (mkI 0x05 gd ga imm) = _
  rw [decode_0x05 _ (by simp only [fMaj_mkI]; try rfl)]
  simp only [fA_mkI, fB_mkI, fImm_mkI]

theorem clti (gd : Reg) (ga : Reg) (imm : BitVec 16) : Statement (.clti gd ga imm) := by
  intro _ hw
  show decode (mkI 0x06 gd ga imm) = _
  rw [decode_0x06 _ (by simp only [fMaj_mkI]; try rfl)]
  simp only [fA_mkI, fB_mkI, fImm_mkI]

theorem cltiu (gd : Reg) (ga : Reg) (imm : BitVec 16) : Statement (.cltiu gd ga imm) := by
  intro _ hw
  show decode (mkI 0x07 gd ga imm) = _
  rw [decode_0x07 _ (by simp only [fMaj_mkI]; try rfl)]
  simp only [fA_mkI, fB_mkI, fImm_mkI]

theorem insh0 (gd : Reg) (ga : Reg) (imm : BitVec 16) : Statement (.insh0 gd ga imm) := by
  intro _ hw
  show decode (mkI 0x08 gd ga imm) = _
  rw [decode_0x08 _ (by simp only [fMaj_mkI]; try rfl)]
  simp only [fA_mkI, fB_mkI, fImm_mkI]

theorem insh1 (gd : Reg) (ga : Reg) (imm : BitVec 16) : Statement (.insh1 gd ga imm) := by
  intro _ hw
  show decode (mkI 0x09 gd ga imm) = _
  rw [decode_0x09 _ (by simp only [fMaj_mkI]; try rfl)]
  simp only [fA_mkI, fB_mkI, fImm_mkI]

theorem insh2 (gd : Reg) (ga : Reg) (imm : BitVec 16) : Statement (.insh2 gd ga imm) := by
  intro _ hw
  show decode (mkI 0x0a gd ga imm) = _
  rw [decode_0x0a _ (by simp only [fMaj_mkI]; try rfl)]
  simp only [fA_mkI, fB_mkI, fImm_mkI]

theorem insh3 (gd : Reg) (ga : Reg) (imm : BitVec 16) : Statement (.insh3 gd ga imm) := by
  intro _ hw
  show decode (mkI 0x0b gd ga imm) = _
  rw [decode_0x0b _ (by simp only [fMaj_mkI]; try rfl)]
  simp only [fA_mkI, fB_mkI, fImm_mkI]

theorem slli (gd : Reg) (ga : Reg) (sh : BitVec 6) : Statement (.slli gd ga sh) := by
  intro _ hw
  show decode (mkI 0x0c gd ga ((0 : BitVec 10) ++ sh)) = _
  rw [decode_0x0c _ (by simp only [fMaj_mkI]; try rfl)]
  simp only [fA_mkI, fB_mkI, ex6_10_mkI, ex0_6_mkI, hi_2_3, lo_2_3, hi_1_4, lo_1_4, hi_4_1, lo_4_1, hi_3_2, lo_3_2, hi_2_6, lo_2_6, hi_3_5, lo_3_5, hi_1_2, lo_1_2, hi_10_6, lo_10_6, hi_4_12, lo_4_12, hi_2_1, lo_2_1]
  rfl

theorem srli (gd : Reg) (ga : Reg) (sh : BitVec 6) : Statement (.srli gd ga sh) := by
  intro _ hw
  show decode (mkI 0x0d gd ga ((0 : BitVec 10) ++ sh)) = _
  rw [decode_0x0d _ (by simp only [fMaj_mkI]; try rfl)]
  simp only [fA_mkI, fB_mkI, ex6_10_mkI, ex0_6_mkI, hi_2_3, lo_2_3, hi_1_4, lo_1_4, hi_4_1, lo_4_1, hi_3_2, lo_3_2, hi_2_6, lo_2_6, hi_3_5, lo_3_5, hi_1_2, lo_1_2, hi_10_6, lo_10_6, hi_4_12, lo_4_12, hi_2_1, lo_2_1]
  rfl

theorem srai (gd : Reg) (ga : Reg) (sh : BitVec 6) : Statement (.srai gd ga sh) := by
  intro _ hw
  show decode (mkI 0x0e gd ga ((0 : BitVec 10) ++ sh)) = _
  rw [decode_0x0e _ (by simp only [fMaj_mkI]; try rfl)]
  simp only [fA_mkI, fB_mkI, ex6_10_mkI, ex0_6_mkI, hi_2_3, lo_2_3, hi_1_4, lo_1_4, hi_4_1, lo_4_1, hi_3_2, lo_3_2, hi_2_6, lo_2_6, hi_3_5, lo_3_5, hi_1_2, lo_1_2, hi_10_6, lo_10_6, hi_4_12, lo_4_12, hi_2_1, lo_2_1]
  rfl

theorem ldB (gd : Reg) (ga : Reg) (imm : BitVec 16) : Statement (.ldB gd ga imm) := by
  intro _ hw
  show decode (mkI 0x10 gd ga imm) = _
  rw [decode_0x10 _ (by simp only [fMaj_mkI]; try rfl)]
  simp only [fA_mkI, fB_mkI, fImm_mkI]

theorem ldBu (gd : Reg) (ga : Reg) (imm : BitVec 16) : Statement (.ldBu gd ga imm) := by
  intro _ hw
  show decode (mkI 0x11 gd ga imm) = _
  rw [decode_0x11 _ (by simp only [fMaj_mkI]; try rfl)]
  simp only [fA_mkI, fB_mkI, fImm_mkI]

theorem ldH (gd : Reg) (ga : Reg) (imm : BitVec 16) : Statement (.ldH gd ga imm) := by
  intro _ hw
  show decode (mkI 0x12 gd ga imm) = _
  rw [decode_0x12 _ (by simp only [fMaj_mkI]; try rfl)]
  simp only [fA_mkI, fB_mkI, fImm_mkI]

theorem ldHu (gd : Reg) (ga : Reg) (imm : BitVec 16) : Statement (.ldHu gd ga imm) := by
  intro _ hw
  show decode (mkI 0x13 gd ga imm) = _
  rw [decode_0x13 _ (by simp only [fMaj_mkI]; try rfl)]
  simp only [fA_mkI, fB_mkI, fImm_mkI]

theorem ldW (gd : Reg) (ga : Reg) (imm : BitVec 16) : Statement (.ldW gd ga imm) := by
  intro _ hw
  show decode (mkI 0x14 gd ga imm) = _
  rw [decode_0x14 _ (by simp only [fMaj_mkI]; try rfl)]
  simp only [fA_mkI, fB_mkI, fImm_mkI]

theorem ldWu (gd : Reg) (ga : Reg) (imm : BitVec 16) : Statement (.ldWu gd ga imm) := by
  intro _ hw
  show decode (mkI 0x15 gd ga imm) = _
  rw [decode_0x15 _ (by simp only [fMaj_mkI]; try rfl)]
  simp only [fA_mkI, fB_mkI, fImm_mkI]

theorem ldD (gd : Reg) (ga : Reg) (imm : BitVec 16) : Statement (.ldD gd ga imm) := by
  intro _ hw
  show decode (mkI 0x16 gd ga imm) = _
  rw [decode_0x16 _ (by simp only [fMaj_mkI]; try rfl)]
  simp only [fA_mkI, fB_mkI, fImm_mkI]

theorem stB (gs : Reg) (ga : Reg) (imm : BitVec 16) : Statement (.stB gs ga imm) := by
  intro _ hw
  show decode (mkI 0x17 gs ga imm) = _
  rw [decode_0x17 _ (by simp only [fMaj_mkI]; try rfl)]
  simp only [fA_mkI, fB_mkI, fImm_mkI]

theorem stH (gs : Reg) (ga : Reg) (imm : BitVec 16) : Statement (.stH gs ga imm) := by
  intro _ hw
  show decode (mkI 0x18 gs ga imm) = _
  rw [decode_0x18 _ (by simp only [fMaj_mkI]; try rfl)]
  simp only [fA_mkI, fB_mkI, fImm_mkI]

theorem stW (gs : Reg) (ga : Reg) (imm : BitVec 16) : Statement (.stW gs ga imm) := by
  intro _ hw
  show decode (mkI 0x19 gs ga imm) = _
  rw [decode_0x19 _ (by simp only [fMaj_mkI]; try rfl)]
  simp only [fA_mkI, fB_mkI, fImm_mkI]

theorem stD (gs : Reg) (ga : Reg) (imm : BitVec 16) : Statement (.stD gs ga imm) := by
  intro _ hw
  show decode (mkI 0x1a gs ga imm) = _
  rw [decode_0x1a _ (by simp only [fMaj_mkI]; try rfl)]
  simp only [fA_mkI, fB_mkI, fImm_mkI]

theorem beq (sa : Reg) (sb : Reg) (disp : BitVec 16) : Statement (.beq sa sb disp) := by
  intro _ hw
  show decode (mkI 0x1c sa sb disp) = _
  rw [decode_0x1c _ (by simp only [fMaj_mkI]; try rfl)]
  simp only [fA_mkI, fB_mkI, fImm_mkI]

theorem bne (sa : Reg) (sb : Reg) (disp : BitVec 16) : Statement (.bne sa sb disp) := by
  intro _ hw
  show decode (mkI 0x1d sa sb disp) = _
  rw [decode_0x1d _ (by simp only [fMaj_mkI]; try rfl)]
  simp only [fA_mkI, fB_mkI, fImm_mkI]

theorem blt (sa : Reg) (sb : Reg) (disp : BitVec 16) : Statement (.blt sa sb disp) := by
  intro _ hw
  show decode (mkI 0x1e sa sb disp) = _
  rw [decode_0x1e _ (by simp only [fMaj_mkI]; try rfl)]
  simp only [fA_mkI, fB_mkI, fImm_mkI]

theorem bge (sa : Reg) (sb : Reg) (disp : BitVec 16) : Statement (.bge sa sb disp) := by
  intro _ hw
  show decode (mkI 0x1f sa sb disp) = _
  rw [decode_0x1f _ (by simp only [fMaj_mkI]; try rfl)]
  simp only [fA_mkI, fB_mkI, fImm_mkI]

theorem bltu (sa : Reg) (sb : Reg) (disp : BitVec 16) : Statement (.bltu sa sb disp) := by
  intro _ hw
  show decode (mkI 0x20 sa sb disp) = _
  rw [decode_0x20 _ (by simp only [fMaj_mkI]; try rfl)]
  simp only [fA_mkI, fB_mkI, fImm_mkI]

theorem bgeu (sa : Reg) (sb : Reg) (disp : BitVec 16) : Statement (.bgeu sa sb disp) := by
  intro _ hw
  show decode (mkI 0x21 sa sb disp) = _
  rw [decode_0x21 _ (by simp only [fMaj_mkI]; try rfl)]
  simp only [fA_mkI, fB_mkI, fImm_mkI]

theorem j (disp : BitVec 26) : Statement (.j disp) := by
  intro _ hw
  show decode (mkJ 0x22 disp) = _
  rw [decode_0x22 _ (by simp only [fMaj_mkJ]; try rfl)]
  simp only [ex0_26_mkJ]

theorem jal (disp : BitVec 26) : Statement (.jal disp) := by
  intro _ hw
  show decode (mkJ 0x23 disp) = _
  rw [decode_0x23 _ (by simp only [fMaj_mkJ]; try rfl)]
  simp only [ex0_26_mkJ]

theorem jalr (gd : Reg) (ga : Reg) : Statement (.jalr gd ga) := by
  intro _ hw
  show decode (mkR 0x24 gd ga 0 0x000) = _
  rw [decode_0x24 _ (by simp only [fMaj_mkR]; try rfl)]
  simp only [decB, fA_mkR, fB_mkR, fC_mkR, fF_mkR]
  rfl

theorem trap (n : BitVec 5) : Statement (.trap n) := by
  intro _ hw
  show decode (mkR 0x24 0 0 n 0x001) = _
  rw [decode_0x24 _ (by simp only [fMaj_mkR]; try rfl)]
  simp only [decB, fA_mkR, fB_mkR, fC_mkR, fF_mkR]
  rfl

theorem tret : Statement (.tret) := by
  intro _ hw
  show decode (mkR 0x24 0 0 0 0x002) = _
  rw [decode_0x24 _ (by simp only [fMaj_mkR]; try rfl)]
  simp only [decB, fA_mkR, fB_mkR, fC_mkR, fF_mkR]
  rfl

theorem ifence : Statement (.ifence) := by
  intro _ hw
  show decode (mkR 0x24 0 0 0 0x003) = _
  rw [decode_0x24 _ (by simp only [fMaj_mkR]; try rfl)]
  simp only [decB, fA_mkR, fB_mkR, fC_mkR, fF_mkR]
  rfl

theorem rdc (gd : Reg) (n : BitVec 4) : Statement (.rdc gd n) := by
  intro _ hw
  show decode (mkR 0x24 gd 0 ((0 : BitVec 1) ++ n) 0x004) = _
  rw [decode_0x24 _ (by simp only [fMaj_mkR]; try rfl)]
  simp only [decB, fA_mkR, fB_mkR, fC_mkR, fF_mkR, hi_2_3, lo_2_3, hi_1_4, lo_1_4, hi_4_1, lo_4_1, hi_3_2, lo_3_2, hi_2_6, lo_2_6, hi_3_5, lo_3_5, hi_1_2, lo_1_2, hi_10_6, lo_10_6, hi_4_12, lo_4_12, hi_2_1, lo_2_1]
  rfl

theorem bkpt : Statement (.bkpt) := by
  intro _ hw
  show decode (mkR 0x24 0 0 0 0x005) = _
  rw [decode_0x24 _ (by simp only [fMaj_mkR]; try rfl)]
  simp only [decB, fA_mkR, fB_mkR, fC_mkR, fF_mkR]
  rfl

theorem cwrd (gd : Reg) (idx : BitVec 12) : Statement (.cwrd gd idx) := by
  intro _ hw
  show decode (mkI 0x25 gd 0 ((0 : BitVec 4) ++ idx)) = _
  rw [decode_0x25 _ (by simp only [fMaj_mkI]; try rfl)]
  simp only [fA_mkI, fB_mkI, ex12_4_mkI, ex0_12_mkI, hi_2_3, lo_2_3, hi_1_4, lo_1_4, hi_4_1, lo_4_1, hi_3_2, lo_3_2, hi_2_6, lo_2_6, hi_3_5, lo_3_5, hi_1_2, lo_1_2, hi_10_6, lo_10_6, hi_4_12, lo_4_12, hi_2_1, lo_2_1]
  rfl

theorem cwwr (idx : BitVec 12) (ga : Reg) : Statement (.cwwr idx ga) := by
  intro _ hw
  show decode (mkI 0x26 0 ga ((0 : BitVec 4) ++ idx)) = _
  rw [decode_0x26 _ (by simp only [fMaj_mkI]; try rfl)]
  simp only [fA_mkI, fB_mkI, ex12_4_mkI, ex0_12_mkI, hi_2_3, lo_2_3, hi_1_4, lo_1_4, hi_4_1, lo_4_1, hi_3_2, lo_3_2, hi_2_6, lo_2_6, hi_3_5, lo_3_5, hi_1_2, lo_1_2, hi_10_6, lo_10_6, hi_4_12, lo_4_12, hi_2_1, lo_2_1]
  rfl

theorem rptImmediate (len : BitVec 4) (sd : BitVec 2) (sa : BitVec 2) (sb : BitVec 2) (count : BitVec 15) : Statement (.rptImmediate len sd sa sb count) := by
  intro _ hw
  show decode (rptIWord len sd sa sb count) = _
  rw [decode_0x3c _ (by simp only [fMaj_rptIWord]; try rfl)]
  simp only [decRpt, ex22_4_rptIWord, ex20_2_rptIWord, ex18_2_rptIWord, ex16_2_rptIWord, ex15_1_rptIWord, ex0_15_rptIWord]
  rfl

theorem rptRegister (len : BitVec 4) (sd : BitVec 2) (sa : BitVec 2) (sb : BitVec 2) (ga : Reg) : Statement (.rptRegister len sd sa sb ga) := by
  intro _ hw
  show decode (rptRWord len sd sa sb ga) = _
  rw [decode_0x3c _ (by simp only [fMaj_rptRWord]; try rfl)]
  simp only [decRpt, ex22_4_rptRWord, ex20_2_rptRWord, ex18_2_rptRWord, ex16_2_rptRWord, ex15_1_rptRWord, ex0_10_rptRWord, ex10_5_rptRWord]
  rfl

theorem vadd (w : Width) (vd : Reg) (va : Reg) (vb : Reg) (q : PReg) : Statement (.vadd w vd va vb q) := by
  intro _ hw
  show decode (mkV 0x28 vd va vb q (w.code ++ (0x00 : BitVec 6))) = _
  rw [decode_0x28 _ (by simp only [fMaj_mkV]; try rfl)]
  simp only [decC, fA_mkV, fB_mkV, fC_mkV, fQ_mkV, fFn_mkV, hi_2_3, lo_2_3, hi_1_4, lo_1_4, hi_4_1, lo_4_1, hi_3_2, lo_3_2, hi_2_6, lo_2_6, hi_3_5, lo_3_5, hi_1_2, lo_1_2, hi_10_6, lo_10_6, hi_4_12, lo_4_12, hi_2_1, lo_2_1]
  cases w <;> rfl

theorem vsub (w : Width) (vd : Reg) (va : Reg) (vb : Reg) (q : PReg) : Statement (.vsub w vd va vb q) := by
  intro _ hw
  show decode (mkV 0x28 vd va vb q (w.code ++ (0x01 : BitVec 6))) = _
  rw [decode_0x28 _ (by simp only [fMaj_mkV]; try rfl)]
  simp only [decC, fA_mkV, fB_mkV, fC_mkV, fQ_mkV, fFn_mkV, hi_2_3, lo_2_3, hi_1_4, lo_1_4, hi_4_1, lo_4_1, hi_3_2, lo_3_2, hi_2_6, lo_2_6, hi_3_5, lo_3_5, hi_1_2, lo_1_2, hi_10_6, lo_10_6, hi_4_12, lo_4_12, hi_2_1, lo_2_1]
  cases w <;> rfl

theorem vmul (w : Width) (vd : Reg) (va : Reg) (vb : Reg) (q : PReg) : Statement (.vmul w vd va vb q) := by
  intro _ hw
  show decode (mkV 0x28 vd va vb q (w.code ++ (0x02 : BitVec 6))) = _
  rw [decode_0x28 _ (by simp only [fMaj_mkV]; try rfl)]
  simp only [decC, fA_mkV, fB_mkV, fC_mkV, fQ_mkV, fFn_mkV, hi_2_3, lo_2_3, hi_1_4, lo_1_4, hi_4_1, lo_4_1, hi_3_2, lo_3_2, hi_2_6, lo_2_6, hi_3_5, lo_3_5, hi_1_2, lo_1_2, hi_10_6, lo_10_6, hi_4_12, lo_4_12, hi_2_1, lo_2_1]
  cases w <;> rfl

theorem vadds (w : Width) (vd : Reg) (va : Reg) (vb : Reg) (q : PReg) : Statement (.vadds w vd va vb q) := by
  intro _ hw
  show decode (mkV 0x28 vd va vb q (w.code ++ (0x03 : BitVec 6))) = _
  rw [decode_0x28 _ (by simp only [fMaj_mkV]; try rfl)]
  simp only [decC, fA_mkV, fB_mkV, fC_mkV, fQ_mkV, fFn_mkV, hi_2_3, lo_2_3, hi_1_4, lo_1_4, hi_4_1, lo_4_1, hi_3_2, lo_3_2, hi_2_6, lo_2_6, hi_3_5, lo_3_5, hi_1_2, lo_1_2, hi_10_6, lo_10_6, hi_4_12, lo_4_12, hi_2_1, lo_2_1]
  cases w <;> rfl

theorem vsubs (w : Width) (vd : Reg) (va : Reg) (vb : Reg) (q : PReg) : Statement (.vsubs w vd va vb q) := by
  intro _ hw
  show decode (mkV 0x28 vd va vb q (w.code ++ (0x04 : BitVec 6))) = _
  rw [decode_0x28 _ (by simp only [fMaj_mkV]; try rfl)]
  simp only [decC, fA_mkV, fB_mkV, fC_mkV, fQ_mkV, fFn_mkV, hi_2_3, lo_2_3, hi_1_4, lo_1_4, hi_4_1, lo_4_1, hi_3_2, lo_3_2, hi_2_6, lo_2_6, hi_3_5, lo_3_5, hi_1_2, lo_1_2, hi_10_6, lo_10_6, hi_4_12, lo_4_12, hi_2_1, lo_2_1]
  cases w <;> rfl

theorem vmin (w : Width) (vd : Reg) (va : Reg) (vb : Reg) (q : PReg) : Statement (.vmin w vd va vb q) := by
  intro _ hw
  show decode (mkV 0x28 vd va vb q (w.code ++ (0x05 : BitVec 6))) = _
  rw [decode_0x28 _ (by simp only [fMaj_mkV]; try rfl)]
  simp only [decC, fA_mkV, fB_mkV, fC_mkV, fQ_mkV, fFn_mkV, hi_2_3, lo_2_3, hi_1_4, lo_1_4, hi_4_1, lo_4_1, hi_3_2, lo_3_2, hi_2_6, lo_2_6, hi_3_5, lo_3_5, hi_1_2, lo_1_2, hi_10_6, lo_10_6, hi_4_12, lo_4_12, hi_2_1, lo_2_1]
  cases w <;> rfl

theorem vmax (w : Width) (vd : Reg) (va : Reg) (vb : Reg) (q : PReg) : Statement (.vmax w vd va vb q) := by
  intro _ hw
  show decode (mkV 0x28 vd va vb q (w.code ++ (0x06 : BitVec 6))) = _
  rw [decode_0x28 _ (by simp only [fMaj_mkV]; try rfl)]
  simp only [decC, fA_mkV, fB_mkV, fC_mkV, fQ_mkV, fFn_mkV, hi_2_3, lo_2_3, hi_1_4, lo_1_4, hi_4_1, lo_4_1, hi_3_2, lo_3_2, hi_2_6, lo_2_6, hi_3_5, lo_3_5, hi_1_2, lo_1_2, hi_10_6, lo_10_6, hi_4_12, lo_4_12, hi_2_1, lo_2_1]
  cases w <;> rfl

theorem vminu (w : Width) (vd : Reg) (va : Reg) (vb : Reg) (q : PReg) : Statement (.vminu w vd va vb q) := by
  intro _ hw
  show decode (mkV 0x28 vd va vb q (w.code ++ (0x07 : BitVec 6))) = _
  rw [decode_0x28 _ (by simp only [fMaj_mkV]; try rfl)]
  simp only [decC, fA_mkV, fB_mkV, fC_mkV, fQ_mkV, fFn_mkV, hi_2_3, lo_2_3, hi_1_4, lo_1_4, hi_4_1, lo_4_1, hi_3_2, lo_3_2, hi_2_6, lo_2_6, hi_3_5, lo_3_5, hi_1_2, lo_1_2, hi_10_6, lo_10_6, hi_4_12, lo_4_12, hi_2_1, lo_2_1]
  cases w <;> rfl

theorem vmaxu (w : Width) (vd : Reg) (va : Reg) (vb : Reg) (q : PReg) : Statement (.vmaxu w vd va vb q) := by
  intro _ hw
  show decode (mkV 0x28 vd va vb q (w.code ++ (0x08 : BitVec 6))) = _
  rw [decode_0x28 _ (by simp only [fMaj_mkV]; try rfl)]
  simp only [decC, fA_mkV, fB_mkV, fC_mkV, fQ_mkV, fFn_mkV, hi_2_3, lo_2_3, hi_1_4, lo_1_4, hi_4_1, lo_4_1, hi_3_2, lo_3_2, hi_2_6, lo_2_6, hi_3_5, lo_3_5, hi_1_2, lo_1_2, hi_10_6, lo_10_6, hi_4_12, lo_4_12, hi_2_1, lo_2_1]
  cases w <;> rfl

theorem vsll (w : Width) (vd : Reg) (va : Reg) (vb : Reg) (q : PReg) : Statement (.vsll w vd va vb q) := by
  intro _ hw
  show decode (mkV 0x28 vd va vb q (w.code ++ (0x09 : BitVec 6))) = _
  rw [decode_0x28 _ (by simp only [fMaj_mkV]; try rfl)]
  simp only [decC, fA_mkV, fB_mkV, fC_mkV, fQ_mkV, fFn_mkV, hi_2_3, lo_2_3, hi_1_4, lo_1_4, hi_4_1, lo_4_1, hi_3_2, lo_3_2, hi_2_6, lo_2_6, hi_3_5, lo_3_5, hi_1_2, lo_1_2, hi_10_6, lo_10_6, hi_4_12, lo_4_12, hi_2_1, lo_2_1]
  cases w <;> rfl

theorem vsrl (w : Width) (vd : Reg) (va : Reg) (vb : Reg) (q : PReg) : Statement (.vsrl w vd va vb q) := by
  intro _ hw
  show decode (mkV 0x28 vd va vb q (w.code ++ (0x0a : BitVec 6))) = _
  rw [decode_0x28 _ (by simp only [fMaj_mkV]; try rfl)]
  simp only [decC, fA_mkV, fB_mkV, fC_mkV, fQ_mkV, fFn_mkV, hi_2_3, lo_2_3, hi_1_4, lo_1_4, hi_4_1, lo_4_1, hi_3_2, lo_3_2, hi_2_6, lo_2_6, hi_3_5, lo_3_5, hi_1_2, lo_1_2, hi_10_6, lo_10_6, hi_4_12, lo_4_12, hi_2_1, lo_2_1]
  cases w <;> rfl

theorem vsra (w : Width) (vd : Reg) (va : Reg) (vb : Reg) (q : PReg) : Statement (.vsra w vd va vb q) := by
  intro _ hw
  show decode (mkV 0x28 vd va vb q (w.code ++ (0x0b : BitVec 6))) = _
  rw [decode_0x28 _ (by simp only [fMaj_mkV]; try rfl)]
  simp only [decC, fA_mkV, fB_mkV, fC_mkV, fQ_mkV, fFn_mkV, hi_2_3, lo_2_3, hi_1_4, lo_1_4, hi_4_1, lo_4_1, hi_3_2, lo_3_2, hi_2_6, lo_2_6, hi_3_5, lo_3_5, hi_1_2, lo_1_2, hi_10_6, lo_10_6, hi_4_12, lo_4_12, hi_2_1, lo_2_1]
  cases w <;> rfl

theorem vabs (w : Width) (vd : Reg) (va : Reg) (q : PReg) : Statement (.vabs w vd va q) := by
  intro _ hw
  show decode (mkV 0x28 vd va 0 q (w.code ++ (0x0C : BitVec 6))) = _
  rw [decode_0x28 _ (by simp only [fMaj_mkV]; try rfl)]
  simp only [decC, fA_mkV, fB_mkV, fC_mkV, fQ_mkV, fFn_mkV, hi_2_3, lo_2_3, hi_1_4, lo_1_4, hi_4_1, lo_4_1, hi_3_2, lo_3_2, hi_2_6, lo_2_6, hi_3_5, lo_3_5, hi_1_2, lo_1_2, hi_10_6, lo_10_6, hi_4_12, lo_4_12, hi_2_1, lo_2_1]
  cases w <;> rfl

theorem vand (vd : Reg) (va : Reg) (vb : Reg) (q : PReg) : Statement (.vand vd va vb q) := by
  intro _ hw
  show decode (mkV 0x28 vd va vb q 0x10) = _
  rw [decode_0x28 _ (by simp only [fMaj_mkV]; try rfl)]
  simp only [decC, fA_mkV, fB_mkV, fC_mkV, fQ_mkV, fFn_mkV]
  rfl

theorem vor (vd : Reg) (va : Reg) (vb : Reg) (q : PReg) : Statement (.vor vd va vb q) := by
  intro _ hw
  show decode (mkV 0x28 vd va vb q 0x11) = _
  rw [decode_0x28 _ (by simp only [fMaj_mkV]; try rfl)]
  simp only [decC, fA_mkV, fB_mkV, fC_mkV, fQ_mkV, fFn_mkV]
  rfl

theorem vxor (vd : Reg) (va : Reg) (vb : Reg) (q : PReg) : Statement (.vxor vd va vb q) := by
  intro _ hw
  show decode (mkV 0x28 vd va vb q 0x12) = _
  rw [decode_0x28 _ (by simp only [fMaj_mkV]; try rfl)]
  simp only [decC, fA_mkV, fB_mkV, fC_mkV, fQ_mkV, fFn_mkV]
  rfl

theorem vandn (vd : Reg) (va : Reg) (vb : Reg) (q : PReg) : Statement (.vandn vd va vb q) := by
  intro _ hw
  show decode (mkV 0x28 vd va vb q 0x13) = _
  rw [decode_0x28 _ (by simp only [fMaj_mkV]; try rfl)]
  simp only [decC, fA_mkV, fB_mkV, fC_mkV, fQ_mkV, fFn_mkV]
  rfl

theorem vsel (vd : Reg) (va : Reg) (vb : Reg) (q : PReg) : Statement (.vsel vd va vb q) := by
  intro _ hw
  show decode (mkV 0x28 vd va vb q 0x14) = _
  rw [decode_0x28 _ (by simp only [fMaj_mkV]; try rfl)]
  simp only [decC, fA_mkV, fB_mkV, fC_mkV, fQ_mkV, fFn_mkV]
  rfl

theorem vfadd (f : FFmt) (vd : Reg) (va : Reg) (vb : Reg) (q : PReg) : Statement (.vfadd f vd va vb q) := by
  intro _ hw
  show decode (mkV 0x29 vd va vb q (f.code ++ (0x00 : BitVec 6))) = _
  rw [decode_0x29 _ (by simp only [fMaj_mkV]; try rfl)]
  simp only [decD, fA_mkV, fB_mkV, fC_mkV, fQ_mkV, fFn_mkV, hi_2_3, lo_2_3, hi_1_4, lo_1_4, hi_4_1, lo_4_1, hi_3_2, lo_3_2, hi_2_6, lo_2_6, hi_3_5, lo_3_5, hi_1_2, lo_1_2, hi_10_6, lo_10_6, hi_4_12, lo_4_12, hi_2_1, lo_2_1]
  cases f <;> rfl

theorem vfsub (f : FFmt) (vd : Reg) (va : Reg) (vb : Reg) (q : PReg) : Statement (.vfsub f vd va vb q) := by
  intro _ hw
  show decode (mkV 0x29 vd va vb q (f.code ++ (0x01 : BitVec 6))) = _
  rw [decode_0x29 _ (by simp only [fMaj_mkV]; try rfl)]
  simp only [decD, fA_mkV, fB_mkV, fC_mkV, fQ_mkV, fFn_mkV, hi_2_3, lo_2_3, hi_1_4, lo_1_4, hi_4_1, lo_4_1, hi_3_2, lo_3_2, hi_2_6, lo_2_6, hi_3_5, lo_3_5, hi_1_2, lo_1_2, hi_10_6, lo_10_6, hi_4_12, lo_4_12, hi_2_1, lo_2_1]
  cases f <;> rfl

theorem vfmul (f : FFmt) (vd : Reg) (va : Reg) (vb : Reg) (q : PReg) : Statement (.vfmul f vd va vb q) := by
  intro _ hw
  show decode (mkV 0x29 vd va vb q (f.code ++ (0x02 : BitVec 6))) = _
  rw [decode_0x29 _ (by simp only [fMaj_mkV]; try rfl)]
  simp only [decD, fA_mkV, fB_mkV, fC_mkV, fQ_mkV, fFn_mkV, hi_2_3, lo_2_3, hi_1_4, lo_1_4, hi_4_1, lo_4_1, hi_3_2, lo_3_2, hi_2_6, lo_2_6, hi_3_5, lo_3_5, hi_1_2, lo_1_2, hi_10_6, lo_10_6, hi_4_12, lo_4_12, hi_2_1, lo_2_1]
  cases f <;> rfl

theorem vfma (f : FFmt) (vd : Reg) (va : Reg) (vb : Reg) (q : PReg) : Statement (.vfma f vd va vb q) := by
  intro _ hw
  show decode (mkV 0x29 vd va vb q (f.code ++ (0x03 : BitVec 6))) = _
  rw [decode_0x29 _ (by simp only [fMaj_mkV]; try rfl)]
  simp only [decD, fA_mkV, fB_mkV, fC_mkV, fQ_mkV, fFn_mkV, hi_2_3, lo_2_3, hi_1_4, lo_1_4, hi_4_1, lo_4_1, hi_3_2, lo_3_2, hi_2_6, lo_2_6, hi_3_5, lo_3_5, hi_1_2, lo_1_2, hi_10_6, lo_10_6, hi_4_12, lo_4_12, hi_2_1, lo_2_1]
  cases f <;> rfl

theorem vfnma (f : FFmt) (vd : Reg) (va : Reg) (vb : Reg) (q : PReg) : Statement (.vfnma f vd va vb q) := by
  intro _ hw
  show decode (mkV 0x29 vd va vb q (f.code ++ (0x04 : BitVec 6))) = _
  rw [decode_0x29 _ (by simp only [fMaj_mkV]; try rfl)]
  simp only [decD, fA_mkV, fB_mkV, fC_mkV, fQ_mkV, fFn_mkV, hi_2_3, lo_2_3, hi_1_4, lo_1_4, hi_4_1, lo_4_1, hi_3_2, lo_3_2, hi_2_6, lo_2_6, hi_3_5, lo_3_5, hi_1_2, lo_1_2, hi_10_6, lo_10_6, hi_4_12, lo_4_12, hi_2_1, lo_2_1]
  cases f <;> rfl

theorem vfmin (f : FFmt) (vd : Reg) (va : Reg) (vb : Reg) (q : PReg) : Statement (.vfmin f vd va vb q) := by
  intro _ hw
  show decode (mkV 0x29 vd va vb q (f.code ++ (0x05 : BitVec 6))) = _
  rw [decode_0x29 _ (by simp only [fMaj_mkV]; try rfl)]
  simp only [decD, fA_mkV, fB_mkV, fC_mkV, fQ_mkV, fFn_mkV, hi_2_3, lo_2_3, hi_1_4, lo_1_4, hi_4_1, lo_4_1, hi_3_2, lo_3_2, hi_2_6, lo_2_6, hi_3_5, lo_3_5, hi_1_2, lo_1_2, hi_10_6, lo_10_6, hi_4_12, lo_4_12, hi_2_1, lo_2_1]
  cases f <;> rfl

theorem vfmax (f : FFmt) (vd : Reg) (va : Reg) (vb : Reg) (q : PReg) : Statement (.vfmax f vd va vb q) := by
  intro _ hw
  show decode (mkV 0x29 vd va vb q (f.code ++ (0x06 : BitVec 6))) = _
  rw [decode_0x29 _ (by simp only [fMaj_mkV]; try rfl)]
  simp only [decD, fA_mkV, fB_mkV, fC_mkV, fQ_mkV, fFn_mkV, hi_2_3, lo_2_3, hi_1_4, lo_1_4, hi_4_1, lo_4_1, hi_3_2, lo_3_2, hi_2_6, lo_2_6, hi_3_5, lo_3_5, hi_1_2, lo_1_2, hi_10_6, lo_10_6, hi_4_12, lo_4_12, hi_2_1, lo_2_1]
  cases f <;> rfl

theorem vfabs (f : FFmt) (vd : Reg) (va : Reg) (q : PReg) : Statement (.vfabs f vd va q) := by
  intro _ hw
  show decode (mkV 0x29 vd va 0 q (f.code ++ (0x07 : BitVec 6))) = _
  rw [decode_0x29 _ (by simp only [fMaj_mkV]; try rfl)]
  simp only [decD, fA_mkV, fB_mkV, fC_mkV, fQ_mkV, fFn_mkV, hi_2_3, lo_2_3, hi_1_4, lo_1_4, hi_4_1, lo_4_1, hi_3_2, lo_3_2, hi_2_6, lo_2_6, hi_3_5, lo_3_5, hi_1_2, lo_1_2, hi_10_6, lo_10_6, hi_4_12, lo_4_12, hi_2_1, lo_2_1]
  cases f <;> rfl

theorem vfneg (f : FFmt) (vd : Reg) (va : Reg) (q : PReg) : Statement (.vfneg f vd va q) := by
  intro _ hw
  show decode (mkV 0x29 vd va 0 q (f.code ++ (0x08 : BitVec 6))) = _
  rw [decode_0x29 _ (by simp only [fMaj_mkV]; try rfl)]
  simp only [decD, fA_mkV, fB_mkV, fC_mkV, fQ_mkV, fFn_mkV, hi_2_3, lo_2_3, hi_1_4, lo_1_4, hi_4_1, lo_4_1, hi_3_2, lo_3_2, hi_2_6, lo_2_6, hi_3_5, lo_3_5, hi_1_2, lo_1_2, hi_10_6, lo_10_6, hi_4_12, lo_4_12, hi_2_1, lo_2_1]
  cases f <;> rfl

theorem vexp2 (vd : Reg) (va : Reg) (q : PReg) : Statement (.vexp2 vd va q) := by
  intro _ hw
  show decode (mkV 0x29 vd va 0 q 0x09) = _
  rw [decode_0x29 _ (by simp only [fMaj_mkV]; try rfl)]
  simp only [decD, fA_mkV, fB_mkV, fC_mkV, fQ_mkV, fFn_mkV]
  rfl

theorem vrcp (vd : Reg) (va : Reg) (q : PReg) : Statement (.vrcp vd va q) := by
  intro _ hw
  show decode (mkV 0x29 vd va 0 q 0x0a) = _
  rw [decode_0x29 _ (by simp only [fMaj_mkV]; try rfl)]
  simp only [decD, fA_mkV, fB_mkV, fC_mkV, fQ_mkV, fFn_mkV]
  rfl

theorem vrsq (vd : Reg) (va : Reg) (q : PReg) : Statement (.vrsq vd va q) := by
  intro _ hw
  show decode (mkV 0x29 vd va 0 q 0x0b) = _
  rw [decode_0x29 _ (by simp only [fMaj_mkV]; try rfl)]
  simp only [decD, fA_mkV, fB_mkV, fC_mkV, fQ_mkV, fFn_mkV]
  rfl

theorem vcmpEq (t : CmpTy) (qd : PReg) (va : Reg) (vb : Reg) (q : PReg) : Statement (.vcmpEq t qd va vb q) := by
  intro _ hw
  show decode (mkV 0x2A ((0 : BitVec 2) ++ qd) va vb q (t.code ++ (0 : BitVec 5))) = _
  rw [decode_0x2a _ (by simp only [fMaj_mkV]; try rfl)]
  simp only [decE, fA_mkV, fB_mkV, fC_mkV, fQ_mkV, fFn_mkV, hi_2_3, lo_2_3, hi_1_4, lo_1_4, hi_4_1, lo_4_1, hi_3_2, lo_3_2, hi_2_6, lo_2_6, hi_3_5, lo_3_5, hi_1_2, lo_1_2, hi_10_6, lo_10_6, hi_4_12, lo_4_12, hi_2_1, lo_2_1]
  cases t <;> rfl

theorem vcmpNe (t : CmpTy) (qd : PReg) (va : Reg) (vb : Reg) (q : PReg) : Statement (.vcmpNe t qd va vb q) := by
  intro _ hw
  show decode (mkV 0x2A ((0 : BitVec 2) ++ qd) va vb q (t.code ++ (1 : BitVec 5))) = _
  rw [decode_0x2a _ (by simp only [fMaj_mkV]; try rfl)]
  simp only [decE, fA_mkV, fB_mkV, fC_mkV, fQ_mkV, fFn_mkV, hi_2_3, lo_2_3, hi_1_4, lo_1_4, hi_4_1, lo_4_1, hi_3_2, lo_3_2, hi_2_6, lo_2_6, hi_3_5, lo_3_5, hi_1_2, lo_1_2, hi_10_6, lo_10_6, hi_4_12, lo_4_12, hi_2_1, lo_2_1]
  cases t <;> rfl

theorem vcmpLt (t : CmpTy) (qd : PReg) (va : Reg) (vb : Reg) (q : PReg) : Statement (.vcmpLt t qd va vb q) := by
  intro _ hw
  show decode (mkV 0x2A ((0 : BitVec 2) ++ qd) va vb q (t.code ++ (2 : BitVec 5))) = _
  rw [decode_0x2a _ (by simp only [fMaj_mkV]; try rfl)]
  simp only [decE, fA_mkV, fB_mkV, fC_mkV, fQ_mkV, fFn_mkV, hi_2_3, lo_2_3, hi_1_4, lo_1_4, hi_4_1, lo_4_1, hi_3_2, lo_3_2, hi_2_6, lo_2_6, hi_3_5, lo_3_5, hi_1_2, lo_1_2, hi_10_6, lo_10_6, hi_4_12, lo_4_12, hi_2_1, lo_2_1]
  cases t <;> rfl

theorem vcmpLe (t : CmpTy) (qd : PReg) (va : Reg) (vb : Reg) (q : PReg) : Statement (.vcmpLe t qd va vb q) := by
  intro _ hw
  show decode (mkV 0x2A ((0 : BitVec 2) ++ qd) va vb q (t.code ++ (3 : BitVec 5))) = _
  rw [decode_0x2a _ (by simp only [fMaj_mkV]; try rfl)]
  simp only [decE, fA_mkV, fB_mkV, fC_mkV, fQ_mkV, fFn_mkV, hi_2_3, lo_2_3, hi_1_4, lo_1_4, hi_4_1, lo_4_1, hi_3_2, lo_3_2, hi_2_6, lo_2_6, hi_3_5, lo_3_5, hi_1_2, lo_1_2, hi_10_6, lo_10_6, hi_4_12, lo_4_12, hi_2_1, lo_2_1]
  cases t <;> rfl

theorem vcmpLtu (w : Width) (qd : PReg) (va : Reg) (vb : Reg) (q : PReg) : Statement (.vcmpLtu w qd va vb q) := by
  intro _ hw
  show decode (mkV 0x2A ((0 : BitVec 2) ++ qd) va vb q ((0 : BitVec 1) ++ w.code ++ (4 : BitVec 5))) = _
  rw [decode_0x2a _ (by simp only [fMaj_mkV]; try rfl)]
  simp only [decE, fA_mkV, fB_mkV, fC_mkV, fQ_mkV, fFn_mkV, hi_2_3, lo_2_3, hi_1_4, lo_1_4, hi_4_1, lo_4_1, hi_3_2, lo_3_2, hi_2_6, lo_2_6, hi_3_5, lo_3_5, hi_1_2, lo_1_2, hi_10_6, lo_10_6, hi_4_12, lo_4_12, hi_2_1, lo_2_1]
  cases w <;> rfl

theorem vcmpLeu (w : Width) (qd : PReg) (va : Reg) (vb : Reg) (q : PReg) : Statement (.vcmpLeu w qd va vb q) := by
  intro _ hw
  show decode (mkV 0x2A ((0 : BitVec 2) ++ qd) va vb q ((0 : BitVec 1) ++ w.code ++ (5 : BitVec 5))) = _
  rw [decode_0x2a _ (by simp only [fMaj_mkV]; try rfl)]
  simp only [decE, fA_mkV, fB_mkV, fC_mkV, fQ_mkV, fFn_mkV, hi_2_3, lo_2_3, hi_1_4, lo_1_4, hi_4_1, lo_4_1, hi_3_2, lo_3_2, hi_2_6, lo_2_6, hi_3_5, lo_3_5, hi_1_2, lo_1_2, hi_10_6, lo_10_6, hi_4_12, lo_4_12, hi_2_1, lo_2_1]
  cases w <;> rfl

theorem qand (qd : PReg) (qa : PReg) (qb : PReg) : Statement (.qand qd qa qb) := by
  intro _ hw
  show decode (mkV 0x2A ((0 : BitVec 2) ++ qd) ((0 : BitVec 2) ++ qa) ((0 : BitVec 2) ++ qb) 0 0xe0) = _
  rw [decode_0x2a _ (by simp only [fMaj_mkV]; try rfl)]
  simp only [decE, decQ, fA_mkV, fB_mkV, fC_mkV, fQ_mkV, fFn_mkV, hi_2_3, lo_2_3, hi_1_4, lo_1_4, hi_4_1, lo_4_1, hi_3_2, lo_3_2, hi_2_6, lo_2_6, hi_3_5, lo_3_5, hi_1_2, lo_1_2, hi_10_6, lo_10_6, hi_4_12, lo_4_12, hi_2_1, lo_2_1]
  rfl

theorem qor (qd : PReg) (qa : PReg) (qb : PReg) : Statement (.qor qd qa qb) := by
  intro _ hw
  show decode (mkV 0x2A ((0 : BitVec 2) ++ qd) ((0 : BitVec 2) ++ qa) ((0 : BitVec 2) ++ qb) 0 0xe1) = _
  rw [decode_0x2a _ (by simp only [fMaj_mkV]; try rfl)]
  simp only [decE, decQ, fA_mkV, fB_mkV, fC_mkV, fQ_mkV, fFn_mkV, hi_2_3, lo_2_3, hi_1_4, lo_1_4, hi_4_1, lo_4_1, hi_3_2, lo_3_2, hi_2_6, lo_2_6, hi_3_5, lo_3_5, hi_1_2, lo_1_2, hi_10_6, lo_10_6, hi_4_12, lo_4_12, hi_2_1, lo_2_1]
  rfl

theorem qxor (qd : PReg) (qa : PReg) (qb : PReg) : Statement (.qxor qd qa qb) := by
  intro _ hw
  show decode (mkV 0x2A ((0 : BitVec 2) ++ qd) ((0 : BitVec 2) ++ qa) ((0 : BitVec 2) ++ qb) 0 0xe2) = _
  rw [decode_0x2a _ (by simp only [fMaj_mkV]; try rfl)]
  simp only [decE, decQ, fA_mkV, fB_mkV, fC_mkV, fQ_mkV, fFn_mkV, hi_2_3, lo_2_3, hi_1_4, lo_1_4, hi_4_1, lo_4_1, hi_3_2, lo_3_2, hi_2_6, lo_2_6, hi_3_5, lo_3_5, hi_1_2, lo_1_2, hi_10_6, lo_10_6, hi_4_12, lo_4_12, hi_2_1, lo_2_1]
  rfl

theorem qandn (qd : PReg) (qa : PReg) (qb : PReg) : Statement (.qandn qd qa qb) := by
  intro _ hw
  show decode (mkV 0x2A ((0 : BitVec 2) ++ qd) ((0 : BitVec 2) ++ qa) ((0 : BitVec 2) ++ qb) 0 0xe3) = _
  rw [decode_0x2a _ (by simp only [fMaj_mkV]; try rfl)]
  simp only [decE, decQ, fA_mkV, fB_mkV, fC_mkV, fQ_mkV, fFn_mkV, hi_2_3, lo_2_3, hi_1_4, lo_1_4, hi_4_1, lo_4_1, hi_3_2, lo_3_2, hi_2_6, lo_2_6, hi_3_5, lo_3_5, hi_1_2, lo_1_2, hi_10_6, lo_10_6, hi_4_12, lo_4_12, hi_2_1, lo_2_1]
  rfl

theorem qnot (qd : PReg) (qa : PReg) : Statement (.qnot qd qa) := by
  intro _ hw
  show decode (mkV 0x2A ((0 : BitVec 2) ++ qd) ((0 : BitVec 2) ++ qa) 0 0 0xe4) = _
  rw [decode_0x2a _ (by simp only [fMaj_mkV]; try rfl)]
  simp only [decE, decQ, fA_mkV, fB_mkV, fC_mkV, fQ_mkV, fFn_mkV, hi_2_3, lo_2_3, hi_1_4, lo_1_4, hi_4_1, lo_4_1, hi_3_2, lo_3_2, hi_2_6, lo_2_6, hi_3_5, lo_3_5, hi_1_2, lo_1_2, hi_10_6, lo_10_6, hi_4_12, lo_4_12, hi_2_1, lo_2_1]
  rfl

theorem qcnt (gd : Reg) (qa : PReg) : Statement (.qcnt gd qa) := by
  intro _ hw
  show decode (mkV 0x2A gd ((0 : BitVec 2) ++ qa) 0 0 0xe5) = _
  rw [decode_0x2a _ (by simp only [fMaj_mkV]; try rfl)]
  simp only [decE, decQ, fA_mkV, fB_mkV, fC_mkV, fQ_mkV, fFn_mkV, hi_2_3, lo_2_3, hi_1_4, lo_1_4, hi_4_1, lo_4_1, hi_3_2, lo_3_2, hi_2_6, lo_2_6, hi_3_5, lo_3_5, hi_1_2, lo_1_2, hi_10_6, lo_10_6, hi_4_12, lo_4_12, hi_2_1, lo_2_1]
  rfl

theorem qfromg (qd : PReg) (ga : Reg) : Statement (.qfromg qd ga) := by
  intro _ hw
  show decode (mkV 0x2A ((0 : BitVec 2) ++ qd) ga 0 0 0xe6) = _
  rw [decode_0x2a _ (by simp only [fMaj_mkV]; try rfl)]
  simp only [decE, decQ, fA_mkV, fB_mkV, fC_mkV, fQ_mkV, fFn_mkV, hi_2_3, lo_2_3, hi_1_4, lo_1_4, hi_4_1, lo_4_1, hi_3_2, lo_3_2, hi_2_6, lo_2_6, hi_3_5, lo_3_5, hi_1_2, lo_1_2, hi_10_6, lo_10_6, hi_4_12, lo_4_12, hi_2_1, lo_2_1]
  rfl

theorem qtog (gd : Reg) (qa : PReg) : Statement (.qtog gd qa) := by
  intro _ hw
  show decode (mkV 0x2A gd ((0 : BitVec 2) ++ qa) 0 0 0xe7) = _
  rw [decode_0x2a _ (by simp only [fMaj_mkV]; try rfl)]
  simp only [decE, decQ, fA_mkV, fB_mkV, fC_mkV, fQ_mkV, fFn_mkV, hi_2_3, lo_2_3, hi_1_4, lo_1_4, hi_4_1, lo_4_1, hi_3_2, lo_3_2, hi_2_6, lo_2_6, hi_3_5, lo_3_5, hi_1_2, lo_1_2, hi_10_6, lo_10_6, hi_4_12, lo_4_12, hi_2_1, lo_2_1]
  rfl

theorem vrsumF32 (gd : Reg) (va : Reg) (q : PReg) : Statement (.vrsumF32 gd va q) := by
  intro _ hw
  show decode (mkV 0x2B gd va 0 q 0x00) = _
  rw [decode_0x2b _ (by simp only [fMaj_mkV]; try rfl)]
  simp only [decF, fA_mkV, fB_mkV, fC_mkV, fQ_mkV, fFn_mkV]
  rfl

theorem vrmaxF32 (gd : Reg) (va : Reg) (q : PReg) : Statement (.vrmaxF32 gd va q) := by
  intro _ hw
  show decode (mkV 0x2B gd va 0 q 0x01) = _
  rw [decode_0x2b _ (by simp only [fMaj_mkV]; try rfl)]
  simp only [decF, fA_mkV, fB_mkV, fC_mkV, fQ_mkV, fFn_mkV]
  rfl

theorem vrsumI32 (gd : Reg) (va : Reg) (q : PReg) : Statement (.vrsumI32 gd va q) := by
  intro _ hw
  show decode (mkV 0x2B gd va 0 q 0x02) = _
  rw [decode_0x2b _ (by simp only [fMaj_mkV]; try rfl)]
  simp only [decF, fA_mkV, fB_mkV, fC_mkV, fQ_mkV, fFn_mkV]
  rfl

theorem vrmaxI32 (gd : Reg) (va : Reg) (q : PReg) : Statement (.vrmaxI32 gd va q) := by
  intro _ hw
  show decode (mkV 0x2B gd va 0 q 0x03) = _
  rw [decode_0x2b _ (by simp only [fMaj_mkV]; try rfl)]
  simp only [decF, fA_mkV, fB_mkV, fC_mkV, fQ_mkV, fFn_mkV]
  rfl

theorem vbcast (w : Width) (vd : Reg) (ga : Reg) : Statement (.vbcast w vd ga) := by
  intro _ hw
  show decode (mkV 0x2B vd ga 0 ((0 : BitVec 1) ++ w.code) 0x08) = _
  rw [decode_0x2b _ (by simp only [fMaj_mkV]; try rfl)]
  simp only [decF, fA_mkV, fB_mkV, fC_mkV, fQ_mkV, fFn_mkV, hi_2_3, lo_2_3, hi_1_4, lo_1_4, hi_4_1, lo_4_1, hi_3_2, lo_3_2, hi_2_6, lo_2_6, hi_3_5, lo_3_5, hi_1_2, lo_1_2, hi_10_6, lo_10_6, hi_4_12, lo_4_12, hi_2_1, lo_2_1]
  cases w <;> rfl

theorem vextr (w : Width) (gd : Reg) (va : Reg) (gb : Reg) : Statement (.vextr w gd va gb) := by
  intro _ hw
  show decode (mkV 0x2B gd va gb ((0 : BitVec 1) ++ w.code) 0x09) = _
  rw [decode_0x2b _ (by simp only [fMaj_mkV]; try rfl)]
  simp only [decF, fA_mkV, fB_mkV, fC_mkV, fQ_mkV, fFn_mkV, hi_2_3, lo_2_3, hi_1_4, lo_1_4, hi_4_1, lo_4_1, hi_3_2, lo_3_2, hi_2_6, lo_2_6, hi_3_5, lo_3_5, hi_1_2, lo_1_2, hi_10_6, lo_10_6, hi_4_12, lo_4_12, hi_2_1, lo_2_1]
  cases w <;> rfl

theorem vins (w : Width) (vd : Reg) (ga : Reg) (gb : Reg) : Statement (.vins w vd ga gb) := by
  intro _ hw
  show decode (mkV 0x2B vd ga gb ((0 : BitVec 1) ++ w.code) 0x0a) = _
  rw [decode_0x2b _ (by simp only [fMaj_mkV]; try rfl)]
  simp only [decF, fA_mkV, fB_mkV, fC_mkV, fQ_mkV, fFn_mkV, hi_2_3, lo_2_3, hi_1_4, lo_1_4, hi_4_1, lo_4_1, hi_3_2, lo_3_2, hi_2_6, lo_2_6, hi_3_5, lo_3_5, hi_1_2, lo_1_2, hi_10_6, lo_10_6, hi_4_12, lo_4_12, hi_2_1, lo_2_1]
  cases w <;> rfl

theorem vperm (w : Width) (vd : Reg) (va : Reg) (vb : Reg) : Statement (.vperm w vd va vb) := by
  intro _ hw
  show decode (mkV 0x2B vd va vb ((0 : BitVec 1) ++ w.code) 0x0b) = _
  rw [decode_0x2b _ (by simp only [fMaj_mkV]; try rfl)]
  simp only [decF, fA_mkV, fB_mkV, fC_mkV, fQ_mkV, fFn_mkV, hi_2_3, lo_2_3, hi_1_4, lo_1_4, hi_4_1, lo_4_1, hi_3_2, lo_3_2, hi_2_6, lo_2_6, hi_3_5, lo_3_5, hi_1_2, lo_1_2, hi_10_6, lo_10_6, hi_4_12, lo_4_12, hi_2_1, lo_2_1]
  cases w <;> rfl

theorem vslide (w : Width) (vd : Reg) (va : Reg) (gb : Reg) : Statement (.vslide w vd va gb) := by
  intro _ hw
  show decode (mkV 0x2B vd va gb ((0 : BitVec 1) ++ w.code) 0x0c) = _
  rw [decode_0x2b _ (by simp only [fMaj_mkV]; try rfl)]
  simp only [decF, fA_mkV, fB_mkV, fC_mkV, fQ_mkV, fFn_mkV, hi_2_3, lo_2_3, hi_1_4, lo_1_4, hi_4_1, lo_4_1, hi_3_2, lo_3_2, hi_2_6, lo_2_6, hi_3_5, lo_3_5, hi_1_2, lo_1_2, hi_10_6, lo_10_6, hi_4_12, lo_4_12, hi_2_1, lo_2_1]
  cases w <;> rfl

theorem vtopk (vd : Reg) (va : Reg) (gb : Reg) (q : PReg) : Statement (.vtopk vd va gb q) := by
  intro _ hw
  show decode (mkV 0x2B vd va gb q 0x10) = _
  rw [decode_0x2b _ (by simp only [fMaj_mkV]; try rfl)]
  simp only [decF, fA_mkV, fB_mkV, fC_mkV, fQ_mkV, fFn_mkV]
  have hv : (BitVec.extractLsb' 0 1 vd == 0) = true := by
    have : ∀ v : Reg, (v.toNat % 2 == 0) = true → (BitVec.extractLsb' 0 1 v == 0) = true := by decide
    exact this vd hw
  simp only [hv]; rfl

theorem vtopkNz (vd : Reg) (va : Reg) (gb : Reg) (q : PReg) : Statement (.vtopkNz vd va gb q) := by
  intro _ hw
  show decode (mkV 0x2B vd va gb q 0x11) = _
  rw [decode_0x2b _ (by simp only [fMaj_mkV]; try rfl)]
  simp only [decF, fA_mkV, fB_mkV, fC_mkV, fQ_mkV, fFn_mkV]
  have hv : (BitVec.extractLsb' 0 1 vd == 0) = true := by
    have : ∀ v : Reg, (v.toNat % 2 == 0) = true → (BitVec.extractLsb' 0 1 v == 0) = true := by decide
    exact this vd hw
  simp only [hv]; rfl

theorem vcompress (vd : Reg) (va : Reg) : Statement (.vcompress vd va) := by
  intro _ hw
  show decode (mkV 0x2B vd va 0 0 0x12) = _
  rw [decode_0x2b _ (by simp only [fMaj_mkV]; try rfl)]
  simp only [decF, fA_mkV, fB_mkV, fC_mkV, fQ_mkV, fFn_mkV]
  rfl

theorem vcvtF32Bf16 (vd : Reg) (va : Reg) (h : BitVec 1) (q : PReg) : Statement (.vcvtF32Bf16 vd va h q) := by
  intro _ hw
  show decode (mkV 0x2B vd va ((0 : BitVec 4) ++ h) q 0x20) = _
  rw [decode_0x2b _ (by simp only [fMaj_mkV]; try rfl)]
  simp only [decF, fA_mkV, fB_mkV, fC_mkV, fQ_mkV, fFn_mkV, hi_2_3, lo_2_3, hi_1_4, lo_1_4, hi_4_1, lo_4_1, hi_3_2, lo_3_2, hi_2_6, lo_2_6, hi_3_5, lo_3_5, hi_1_2, lo_1_2, hi_10_6, lo_10_6, hi_4_12, lo_4_12, hi_2_1, lo_2_1]
  rfl

theorem vcvtBf16F32 (vd : Reg) (va : Reg) (h : BitVec 1) (q : PReg) : Statement (.vcvtBf16F32 vd va h q) := by
  intro _ hw
  show decode (mkV 0x2B vd va ((0 : BitVec 4) ++ h) q 0x21) = _
  rw [decode_0x2b _ (by simp only [fMaj_mkV]; try rfl)]
  simp only [decF, fA_mkV, fB_mkV, fC_mkV, fQ_mkV, fFn_mkV, hi_2_3, lo_2_3, hi_1_4, lo_1_4, hi_4_1, lo_4_1, hi_3_2, lo_3_2, hi_2_6, lo_2_6, hi_3_5, lo_3_5, hi_1_2, lo_1_2, hi_10_6, lo_10_6, hi_4_12, lo_4_12, hi_2_1, lo_2_1]
  rfl

theorem vcvtF32I32 (vd : Reg) (va : Reg) (q : PReg) : Statement (.vcvtF32I32 vd va q) := by
  intro _ hw
  show decode (mkV 0x2B vd va 0 q 0x22) = _
  rw [decode_0x2b _ (by simp only [fMaj_mkV]; try rfl)]
  simp only [decF, fA_mkV, fB_mkV, fC_mkV, fQ_mkV, fFn_mkV]
  rfl

theorem vcvtI32F32 (vd : Reg) (va : Reg) (q : PReg) : Statement (.vcvtI32F32 vd va q) := by
  intro _ hw
  show decode (mkV 0x2B vd va 0 q 0x23) = _
  rw [decode_0x2b _ (by simp only [fMaj_mkV]; try rfl)]
  simp only [decF, fA_mkV, fB_mkV, fC_mkV, fQ_mkV, fFn_mkV]
  rfl

theorem vcvtI8I32 (vd : Reg) (va : Reg) (h : BitVec 2) (q : PReg) : Statement (.vcvtI8I32 vd va h q) := by
  intro _ hw
  show decode (mkV 0x2B vd va ((0 : BitVec 3) ++ h) q 0x24) = _
  rw [decode_0x2b _ (by simp only [fMaj_mkV]; try rfl)]
  simp only [decF, fA_mkV, fB_mkV, fC_mkV, fQ_mkV, fFn_mkV, hi_2_3, lo_2_3, hi_1_4, lo_1_4, hi_4_1, lo_4_1, hi_3_2, lo_3_2, hi_2_6, lo_2_6, hi_3_5, lo_3_5, hi_1_2, lo_1_2, hi_10_6, lo_10_6, hi_4_12, lo_4_12, hi_2_1, lo_2_1]
  rfl

theorem vcvtUi8I32 (vd : Reg) (va : Reg) (h : BitVec 2) (q : PReg) : Statement (.vcvtUi8I32 vd va h q) := by
  intro _ hw
  show decode (mkV 0x2B vd va ((0 : BitVec 3) ++ h) q 0x25) = _
  rw [decode_0x2b _ (by simp only [fMaj_mkV]; try rfl)]
  simp only [decF, fA_mkV, fB_mkV, fC_mkV, fQ_mkV, fFn_mkV, hi_2_3, lo_2_3, hi_1_4, lo_1_4, hi_4_1, lo_4_1, hi_3_2, lo_3_2, hi_2_6, lo_2_6, hi_3_5, lo_3_5, hi_1_2, lo_1_2, hi_10_6, lo_10_6, hi_4_12, lo_4_12, hi_2_1, lo_2_1]
  rfl

theorem vcvtI32I8 (vd : Reg) (va : Reg) (h : BitVec 2) (q : PReg) : Statement (.vcvtI32I8 vd va h q) := by
  intro _ hw
  show decode (mkV 0x2B vd va ((0 : BitVec 3) ++ h) q 0x26) = _
  rw [decode_0x2b _ (by simp only [fMaj_mkV]; try rfl)]
  simp only [decF, fA_mkV, fB_mkV, fC_mkV, fQ_mkV, fFn_mkV, hi_2_3, lo_2_3, hi_1_4, lo_1_4, hi_4_1, lo_4_1, hi_3_2, lo_3_2, hi_2_6, lo_2_6, hi_3_5, lo_3_5, hi_1_2, lo_1_2, hi_10_6, lo_10_6, hi_4_12, lo_4_12, hi_2_1, lo_2_1]
  rfl

theorem vld (vd : Reg) (ga : Reg) (gb : Reg) (q : PReg) : Statement (.vld vd ga gb q) := by
  intro _ hw
  show decode (mkV 0x2C vd ga gb q 0x00) = _
  rw [decode_0x2c _ (by simp only [fMaj_mkV]; try rfl)]
  simp only [decG, fA_mkV, fB_mkV, fC_mkV, fQ_mkV, fFn_mkV]
  rfl

theorem vst (vs : Reg) (ga : Reg) (gb : Reg) (q : PReg) : Statement (.vst vs ga gb q) := by
  intro _ hw
  show decode (mkV 0x2C vs ga gb q 0x01) = _
  rw [decode_0x2c _ (by simp only [fMaj_mkV]; try rfl)]
  simp only [decG, fA_mkV, fB_mkV, fC_mkV, fQ_mkV, fFn_mkV]
  rfl

theorem vlds (vd : Reg) (ga : Reg) (gb : Reg) (q : PReg) : Statement (.vlds vd ga gb q) := by
  intro _ hw
  show decode (mkV 0x2C vd ga gb q 0x02) = _
  rw [decode_0x2c _ (by simp only [fMaj_mkV]; try rfl)]
  simp only [decG, fA_mkV, fB_mkV, fC_mkV, fQ_mkV, fFn_mkV]
  rfl

theorem vsts (vs : Reg) (ga : Reg) (gb : Reg) (q : PReg) : Statement (.vsts vs ga gb q) := by
  intro _ hw
  show decode (mkV 0x2C vs ga gb q 0x03) = _
  rw [decode_0x2c _ (by simp only [fMaj_mkV]; try rfl)]
  simp only [decG, fA_mkV, fB_mkV, fC_mkV, fQ_mkV, fFn_mkV]
  rfl

theorem vldx (vd : Reg) (ga : Reg) (vb : Reg) (q : PReg) : Statement (.vldx vd ga vb q) := by
  intro _ hw
  show decode (mkV 0x2C vd ga vb q 0x04) = _
  rw [decode_0x2c _ (by simp only [fMaj_mkV]; try rfl)]
  simp only [decG, fA_mkV, fB_mkV, fC_mkV, fQ_mkV, fFn_mkV]
  rfl

theorem vstx (vs : Reg) (ga : Reg) (vb : Reg) (q : PReg) : Statement (.vstx vs ga vb q) := by
  intro _ hw
  show decode (mkV 0x2C vs ga vb q 0x05) = _
  rw [decode_0x2c _ (by simp only [fMaj_mkV]; try rfl)]
  simp only [decG, fA_mkV, fB_mkV, fC_mkV, fQ_mkV, fFn_mkV]
  rfl

theorem vldb (vd : Reg) (ga : Reg) (gb : Reg) (q : PReg) : Statement (.vldb vd ga gb q) := by
  intro _ hw
  show decode (mkV 0x2C vd ga gb q 0x06) = _
  rw [decode_0x2c _ (by simp only [fMaj_mkV]; try rfl)]
  simp only [decG, fA_mkV, fB_mkV, fC_mkV, fQ_mkV, fFn_mkV]
  rfl

theorem mldwBf16 (ga : Reg) : Statement (.mldwBf16 ga) := by
  intro _ hw
  show decode (mkM 0 0 ga 0 0 0x00) = _
  rw [decode_0x30 _ (by simp only [fMaj_mkM]; try rfl)]
  simp only [decH, fM_mkM, fV_mkM, fG_mkM, fPl_mkM, fQ_mkM, fFn_mkM]
  rfl

theorem mldwF32 (ga : Reg) : Statement (.mldwF32 ga) := by
  intro _ hw
  show decode (mkM 0 0 ga 0 0 0x01) = _
  rw [decode_0x30 _ (by simp only [fMaj_mkM]; try rfl)]
  simp only [decH, fM_mkM, fV_mkM, fG_mkM, fPl_mkM, fQ_mkM, fFn_mkM]
  rfl

theorem mldwP (ga : Reg) (pl : BitVec 3) : Statement (.mldwP ga pl) := by
  intro _ hw
  show decode (mkM 0 0 ga pl 0 0x02) = _
  rw [decode_0x30 _ (by simp only [fMaj_mkM]; try rfl)]
  simp only [decH, fM_mkM, fV_mkM, fG_mkM, fPl_mkM, fQ_mkM, fFn_mkM]
  have hp : (pl == 0) = false := by simpa [wellFormed] using hw
  simp only [hp]; rfl

theorem mswap : Statement (.mswap) := by
  intro _ hw
  show decode (mkM 0 0 0 0 0 0x03) = _
  rw [decode_0x30 _ (by simp only [fMaj_mkM]; try rfl)]
  simp only [decH, fM_mkM, fV_mkM, fG_mkM, fPl_mkM, fQ_mkM, fFn_mkM]
  rfl

theorem mmaBf16 (m : Acc) (ga : Reg) : Statement (.mmaBf16 m ga) := by
  intro _ hw
  show decode (mkM m 0 ga 0 0 0x08) = _
  rw [decode_0x30 _ (by simp only [fMaj_mkM]; try rfl)]
  simp only [decH, fM_mkM, fV_mkM, fG_mkM, fPl_mkM, fQ_mkM, fFn_mkM]
  rfl

theorem mmaF32 (m : Acc) (ga : Reg) : Statement (.mmaF32 m ga) := by
  intro _ hw
  show decode (mkM m 0 ga 0 0 0x09) = _
  rw [decode_0x30 _ (by simp only [fMaj_mkM]; try rfl)]
  simp only [decH, fM_mkM, fV_mkM, fG_mkM, fPl_mkM, fQ_mkM, fFn_mkM]
  rfl

theorem mmaP (m : Acc) (ga : Reg) (pl : BitVec 3) : Statement (.mmaP m ga pl) := by
  intro _ hw
  show decode (mkM m 0 ga pl 0 0x0a) = _
  rw [decode_0x30 _ (by simp only [fMaj_mkM]; try rfl)]
  simp only [decH, fM_mkM, fV_mkM, fG_mkM, fPl_mkM, fQ_mkM, fFn_mkM]
  have hp : (pl == 0) = false := by simpa [wellFormed] using hw
  simp only [hp]; rfl

theorem mmasBf16 (m : Acc) (v : Reg) (ga : Reg) : Statement (.mmasBf16 m v ga) := by
  intro _ hw
  show decode (mkM m v ga 0 0 0x0c) = _
  rw [decode_0x30 _ (by simp only [fMaj_mkM]; try rfl)]
  simp only [decH, fM_mkM, fV_mkM, fG_mkM, fPl_mkM, fQ_mkM, fFn_mkM]
  rfl

theorem mmasP (m : Acc) (v : Reg) (ga : Reg) (pl : BitVec 3) : Statement (.mmasP m v ga pl) := by
  intro _ hw
  show decode (mkM m v ga pl 0 0x0e) = _
  rw [decode_0x30 _ (by simp only [fMaj_mkM]; try rfl)]
  simp only [decH, fM_mkM, fV_mkM, fG_mkM, fPl_mkM, fQ_mkM, fFn_mkM]
  have hp : (pl == 0) = false := by simpa [wellFormed] using hw
  simp only [hp]; rfl

theorem mzero (m : Acc) : Statement (.mzero m) := by
  intro _ hw
  show decode (mkM m 0 0 0 0 0x10) = _
  rw [decode_0x30 _ (by simp only [fMaj_mkM]; try rfl)]
  simp only [decH, fM_mkM, fV_mkM, fG_mkM, fPl_mkM, fQ_mkM, fFn_mkM]
  rfl

theorem mldacc (m : Acc) (ga : Reg) : Statement (.mldacc m ga) := by
  intro _ hw
  show decode (mkM m 0 ga 0 0 0x11) = _
  rw [decode_0x30 _ (by simp only [fMaj_mkM]; try rfl)]
  simp only [decH, fM_mkM, fV_mkM, fG_mkM, fPl_mkM, fQ_mkM, fFn_mkM]
  rfl

theorem mstacc (m : Acc) (ga : Reg) : Statement (.mstacc m ga) := by
  intro _ hw
  show decode (mkM m 0 ga 0 0 0x12) = _
  rw [decode_0x30 _ (by simp only [fMaj_mkM]; try rfl)]
  simp only [decH, fM_mkM, fV_mkM, fG_mkM, fPl_mkM, fQ_mkM, fFn_mkM]
  rfl

theorem mstaccBf16 (m : Acc) (ga : Reg) : Statement (.mstaccBf16 m ga) := by
  intro _ hw
  show decode (mkM m 0 ga 0 1 0x12) = _
  rw [decode_0x30 _ (by simp only [fMaj_mkM]; try rfl)]
  simp only [decH, fM_mkM, fV_mkM, fG_mkM, fPl_mkM, fQ_mkM, fFn_mkM]
  rfl

theorem mscale (m : Acc) (ga : Reg) : Statement (.mscale m ga) := by
  intro _ hw
  show decode (mkM m 0 ga 0 0 0x13) = _
  rw [decode_0x30 _ (by simp only [fMaj_mkM]; try rfl)]
  simp only [decH, fM_mkM, fV_mkM, fG_mkM, fPl_mkM, fQ_mkM, fFn_mkM]
  rfl

theorem gang (f : GangForm) (m : Acc) (v : Reg) (ga : Reg) (pl : BitVec 3) : Statement (.gang f m v ga pl) := by
  intro _ hw
  show decode (mkM m v ga pl f.code 0x18) = _
  rw [decode_0x30 _ (by simp only [fMaj_mkM]; try rfl)]
  simp only [decH, fM_mkM, fV_mkM, fG_mkM, fPl_mkM, fQ_mkM, fFn_mkM]
  have hg : gangFieldsOk f v pl = true := hw
  cases f <;> simp only [GangForm.code, GangForm.ofCode] <;> (show req _ _ = _; rw [hg]; rfl)

theorem gangT (f : GangForm) (m : Acc) (v : Reg) (ga : Reg) (pl : BitVec 3) : Statement (.gangT f m v ga pl) := by
  intro _ hw
  show decode (mkM m v ga pl f.code 0x19) = _
  rw [decode_0x30 _ (by simp only [fMaj_mkM]; try rfl)]
  simp only [decH, fM_mkM, fV_mkM, fG_mkM, fPl_mkM, fQ_mkM, fFn_mkM]
  have hg : gangFieldsOk f v pl = true := hw
  cases f <;> simp only [GangForm.code, GangForm.ofCode] <;> (show req _ _ = _; rw [hg]; rfl)

theorem msave (ga : Reg) : Statement (.msave ga) := by
  intro _ hw
  show decode (mkM 0 0 ga 0 0 0x20) = _
  rw [decode_0x30 _ (by simp only [fMaj_mkM]; try rfl)]
  simp only [decH, fM_mkM, fV_mkM, fG_mkM, fPl_mkM, fQ_mkM, fFn_mkM]
  rfl

theorem mrest (ga : Reg) : Statement (.mrest ga) := by
  intro _ hw
  show decode (mkM 0 0 ga 0 0 0x21) = _
  rw [decode_0x30 _ (by simp only [fMaj_mkM]; try rfl)]
  simp only [decH, fM_mkM, fV_mkM, fG_mkM, fPl_mkM, fQ_mkM, fFn_mkM]
  rfl

theorem mfree : Statement (.mfree) := by
  intro _ hw
  show decode (mkM 0 0 0 0 0 0x22) = _
  rw [decode_0x30 _ (by simp only [fMaj_mkM]; try rfl)]
  simp only [decH, fM_mkM, fV_mkM, fG_mkM, fPl_mkM, fQ_mkM, fFn_mkM]
  rfl

theorem enq (t : Bool) (port : BitVec 2) (ga : Reg) : Statement (.enq t port ga) := by
  intro _ hw
  show decode (mkE 0 ga 0 port ((0 : BitVec 2) ++ BitVec.ofBool t) 0x00) = _
  rw [decode_0x34 _ (by simp only [fMaj_mkE]; try rfl)]
  simp only [decI, fA_mkE, fB_mkE, fC_mkE, ex9_2_mkE, ex6_3_mkE, ex0_6_mkE, hi_2_3, lo_2_3, hi_1_4, lo_1_4, hi_4_1, lo_4_1, hi_3_2, lo_3_2, hi_2_6, lo_2_6, hi_3_5, lo_3_5, hi_1_2, lo_1_2, hi_10_6, lo_10_6, hi_4_12, lo_4_12, hi_2_1, lo_2_1]
  have hr : reqRegOk ga = true := hw
  simp only [hr]; cases t <;> rfl

theorem enqt (t : Bool) (port : BitVec 2) (gd : Reg) (ga : Reg) : Statement (.enqt t port gd ga) := by
  intro _ hw
  show decode (mkE gd ga 0 port ((0 : BitVec 2) ++ BitVec.ofBool t) 0x01) = _
  rw [decode_0x34 _ (by simp only [fMaj_mkE]; try rfl)]
  simp only [decI, fA_mkE, fB_mkE, fC_mkE, ex9_2_mkE, ex6_3_mkE, ex0_6_mkE, hi_2_3, lo_2_3, hi_1_4, lo_1_4, hi_4_1, lo_4_1, hi_3_2, lo_3_2, hi_2_6, lo_2_6, hi_3_5, lo_3_5, hi_1_2, lo_1_2, hi_10_6, lo_10_6, hi_4_12, lo_4_12, hi_2_1, lo_2_1]
  have hr : reqRegOk ga = true := hw
  simp only [hr]; cases t <;> rfl

theorem deq (port : BitVec 2) (gd : Reg) : Statement (.deq port gd) := by
  intro _ hw
  show decode (mkE gd 0 0 port 0 0x02) = _
  rw [decode_0x34 _ (by simp only [fMaj_mkE]; try rfl)]
  simp only [decI, fA_mkE, fB_mkE, fC_mkE, ex9_2_mkE, ex6_3_mkE, ex0_6_mkE]
  rfl

theorem deqt (port : BitVec 2) (gd : Reg) : Statement (.deqt port gd) := by
  intro _ hw
  show decode (mkE gd 0 0 port 0 0x03) = _
  rw [decode_0x34 _ (by simp only [fMaj_mkE]; try rfl)]
  simp only [decI, fA_mkE, fB_mkE, fC_mkE, ex9_2_mkE, ex6_3_mkE, ex0_6_mkE]
  rfl

theorem mbinc (r : Bool) (ga : Reg) (gb : Reg) : Statement (.mbinc r ga gb) := by
  intro _ hw
  show decode (mkE 0 ga gb 0 ((0 : BitVec 2) ++ BitVec.ofBool r) 0x08) = _
  rw [decode_0x34 _ (by simp only [fMaj_mkE]; try rfl)]
  simp only [decI, fA_mkE, fB_mkE, fC_mkE, ex9_2_mkE, ex6_3_mkE, ex0_6_mkE, hi_2_3, lo_2_3, hi_1_4, lo_1_4, hi_4_1, lo_4_1, hi_3_2, lo_3_2, hi_2_6, lo_2_6, hi_3_5, lo_3_5, hi_1_2, lo_1_2, hi_10_6, lo_10_6, hi_4_12, lo_4_12, hi_2_1, lo_2_1]
  cases r <;> rfl

theorem mbwait (ga : Reg) (gb : Reg) : Statement (.mbwait ga gb) := by
  intro _ hw
  show decode (mkE 0 ga gb 0 0 0x09) = _
  rw [decode_0x34 _ (by simp only [fMaj_mkE]; try rfl)]
  simp only [decI, fA_mkE, fB_mkE, fC_mkE, ex9_2_mkE, ex6_3_mkE, ex0_6_mkE]
  rfl

theorem mbwaitT (gd : Reg) (ga : Reg) (gb : Reg) : Statement (.mbwaitT gd ga gb) := by
  intro _ hw
  show decode (mkE gd ga gb 0 0 0x0a) = _
  rw [decode_0x34 _ (by simp only [fMaj_mkE]; try rfl)]
  simp only [decI, fA_mkE, fB_mkE, fC_mkE, ex9_2_mkE, ex6_3_mkE, ex0_6_mkE]
  rfl

theorem mbrd (gd : Reg) (ga : Reg) : Statement (.mbrd gd ga) := by
  intro _ hw
  show decode (mkE gd ga 0 0 0 0x0b) = _
  rw [decode_0x34 _ (by simp only [fMaj_mkE]; try rfl)]
  simp only [decI, fA_mkE, fB_mkE, fC_mkE, ex9_2_mkE, ex6_3_mkE, ex0_6_mkE]
  rfl

theorem mbset (ga : Reg) (gb : Reg) : Statement (.mbset ga gb) := by
  intro _ hw
  show decode (mkE 0 ga gb 0 0 0x0c) = _
  rw [decode_0x34 _ (by simp only [fMaj_mkE]; try rfl)]
  simp only [decI, fA_mkE, fB_mkE, fC_mkE, ex9_2_mkE, ex6_3_mkE, ex0_6_mkE]
  rfl

theorem bmv (ga : Reg) : Statement (.bmv ga) := by
  intro _ hw
  show decode (mkE 0 ga 0 2 0 0x10) = _
  rw [decode_0x34 _ (by simp only [fMaj_mkE]; try rfl)]
  simp only [decI, fA_mkE, fB_mkE, fC_mkE, ex9_2_mkE, ex6_3_mkE, ex0_6_mkE]
  have hr : reqRegOk ga = true := hw
  simp only [hr]; rfl

theorem bfence : Statement (.bfence) := by
  intro _ hw
  show decode (mkE 0 0 0 0 0 0x11) = _
  rw [decode_0x34 _ (by simp only [fMaj_mkE]; try rfl)]
  simp only [decI, fA_mkE, fB_mkE, fC_mkE, ex9_2_mkE, ex6_3_mkE, ex0_6_mkE]
  rfl

theorem pchk (ga : Reg) : Statement (.pchk ga) := by
  intro _ hw
  show decode (mkE 0 ga 0 3 0 0x18) = _
  rw [decode_0x34 _ (by simp only [fMaj_mkE]; try rfl)]
  simp only [decI, fA_mkE, fB_mkE, fC_mkE, ex9_2_mkE, ex6_3_mkE, ex0_6_mkE]
  have hr : reqRegOk ga = true := hw
  simp only [hr]; rfl

theorem prec (ga : Reg) : Statement (.prec ga) := by
  intro _ hw
  show decode (mkE 0 ga 0 3 0 0x19) = _
  rw [decode_0x34 _ (by simp only [fMaj_mkE]; try rfl)]
  simp only [decI, fA_mkE, fB_mkE, fC_mkE, ex9_2_mkE, ex6_3_mkE, ex0_6_mkE]
  have hr : reqRegOk ga = true := hw
  simp only [hr]; rfl

theorem pstep (gd : Reg) (ga : Reg) : Statement (.pstep gd ga) := by
  intro _ hw
  show decode (mkE gd ga 0 0 0 0x1a) = _
  rw [decode_0x34 _ (by simp only [fMaj_mkE]; try rfl)]
  simp only [decI, fA_mkE, fB_mkE, fC_mkE, ex9_2_mkE, ex6_3_mkE, ex0_6_mkE]
  rfl

theorem pdrop (gd : Reg) (ga : Reg) (gb : Reg) : Statement (.pdrop gd ga gb) := by
  intro _ hw
  show decode (mkE gd ga gb 0 0 0x1b) = _
  rw [decode_0x34 _ (by simp only [fMaj_mkE]; try rfl)]
  simp only [decI, fA_mkE, fB_mkE, fC_mkE, ex9_2_mkE, ex6_3_mkE, ex0_6_mkE]
  rfl

theorem spawn (gd : Reg) (ga : Reg) (gb : Reg) : Statement (.spawn gd ga gb) := by
  intro _ hw
  show decode (mkR 0x38 gd ga gb 0x000) = _
  rw [decode_0x38 _ (by simp only [fMaj_mkR]; try rfl)]
  simp only [decJ, fA_mkR, fB_mkR, fC_mkR, fF_mkR]
  rfl

theorem spawnat (gd : Reg) (ga : Reg) (gb : Reg) : Statement (.spawnat gd ga gb) := by
  intro _ hw
  show decode (mkR 0x38 gd ga gb 0x001) = _
  rw [decode_0x38 _ (by simp only [fMaj_mkR]; try rfl)]
  simp only [decJ, fA_mkR, fB_mkR, fC_mkR, fF_mkR]
  rfl

theorem spawntrig (gd : Reg) (ga : Reg) (gb : Reg) : Statement (.spawntrig gd ga gb) := by
  intro _ hw
  show decode (mkR 0x38 gd ga gb 0x002) = _
  rw [decode_0x38 _ (by simp only [fMaj_mkR]; try rfl)]
  simp only [decJ, fA_mkR, fB_mkR, fC_mkR, fF_mkR]
  rfl

theorem exit : Statement (.exit) := by
  intro _ hw
  show decode (mkR 0x38 0 0 0 0x003) = _
  rw [decode_0x38 _ (by simp only [fMaj_mkR]; try rfl)]
  simp only [decJ, fA_mkR, fB_mkR, fC_mkR, fF_mkR]
  rfl

theorem tid (gd : Reg) : Statement (.tid gd) := by
  intro _ hw
  show decode (mkR 0x38 gd 0 0 0x004) = _
  rw [decode_0x38 _ (by simp only [fMaj_mkR]; try rfl)]
  simp only [decJ, fA_mkR, fB_mkR, fC_mkR, fF_mkR]
  rfl

theorem tcancel (gd : Reg) (ga : Reg) (gb : Reg) : Statement (.tcancel gd ga gb) := by
  intro _ hw
  show decode (mkR 0x38 gd ga gb 0x005) = _
  rw [decode_0x38 _ (by simp only [fMaj_mkR]; try rfl)]
  simp only [decJ, fA_mkR, fB_mkR, fC_mkR, fF_mkR]
  rfl

theorem rgid (gd : Reg) : Statement (.rgid gd) := by
  intro _ hw
  show decode (mkR 0x38 gd 0 0 0x008) = _
  rw [decode_0x38 _ (by simp only [fMaj_mkR]; try rfl)]
  simp only [decJ, fA_mkR, fB_mkR, fC_mkR, fF_mkR]
  rfl

theorem rgrd (gd : Reg) (ga : Reg) (gb : Reg) : Statement (.rgrd gd ga gb) := by
  intro _ hw
  show decode (mkR 0x38 gd ga gb 0x009) = _
  rw [decode_0x38 _ (by simp only [fMaj_mkR]; try rfl)]
  simp only [decJ, fA_mkR, fB_mkR, fC_mkR, fF_mkR]
  rfl

theorem rgwr (gs : Reg) (ga : Reg) (gb : Reg) : Statement (.rgwr gs ga gb) := by
  intro _ hw
  show decode (mkR 0x38 gs ga gb 0x00a) = _
  rw [decode_0x38 _ (by simp only [fMaj_mkR]; try rfl)]
  simp only [decJ, fA_mkR, fB_mkR, fC_mkR, fF_mkR]
  rfl

theorem prd (gd : Reg) (ga : Reg) (gb : Reg) : Statement (.prd gd ga gb) := by
  intro _ hw
  show decode (mkR 0x38 gd ga gb 0x010) = _
  rw [decode_0x38 _ (by simp only [fMaj_mkR]; try rfl)]
  simp only [decJ, fA_mkR, fB_mkR, fC_mkR, fF_mkR]
  rfl

theorem send (gd : Reg) (ga : Reg) (gb : Reg) : Statement (.send gd ga gb) := by
  intro _ hw
  show decode (mkR 0x39 gd ga gb 0x000) = _
  rw [decode_0x39 _ (by simp only [fMaj_mkR]; try rfl)]
  simp only [decK, fA_mkR, fB_mkR, fC_mkR, fF_mkR]
  rfl

theorem sendh (gd : Reg) (ga : Reg) (gb : Reg) : Statement (.sendh gd ga gb) := by
  intro _ hw
  show decode (mkR 0x39 gd ga gb 0x001) = _
  rw [decode_0x39 _ (by simp only [fMaj_mkR]; try rfl)]
  simp only [decK, fA_mkR, fB_mkR, fC_mkR, fF_mkR]
  rfl

theorem sendt (gd : Reg) : Statement (.sendt gd) := by
  intro _ hw
  show decode (mkR 0x39 gd 0 0 0x002) = _
  rw [decode_0x39 _ (by simp only [fMaj_mkR]; try rfl)]
  simp only [decK, fA_mkR, fB_mkR, fC_mkR, fF_mkR]
  rfl

theorem hend : Statement (.hend) := by
  intro _ hw
  show decode (mkR 0x39 0 0 0 0x003) = _
  rw [decode_0x39 _ (by simp only [fMaj_mkR]; try rfl)]
  simp only [decK, fA_mkR, fB_mkR, fC_mkR, fF_mkR]
  rfl

theorem cmask (gd : Reg) (ga : Reg) : Statement (.cmask gd ga) := by
  intro _ hw
  show decode (mkR 0x39 gd ga 0 0x008) = _
  rw [decode_0x39 _ (by simp only [fMaj_mkR]; try rfl)]
  simp only [decK, fA_mkR, fB_mkR, fC_mkR, fF_mkR]
  rfl

theorem cunmask (gd : Reg) (ga : Reg) : Statement (.cunmask gd ga) := by
  intro _ hw
  show decode (mkR 0x39 gd ga 0 0x009) = _
  rw [decode_0x39 _ (by simp only [fMaj_mkR]; try rfl)]
  simp only [decK, fA_mkR, fB_mkR, fC_mkR, fF_mkR]
  rfl

theorem hmask : Statement (.hmask) := by
  intro _ hw
  show decode (mkR 0x39 0 0 0 0x00a) = _
  rw [decode_0x39 _ (by simp only [fMaj_mkR]; try rfl)]
  simp only [decK, fA_mkR, fB_mkR, fC_mkR, fF_mkR]
  rfl

theorem hunmask : Statement (.hunmask) := by
  intro _ hw
  show decode (mkR 0x39 0 0 0 0x00b) = _
  rw [decode_0x39 _ (by simp only [fMaj_mkR]; try rfl)]
  simp only [decK, fA_mkR, fB_mkR, fC_mkR, fF_mkR]
  rfl

theorem fence (sc : Scope) (sets : BitVec 4) : Statement (.fence sc sets) := by
  intro _ hw
  show decode (mkL 0 0 0 0x00 sc.code sets) = _
  rw [decode_0x3a _ (by simp only [fMaj_mkL]; try rfl)]
  simp only [decL, fA_mkL, fB_mkL, fC_mkL, ex6_5_mkL, ex4_2_mkL, ex0_4_mkL]
  have hs : (sets != 0) = true := hw
  simp only [hs]; cases sc <;> rfl

theorem lda (wd : MemW) (sc : Scope) (gd : Reg) (ga : Reg) : Statement (.lda wd sc gd ga) := by
  intro _ hw
  show decode (mkL gd ga 0 0x01 sc.code wd.code) = _
  rw [decode_0x3a _ (by simp only [fMaj_mkL]; try rfl)]
  simp only [decL, fA_mkL, fB_mkL, fC_mkL, ex6_5_mkL, ex4_2_mkL, ex0_4_mkL]
  cases wd <;> cases sc <;> rfl

theorem stl (wd : MemW) (sc : Scope) (ga : Reg) (gb : Reg) : Statement (.stl wd sc ga gb) := by
  intro _ hw
  show decode (mkL 0 ga gb 0x02 sc.code wd.code) = _
  rw [decode_0x3a _ (by simp only [fMaj_mkL]; try rfl)]
  simp only [decL, fA_mkL, fB_mkL, fC_mkL, ex6_5_mkL, ex4_2_mkL, ex0_4_mkL]
  cases wd <;> cases sc <;> rfl

theorem cas (w32 : Bool) (sc : Scope) (gd : Reg) (ga : Reg) (gb : Reg) : Statement (.cas w32 sc gd ga gb) := by
  intro _ hw
  show decode (mkL gd ga gb 0x03 sc.code (w32Code w32)) = _
  rw [decode_0x3a _ (by simp only [fMaj_mkL]; try rfl)]
  simp only [decL, fA_mkL, fB_mkL, fC_mkL, ex6_5_mkL, ex4_2_mkL, ex0_4_mkL]
  cases w32 <;> cases sc <;> rfl

theorem amoAdd (w32 : Bool) (sc : Scope) (gd : Reg) (ga : Reg) (gb : Reg) : Statement (.amoAdd w32 sc gd ga gb) := by
  intro _ hw
  show decode (mkL gd ga gb 0x04 sc.code (w32Code w32)) = _
  rw [decode_0x3a _ (by simp only [fMaj_mkL]; try rfl)]
  simp only [decL, fA_mkL, fB_mkL, fC_mkL, ex6_5_mkL, ex4_2_mkL, ex0_4_mkL]
  cases w32 <;> cases sc <;> rfl

theorem amoAnd (w32 : Bool) (sc : Scope) (gd : Reg) (ga : Reg) (gb : Reg) : Statement (.amoAnd w32 sc gd ga gb) := by
  intro _ hw
  show decode (mkL gd ga gb 0x05 sc.code (w32Code w32)) = _
  rw [decode_0x3a _ (by simp only [fMaj_mkL]; try rfl)]
  simp only [decL, fA_mkL, fB_mkL, fC_mkL, ex6_5_mkL, ex4_2_mkL, ex0_4_mkL]
  cases w32 <;> cases sc <;> rfl

theorem amoOr (w32 : Bool) (sc : Scope) (gd : Reg) (ga : Reg) (gb : Reg) : Statement (.amoOr w32 sc gd ga gb) := by
  intro _ hw
  show decode (mkL gd ga gb 0x06 sc.code (w32Code w32)) = _
  rw [decode_0x3a _ (by simp only [fMaj_mkL]; try rfl)]
  simp only [decL, fA_mkL, fB_mkL, fC_mkL, ex6_5_mkL, ex4_2_mkL, ex0_4_mkL]
  cases w32 <;> cases sc <;> rfl

theorem amoXor (w32 : Bool) (sc : Scope) (gd : Reg) (ga : Reg) (gb : Reg) : Statement (.amoXor w32 sc gd ga gb) := by
  intro _ hw
  show decode (mkL gd ga gb 0x07 sc.code (w32Code w32)) = _
  rw [decode_0x3a _ (by simp only [fMaj_mkL]; try rfl)]
  simp only [decL, fA_mkL, fB_mkL, fC_mkL, ex6_5_mkL, ex4_2_mkL, ex0_4_mkL]
  cases w32 <;> cases sc <;> rfl

theorem amoMin (w32 : Bool) (sc : Scope) (gd : Reg) (ga : Reg) (gb : Reg) : Statement (.amoMin w32 sc gd ga gb) := by
  intro _ hw
  show decode (mkL gd ga gb 0x08 sc.code (w32Code w32)) = _
  rw [decode_0x3a _ (by simp only [fMaj_mkL]; try rfl)]
  simp only [decL, fA_mkL, fB_mkL, fC_mkL, ex6_5_mkL, ex4_2_mkL, ex0_4_mkL]
  cases w32 <;> cases sc <;> rfl

theorem amoMax (w32 : Bool) (sc : Scope) (gd : Reg) (ga : Reg) (gb : Reg) : Statement (.amoMax w32 sc gd ga gb) := by
  intro _ hw
  show decode (mkL gd ga gb 0x09 sc.code (w32Code w32)) = _
  rw [decode_0x3a _ (by simp only [fMaj_mkL]; try rfl)]
  simp only [decL, fA_mkL, fB_mkL, fC_mkL, ex6_5_mkL, ex4_2_mkL, ex0_4_mkL]
  cases w32 <;> cases sc <;> rfl

theorem amoMinu (w32 : Bool) (sc : Scope) (gd : Reg) (ga : Reg) (gb : Reg) : Statement (.amoMinu w32 sc gd ga gb) := by
  intro _ hw
  show decode (mkL gd ga gb 0x0a sc.code (w32Code w32)) = _
  rw [decode_0x3a _ (by simp only [fMaj_mkL]; try rfl)]
  simp only [decL, fA_mkL, fB_mkL, fC_mkL, ex6_5_mkL, ex4_2_mkL, ex0_4_mkL]
  cases w32 <;> cases sc <;> rfl

theorem amoMaxu (w32 : Bool) (sc : Scope) (gd : Reg) (ga : Reg) (gb : Reg) : Statement (.amoMaxu w32 sc gd ga gb) := by
  intro _ hw
  show decode (mkL gd ga gb 0x0b sc.code (w32Code w32)) = _
  rw [decode_0x3a _ (by simp only [fMaj_mkL]; try rfl)]
  simp only [decL, fA_mkL, fB_mkL, fC_mkL, ex6_5_mkL, ex4_2_mkL, ex0_4_mkL]
  cases w32 <;> cases sc <;> rfl

theorem amoSwap (w32 : Bool) (sc : Scope) (gd : Reg) (ga : Reg) (gb : Reg) : Statement (.amoSwap w32 sc gd ga gb) := by
  intro _ hw
  show decode (mkL gd ga gb 0x0c sc.code (w32Code w32)) = _
  rw [decode_0x3a _ (by simp only [fMaj_mkL]; try rfl)]
  simp only [decL, fA_mkL, fB_mkL, fC_mkL, ex6_5_mkL, ex4_2_mkL, ex0_4_mkL]
  cases w32 <;> cases sc <;> rfl

theorem amoFadd (sc : Scope) (gd : Reg) (ga : Reg) (gb : Reg) : Statement (.amoFadd sc gd ga gb) := by
  intro _ hw
  show decode (mkL gd ga gb 0x0d sc.code 1) = _
  rw [decode_0x3a _ (by simp only [fMaj_mkL]; try rfl)]
  simp only [decL, fA_mkL, fB_mkL, fC_mkL, ex6_5_mkL, ex4_2_mkL, ex0_4_mkL]
  cases sc <;> rfl

theorem cwb (ga : Reg) : Statement (.cwb ga) := by
  intro _ hw
  show decode (mkL 0 ga 0 0x10 0 0) = _
  rw [decode_0x3a _ (by simp only [fMaj_mkL]; try rfl)]
  simp only [decL, fA_mkL, fB_mkL, fC_mkL, ex6_5_mkL, ex4_2_mkL, ex0_4_mkL]
  rfl

theorem cinv (ga : Reg) : Statement (.cinv ga) := by
  intro _ hw
  show decode (mkL 0 ga 0 0x11 0 0) = _
  rw [decode_0x3a _ (by simp only [fMaj_mkL]; try rfl)]
  simp only [decL, fA_mkL, fB_mkL, fC_mkL, ex6_5_mkL, ex4_2_mkL, ex0_4_mkL]
  rfl

theorem cpf (ga : Reg) : Statement (.cpf ga) := by
  intro _ hw
  show decode (mkL 0 ga 0 0x12 0 0) = _
  rw [decode_0x3a _ (by simp only [fMaj_mkL]; try rfl)]
  simp only [decL, fA_mkL, fB_mkL, fC_mkL, ex6_5_mkL, ex4_2_mkL, ex0_4_mkL]
  rfl

theorem tlbinv (ga : Reg) (gb : Reg) : Statement (.tlbinv ga gb) := by
  intro _ hw
  show decode (mkL 0 ga gb 0x13 0 0) = _
  rw [decode_0x3a _ (by simp only [fMaj_mkL]; try rfl)]
  simp only [decL, fA_mkL, fB_mkL, fC_mkL, ex6_5_mkL, ex4_2_mkL, ex0_4_mkL]
  rfl

theorem probe (gd : Reg) (ga : Reg) (gb : Reg) : Statement (.probe gd ga gb) := by
  intro _ hw
  show decode (mkL gd ga gb 0x14 0 0) = _
  rw [decode_0x3a _ (by simp only [fMaj_mkL]; try rfl)]
  simp only [decL, fA_mkL, fB_mkL, fC_mkL, ex6_5_mkL, ex4_2_mkL, ex0_4_mkL]
  rfl

theorem mchopen (gd : Reg) (ga : Reg) : Statement (.mchopen gd ga) := by
  intro _ hw
  show decode (mkR 0x3B gd ga 0 0x000) = _
  rw [decode_0x3b _ (by simp only [fMaj_mkR]; try rfl)]
  simp only [decM, fA_mkR, fB_mkR, fC_mkR, fF_mkR]
  rfl

theorem mrel (gs : Reg) (ga : Reg) (gb : Reg) : Statement (.mrel gs ga gb) := by
  intro _ hw
  show decode (mkR 0x3B gs ga gb 0x001) = _
  rw [decode_0x3b _ (by simp only [fMaj_mkR]; try rfl)]
  simp only [decM, fA_mkR, fB_mkR, fC_mkR, fF_mkR]
  rfl

theorem mchclose (gd : Reg) (ga : Reg) : Statement (.mchclose gd ga) := by
  intro _ hw
  show decode (mkR 0x3B gd ga 0 0x002) = _
  rw [decode_0x3b _ (by simp only [fMaj_mkR]; try rfl)]
  simp only [decM, fA_mkR, fB_mkR, fC_mkR, fF_mkR]
  rfl

theorem mchstat (gd : Reg) (ga : Reg) : Statement (.mchstat gd ga) := by
  intro _ hw
  show decode (mkR 0x3B gd ga 0 0x003) = _
  rw [decode_0x3b _ (by simp only [fMaj_mkR]; try rfl)]
  simp only [decM, fA_mkR, fB_mkR, fC_mkR, fF_mkR]
  rfl

theorem ldf (gd : Reg) (ga : Reg) : Statement (.ldf gd ga) := by
  intro _ hw
  show decode (mkR 0x3D gd ga 0 0x000) = _
  rw [decode_0x3d _ (by simp only [fMaj_mkR]; try rfl)]
  simp only [decN, fA_mkR, fB_mkR, fC_mkR, fF_mkR]
  rfl

theorem ldfe (gd : Reg) (ga : Reg) : Statement (.ldfe gd ga) := by
  intro _ hw
  show decode (mkR 0x3D gd ga 0 0x001) = _
  rw [decode_0x3d _ (by simp only [fMaj_mkR]; try rfl)]
  simp only [decN, fA_mkR, fB_mkR, fC_mkR, fF_mkR]
  rfl

theorem ste (gs : Reg) (ga : Reg) : Statement (.ste gs ga) := by
  intro _ hw
  show decode (mkR 0x3D gs ga 0 0x002) = _
  rw [decode_0x3d _ (by simp only [fMaj_mkR]; try rfl)]
  simp only [decN, fA_mkR, fB_mkR, fC_mkR, fF_mkR]
  rfl

theorem stf (gs : Reg) (ga : Reg) : Statement (.stf gs ga) := by
  intro _ hw
  show decode (mkR 0x3D gs ga 0 0x003) = _
  rw [decode_0x3d _ (by simp only [fMaj_mkR]; try rfl)]
  simp only [decN, fA_mkR, fB_mkR, fC_mkR, fF_mkR]
  rfl

theorem ldfT (gd : Reg) (ga : Reg) (gt : Reg) : Statement (.ldfT gd ga gt) := by
  intro _ hw
  show decode (mkR 0x3D gd ga gt 0x004) = _
  rw [decode_0x3d _ (by simp only [fMaj_mkR]; try rfl)]
  simp only [decN, fA_mkR, fB_mkR, fC_mkR, fF_mkR]
  rfl

theorem ldfeT (gd : Reg) (ga : Reg) (gt : Reg) : Statement (.ldfeT gd ga gt) := by
  intro _ hw
  show decode (mkR 0x3D gd ga gt 0x005) = _
  rw [decode_0x3d _ (by simp only [fMaj_mkR]; try rfl)]
  simp only [decN, fA_mkR, fB_mkR, fC_mkR, fF_mkR]
  rfl

theorem steT (gs : Reg) (ga : Reg) (gt : Reg) : Statement (.steT gs ga gt) := by
  intro _ hw
  show decode (mkR 0x3D gs ga gt 0x006) = _
  rw [decode_0x3d _ (by simp only [fMaj_mkR]; try rfl)]
  simp only [decN, fA_mkR, fB_mkR, fC_mkR, fF_mkR]
  rfl

theorem tagrd (gd : Reg) (ga : Reg) : Statement (.tagrd gd ga) := by
  intro _ hw
  show decode (mkR 0x3D gd ga 0 0x008) = _
  rw [decode_0x3d _ (by simp only [fMaj_mkR]; try rfl)]
  simp only [decN, fA_mkR, fB_mkR, fC_mkR, fF_mkR]
  rfl

theorem tagwr (gs : Reg) (ga : Reg) : Statement (.tagwr gs ga) := by
  intro _ hw
  show decode (mkR 0x3D gs ga 0 0x009) = _
  rw [decode_0x3d _ (by simp only [fMaj_mkR]; try rfl)]
  simp only [decN, fA_mkR, fB_mkR, fC_mkR, fF_mkR]
  rfl

theorem smap (gd : Reg) (ga : Reg) (gb : Reg) : Statement (.smap gd ga gb) := by
  intro _ hw
  show decode (mkR 0x3D gd ga gb 0x010) = _
  rw [decode_0x3d _ (by simp only [fMaj_mkR]; try rfl)]
  simp only [decN, fA_mkR, fB_mkR, fC_mkR, fF_mkR]
  rfl

theorem sunmap (ga : Reg) : Statement (.sunmap ga) := by
  intro _ hw
  show decode (mkR 0x3D 0 ga 0 0x011) = _
  rw [decode_0x3d _ (by simp only [fMaj_mkR]; try rfl)]
  simp only [decN, fA_mkR, fB_mkR, fC_mkR, fF_mkR]
  rfl

theorem sflush (ga : Reg) (gb : Reg) : Statement (.sflush ga gb) := by
  intro _ hw
  show decode (mkR 0x3D 0 ga gb 0x012) = _
  rw [decode_0x3d _ (by simp only [fMaj_mkR]; try rfl)]
  simp only [decN, fA_mkR, fB_mkR, fC_mkR, fF_mkR]
  rfl

theorem mfill (gd : Reg) (ga : Reg) (gb : Reg) : Statement (.mfill gd ga gb) := by
  intro _ hw
  show decode (mkR 0x3D gd ga gb 0x018) = _
  rw [decode_0x3d _ (by simp only [fMaj_mkR]; try rfl)]
  simp only [decN, fA_mkR, fB_mkR, fC_mkR, fF_mkR]
  rfl

theorem armh (gd : Reg) (ga : Reg) (gb : Reg) : Statement (.armh gd ga gb) := by
  intro _ hw
  show decode (mkR 0x3D gd ga gb 0x019) = _
  rw [decode_0x3d _ (by simp only [fMaj_mkR]; try rfl)]
  simp only [decN, fA_mkR, fB_mkR, fC_mkR, fF_mkR]
  rfl

theorem loadReply : Statement (.loadReply) := by
  intro h; cases h

theorem replyTimeout : Statement (.replyTimeout) := by
  intro h; cases h

theorem homeSliceRequest : Statement (.homeSliceRequest) := by
  intro h; cases h

theorem stashRecall : Statement (.stashRecall) := by
  intro h; cases h

theorem parkRetry : Statement (.parkRetry) := by
  intro h; cases h

theorem migrationArrival : Statement (.migrationArrival) := by
  intro h; cases h

theorem tfatal : Statement (.tfatal) := by
  intro h; cases h

theorem taskPlacement : Statement (.taskPlacement) := by
  intro h; cases h

theorem switchForward : Statement (.switchForward) := by
  intro h; cases h

theorem armedRelease : Statement (.armedRelease) := by
  intro h; cases h

theorem spawnatOutcome : Statement (.spawnatOutcome) := by
  intro h; cases h

theorem dispatch : Statement (.dispatch) := by
  intro h; cases h

theorem taskPreemption : Statement (.taskPreemption) := by
  intro h; cases h

theorem slotSave : Statement (.slotSave) := by
  intro h; cases h

theorem fieldTick : Statement (.fieldTick) := by
  intro h; cases h

theorem adaptiveLoop : Statement (.adaptiveLoop) := by
  intro h; cases h

theorem clusterFailure : Statement (.clusterFailure) := by
  intro h; cases h

theorem messageArrival : Statement (.messageArrival) := by
  intro h; cases h

theorem handlerStart : Statement (.handlerStart) := by
  intro h; cases h

theorem maskedWindowClose : Statement (.maskedWindowClose) := by
  intro h; cases h

theorem atomicOperationMessage : Statement (.atomicOperationMessage) := by
  intro h; cases h

theorem replySink : Statement (.replySink) := by
  intro h; cases h

theorem counterChange : Statement (.counterChange) := by
  intro h; cases h

theorem mbwaitTimeout : Statement (.mbwaitTimeout) := by
  intro h; cases h

theorem taggedRequestArrival : Statement (.taggedRequestArrival) := by
  intro h; cases h

theorem taggedRequestResend : Statement (.taggedRequestResend) := by
  intro h; cases h

theorem taggedWaitTimeout : Statement (.taggedWaitTimeout) := by
  intro h; cases h

theorem deqtTimeout : Statement (.deqtTimeout) := by
  intro h; cases h

theorem gangTimeout : Statement (.gangTimeout) := by
  intro h; cases h

theorem triggeredCommandStart : Statement (.triggeredCommandStart) := by
  intro h; cases h

theorem copy : Statement (.copy) := by
  intro h; cases h

theorem get : Statement (.get) := by
  intro h; cases h

theorem put : Statement (.put) := by
  intro h; cases h

theorem rcopy : Statement (.rcopy) := by
  intro h; cases h

theorem gather : Statement (.gather) := by
  intro h; cases h

theorem scatter : Statement (.scatter) := by
  intro h; cases h

theorem scatterReduction : Statement (.scatterReduction) := by
  intro h; cases h

theorem carrelTurn : Statement (.carrelTurn) := by
  intro h; cases h

theorem directoryOperation : Statement (.directoryOperation) := by
  intro h; cases h

theorem remoteRequest : Statement (.remoteRequest) := by
  intro h; cases h

theorem countedWriteArrival : Statement (.countedWriteArrival) := by
  intro h; cases h

theorem homeAcknowledge : Statement (.homeAcknowledge) := by
  intro h; cases h

theorem flagArrival : Statement (.flagArrival) := by
  intro h; cases h

theorem flagCompleteNotice : Statement (.flagCompleteNotice) := by
  intro h; cases h

theorem holdTimerExpiry : Statement (.holdTimerExpiry) := by
  intro h; cases h

theorem recount : Statement (.recount) := by
  intro h; cases h

theorem flagResend : Statement (.flagResend) := by
  intro h; cases h

theorem openRequest : Statement (.openRequest) := by
  intro h; cases h

theorem openReply : Statement (.openReply) := by
  intro h; cases h

theorem channelClose : Statement (.channelClose) := by
  intro h; cases h

theorem flitReceive : Statement (.flitReceive) := by
  intro h; cases h

theorem laneRetirement : Statement (.laneRetirement) := by
  intro h; cases h

theorem scrub : Statement (.scrub) := by
  intro h; cases h

theorem debugStop : Statement (.debugStop) := by
  intro h; cases h

theorem dbgctlStop : Statement (.dbgctlStop) := by
  intro h; cases h

theorem dbgctlResume : Statement (.dbgctlResume) := by
  intro h; cases h

theorem debuggerWrite : Statement (.debuggerWrite) := by
  intro h; cases h

theorem controlWindowWrite : Statement (.controlWindowWrite) := by
  intro h; cases h

theorem identity : Statement (.identity) := by
  intro h; cases h

theorem attest : Statement (.attest) := by
  intro h; cases h

theorem firmware : Statement (.firmware) := by
  intro h; cases h

theorem status : Statement (.status) := by
  intro h; cases h

theorem write : Statement (.write) := by
  intro h; cases h

theorem read : Statement (.read) := by
  intro h; cases h

theorem launch : Statement (.launch) := by
  intro h; cases h

theorem close : Statement (.close) := by
  intro h; cases h

theorem partition : Statement (.partition) := by
  intro h; cases h

theorem breakpoint : Statement (.breakpoint) := by
  intro h; cases h

theorem telemetry : Statement (.telemetry) := by
  intro h; cases h

theorem management : Statement (.management) := by
  intro h; cases h

theorem reset : Statement (.reset) := by
  intro h; cases h

theorem hold : Statement (.hold) := by
  intro h; cases h

theorem verify : Statement (.verify) := by
  intro h; cases h

theorem initialise : Statement (.initialise) := by
  intro h; cases h

theorem join : Statement (.join) := by
  intro h; cases h

theorem ready : Statement (.ready) := by
  intro h; cases h

theorem powerGood : Statement (.powerGood) := by
  intro h; cases h

theorem powerRedivision : Statement (.powerRedivision) := by
  intro h; cases h

theorem trip : Statement (.trip) := by
  intro h; cases h

theorem tripPersisted : Statement (.tripPersisted) := by
  intro h; cases h

theorem tripOutput : Statement (.tripOutput) := by
  intro h; cases h

theorem moduleFault : Statement (.moduleFault) := by
  intro h; cases h

theorem illegalInstruction : Statement (.illegalInstruction) := by
  intro h; cases h

theorem memoryPortRequest : Statement (.memoryPortRequest) := by
  intro h; cases h

theorem clusterUnitAtomic : Statement (.clusterUnitAtomic) := by
  intro h; cases h

theorem storeAcknowledgement : Statement (.storeAcknowledgement) := by
  intro h; cases h

theorem atomicReply : Statement (.atomicReply) := by
  intro h; cases h

theorem sendQueueInjection : Statement (.sendQueueInjection) := by
  intro h; cases h

theorem armedTaskArrival : Statement (.armedTaskArrival) := by
  intro h; cases h

theorem atomicOperationResend : Statement (.atomicOperationResend) := by
  intro h; cases h

theorem coreFailure : Statement (.coreFailure) := by
  intro h; cases h

theorem dieFailure : Statement (.dieFailure) := by
  intro h; cases h

theorem vaultFailure : Statement (.vaultFailure) := by
  intro h; cases h

theorem linkOrSwitchFailure : Statement (.linkOrSwitchFailure) := by
  intro h; cases h

theorem railFall : Statement (.railFall) := by
  intro h; cases h

theorem controlPortDown : Statement (.controlPortDown) := by
  intro h; cases h

theorem controlPortUp : Statement (.controlPortUp) := by
  intro h; cases h

theorem unknownFrame : Statement (.unknownFrame) := by
  intro h; cases h

end Sys2Proof.Laws.RoundTrip
end

