-- ==== Sys2Proof/Tests/Slice0.lean ====
section
/-! SUPPORT. Tests: ill-formed instructions refused, words written out from the spec's encodings, the spec's worked examples
as single steps, and for every statement with hypotheses a state and operands that meet them. Expected results are the
spec's or worked out by hand from its rules. -/

namespace Sys2Proof.Tests

open Sys2Proof Sys2Proof.Machine

set_option Elab.async false

/-! ### Small states -/

/-- Core 0 of cluster 0 of die 0. -/
def k0 : CoreId := ⟨0, 0, 0⟩
/-- Core 5 of cluster 2 of die 0. -/
def k5 : CoreId := ⟨0, 2, 5⟩
/-- Its slot 0. -/
def c0 : CtxId := ⟨k0, 0⟩
/-- Its slot 1. -/
def c1 : CtxId := ⟨k0, 1⟩
/-- Its handler bank H0. -/
def h0 : CtxId := ⟨k0, 4⟩
/-- A task of region 0 in a slot. -/
def task0 : Task := ⟨plainTask, false, false, false, 0, ⟨0, 0, 0, 0⟩⟩
/-- A device in which one context holds what is given and is the current one. -/
def inCtx (c : CtxId) (x : Ctx) : State :=
  { State.reset with cur := c, ctxs := [(c.key, x)], plat := { phase := 5 } }
/-- A task in task mode with two values. -/
def userX : Ctx := { task := some task0, g := [(1, 5), (2, 3)] }
/-- The same in supervisor mode: STATUS.SV (R62). -/
def supX : Ctx := { task := some task0, g := [(1, 5), (2, 3)], cw := [(0, 1)] }
/-- A handler. -/
def handX : Ctx := { handled := some ⟨⟨2, 0, 0, 0, 0, 0, 0, [0, 0, 0, 0, 0, 0], 0, false, 0, 0, 0⟩, false⟩, g := [(1, 5), (2, 3)] }
def userS : State := inCtx c0 userX
def supS : State := inCtx c0 supX
def handS : State := inCtx h0 handX

/-! ### Ill-formed terms: one per check (R31, R38, R148, R166, R233, R261, R333) -/

theorem test_vtopk_odd : wellFormed (.vtopk 5 0 6 0) = false ∧ wellFormed (.vtopkNz 5 0 6 0) = false
    ∧ wellFormed (.vtopk 4 0 6 0) = true := by decide
theorem test_planes_zero : wellFormed (.mldwP 8 0) = false ∧ wellFormed (.mmaP 1 2 0) = false
    ∧ wellFormed (.mmasP 1 2 3 0) = false ∧ wellFormed (.mldwP 8 7) = true := by decide
theorem test_gang_fields : wellFormed (.gang .bf16 0 0 9 1) = false ∧ wellFormed (.gang .f32 0 4 9 0) = false
    ∧ wellFormed (.gang .p 0 0 9 0) = false ∧ wellFormed (.gang .sbf16 0 4 9 2) = false
    ∧ wellFormed (.gangT .sp 0 4 9 0) = false ∧ wellFormed (.gangT .p 0 1 9 3) = false
    ∧ wellFormed (.gangT .sp 0 4 9 3) = true := by decide
theorem test_request_registers : wellFormed (.enq false 1 0) = false ∧ wellFormed (.enqt false 1 2 29) = false
    ∧ wellFormed (.bmv 31) = false ∧ wellFormed (.pchk 30) = false ∧ wellFormed (.prec 0) = false
    ∧ wellFormed (.bmv 28) = true ∧ wellFormed (.bmv 1) = true := by decide
theorem test_fence_empty : wellFormed (.fence .cls 0) = false ∧ wellFormed (.fence .cls 1) = true := by decide
/-- A message has six argument words, a priority of three bits. -/
theorem test_task_message : TaskMsg.ok plainTask = true ∧ TaskMsg.ok { plainTask with args := [0, 0, 0, 0, 0] } = false
    ∧ TaskMsg.ok { plainTask with prio := 8 } = false ∧ TaskMsg.ok { plainTask with colour := 64 } = false
    ∧ Event.ok (.taskPlacement ⟨0, 0⟩ { plainTask with hops := 32 } 0) = false := by decide
theorem test_act_message : ActMsg.ok ⟨2, 0, 0, 0, 0, 0, 0, [0, 0, 0, 0, 0, 0], 0, false, 0, 0, 0⟩ = true
    ∧ ActMsg.ok ⟨2, 0, 0, 0, 0, 0, 0, [0, 0, 0, 0, 0], 0, false, 0, 0, 0⟩ = false
    ∧ ActMsg.ok ⟨2, 0, 0, 0, 65536, 0, 0, [0, 0, 0, 0, 0, 0], 0, false, 0, 0, 0⟩ = false := by decide
/-- A counted write of 8 bytes at offset 60 of a line, of no byte, of operation 6 (R333). -/
theorem test_counted_write : countedOk 56 0 [0, 0, 0, 0, 0, 0, 0, 0] = true
    ∧ countedOk 60 0 [0, 0, 0, 0, 0, 0, 0, 0] = false ∧ countedOk 0 0 [] = false ∧ countedOk 0 6 [0] = false := by decide

/-! ### Words written out bit by bit from the encodings of R26 to R41 -/

theorem test_decode_scalar : decode (0x01#6 ++ 6#5 ++ 7#5 ++ 8#5 ++ 0#11) = some (.add 6 7 8)
    ∧ decode 0x04642882 = some (.sel 3 4 5 2) ∧ decode (0x02#6 ++ 5#5 ++ 2#5 ++ 0xFFF0#16) = some (.addi 5 2 0xFFF0)
    ∧ decode (0x08#6 ++ 7#5 ++ 0#5 ++ 0x56#16) = some (.insh0 7 0 0x56)
    ∧ decode (0x1D#6 ++ 4#5 ++ 0#5 ++ 0xFFFD#16) = some (.bne 4 0 0xFFFD) := by decide
theorem test_decode_system : decode (0x24#6 ++ 0#10 ++ 5#5 ++ 1#11) = some (.trap 5) ∧ decode 0x90000002 = some .tret
    ∧ decode 0x90000005 = some .bkpt ∧ decode 0x90000003 = some .ifence ∧ decode 0x90010000 = some (.jalr 0 1)
    ∧ decode 0x90A01804 = some (.rdc 5 3) ∧ decode 0xF0140004 = some (.rptImmediate 0 1 1 0 4) := by decide
theorem test_decode_vector : decode 0xA5008003 = some (.vfma .f32 8 0 16 0) ∧ decode 0xB0242800 = some (.vld 1 4 5 0)
    ∧ decode 0xA8411882 = some (.vcmpLt .f32 2 1 3 0) ∧ decode 0xA0A63B43 = some (.vadds .i16 5 6 7 3)
    ∧ decode 0xAC803011 = some (.vtopkNz 4 0 6 0) := by decide
/-- The planes field holds the count less one. -/
theorem test_decode_matrix : decode 0xC0021002 = some (.mldwP 8 2) ∧ decode 0xC2028112 = some (.mstaccBf16 2 10)
    ∧ decode 0xC1225C18 = some (.gang .sp 1 4 9 3) := by decide
theorem test_decode_tasks : decode 0xE0000003 = some .exit ∧ decode 0xE0B4A800 = some (.spawn 5 20 21)
    ∧ decode 0xE0D4A802 = some (.spawntrig 6 20 21) ∧ decode 0xE0A63810 = some (.prd 5 6 7)
    ∧ decode 0xE0C4280A = some (.rgwr 6 4 5) := by decide
theorem test_decode_messages : decode 0xE4642800 = some (.send 3 4 5) ∧ decode 0xE4642801 = some (.sendh 3 4 5)
    ∧ decode 0xE4600002 = some (.sendt 3) ∧ decode 0xE4000003 = some .hend ∧ decode 0xE4640008 = some (.cmask 3 4)
    ∧ decode 0xE4640009 = some (.cunmask 3 4) ∧ decode 0xE400000A = some .hmask
    ∧ decode 0xE400000B = some .hunmask := by decide
theorem test_decode_transport : decode 0xD0042808 = some (.mbinc false 4 5) ∧ decode 0xD0100200 = some (.enq false 1 16)
    ∧ decode 0xD0100040 = some (.enq true 0 16) ∧ decode 0xD0E00202 = some (.deq 1 7) ∧ decode 0xD0100410 = some (.bmv 16)
    ∧ decode 0xEC640000 = some (.mchopen 3 4) ∧ decode 0xECA63801 = some (.mrel 5 6 7)
    ∧ decode 0xF4642819 = some (.armh 3 4 5) ∧ decode 0xF4A40000 = some (.ldf 5 4) := by decide
/-- Reserved words: all zeros, all ones, a set bit of ADD's reserved field, VTOPK with an odd destination (R31). -/
theorem test_decode_reserved : decode 0 = none ∧ decode 0xFFFFFFFF = none ∧ decode 0x04C7401F = none
    ∧ decode 0xACA03011 = none := by decide
/-- An instruction word as the opcode table numbers it. -/
theorem test_table_word : decodeTableWord 32 0x04C74000 = some (.add 6 7 8) ∧ decodeTableWord 32 0x90000002 = some .tret := by
  decide

/-! ### States and operands that meet the hypotheses of the statements -/

theorem wit_StepKeepsMemoryCanonical : State.reset.MemOk ∧ step State.reset = .next State.reset.onward := ⟨rfl, rfl⟩
/-- The field tick of a cycle comes after the contexts' instructions, whichever was put first. -/
theorem wit_StepHeadOfAgenda :
    userS.firstAct [.ev .fieldTick, .issue c0, .seq c0] = some (.issue c0, [.ev .fieldTick, .seq c0])
    ∧ userS.firstAct [.ev .fieldTick, .seq c0] = some (.seq c0, [.ev .fieldTick])
    ∧ userS.firstAct [.ev .fieldTick, .pair c0 4 7] = some (.pair c0 4 7, [.ev .fieldTick])
    ∧ userS.firstAct [.ev .fieldTick] = some (.ev .fieldTick, [])
    ∧ userS.firstAct [.test k0 3] = some (.test k0 3, []) ∧ userS.firstAct [] = none := by decide
/-- ADD g6, g7, g8 at address 0 of slot 0. -/
def fetchS : State := State.reset.withFetchWord 32 0x04C74000
theorem wit_StepRunsDecoded : fetchS.firstAct fetchS.agenda = some (.issue c0, []) ∧ (fetchS.ctx c0).live = true
    ∧ State.bound { fetchS with agenda := [] } c0 = false ∧ State.heldBack { fetchS with agenda := [] } c0 = false
    ∧ State.canIssue { fetchS with agenda := [] } c0 = true ∧ (fetchS.ctx c0).frame = none ∧ (fetchS.ctx c0).img = []
    ∧ (fetchS.ctx c0).fq = [] ∧ (fetchS.ctx c0).pc.toNat < 0x40000 ∧ (fetchS.ctx c0).pc.toNat % 4 = 0
    ∧ fetchS.plat.bpc = []
    ∧ 0x04C74000#32 = BitVec.ofNat 32 (fetchS.readLE (localLoc c0.core (fetchS.ctx c0).pc.toNat) 4)
    ∧ fetchS.readBad (localLoc c0.core (fetchS.ctx c0).pc.toNat) 4 = false := by decide
/-- The same with the word in the fetch queue already. -/
def queuedS : State := fetchS.setCtx c0 { fetchS.ctx c0 with fq := [⟨(fetchS.ctx c0).pc, 0x04C74000, false⟩] }
theorem wit_StepRunsFetched : queuedS.firstAct queuedS.agenda = some (.issue c0, []) ∧ (queuedS.ctx c0).live = true
    ∧ State.bound { queuedS with agenda := [] } c0 = false ∧ State.heldBack { queuedS with agenda := [] } c0 = false
    ∧ State.canIssue { queuedS with agenda := [] } c0 = true ∧ (queuedS.ctx c0).frame = none
    ∧ (queuedS.ctx c0).pc.toNat % 4 = 0 ∧ queuedS.plat.bpc = []
    ∧ (queuedS.ctx c0).fq.find? (fun f => f.va == (queuedS.ctx c0).pc) = some ⟨(queuedS.ctx c0).pc, 0x04C74000, false⟩ := by
  decide
theorem wit_DecodeEncode : (Instr.add 6 7 8).encoded = true ∧ wellFormed (.add 6 7 8) = true := by decide
theorem wit_EncodeDecode : decode 0x04C74000 = some (.add 6 7 8) := by decide
theorem wit_RegisterFile : (1 : Reg) ≠ 0 ∧ (31 : Reg) ≠ 1 ∧ (1 : PReg) ≠ 0 ∧ (7 : PReg) ≠ 1 := by decide
theorem wit_RegOnlyFrame : regOnly (.add 6 1 2) = useG [1, 2] 6 ∧ userS.Clean [1, 2] []
    ∧ regOnly (.vadd .i8 3 1 2 0) = useV [1, 2] 3 ∧ userS.Clean [] [1, 2] ∧ userS.InSlot
    ∧ regOnly (.vfadd .f32 3 1 2 0) = useF [1, 2] 3 ∧ handS.Clean [1, 2] [] := ⟨rfl, rfl, rfl, rfl, rfl, rfl, rfl⟩
/-- The user task with g2 and v3 poisoned. -/
def poisS : State := inCtx c0 { userX with gpois := 4, vpois := 8 }
theorem wit_RegOnlyPoison : regOnly (.add 6 1 2) = useG [1, 2] 6 ∧ poisS.my.poisoned [1, 2] [] = some 2
    ∧ regOnly (.vadd .i8 3 1 3 0) = useV [1, 3] 3 ∧ poisS.my.poisoned [] [1, 3] = some 0x103 ∧ poisS.InSlot
    ∧ ¬ handS.InSlot := ⟨rfl, rfl, rfl, rfl, rfl, by simp [State.InSlot]; rfl⟩
theorem wit_ScalarSources : userS.Clean [1, 2] [] ∧ userS.Clean [1] [] ∧ userS.Clean [0] [] := ⟨rfl, rfl, rfl⟩
/-- A target of two low bits set, and one aligned, for JALR. -/
theorem wit_JalrEffect : userS.Clean [1] [] ∧ (userS.g 1).toNat % 4 ≠ 0
    ∧ (inCtx c0 { userX with g := [(1, 0x100)] }).Clean [1] []
    ∧ ((inCtx c0 { userX with g := [(1, 0x100)] }).g 1).toNat % 4 = 0 := ⟨rfl, by decide, rfl, by decide⟩
/-- A slot with a trap handler at 0x400 that takes every fault; the same with TB set; one that takes no fault. -/
def trapX : Ctx := { userX with cw := [(0, 0), (4, 0x400), (5, 0xFFFFFFFF)] }
theorem wit_TakeTrap : (0x3F : Nat) < 0x40 ∧ (0x1F : Nat) < 0x20 ∧ Ctx.tb { trapX with cw := [(0, 4)] } = true
    ∧ userX.tb = false ∧ (userX.cwv 0x005).getLsbD 31 = false ∧ userX.cwv 0x004 = 0
    ∧ trapX.tb = false ∧ (trapX.cwv 0x005).getLsbD 31 = true ∧ trapX.cwv 0x004 ≠ 0 := by decide
theorem wit_TrapAndBkpt : (inCtx c0 trapX).my.cwv 0x004 ≠ 0 ∧ (inCtx c0 trapX).my.frame = none
    ∧ (inCtx c0 trapX).my.tb = false ∧ ((inCtx c0 trapX).my.cwv 0x005).getLsbD 14 = true := by decide
/-- A supervisor slot whose RPTST is valid, with one saved word, ADD g6, g7, g8, and a count (R55). -/
def savedX (count : Word) : Ctx :=
  { supX with cw := [(0, 1), (0x020, 0x8000000000000000), (0x021, count), (0x028, 0x04C74000)] }
theorem wit_TretEffect : userS.sup userS.cur = false ∧ supS.sup supS.cur = true
    ∧ (supS.my.cwv 0x020).getLsbD 63 = false
    ∧ (inCtx c0 (savedX 2)).sup c0 = true ∧ (inCtx c0 (savedX 2)).InSlot
    ∧ ((inCtx c0 (savedX 2)).my.cwv 0x020).getLsbD 63 = true ∧ (inCtx c0 (savedX 2)).my.savedFrame.resumeFault = none
    ∧ (inCtx c0 (savedX 0)).my.savedFrame.resumeFault = some 0x020 :=
  ⟨by decide, by decide, by decide, by decide, rfl, by decide, by decide, by decide⟩
/-- A core with one store, and one load, of slot 0 outstanding. -/
def outS (load : Bool) : State :=
  { userS with cores := [(0, { outs := [{ id := 1, ctx := 0, load := load, dest := .none, counted := true }] })] }
theorem wit_IfenceAndRdc :
    (userS.myCore.outs.any (fun o => o.ctx == userS.cur.ctx.val && !o.load)) = false ∧ userS.my.onFrame = false
    ∧ ((outS false).myCore.outs.any (fun o => o.ctx == (outS false).cur.ctx.val && !o.load)) = true
    ∧ userS.anyLoad userS.cur = false ∧ (outS true).anyLoad (outS true).cur = true := by decide
/-- A core whose slice belongs to slot 0 and has one instruction in its queue. -/
def busyS : State := { userS with cores := [(0, { slice := { owner := some 0, queue := [(0, 100)] } })] }
theorem wit_ControlWordAccess : cwInfo (0xFFF#12).toNat = none ∧ cwInfo (0x009#12).toNat = none
    ∧ (∃ m, cwInfo 0x0C1 = some m ∧ userS.cwDenied userS.cur m 0x0C1 false = true)
    ∧ (∃ m, cwInfo 0x004 = some m ∧ userS.cwDenied userS.cur m 0x004 false = false
      ∧ userS.cwDenied userS.cur m 0x004 true = true)
    ∧ (∃ m, cwInfo 0x030 = some m ∧ userS.cwDenied userS.cur m 0x030 true = false) ∧ userS.Clean [1] []
    ∧ supS.sup supS.cur = true ∧ userS.cwWaits 0x004 = false ∧ busyS.cwWaits 0x046 = true :=
  ⟨rfl, rfl, ⟨_, rfl, by decide⟩, ⟨_, rfl, by decide, by decide⟩, ⟨_, rfl, by decide⟩, rfl, by decide, by decide, by decide⟩
theorem wit_TrapWordRules : userS.InSlot ∧ (∃ m, cwInfo 0x004 = some m) ∧ (∃ m, cwInfo 0x030 = some m)
    ∧ (∃ m, cwInfo 0x031 = some m) ∧ userS.sup userS.cur = false ∧ (userS.my.cwv 0x004).toNat % 4 = 0
    ∧ (userS.my.cwv 0x030).toNat < 4 :=
  ⟨rfl, ⟨_, rfl⟩, ⟨_, rfl⟩, ⟨_, rfl⟩, by decide, by decide, by decide⟩

/-- With no breakpoint entry none matches. -/
theorem noBreak_empty {s : State} (h : s.plat.bpc = []) : s.NoBreak := by
  intro n
  simp [State.bpMatch, h, tget, bit]
/-- Slot 0 with g1 = 8, a byte string at local address 8 to 15, and its word marked poisoned or not. -/
def memX : Ctx := { userX with g := [(1, 8), (2, 0x1122334455667788)] }
def memS (bad : Bool) : State :=
  (inCtx c0 memX).poke (localLoc k0 8) [0x80, 0x91, 0xA2, 0xB3, 0xC4, 0xD5, 0xE6, 0xF7] bad
theorem wit_LocalLoads : memForm (.ldW 6 1 4) = some ⟨false, 4, true, 6, 1, 4⟩ ∧ (memS false).Clean [1] []
    ∧ (memS false).PlainLocal (MemForm.ea ⟨false, 4, true, 6, 1, 4⟩ (memS false)) 4
    ∧ (memS true).PlainLocal (MemForm.ea ⟨false, 4, true, 6, 1, 4⟩ (memS true)) 4
    ∧ (memS false).poisAt ((memS false).myLoc 12) 4 = false ∧ (memS true).poisAt ((memS true).myLoc 12) 4 = true :=
  ⟨rfl, rfl, ⟨by decide, by decide, by decide, noBreak_empty rfl⟩, ⟨by decide, by decide, by decide, noBreak_empty rfl⟩, by decide, by decide⟩
/-- The last doubleword of local memory. -/
theorem wit_LocalStores : memForm (.stD 2 1 0) = some ⟨true, 8, false, 2, 1, 0⟩
    ∧ (inCtx c0 { memX with g := [(1, 0x3FFF8), (2, 7)] }).Clean [1, 2] []
    ∧ (inCtx c0 { memX with g := [(1, 0x3FFF8), (2, 7)] }).PlainLocal 0x3FFF8 8 :=
  ⟨rfl, rfl, ⟨by decide, by decide, by decide, noBreak_empty rfl⟩⟩
/-- Addresses: odd, in an unassigned area, above the translated range, a control window word. -/
def atS (a : Word) : State := inCtx c0 { memX with g := [(1, a)] }
theorem wit_LoadStoreFaults : memForm (.ldD 6 1 0) = some ⟨false, 8, false, 6, 1, 0⟩
    ∧ poisS.my.poisoned [2] [] = some 2 ∧ (atS 5).Clean [1] [] ∧ ((atS 5).g 1).toNat % 8 ≠ 0
    ∧ ((atS 0x41000).g 1).toNat < 2 ^ 21 ∧ areaOf ((atS 0x41000).g 1).toNat = .none
    ∧ 2 ^ 57 ≤ ((atS 0x0200000000000000).g 1).toNat ∧ ((atS 0x0200000000000000).g 1).toNat < 255 * 2 ^ 56
    ∧ 0x100000 ≤ ((atS 0x10FFF8).g 1).toNat ∧ ((atS 0x10FFF8).g 1).toNat < 0x110000
    ∧ (atS 0x10FFF8).sup (atS 0x10FFF8).cur = false :=
  ⟨rfl, rfl, rfl, by decide, by decide, by decide, by decide, by decide, by decide, by decide, by decide⟩
/-- A gigabyte page of region 0 from 0x40000000 on, mapped to the start of die 0's DRAM; the window addresses of local
address 8 of core 5 of cluster 2, on this device and on device 1. -/
def mapCore (n : Nat) : Core :=
  { dtlb := [⟨0, 1, 3, 0, 0x4F, 0⟩], outs := List.replicate n ⟨1, 1, true, .none, true, false, false, 0, 0, 0, 0⟩ }
def mapS (n : Nat) (a : Word) : State := { atS a with cores := [(0, mapCore n)] }
def winA : Word := word (255 * 2 ^ 56 + localLoc k5 8)
def farA : Word := word (255 * 2 ^ 56 + 2 ^ 45 + localLoc k5 8)
def askLd : Asked := ⟨8, true, false, true, true, false⟩
theorem wit_LoadStoreByPlace : ((mapS 0 0x41).access (.ldD 6 1 0) 0x41 askLd).2 = none
    ∧ ((mapS 0 8).access (.ldD 6 1 0) 8 askLd).2 = some (.own 8)
    ∧ (((mapS 0 8).access (.ldD 6 1 0) 8 askLd).1.bankRead k0 8 8).2 = false
    ∧ ((mapS 0 0x40000040).access (.ldD 6 1 0) 0x40000040 askLd).2 = some (.dram 0x40)
    ∧ ((mapS 0 winA).access (.ldD 6 1 0) winA askLd).2 = some (.core (localLoc k5 8))
    ∧ ((mapS 0 farA).access (.ldD 6 1 0) farA askLd).2 = some (.far (2 ^ 45 + localLoc k5 8))
    ∧ ((mapS 0 winA).access (.ldD 6 1 0) winA askLd).1.mayIssue c0 1 = true
    ∧ ((mapS 60 winA).access (.ldD 6 1 0) winA askLd).2 = some (.core (localLoc k5 8))
    ∧ ((mapS 60 winA).access (.ldD 6 1 0) winA askLd).1.mayIssue c0 1 = false
    ∧ ((mapS 0 farA).my.cwv cwMCHSEL).getLsbD 63 = false := by decide
/-- Vector operands in slot 0: v1 has byte lanes 0x80, 0x7F, 1, …, v2 all ones. -/
def vecX : Ctx := { userX with v := [(1, 0x0000000000017F80), (2, BitVec.allOnes 512)], q := [(1, 5)] }
def vecS : State := inCtx c0 vecX
theorem wit_VectorSources : vecS.InSlot ∧ vecS.Clean [] [1, 2] ∧ vecS.Clean [] [1, 2, 3] ∧ vecS.Clean [] [1]
    ∧ vecS.Clean [1] [] ∧ vecS.Clean [2] [1] ∧ vecS.Clean [1, 2] [] ∧ poisS.my.poisoned [2] [] = some (2 : Reg).toNat :=
  ⟨rfl, rfl, rfl, rfl, rfl, rfl, rfl, rfl⟩
/-- NaN operands quiet and signalling, an ordinary value, in both formats. -/
theorem wit_FloatSpecialValues : (3 : Nat) < 4 ∧ 0x7FC00001 < 2 ^ fbits .f32 ∧ 0x7F81 < 2 ^ fbits .bf16
    ∧ (fval (ffrac .f32) 0x7FC00001).isNaN = true ∧ (fval (ffrac .f32) 0x7FC00001).isSig = false
    ∧ (fval (ffrac .bf16) 0x7F81).isSig = true ∧ (fval (ffrac .f32) 0x3F800000).isNaN = false
    ∧ 0xBF800000 % 2 ^ (ffrac .f32 + 8) < 255 * 2 ^ ffrac .f32 := by decide
theorem wit_CompareResults : cmpBits .i8 = wbits .i8 ∧ CmpTy.i8 ≠ .f32 ∧ CmpTy.i8 ≠ .bf16 ∧ (1 : PReg) ≠ 0
    ∧ vecS.InSlot ∧ vecS.Clean [] [1, 2] := ⟨rfl, by decide, by decide, by decide, rfl, rfl⟩
/-- Descriptors: K = 17; K = 4 and CNT = 5; K = 16 and CNT = 16 (R136). -/
theorem wit_TopkResults : vecS.InSlot ∧ vecS.Clean [1] [6, 4, 4 + 1] ∧ (4 : Reg).toNat % 2 = 0
    ∧ 16 < ((atS 17).g 1).toNat % 256 ∧ ((atS 0x504).g 1).toNat % 256 < ((atS 0x504).g 1).toNat / 256 % 256
    ∧ ((atS 0x1010).g 1).toNat % 256 ≤ 16
    ∧ ((atS 0x1010).g 1).toNat / 256 % 256 ≤ ((atS 0x1010).g 1).toNat % 256 :=
  ⟨rfl, rfl, by decide, by decide, by decide, by decide, by decide⟩

/-- A task with an address in g1, another value in g2, v2 holding 4n in word lane n, and q1 its word lanes 0 and 15. -/
def elemX (a b : Word) : Ctx :=
  { task := some task0, g := [(1, a), (2, b)], q := [(1, 0x1000000000000001)],
    v := [(2,
      0x0000003C0000003800000034000000300000002C0000002800000024000000200000001C0000001800000014000000100000000C000000080000000400000000)] }
def elemS (a b : Word) : State := inCtx c0 (elemX a b)
/-- Before any SMAP no window is valid. -/
theorem noStash_reset {x : Core} (h : x.cw = []) (off : Nat) : x.stashAt off = none := by
  have e : ∀ i, i < 8 → bit (x.swl i) 63 = false := by
    intro i hi
    have d : ∀ i, i < 8 → bit (({} : Core).swl i) 63 = false := by decide
    rw [← d i hi]
    simp only [Core.swl, Core.cwv, h]
  simp [Core.stashAt, upto, List.find?, e]
/-- The element address of a lane lies in plain local memory. -/
theorem plainLane {s : State} {n : Nat} {ea : Word} (hb : s.plat.bpc = []) (h1 : ea.toNat + n ≤ 0x40000)
    (h2 : ea.toNat % n = 0) (h3 : s.myCore.cw = []) : s.PlainLocal ea n := ⟨h1, h2, fun _ _ => noStash_reset h3 _, noBreak_empty hb⟩
theorem wit_VectorMemoryLocal : (elemS 0x3FFC0 0).InSlot ∧ (elemS 0x3FFC0 0).Clean [1, 2] [3]
    ∧ (elemS 0x3FFC0 0).PlainLocal 0x3FFC0 64 ∧ (elemS 0x3FFC0 0).marks ((elemS 0x3FFC0 0).myLoc 0x3FFC0) 64 = 0
    ∧ (elemS 0x3FFC0 4).PlainLocal 0x3FFC4 4 ∧ (elemS 0x3FFC0 4).poisAt ((elemS 0x3FFC0 4).myLoc 0x3FFC4) 4 = false
    ∧ (inCtx c0 { elemX 0 0 with q := [(1, 0)] }).q 1 = 0 :=
  ⟨rfl, rfl, plainLane rfl (by decide) (by decide) rfl, by decide, plainLane rfl (by decide) (by decide) rfl, by decide,
    by decide⟩
theorem wit_VectorElementsLocal : (elemS 0x100 8).InSlot ∧ (elemS 0x100 8).Clean [1, 2] [3, 2]
    ∧ (∀ n, n < 16 → laneOn 32 ((elemS 0x100 8).q 1) n = true →
      (elemS 0x100 8).PlainLocal ((elemS 0x100 8).g 1 + BitVec.ofNat 64 n * (elemS 0x100 8).g 2) 4
      ∧ (elemS 0x100 8).poisAt ((elemS 0x100 8).myLoc ((elemS 0x100 8).g 1 + BitVec.ofNat 64 n * (elemS 0x100 8).g 2)) 4 = false)
    ∧ (∀ n, n < 16 → laneOn 32 ((elemS 0x100 8).q 1) n = true →
      (elemS 0x100 8).PlainLocal ((elemS 0x100 8).g 1 + BitVec.ofNat 64 (laneAt 32 ((elemS 0x100 8).v 2) n)) 4) := by
  have h1 : ∀ n, n < 16 → (0x100 + BitVec.ofNat 64 n * 8 : Word).toNat + 4 ≤ 0x40000
      ∧ (0x100 + BitVec.ofNat 64 n * 8 : Word).toNat % 4 = 0
      ∧ (elemS 0x100 8).poisAt ((elemS 0x100 8).myLoc (0x100 + BitVec.ofNat 64 n * 8)) 4 = false := by decide
  have h2 : ∀ n, n < 16 → (0x100 + BitVec.ofNat 64 (laneAt 32 ((elemS 0x100 8).v 2) n) : Word).toNat + 4 ≤ 0x40000
      ∧ (0x100 + BitVec.ofNat 64 (laneAt 32 ((elemS 0x100 8).v 2) n) : Word).toNat % 4 = 0 := by
    decide +kernel
  exact ⟨rfl, rfl, fun n hn _ => ⟨plainLane rfl (h1 n hn).1 (h1 n hn).2.1 rfl, (h1 n hn).2.2⟩,
    fun n hn _ => plainLane rfl (h2 n hn).1 (h2 n hn).2 rfl⟩
/-- Lane 0 misaligned; lane 15 misaligned where lane 0 is not (the index form adds 4n); lane 0, and lane 15 alone, outside
local memory. -/
theorem wit_VectorMemoryFaults : ¬ handS.InSlot ∧ (elemS 2 4).InSlot ∧ (elemS 2 4).Clean [1, 2] [3, 2]
    ∧ laneOn 8 ((elemS 2 4).q 1) 0 = true ∧ ((elemS 2 4).g 1 + (elemS 2 4).g 2).toNat % 64 ≠ 0
    ∧ ((elemS 2 4).g 1 + (elemS 2 4).g 2).toNat < 2 ^ 63
    ∧ laneOn 8 (BitVec.ofNat 64 (2 ^ 63)) 63 = true ∧ (∀ m, m < 63 → laneOn 8 (BitVec.ofNat 64 (2 ^ 63)) m = false)
    ∧ laneOn 32 ((elemS 2 4).q 1) 0 = true ∧ ((elemS 2 4).g 1 + BitVec.ofNat 64 0 * (elemS 2 4).g 2).toNat % 4 ≠ 0
    ∧ laneOn 32 ((elemS 0 1).q 1) 15 = true ∧ ((elemS 0 1).g 1 + BitVec.ofNat 64 15 * (elemS 0 1).g 2).toNat % 4 ≠ 0
    ∧ (∀ m, m < 15 → laneOn 32 ((elemS 0 1).q 1) m = true →
      ((elemS 0 1).g 1 + BitVec.ofNat 64 m * (elemS 0 1).g 2).toNat % 4 = 0)
    ∧ 0x40000 ≤ ((elemS 0x40000 4).g 1 + BitVec.ofNat 64 0 * (elemS 0x40000 4).g 2).toNat
    ∧ 0x40000 ≤ ((elemS 0x3FFFC 4).g 1 + BitVec.ofNat 64 15 * (elemS 0x3FFFC 4).g 2).toNat
    ∧ (∀ m, m < 16 → laneOn 32 ((elemS 0x3FFFC 4).q 1) m = true →
      ((elemS 0x3FFFC 4).g 1 + BitVec.ofNat 64 m * (elemS 0x3FFFC 4).g 2).toNat % 4 = 0)
    ∧ (∀ m, m < 15 → laneOn 32 ((elemS 0x3FFFC 4).q 1) m = true →
      (elemS 0x3FFFC 4).PlainLocal ((elemS 0x3FFFC 4).g 1 + BitVec.ofNat 64 m * (elemS 0x3FFFC 4).g 2) 4) := by
  have h : ∀ m, m < 15 → laneOn 32 ((elemS 0x3FFFC 4).q 1) m = true →
      ((elemS 0x3FFFC 4).g 1 + BitVec.ofNat 64 m * (elemS 0x3FFFC 4).g 2).toNat + 4 ≤ 0x40000
      ∧ ((elemS 0x3FFFC 4).g 1 + BitVec.ofNat 64 m * (elemS 0x3FFFC 4).g 2).toNat % 4 = 0 := by decide
  exact ⟨by simp [State.InSlot]; rfl, rfl, rfl, by decide, by decide, by decide, by decide, by decide, by decide, by decide,
    by decide, by decide, by decide, by decide, by decide, by decide, fun m hm ho => plainLane rfl (h m hm ho).1 (h m hm ho).2 rfl⟩

/-- A slot at address 0 with a word at address 4: ADD g6, g7, g8, or RPT itself, which no frame may capture (R53). -/
def rptS (w : IWord) (pc : Word) : State :=
  (inCtx c0 { userX with pc := pc }).poke (localLoc k0 (pc.toNat + 4)) (leBytes 4 w.toNat) false
theorem wit_RptEffect : ¬ handS.InSlot ∧ (rptS 0x04C74000 0).InSlot ∧ (rptS 0x04C74000 0).my.pc.toNat % 4 = 0
    ∧ (rptS 0x04C74000 0x3FFF8).my.pc.toNat + 4 * (0 + 1 + 1) ≤ 0x40000 ∧ (rptS 0x04C74000 0).my.fq = []
    ∧ (rptS 0x04C74000 0).my.frame = none
    ∧ (∀ j, j < 0 + 1 → (rptS 0x04C74000 0).readBad (localLoc k0 (0 + 4 + 4 * j)) 4 = false)
    ∧ frameFault [BitVec.ofNat 32 ((rptS 0x04C74000 0).readLE (localLoc k0 4) 4)] 0 1 1 4 = none
    ∧ frameFault [BitVec.ofNat 32 ((rptS 0xF0140004 0).readLE (localLoc k0 4) 4)] 0 1 1 4 = some (0x09, 0)
    ∧ frameFault [0xFFFFFFFF] 0 1 1 4 = some (0x01, 0) ∧ (rptS 0x04C74000 0).Clean [1] [] :=
  ⟨by simp [State.InSlot]; rfl, rfl, by decide, by decide, rfl, rfl, by decide, by decide, by decide, by decide, rfl⟩
/-- A frame of two words, three times. -/
def frameF : Frame := ⟨[0x04C74000, 0x04C74000], 1, 1, 1, 3, 0, 0⟩
theorem wit_FrameOrder : 0 < frameF.words.length ∧ frameF.iter = 0 ∧ frameF.pos = 0 ∧ 0 < frameF.count
    ∧ 5 < frameF.count * frameF.words.length := by decide
/-- The slot of withFetchWord with that frame live. -/
def seqS : State :=
  { fetchS.setCtx c0 { fetchS.ctx c0 with frame := some frameF } with agenda := [.seq c0] }
/-- Whether the instruction of an outcome raised a fault. -/
def faultedAfter : Out → Option Bool
  | .next t => some t.faulted
  | _ => none
theorem wit_StepRunsCaptured : seqS.firstAct seqS.agenda = some (.seq c0, []) ∧ (seqS.ctx c0).frame = some frameF
    ∧ State.canSequence { seqS with agenda := [] } c0 = true ∧ decode frameF.current = some (.add 6 7 8)
    ∧ faultedAfter (exec (.add 6 7 8) ((State.ready1 { seqS with agenda := [] } c0).setMy
        { (State.ready1 { seqS with agenda := [] } c0).my with
          onFrame := true, wait := .none, rbuf := [], rpois := [], skipNow := false })) = some false := by
  decide
/-- A slot with that frame live; a slot with a fault held and no frame any more. -/
theorem wit_HeldTraps : (inCtx c0 { userX with frame := some frameF }).my.frame = some frameF
    ∧ (inCtx c0 { userX with frame := some frameF }).my.onFrame = false
    ∧ (inCtx c0 { userX with heldTrap := some (5, 8) }).my.frame = none
    ∧ (inCtx c0 { userX with heldTrap := some (5, 8) }).my.heldTrap = some (5, 8) ∧ userS.my.heldTrap = none := by decide
theorem wit_StridedRegisters : (6 : Reg).toNat + 8 * 3 ≤ 31 ∧ (7 : Reg).toNat + 8 * 3 ≤ 31 ∧ (8 : Reg).toNat + 8 * 2 ≤ 31 := by
  decide
theorem wit_FrameSaveResume : frameF.Ok ∧ ({ userX with frame := some frameF } : Ctx).frame = some frameF :=
  ⟨⟨by decide, by decide, by decide, by decide, by decide, by decide, by decide, by decide⟩, rfl⟩

/-! Cluster 0 holds float slices, cluster 1 slices of planes (R143). -/

/-- A slot of a core whose slice is as given, with g1. -/
def sliceS (k : CoreId) (x : Slice) (a : Word) : State :=
  { inCtx ⟨k, 0⟩ { userX with g := [(1, a)] } with cores := [(k.key, { slice := x })] }
/-- Core 0 of cluster 1. -/
def kP : CoreId := ⟨0, 1, 0⟩
theorem noStash_slice (k : CoreId) (x : Slice) (a : Word) : (sliceS k x a).NoStash :=
  fun off => noStash_reset (by simp [sliceS, State.myCore, State.core, inCtx, tget]) off
/-- With no mark nothing is poisoned. -/
theorem clean_marks {s : State} (h : s.pois = []) (a n : Nat) : s.poisAt a n = false := by
  simp [State.poisAt, h, smem]
/-- A slice of slot 0 with n instructions in its queue. -/
def queueS (n : Nat) : State := sliceS k0 { owner := some 0, queue := List.replicate n (100, 0) } 5
theorem wit_SliceRegisterForms : (sliceS k0 {} 5).InSlot ∧ (sliceS k0 {} 5).MaySlice
    ∧ (queueS 7).MaySlice ∧ (sliceS k0 {} 5).Clean [1] []
    ∧ ¬ (sliceS k0 { owner := some 3 } 5).MaySlice ∧ ¬ (queueS 8).MaySlice
    ∧ (queueS 1).slice.owner = some (queueS 1).cur.ctx.val ∧ (queueS 1).slice.queue ≠ [] ∧ (queueS 0).slice.queue = [] := by
  unfold State.MaySlice
  exact ⟨rfl, by decide, by decide, rfl, by decide, by decide, by decide, by decide, by decide⟩
theorem wit_SliceLoadWeights : (sliceS k0 {} 0x3F800).InSlot ∧ (sliceS k0 {} 0x3F800).MaySlice
    ∧ (sliceS k0 {} 0x3F800).NoStash ∧ (sliceS k0 {} 0x3F800).Clean [1] []
    ∧ planeCluster k0.cluster = false ∧ ((sliceS k0 {} 0x3F800).my.cwv 0x041).toNat = 0
    ∧ ((sliceS k0 {} 0x3F800).g 1).toNat % 32 = 0
    ∧ (∀ n, n < 16 → ((sliceS k0 {} 0x3F800).g 1 + BitVec.ofNat 64 (n * 64)).toNat + 64 ≤ 0x40000
      ∧ (sliceS k0 {} 0x3F800).poisAt ((sliceS k0 {} 0x3F800).myLoc ((sliceS k0 {} 0x3F800).g 1 + BitVec.ofNat 64 (n * 64))) 64
        = false)
    ∧ planeCluster kP.cluster = true ∧ (sliceS kP {} 0x3FE00).NoStash ∧ ((sliceS kP {} 0x3FE00).g 1).toNat % 64 = 0
    ∧ ((sliceS kP {} 0x3FE00).my.cwv 0x043).toNat % 2 = 0
    ∧ inLocal ((sliceS kP {} 0x3FE00).g 1) (64 * 8) ∧ inLocal ((sliceS kP {} 0x3FE00).my.cwv 0x043) 32
    ∧ (sliceS kP {} 0x3FE00).poisAt ((sliceS kP {} 0x3FE00).myLoc ((sliceS kP {} 0x3FE00).g 1)) (64 * 8) = false
    ∧ (sliceS kP {} 0x3FE00).poisAt ((sliceS kP {} 0x3FE00).myLoc ((sliceS kP {} 0x3FE00).my.cwv 0x043)) 32 = false :=
  ⟨rfl, .inl ⟨rfl, rfl⟩, noStash_slice _ _ _, rfl, by decide, by decide, by decide, by decide, by decide, noStash_slice _ _ _,
    by decide, by decide, by unfold inLocal; decide, by unfold inLocal; decide, by decide, by decide⟩
/-- Slices whose wa holds a format, and v1, v2 with four bits in every byte: good metadata. -/
def mulS (k : CoreId) (fmt planes : Nat) : State :=
  { inCtx ⟨k, 0⟩ { userX with g := [(1, 0x3FFE0)], v := [(2, BitVec.ofNat 512 ((2 ^ 512 - 1) / 255 * 15)),
      (3, BitVec.ofNat 512 ((2 ^ 512 - 1) / 255 * 0xF0))] } with
    cores := [(k.key, { slice := { wa := { fmt := fmt, planes := planes } } })] }
theorem wit_SliceMultiply : (mulS k0 1 0).InSlot ∧ (mulS k0 1 0).MaySlice ∧ (mulS k0 1 0).Clean [1] [2, 2 + 1]
    ∧ planeCluster k0.cluster = formPlane .bf16 ∧ planeCluster k0.cluster = formPlane .f32
    ∧ planeCluster k0.cluster = formPlane .sbf16 ∧ planeCluster kP.cluster = formPlane .p
    ∧ planeCluster kP.cluster = formPlane .sp
    ∧ (mulS k0 1 0).slice.wa.fmt = formFmt .bf16 ∧ (mulS k0 2 0).slice.wa.fmt = formFmt .f32
    ∧ (mulS k0 1 0).slice.wa.fmt = formFmt .sbf16 ∧ (mulS kP 3 8).slice.wa.fmt = formFmt .p
    ∧ badMeta 0 ((mulS k0 1 0).metaOf .sbf16 2) = none ∧ badMeta 0 ((mulS kP 3 8).metaOf .sp 2) = none
    ∧ badMeta 0 ((mulS k0 1 0).metaOf .bf16 2) = none
    ∧ (∀ i, i < 16 → ∀ b, b < formRow .sbf16 → (mulS k0 1 0).poisAt (localLoc k0 ((0x3FFE0 + i * 64 + b) % 2 ^ 18)) 1 = false) :=
  ⟨rfl, .inl ⟨rfl, rfl⟩, rfl, by decide, by decide, by decide, by decide, by decide, rfl, rfl, rfl, rfl, by decide +kernel,
    by decide +kernel, by decide +kernel, fun _ _ _ _ => clean_marks rfl _ _⟩
theorem wit_MultiplyMeaning : (15 : Nat) < 16 ∧ (List.replicate 32 (0 : Byte)).length = 32
    ∧ (List.replicate 64 (0 : Byte)).length = 64 := by decide
/-- A misaligned address, the first bytes of the tag and counter areas, an address above the translated range, and v2 with
one byte, number 5, that has three bits. -/
def faultS (k : CoreId) (a : Word) (fmt : Nat) : State :=
  { inCtx ⟨k, 0⟩ { userX with g := [(1, a)], v := [(2, BitVec.ofNat 512 ((2 ^ 512 - 1) / 255 * 15 - 2 ^ 40))] } with
    cores := [(k.key, { slice := { owner := some 0, wa := { fmt := fmt } } })] }
theorem wit_SliceFaults : ¬ handS.InSlot ∧ poisS.InSlot ∧ poisS.my.poisoned [2] [] = some (2 : Reg).toNat
    ∧ (faultS k0 32 1).InSlot ∧ (faultS k0 32 1).Clean [1] [2]
    ∧ (faultS k0 32 1).slice.owner = some (faultS k0 32 1).cur.ctx.val ∧ (faultS k0 32 1).slice.queue = []
    ∧ ((faultS k0 32 1).g 1).toNat % 64 ≠ 0 ∧ ((faultS k0 0x40000 1).g 1).toNat % 64 = 0
    ∧ ((faultS k0 0x40000 1).g 1).toNat = 0x40000 ∧ ((faultS k0 0x80000 1).g 1).toNat = 0x80000
    ∧ ((faultS k0 0x0200000000000000 1).g 1).toNat = 2 ^ 57
    ∧ planeCluster (faultS kP 64 3).cur.core.cluster = true ∧ planeCluster (faultS k0 64 2).cur.core.cluster = false
    ∧ (faultS k0 64 2).slice.wa.fmt ≠ 1 ∧ (faultS k0 64 1).slice.wa.fmt = 1
    ∧ ((List.range 8).countP (fun i => (laneAt 8 ((faultS k0 64 1).v 2) 5).testBit i)) ≠ 4
    ∧ (∀ c, c < 5 → ((List.range 8).countP (fun i => (laneAt 8 ((faultS k0 64 1).v 2) c).testBit i)) = 4) :=
  ⟨by simp [State.InSlot]; rfl, rfl, rfl, rfl, rfl, rfl, rfl, by decide, by decide, by decide, by decide, by decide, by decide,
    by decide, by decide, by decide, by decide +kernel, by decide +kernel⟩
theorem wit_SliceAccumulatorMoves : (sliceS k0 {} 0x3FC00).InSlot ∧ (sliceS k0 {} 0x3FC00).MaySlice
    ∧ (sliceS k0 {} 0x3FC00).NoStash ∧ (sliceS k0 {} 0x3FC00).Clean [1] [] ∧ ((sliceS k0 {} 0x3FC00).g 1).toNat % 64 = 0
    ∧ inLocal ((sliceS k0 {} 0x3FC00).g 1) 1024
    ∧ (sliceS k0 {} 0x3FC00).poisAt ((sliceS k0 {} 0x3FC00).myLoc ((sliceS k0 {} 0x3FC00).g 1)) 1024 = false :=
  ⟨rfl, .inl ⟨rfl, rfl⟩, noStash_slice _ _ _, rfl, by decide, by unfold inLocal; decide, by decide⟩
/-- An image whose header is that of an empty slice of planes (version 1, bit 1 set), and one of the other kind. -/
def imageS (h : Nat) : State := (sliceS kP { owner := some 0 } 0).pokeD (localLoc kP 0) h
theorem wit_SliceSaveRestore : (imageS (2 ^ 48 + 2)).InSlot ∧ (imageS (2 ^ 48 + 2)).MaySlice
    ∧ (imageS (2 ^ 48 + 2)).Clean [1] [] ∧ ((imageS (2 ^ 48 + 2)).g 1).toNat % 64 = 0
    ∧ inLocal ((imageS (2 ^ 48 + 2)).g 1) 6336
    ∧ (imageS (2 ^ 48 + 2)).poisAt ((imageS (2 ^ 48 + 2)).myLoc 0) 6336 = false
    ∧ imageFault ((imageS (2 ^ 48 + 2)).dword (localLoc kP 0)) true = none
    ∧ imageFault ((imageS (2 ^ 48)).dword (localLoc kP 0)) true = some 3
    ∧ (imageS (2 ^ 48)).slice.queue = [] ∧ (imageS (2 ^ 48)).slice.owner = some (imageS (2 ^ 48)).cur.ctx.val
    ∧ ({ fmt := 3, planes := 8 } : Plane).Ok ∧ ({} : Plane).Ok ∧ ([1, 2, 3, 4] : List Word).length = 4 :=
  ⟨rfl, .inr ⟨rfl, by decide⟩, rfl, by decide, by unfold inLocal; decide, by decide +kernel, by decide +kernel, by decide +kernel, rfl, rfl,
    ⟨by decide, by decide⟩, ⟨by decide, by decide⟩, rfl⟩
theorem noStash_image (h : Nat) : (imageS h).NoStash :=
  fun off => noStash_reset (by simp [imageS, State.pokeD, State.poke, sliceS, State.myCore, State.core, inCtx, tget]) off
/-- The row of core 0 with cores 1, 2, 3 at the barrier, in the form GANG.BF16 from accumulator 1. -/
def arr : GangArrival := ⟨1, .bf16, 1, 1, 0, 32, [], 0⟩
def gangCore (a : Option GangArrival) : Core := { slice := { wa := { fmt := 1 } }, gangAt := a }
def gangS (a3 : Option GangArrival) : State :=
  { inCtx c0 { userX with g := [(1, 0)] } with
    cores := [(0, gangCore none), (1, gangCore (some arr)), (2, gangCore (some arr)), (3, gangCore a3)] }
theorem wit_GangBarrier : (gangS none).InSlot ∧ (gangS none).MaySlice ∧ (gangS none).slice.queue = [] ∧ (gangS none).Clean [1] [0, 0 + 1]
    ∧ planeCluster (gangS none).cur.core.cluster = formPlane .bf16 ∧ (gangS none).slice.wa.fmt = formFmt .bf16
    ∧ badMeta 0 ((gangS none).metaOf .bf16 0) = none
    ∧ (∃ k ∈ rowCores (gangS none).cur.core, k ≠ (gangS none).cur.core ∧ ((gangS none).core k).gangAt = none)
    ∧ (∀ k ∈ rowCores (gangS (some arr)).cur.core, k = (gangS (some arr)).cur.core
        ∨ ((gangS (some arr)).core k).gangAt = some arr)
    ∧ arr.form = .bf16 ∧ arr.k = (0#3).toNat + 1 ∧ arr.slot < 4 ∧ arr.m < 4
    ∧ (∀ k ∈ rowCores (gangS (some arr)).cur.core, ∀ i, i < 16 → (gangS (some arr)).rowBad k 0 32 (formRow .bf16) i = none) :=
  ⟨rfl, .inl ⟨rfl, rfl⟩, rfl, rfl, by decide, rfl, by decide, by decide, by decide, rfl, by decide, by decide, by decide,
    by decide +kernel⟩

/-! Counter 63 of core 0 stands at 10. -/

/-- A context with the counter's address in g1 and a target or amount in g2; core control words as given. -/
def ctrS (sup : Bool) (w : Word) (wait : Wait) (cw : Table Word) : State :=
  { inCtx c0 { task := some task0, g := [(1, 0x800FC), (2, w)], cw := if sup then [(0, 1)] else [], wait := wait } with
    counters := [(63, 10)], cores := [(0, { cw := cw })] }
theorem wit_CounterInstructions : (ctrS true 10 .none []).NoBreak
    ∧ ((ctrS true 10 .none []).g 1).toNat = 0x80000 + 4 * (63#6).toNat ∧ (ctrS true 10 .none []).Clean [1, 2] []
    ∧ (ctrS true 10 .none []).masked 63 = false ∧ (ctrS false 10 .none []).masked 63 = true
    ∧ (ctrS true 10 .none []).my.wait = .none
    ∧ ((ctrS true 10 .none []).ctr k0 63 - 10).toNat < 2 ^ 31 ∧ 2 ^ 31 ≤ ((ctrS true 11 .none []).ctr k0 63 - 11).toNat
    ∧ ((ctrS true 10 .none []).myCore.cwv cwMPOIS).getLsbD 63 = false
    ∧ ((ctrS true 10 .none [(cwMPOIS, 0x8000000000000000)]).myCore.cwv cwMPOIS).getLsbD 63 = true
    ∧ (ctrS true 10 (.counter 63 10 1 (some 5) true) []).my.wait = .counter 63 10 1 (some 5) true :=
  ⟨noBreak_empty rfl, by decide, rfl, by decide, by decide, by decide, by decide, by decide, by decide, by decide, by decide⟩
theorem wit_CounterEvents :
    { ctrS true 0 .none [] with event := .counterChange k0 63 false 1 true }.event = .counterChange k0 63 false 1 true
    ∧ ((0 : Nat), (62 : BitVec 6)) ≠ (0, 63)
    ∧ { ctrS true 0 .none [] with event := .mbwaitTimeout c0 7 }.event = .mbwaitTimeout c0 7
    ∧ ((ctrS true 0 (.counter 63 11 7 (some 5) false) []).ctx c0).wait = .counter 63 11 7 (some 5) false
    ∧ ((ctrS true 0 (.counter 63 11 7 (some 5) true) []).ctx c0).wait = .counter 63 11 7 (some 5) true
    ∧ (((ctrS true 0 .none []).core k0).cwv cwMPOIS).getLsbD 63 = false
    ∧ (((ctrS true 10 (.counter 63 10 7 none false) [(cwMPOIS, 2 ^ 63)]).core k0).cwv cwMPOIS).getLsbD 63 = true
    ∧ (coreCtxs k0).filter (fun c => ((ctrS true 10 (.counter 63 10 7 none false) [(cwMPOIS, 2 ^ 63)]).ctx c).wakes 63 10) = [c0] := by
  decide +kernel
/-- The last local doubleword, its tag full or empty, with a number of requests in the wait table. -/
def tagQ : TagReq := ⟨c1, 9, k0, 0x100, .ldf, 0, none, false, 0⟩
def tagS (full : Bool) (n : Nat) : State :=
  { inCtx c0 { userX with g := [(1, 0x3FFF8), (2, 7)] } with
    tags := if full then [tagKey k0 0x3FFF8] else [], cores := [(0, { tagWaits := List.replicate n tagQ })] }
theorem wit_TaggedInstructions : (tagS true 0).PlainLocal ((tagS true 0).g 1) 8 ∧ (tagS true 0).Clean [1, 2] []
    ∧ (tagS true 0).poisAt ((tagS true 0).myLoc ((tagS true 0).g 1)) 8 = false
    ∧ (tagS true 0).full k0 0x3FFF8 = true ∧ (tagS false 0).full k0 0x3FFF8 = false ∧ (tagS true 0).myCore.tagWaits = []
    ∧ (tagS true 31).myCore.tagWaits.length < 32 ∧ 32 ≤ (tagS true 32).myCore.tagWaits.length
    ∧ (tagS false 31).PlainLocal ((tagS false 31).g 1) 8 ∧ tagKey k0 8 ≠ tagKey k0 0x3FFF8 :=
  ⟨plainLane rfl (by decide) (by decide) (by decide), rfl, by decide, by decide, by decide, rfl, by decide, by decide,
    plainLane rfl (by decide) (by decide) (by decide), by decide⟩
theorem wit_TaggedWaits :
    { userS with event := .taggedWaitTimeout k0 c0 7 }.event = .taggedWaitTimeout k0 c0 7
    ∧ ((inCtx c0 { userX with wait := .tagged 7 (some 5) (some 6) (some 100) }).ctx c0).wait
      = .tagged 7 (some 5) (some 6) (some 100)
    ∧ { userS with event := .taggedRequestResend tagQ }.event = .taggedRequestResend tagQ
    ∧ ((inCtx c1 { userX with wait := .tagged 9 (some 5) none none }).ctx tagQ.issuer).wait = .tagged 9 (some 5) none none
    ∧ (atS 4).Clean [1, 2] [] ∧ ((atS 4).g 1).toNat % 8 ≠ 0 ∧ ((atS 0x40000).g 1).toNat % 8 = 0
    ∧ 0x40000 ≤ ((atS 0x40000).g 1).toNat ∧ ((atS 0x01FFFFFFFFFFFFF8).g 1).toNat < 2 ^ 57 :=
  ⟨rfl, by decide, rfl, by decide, rfl, by decide, by decide, by decide, by decide⟩

/-- A descriptor of n lines at a local offset in g1 and an address in g2; stash windows as given. -/
def smapS (desc va : Word) (cw : Table Word) : State :=
  { inCtx c0 { userX with g := [(1, desc), (2, va)] } with cores := [(0, { cw := cw })] }
/-- Window j of one line at local offset 64 × j, of region 0. -/
def swl (j : Nat) : Nat × Word := (cwSWL + j, word (2 ^ 63 + 2 ^ 32 + 64 * j))
/-- The form R221 asks of a descriptor. -/
def shaped (desc : Nat) : Bool :=
  decide (desc / 2 ^ 45 = 0 ∧ desc / 2 ^ 18 % 2 ^ 14 = 0 ∧ desc / 2 ^ 32 % 2 ^ 13 ≠ 0 ∧ desc % 2 ^ 18 % 64 = 0
    ∧ desc % 2 ^ 18 + 64 * (desc / 2 ^ 32 % 2 ^ 13) ≤ 0x40000)
theorem wit_StashAndArms :
    let s := smapS 0x10003FFC0 0x200000 []
    let full := smapS 0x10003FFC0 0x200000 ((List.range 8).map swl)
    let last := smapS 0x10003FFC0 0x200000 ((List.range 7).map swl)
    s.Clean [1, 2] [] ∧ (s.g 2).toNat % 64 = 0 ∧ 0x200000 ≤ (s.g 2).toNat ∧ (s.g 2).toNat < 2 ^ 57
    ∧ shaped ((smapS 0x20003FFC0 0x200000 []).g 1).toNat = false ∧ (smapS 0x100000000 0x200000 ((List.range 8).map swl)).myCore.overlaps 0 64 = true
    ∧ shaped (s.g 1).toNat = true ∧ s.regionOf s.cur < 4096 ∧ s.myCore.overlaps 0x3FFC0 64 = false
    ∧ full.myCore.overlaps 0x3FFC0 64 = false ∧ (∀ w, w < 8 → (full.myCore.swl w).getLsbD 63 = true)
    ∧ (last.myCore.swl 7).getLsbD 63 = false ∧ (∀ j, j < 7 → (last.myCore.swl j).getLsbD 63 = true)
    ∧ last.myCore.overlaps 0x3FFC0 64 = false := by
  refine ⟨rfl, ?_⟩
  decide
/-- SUNMAP, SFLUSH of window 7, mapped by region 0 and empty; of window 8; ARMH descriptors. -/
theorem wit_StashAndArms_unmap : (7 : Nat) < ((smapS 8 0 []).g 1).toNat
    ∧ ((smapS 7 0 [swl 7]).myCore.swl 7).getLsbD 63 = true
    ∧ ((smapS 7 0 [swl 7]).myCore.swl 7).toNat / 2 ^ 48 % 2 ^ 12 = (smapS 7 0 [swl 7]).regionOf c0
    ∧ (smapS 7 0 [swl 7]).myCore.windowLines 7 = []
    ∧ ((smapS 0x8000000100000000 2 []).g 1).getLsbD 63 = true ∧ ((smapS 0x8000000100000000 2 []).g 2).toNat % 4 ≠ 0
    ∧ ((smapS 0xC000000100000000 4 []).g 1).getLsbD 62 = true ∧ ((smapS 0xC000000100000000 4 []).g 2).toNat % 4 = 0
    ∧ ((smapS 0xB00000010003FFC0 4 []).g 1).getLsbD 62 = false
    ∧ ((smapS 0xB00000010003FFC0 4 []).g 1).toNat / 2 ^ 45 % 2 ^ 15 = 0
    ∧ ((smapS 0xB00000010003FFC0 4 []).g 1).toNat / 2 ^ 18 % 2 ^ 14 = 0
    ∧ ((smapS 0xB00000010003FFC0 4 []).g 1).toNat % 2 ^ 18 + 64 * 1 = 0x40000
    ∧ ((smapS 0x3000000000000000 0 []).g 1).getLsbD 63 = false := by decide
/-- Window 7 of region 0 at 0x40000000, its one line dirty, its page translated or on no table. -/
def dirtyS (mapped : Bool) : State :=
  let x : Core := { cw := [swl 7, (cwSWV + 7, 0x40000000)], stash := [(0x7000, some ⟨0x80, true, true⟩)] }
  let tlb : List TlbEntry := if mapped then [⟨0, 1, 3, 0, 0x4F, 0⟩] else []
  { inCtx c0 { userX with g := [(1, 7)] } with cores := [(0, { x with dtlb := tlb })] }
/-- Which outcome a translation has, and what is poisoned then. -/
def trKind : State × Tr → Nat × List Nat
  | (u, .ok pa _) => (pa, u.pois)
  | (u, .absent) => (1, u.pois)
  | (u, .fault _) => (2, u.pois)
theorem wit_StashAndArms_dirty : (dirtyS true).Clean [1, 2] [] ∧ ((dirtyS true).g 1).toNat = 7
    ∧ (dirtyS true).myCore.windowLines 7 = [0x7000]
    ∧ tget none (dirtyS true).myCore.stash 0x7000 = some ⟨0x80, true, true⟩
    ∧ trKind ((dirtyS true).translate k0 ((dirtyS true).myCore.stashRegion 0x7000) 0x40000000 false) = (0, [])
    ∧ trKind ((dirtyS false).translate k0 ((dirtyS false).myCore.stashRegion 0x7000) 0x40000000 false) = (1, []) := by
  refine ⟨rfl, ?_⟩
  decide +kernel
def stashS (dirty : Bool) : State :=
  { userS with event := .stashRecall k0 2 true, cores := [(0, { cw := [swl 0], stash := [(0, some ⟨0x80, true, dirty⟩)] })] }
theorem wit_StashRecall : (stashS true).event = .stashRecall k0 2 true
    ∧ ((stashS true).core k0).stash = [(0, some ⟨0x80, true, true⟩)] ∧ lineNo 0x80 = 2 ∧ (stashS true).pois = []
    ∧ (⟨0x80, true, true⟩ : StashLine).dirty = true ∧ ((stashS false).core k0).stash = [(0, some ⟨0x80, true, false⟩)] := by
  decide
/-- Two lines of DRAM into local offset 0x3FF80 of cores 0 and 15. -/
def fillS (a desc : Word) : State := { mapS 0 a with ctxs := [(c0.key, { userX with g := [(1, a), (2, desc)] })] }
theorem wit_MfillResult :
    let desc : Word := 0x800100020003FF80
    let s := fillS 0x40000040 desc
    let u := (s.rangePas (s.g 1) 2).1
    s.Clean [1, 2] [] ∧ ((fillS 0x41 desc).g 1).toNat % 64 ≠ 0 ∧ ((fillS 0 0x8001000000000000).g 2).toNat / 2 ^ 32 % 2 ^ 13 = 0
    ∧ (s.g 1).toNat % 64 = 0 ∧ desc.toNat / 2 ^ 45 % 8 = 0 ∧ desc.toNat / 2 ^ 18 % 2 ^ 14 = 0
    ∧ desc.toNat / 2 ^ 32 % 2 ^ 13 = 2 ∧ desc.toNat % 2 ^ 18 + 64 * 2 = 0x40000 ∧ desc.toNat / 2 ^ 48 = 0x8001
    ∧ (fillS 0 0x20003FF80).g 2 / 2 ^ 48 = 0
    ∧ (s.rangePas (s.g 1) 2).2 = some [0x40, 0x80] ∧ (∀ pa ∈ [0x40, 0x80], paDev pa = u.dev)
    ∧ (∀ p ∈ u.cores, p.2.stash = [])
    ∧ (∀ j, j < 16 → (0x8001 : Nat).testBit j = true → u.colourOk (u.cur.core.cluster.coreAt j) (u.colourOf u.cur) = true)
    ∧ u.mayIssue u.cur 1 = true ∧ u.pois = [] ∧ (∀ p ∈ u.clusters, p.2.vaultFailed = false)
    ∧ (∀ pa ∈ [0x40, 0x80], pa % 64 = 0 ∧ (paLoc pa).testBit 42 = false) := by
  refine ⟨rfl, ?_⟩
  decide

/-- A slot with three registers, of which g1 is an address, on a core with what is given. -/
def amoS (a : Word) (x : Core) : State :=
  { inCtx c0 { userX with g := [(1, a), (2, 7), (3, 9)] } with cores := [(0, x)] }
def busy (ctx : Nat) : Outstanding := ⟨1, ctx, true, .g 5 8 false, true, false, false, 0x1000, 8, 0, 0⟩
theorem wit_OrderingInstructions : (amoS 0x3FFF8 {}).Clean [1, 2] [] ∧ (amoS 8 { outs := [busy 0] }).anyLoad c0 = true
    ∧ (5#4).getLsbD 3 = false ∧ (5#4).getLsbD 2 = true ∧ (3#4).getLsbD 2 = false ∧ (amoS 8 {}).anyLoad (amoS 8 {}).cur = false
    ∧ (amoS 0x3FFF8 {}).PlainLocal ((amoS 0x3FFF8 {}).g 1) (memBytes .d)
    ∧ (amoS 0x3FFF8 {}).poisAt ((amoS 0x3FFF8 {}).myLoc ((amoS 0x3FFF8 {}).g 1)) (memBytes .d) = false
    ∧ ((amoS winA (mapCore 0)).access (.lda .d .cls 3 1) winA ⟨8, true, false, false, true, false⟩).2 = some (.core (localLoc k5 8))
    ∧ ((amoS winA (mapCore 0)).access (.lda .d .cls 3 1) winA ⟨8, true, false, false, true, false⟩).1.mayIssue c0 1 = true
    ∧ ((amoS winA (mapCore 60)).access (.lda .d .cls 3 1) winA ⟨8, true, false, false, true, false⟩).1.mayIssue c0 1 = false
    ∧ ((amoS 4 {}).access (.lda .d .cls 3 1) 4 ⟨8, true, false, false, true, false⟩).2 = none
    ∧ ((amoS winA (mapCore 0)).access (.stl .d .cls 1 2) winA ⟨8, false, true, false, true, false⟩).2 = some (.core (localLoc k5 8))
    ∧ ((amoS 4 {}).access (.stl .d .cls 1 2) 4 ⟨8, false, true, false, true, false⟩).2 = none :=
  ⟨rfl, by decide, by decide, by decide, by decide, by decide, plainLane rfl (by decide) (by decide) rfl, by decide,
    by decide, by decide, by decide, by decide, by decide, by decide⟩
theorem wit_AtomicResults : Scope.dev ≠ .sys ∧ (amoS 0x3FFFC {}).Clean [1, 2, 3] [] ∧ (amoS 0x3FFFC {}).Clean [3] []
    ∧ (amoS 0x3FFFC {}).PlainLocal ((amoS 0x3FFFC {}).g 1) 4
    ∧ (amoS 0x3FFFC {}).poisAt ((amoS 0x3FFFC {}).myLoc ((amoS 0x3FFFC {}).g 1)) 4 = false
    ∧ ((amoS 0x3FFFC {}).poke (localLoc k0 0x3FFFC) [1] true).poisAt (localLoc k0 0x3FFFC) 4 = true
    ∧ (amoS 0x3FFF8 {}).PlainLocal ((amoS 0x3FFF8 {}).g 1) 8 :=
  ⟨by decide, rfl, rfl, plainLane rfl (by decide) (by decide) rfl, by decide, by decide,
    plainLane rfl (by decide) (by decide) rfl⟩
/-- An atomic on DRAM of this device, on core 5 of cluster 2, on device 1, on nothing. -/
def askRmw : Asked := ⟨8, true, true, false, true, false⟩
def rmwS (n : Nat) (a : Word) : State := amoS a (mapCore n)
def add8 : Instr := .amoAdd false .dev 3 1 2
theorem wit_AtomicWaits : (rmwS 0 8).Clean [1, 2, 3] [] ∧ ((rmwS 0 8).resolve add8 8 askRmw).2 = some (.own 8)
    ∧ ((rmwS 0 8).resolve add8 8 askRmw).1.minScope (.own 8) ≤ scopeRank .sys ∧ ((rmwS 0 4).g 1).toNat % 8 ≠ 0
    ∧ ((rmwS 0 0x80000).resolve add8 0x80000 askRmw).2 = none
    ∧ ((rmwS 0 0x40000040).resolve add8 0x40000040 askRmw).2 = some (.dram 0x40)
    ∧ ((rmwS 0 winA).resolve add8 winA askRmw).2 = some (.core (localLoc k5 8))
    ∧ ((rmwS 0 farA).resolve add8 farA askRmw).2 = some (.far (2 ^ 45 + localLoc k5 8))
    ∧ scopeRank .cls < ((rmwS 0 winA).resolve add8 winA askRmw).1.minScope (.core (localLoc k5 8))
    ∧ ((rmwS 0 winA).resolve add8 winA askRmw).1.minScope (.core (localLoc k5 8)) ≤ scopeRank .dev
    ∧ ((rmwS 0 0x40000040).resolve add8 0x40000040 askRmw).1.minScope (.dram 0x40) ≤ scopeRank .cls
    ∧ ((rmwS 0 winA).resolve add8 winA askRmw).1.plat.bpc = []
    ∧ ((rmwS 0 winA).resolve add8 winA askRmw).1.mayIssue c0 1 = true
    ∧ ((rmwS 60 winA).resolve add8 winA askRmw).1.mayIssue c0 1 = false
    ∧ (inCtx c0 { userX with wait := .atomic 7 5 true false 0x100 }).my.wait = .atomic 7 5 true false 0x100
    ∧ ((amoS 0 {}).resolve add8 0 askRmw).1.plat.bpc = []
    ∧ { userS with event := .atomicReply c0 7 1 true false }.event = .atomicReply c0 7 1 true false :=
  ⟨rfl, by decide, by decide, by decide, by decide, by decide, by decide, by decide, by decide, by decide, by decide,
    by decide, by decide, by decide, by decide, by decide, by decide⟩
/-- A page of device 1 and one behind the backed DRAM, at 0x40000000. -/
def otherS (pa : Nat) : State :=
  let x : Core := { dtlb := [⟨0, 1, 3, pa, 0x4F, 0⟩] }
  { inCtx c0 { userX with g := [(1, 0x40000040)], cw := [(0, 1)], rbuf := [(2 ^ 45 + 0x40, 9)] } with cores := [(0, x)] }
/-- A mapped line, in task mode and in supervisor mode; TLBINV and PROBE operands in g2. -/
def lineS (sup : Bool) (a b : Word) : State :=
  { inCtx c0 { userX with g := [(1, a), (2, b)], cw := if sup then [(0, 1)] else [] } with cores := [(0, mapCore 0)] }
theorem wit_LinesAndTranslations : (lineS true 0x40000040 0).Clean [1, 2] [] ∧ ¬ 0x200000 ≤ ((lineS true 0x1FFFFF 0).g 1).toNat
    ∧ 0x200000 ≤ ((lineS true 0x40000040 0).g 1).toNat ∧ ((lineS true 0x40000040 0).g 1).toNat < 2 ^ 57
    ∧ (lineS true 0 0).sup c0 = true ∧ (lineS false 0 0).sup c0 = false
    ∧ ((lineS true 0x40000040 0).translate k0 0 0x40000040 false).2 = .ok 0x40 ⟨0, 1, 3, 0, 0x4F, 0⟩
    ∧ paDev 0x40 = ((lineS true 0x40000040 0).translate k0 0 0x40000040 false).1.dev
    ∧ ((lineS true 0x40000040 0).translate k0 0 0x40000040 false).1.dramOk 0x40 = true
    ∧ ((lineS true 0x40000040 0).translate k0 0 0x40000040 false).1.mayIssue c0 1 = true
    ∧ TlbEntry.allows ⟨0, 1, 3, 0, 0x4F, 0⟩ true false false true = true
    ∧ TlbEntry.allows ⟨0, 1, 3, 0, 0x4F, 0⟩ false true false true = true
    ∧ ((lineS true 0 0x4000).g 2).toNat / 2 ^ 14 ≠ 0 ∧ ((lineS true 0 0x3000).g 2).toNat / 2 ^ 12 % 4 = 3
    ∧ ((lineS true 0 0x2FFF).g 2).toNat / 2 ^ 14 = 0 ∧ ((lineS true 0 0x2FFF).g 2).toNat / 2 ^ 12 % 4 ≠ 3
    ∧ (lineS true 0 0).anyOut c0 = false ∧ (lineS true 0 0).mayIssue c0 1 = true
    ∧ 2 < ((lineS true 0 3).g 2).toNat ∧ ((lineS true 0 2).g 2).toNat ≤ 2
    ∧ ((lineS true 0x200000 0).translate k0 0 0x200000 false).2 = .absent
    ∧ ((otherS (2 ^ 45)).translate k0 0 0x40000040 false).2 = .ok (2 ^ 45 + 0x40) ⟨0, 1, 3, 2 ^ 45, 0x4F, 0⟩
    ∧ paDev (2 ^ 45 + 0x40) ≠ ((otherS (2 ^ 45)).translate k0 0 0x40000040 false).1.dev
    ∧ ((otherS (2 ^ 45)).translate k0 0 0x40000040 false).1.dramOk (2 ^ 45 + 0x40) = true
    ∧ ((otherS (2 ^ 45)).translate k0 0 0x40000040 false).1.farHave (2 ^ 45 + 0x40) 1 = true
    ∧ ((otherS 0x1000000000).translate k0 0 0x40000040 false).2 = .ok 0x1000000040 ⟨0, 1, 3, 0x1000000000, 0x4F, 0⟩
    ∧ ((otherS 0x1000000000).translate k0 0 0x40000040 false).1.dramOk 0x1000000040 = false
    ∧ (lineS false 0 0).sup (lineS false 0 0).cur = false := by
  refine ⟨rfl, ?_⟩
  decide +kernel
def lineReq (k : ReqKind) (pa : Nat) : Request := ⟨c0, 7, pa, k, 0, 0, 0⟩
theorem wit_MemoryRequests : (mapS 0 0).Quiet ∧ (paLoc 0x40).testBit 42 = false
    ∧ paOff (localLoc k5 0x3FFF8) < 0x40000 ∧ (lineReq (.read 8) 0x40).kind = .read 8
    ∧ (lineReq (.write [1, 2] 0) 0x40).kind = .write [1, 2] 0
    ∧ (lineReq (.rmw .add true 1 0) 0x40).kind = .rmw .add true 1 0 :=
  ⟨⟨rfl, by decide, by decide, by decide⟩, by decide, by decide, rfl, rfl, rfl⟩
theorem wit_RemoteRequests : (5 : Nat) ≠ userS.dev ∧ paDev 0x40 = userS.dev ∧ paOnDie 0x40 = false
    ∧ userS.dramOk 0x40 = true ∧ userS.dramOk 0xFFFFFFFC0 = true ∧ userS.dramOk 0x1000000000 = false
    ∧ paOnDie (localLoc k5 8) = true ∧ userS.onDieOk (localLoc k5 8) = true ∧ paDev (localLoc k5 8) = userS.dev
    ∧ paOff (localLoc k5 0x3FFF8) < 0x40000 ∧ userS.colourOk (paCoreId (localLoc k5 8)) 0 = true
    ∧ userS.colourOk (paCoreId (localLoc k5 8)) 63 = false ∧ userS.onDieOk (localLoc k5 0x1FFFF8) = false
    ∧ (mapS 0 0).Quiet ∧ paOnDie (localLoc k5 0x1FFFF8) = true :=
  ⟨by decide, by decide, by decide, by decide, by decide, by decide, by decide, by decide, by decide, by decide, by decide,
    by decide, by decide, ⟨rfl, by decide, by decide, by decide⟩, by decide⟩
def waitX (w : Wait) : Ctx := { userX with wait := w }
/-- An atomic outstanding. -/
def atomicOut : State := { inCtx c0 (waitX (.atomic 1 5 true false 0x100)) with cores := [(0, { outs := [busy 0] })] }
theorem wit_RepliesToIssuers : (amoS 0 { outs := [busy 0] }).findOut c0 1 = some (busy 0)
    ∧ (busy 0).dest = .g 5 8 false ∧ (busy 0).discard = false ∧ 0 < (busy 0).len ∧ userS.findOut c0 1 = none
    ∧ (∀ j gd w f va, ((amoS 0 { outs := [busy 0] }).ctx c0).wait ≠ .atomic j gd w f va)
    ∧ ((inCtx c0 (waitX (.parked 7 0x40000000 0 1 0 0x40000000 0))).ctx c0).wait = .parked 7 0x40000000 0 1 0 0x40000000 0
    ∧ trKind (State.rewalk (inCtx c0 (waitX (.parked 7 0x40000000 0 1 0 0x40000000 0))) k0 0 0x40000000 false) = (1, [])
    ∧ atomicOut.findOut c0 1 = some (busy 0) ∧ (atomicOut.ctx c0).wait = .atomic 1 5 true false 0x100 :=
  ⟨by decide, by decide, by decide, by decide, by decide, fun _ _ _ _ _ => by simp [amoS, inCtx, State.ctx, tget, userX],
    by decide, by decide +kernel, by decide, by decide⟩

/-! Engine requests stand in g16 to g19. -/

def reqX (w0 w1 w2 w3 : Word) (cw : Table Word) : Ctx :=
  { task := some task0, g := [(1, 5), (16, w0), (17, w1), (18, w2), (19, w3)], cw := cw }
def cmdOf (w0 w1 w2 w3 : Word) (kind : CmdKind) (st : CmdState) : Command :=
  { id := 7, ctx := 0, orphan := false, kind := kind, state := st, w0 := w0, w1 := w1, w2 := w2, w3 := w3, mchsel := 0,
    region := 0, colour := 0, sup := true, cat := 0 }
/-- A slot with a request and a port of its core as given. -/
def reqS (x : Ctx) (p : Nat) (port : Port) : State := { inCtx c0 x with cores := [(0, { ports := [(p, port)] })] }
/-- COPY of 128 bytes from local address 0 to the end of local memory. -/
def copyX (cw : Table Word) : Ctx := reqX 128 0 0x3FF80 0 cw
def doneE (reported : Bool) (st : Nat) : Completion := ⟨0, word (2 ^ 63 + st * 2 ^ 56), reported, false⟩
def flaw0 (s : State) : Option Nat := s.copyFault (s.g 16) (s.g 17) (s.g 18) (s.g 19)
theorem wit_EngineCommands :
    let s := reqS (copyX []) 0 {}
    let c := cmdOf 0 0 0 0 .engine .queued
    s.Clean (reqRegs 16) [] ∧ 2 ≤ (3#2).toNat ∧ (1#2).toNat < 2
    ∧ flaw0 (reqS (reqX 128 0 0x3FF81 0 []) 0 {}) = some 2
    ∧ indexFault 0 0 0 0x4000000000000000 = some 3 ∧ flaw0 s = none ∧ indexFault 1 0 0 0 = none
    ∧ trigCounter (s.my.cwv cwETRIG) = none
    ∧ trigCounter ((reqS (copyX [(cwETRIG, 0x800FC)]) 0 {}).my.cwv cwETRIG) = some 63
    ∧ (reqS (copyX [(cwETRIG, 0x800FC)]) 0 {}).masked 63 = true
    ∧ (reqS (copyX [(0, 1), (cwETRIG, 0x800FC)]) 0 {}).masked 63 = false
    ∧ portLimit s.cur ≤ ((reqS (copyX []) 0 { cmds := [c, c, c] }).held c0 0).1
    ∧ ((reqS (copyX []) 0 { cmds := [c, c, c] }).held c0 0).2 < portLimit s.cur
    ∧ portLimit s.cur ≤ ((reqS (copyX []) 0 { done := [doneE true 0, doneE true 0, doneE true 0] }).held c0 0).2
    ∧ ((reqS (copyX []) 0 { cmds := [c, c] }).held c0 0).1 < portLimit s.cur := by
  refine ⟨rfl, ?_⟩
  decide
theorem wit_EngineCompletions :
    let s := reqS (copyX []) 0 { done := [doneE false 0, doneE false 1] }
    let run := reqS (copyX []) 0 { cmds := [cmdOf 128 0 0x3FF80 0 .engine .started] }
    let arm := cmdOf 128 0 0x3FF80 0 .engine (.armed 63 5)
    (∀ e ∈ (s.myCore.port 0).done, e.hidden = false) ∧ (s.myCore.port 0).done = [] ++ doneE false 0 :: [doneE false 1]
    ∧ (doneE false 0).ctx = s.cur.ctx.val ∧ (doneE false 0).word.toNat / 2 ^ 56 % 2 ^ 7 ≠ 2
    ∧ (doneE false 2).word.toNat / 2 ^ 56 % 2 ^ 7 = 2 ∧ (doneE false 2).reported = false ∧ (doneE true 2).reported = true
    ∧ (∀ e ∈ (run.myCore.port 0).done, e.ctx ≠ run.cur.ctx.val)
    ∧ (∀ c ∈ ((reqS (copyX []) 0 {}).myCore.port 0).cmds, c.ctx = 0 → c.orphan = true)
    ∧ (∃ c ∈ (run.myCore.port 0).cmds, c.ctx = run.cur.ctx.val ∧ c.orphan = false)
    ∧ ((inCtx c0 (waitX (.completion 0 9 5 true))).ctx c0).wait = .completion 0 9 5 true
    ∧ (inCtx c0 (waitX (.completion 0 9 5 true))).unread c0 0 = none
    ∧ arm.state = .armed 63 5 ∧ arm ∈ ((reqS (copyX []) 0 { cmds := [arm] }).myCore.port 0).cmds
    ∧ ((reqS (copyX []) 0 { cmds := [arm] }).myCore.port 0).started < 4
    ∧ (∀ e ∈ ((reqS (copyX []) 0 { cmds := [arm] }).myCore.port 0).cmds, e.state ≠ .queued) := by decide
theorem wit_EngineCompletions_idle : ∀ q i g tm, (reqS (copyX []) 0 {}).my.wait ≠ .completion q i g tm := by
  simp [reqS, copyX, reqX, inCtx, State.my, State.ctx, tget]
/-- A device on which one command of port p of core 0 has just started. -/
def engS (p : Nat) (c : Command) (e : Event) : State :=
  { userS with event := e, cores := [(0, { ports := [(p, { cmds := [c] })] })] }
theorem quiet_engS (p : Nat) (c : Command) (e : Event) : (engS p c e).Quiet :=
  ⟨rfl, by simp [engS, userS], by simp [engS, userS, inCtx, State.reset], by simp [engS, userS, inCtx, State.reset]⟩
/-- A put of 128 bytes with RCV of counter 63; RCOPY of 127 BF16 elements; the window address of core 5 of cluster 2. -/
def cCopy : Command := cmdOf 128 0 0x3FF80 0 .engine .started
def cGet : Command := cmdOf 0x1000000000000080 (word (255 * 2 ^ 56 + localLoc k5 0x3FF80)) 0 0 .engine .started
def cPut : Command := cmdOf 0x2000000000000080 0 (word (255 * 2 ^ 56 + localLoc k5 0x3FF80)) 0x00BF000000000000 .engine .started
def cRcopy : Command := cmdOf 0x32000000000000FE 0 (word (255 * 2 ^ 56 + localLoc k5 0x3FF02)) 0 .engine .started
theorem started_engS (p : Nat) (c : Command) (e : Event) (h : c.id = 7 ∧ c.state = .started)
    (f : c.progress = 0 ∧ c.applied = 0 ∧ c.skipped = 0 ∧ c.pois = false ∧ c.interval = 0) : (engS p c e).Started k0 p c := by
  refine ⟨?_, f⟩
  have hk : k0.key = 0 := by decide
  simp [engS, State.core, tget, hk, Core.port, Port.running, h.1, h.2]
theorem wit_CopyEngine : (engS 0 cCopy (.copy k0 7)).Quiet ∧ (engS 0 cCopy (.copy k0 7)).Started k0 0 cCopy
    ∧ (engS 0 cRcopy (.rcopy k0 7)).Started k0 0 cRcopy
    ∧ cCopy.kind = .engine ∧ cCopy.w0.toNat / 2 ^ 60 = 0 ∧ locKey k0 cCopy.w1 128 (localLoc k0 0)
    ∧ locKey k0 cCopy.w2 128 (localLoc k0 0x3FF80) ∧ apart (localLoc k0 0) 128 (localLoc k0 0x3FF80) 128
    ∧ cGet.w0.toNat / 2 ^ 60 = 1 ∧ winKey (engS 0 cGet (.get k0 7)) cGet cGet.w1 128 (localLoc k5 0x3FF80)
    ∧ cPut.w0.toNat / 2 ^ 60 = 2 ∧ winKey (engS 0 cPut (.put k0 7)) cPut cPut.w2 128 (localLoc k5 0x3FF80)
    ∧ cPut.w3.getLsbD 55 = true
    ∧ cRcopy.w0.toNat / 2 ^ 60 = 3 ∧ cRcopy.w0.toNat / 2 ^ 56 % 2 ^ 4 = 2 ∧ cRcopy.w0.toNat % 2 ^ 32 % 2 = 0
    ∧ winKey (engS 0 cRcopy (.rcopy k0 7)) cRcopy cRcopy.w2 254 (localLoc k5 0x3FF02) ∧ cRcopy.w2.toNat % 2 = 0 := by
  refine ⟨quiet_engS _ _ _, started_engS _ _ _ (by decide) (by decide), started_engS _ _ _ (by decide) (by decide), ?_⟩
  dsimp only [locKey, winKey, apart]
  decide
/-- A table of four rows of eight bytes at the end of local memory of core 5 of cluster 2; two indices, 3 and 0, or one out
of range; dense rows at the end of the own local memory. -/
def tabW : Word := 0xFF0004094003FFE0
def cIdx (op : Word) (fb : Bool) (xs : List (BitVec 32)) : Command :=
  { cmdOf (op + BitVec.ofNat 64 xs.length) 0 (BitVec.ofNat 64 (0x40000 - 8 * xs.length)) 0 .engine .started with
    xv := wordBytes [tabW, BitVec.ofNat 64 (4 * 2 ^ 32 + 8), 8, if fb then 1 else 0] ++ xs.flatMap (fun x => leBytes 4 x.toNat) }
def keyOf (x : Nat) : Nat := paLoc ((tabW + BitVec.ofNat 64 x * 8).toNat % 2 ^ 56)
theorem wit_IndexEngine :
    let c := cIdx 0 true [3, 0]
    let s := engS 1 c (.gather k0 7)
    s.Quiet ∧ s.Started k0 1 c ∧ c.kind = .engine ∧ c.xpois = false ∧ (4 : Nat) < 2 ^ 32 ∧ 8 % 4 = 0 ∧ tabW.toNat / 2 ^ 56 = 0xFF
    ∧ c.w0.toNat % 2 ^ 32 = 2 ∧ c.w2.toNat % 2 ^ 18 + 2 * 8 ≤ 0x40000 ∧ c.w0.toNat / 2 ^ 60 = 0
    ∧ (∀ x ∈ [(3 : BitVec 32), 0], x.toNat < 4 ∧ x.toNat < 2 ^ 31)
    ∧ (∀ x ∈ [(3 : BitVec 32), 0], winKey s c (tabW + BitVec.ofNat 64 x.toNat * 8) 8 (keyOf x.toNat)
      ∧ apart (keyOf x.toNat) 8 (localLoc k0 (c.w2.toNat % 2 ^ 18 + 0 * 8)) (2 * 8))
    ∧ (cIdx 0x1000000000000000 true [3, 0]).w0.toNat / 2 ^ 60 = 1
    ∧ (cIdx 0x2300000000000000 true [3, 0]).w0.toNat / 2 ^ 60 = 2
    ∧ (cIdx 0x2300000000000000 true [3, 0]).w0.toNat / 2 ^ 56 % 2 ^ 4 = 3
    ∧ (∀ x ∈ [(3 : BitVec 32), 0], keyOf x.toNat % 4 = 0)
    ∧ (∀ x ∈ [(3 : BitVec 32), 0], ∀ y ∈ [(3 : BitVec 32), 0], keyOf x.toNat = keyOf y.toNat ∨ apart (keyOf x.toNat) 8 (keyOf y.toNat) 8)
    ∧ apart (keyOf 3) 8 (keyOf 0) 8 ∧ 4 ≤ (4#32).toNat ∧ 2 ^ 31 ≤ (0x80000000#32).toNat := by
  refine ⟨quiet_engS _ _ _, started_engS _ _ _ (by decide) (by decide), ?_⟩
  dsimp only [winKey, apart]
  repeat' refine And.intro ?_ ?_
  · decide
  · decide
  · decide
  · decide
  · decide
  · decide
  · decide
  · decide
  · intro x hx
    simp only [List.mem_cons, List.not_mem_nil, or_false] at hx
    rcases hx with rfl | rfl
    · decide
    · decide
  · intro x hx
    simp only [List.mem_cons, List.not_mem_nil, or_false] at hx
    rcases hx with rfl | rfl
    · decide
    · decide
  · decide
  · decide
  · decide
  · intro x hx
    simp only [List.mem_cons, List.not_mem_nil, or_false] at hx
    rcases hx with rfl | rfl
    · decide
    · decide
  · intro x hx y hy
    simp only [List.mem_cons, List.not_mem_nil, or_false] at hx hy
    rcases hx with rfl | rfl <;> rcases hy with rfl | rfl
    · decide
    · decide
    · decide
    · decide
  · decide
  · decide
  · decide

/-! Carrel: LINB and VLIN of die 0 are 2 MiB, so vault 0 holds offsets from 0x200000 on; a page of BF16 tiles there. -/

def carPage : TlbEntry := ⟨0, 2, 2, 0x200000, 0x4F, 2⟩
def carDie : Die := { vmap := 0x100000001 }
def carS (x : Ctx) (c : Table Port) : State :=
  { inCtx c0 x with cores := [(0, { dtlb := [carPage], ports := c })], dies := [(0, carDie)] }
theorem wit_CarrelAndCacheCommands :
    let s := carS (reqX 0x400000 0 0x3FFC0 0 []) []
    let u := (s.translate k0 0 0x400000 false).1
    s.Clean (reqRegs 16) [] ∧ bmvFault 0x40000 0 0 = some 1 ∧ bmvFault (s.g (16 + 1)) (s.g (16 + 2)) (s.g (16 + 3)) = none
    ∧ ((carS (reqX 0x1FFFFF 0 0 0 []) []).g 16).toNat < 0x200000
    ∧ 2 ^ 57 ≤ ((carS (reqX 0x0200000000000000 0 0 0 []) []).g 16).toNat
    ∧ (s.translate k0 0 0x400000 false).2 = .ok 0x200000 carPage ∧ s.regionOf s.cur = 0
    ∧ carPage.allows true false false (u.sup u.cur) = true ∧ u.dramOk 0x200000 = true
    ∧ u.bmvPage carPage 64 0 0x3FFC0 = some 0x31 ∧ u.bmvPage carPage 0 (s.g (16 + 1)) (s.g (16 + 2)) = none
    ∧ (u.held u.cur 2).1 < portLimit u.cur
    ∧ palFault 0 1 0 = some 2 ∧ palFault (s.g (16 + 1)) (s.g (16 + 2)) (s.g (16 + 3)) = none
    ∧ (s.held s.cur 3).1 < portLimit s.cur
    ∧ (∀ c ∈ (s.myCore.port 2).cmds, c.ctx ≠ s.cur.ctx.val)
    ∧ (∃ c ∈ ((carS userX [(2, { cmds := [cmdOf 0 0 0 0 .engine .queued] })]).myCore.port 2).cmds, c.ctx = s.cur.ctx.val) := by
  refine ⟨rfl, ?_⟩
  decide
/-- One row tile due at the carrel of cluster 0. -/
def cBmv : Command := cmdOf 0x400000 0 0x3FFC0 0 (.bmv 0x200000 0x200000 2 0 0 0) .started
def turnS : State := { carS userX [(2, { cmds := [cBmv] })] with event := .carrelTurn ⟨0, 0⟩ }
def turnU : State := ((turnS.setCluster ⟨0, 0⟩ { turnS.cluster ⟨0, 0⟩ with carrelLast := k0.key }).translate k0 0 0x400000 false).1
theorem wit_CarrelTurn : turnS.event = .carrelTurn ⟨0, 0⟩ ∧ turnS.bmvsDue ⟨0, 0⟩ = [(k0.key, 7)]
    ∧ turnS.Started k0 2 cBmv ∧ cBmv.kind = .bmv 0x200000 0x200000 2 0 0 0 ∧ cBmv.xpois = false
    ∧ (turnS.cluster ⟨0, 0⟩).vaultFailed = false ∧ cBmv.w2.toNat / 2 ^ 18 % 2 ^ 8 = 0
    ∧ ((turnS.setCluster ⟨0, 0⟩ { turnS.cluster ⟨0, 0⟩ with carrelLast := k0.key }).translate k0 cBmv.region cBmv.w0.toNat
        false).2 = .ok 0x200000 carPage
    ∧ carPage.allows true false false cBmv.sup = true ∧ turnU.Quiet ∧ (15 : Nat) < 16 :=
  ⟨rfl, by decide, ⟨by decide, by decide⟩, rfl, rfl, by decide, by decide, by decide, by decide,
    ⟨by decide, by decide, by decide, by decide⟩, by decide⟩
/-- Region 0 at step 5 with its area at offset 0x10000 and slots for blocks; block 9 as an entry from `tag`. -/
def dirE (tag len run : Nat) : DirEntry := ⟨0, 9, tag, 3, len, 64, run, 0⟩
def dirS (kind : CmdKind) (stp : Nat) (d : List DirEntry) : State :=
  { (engS 3 (cmdOf (word (9 * 2 ^ 32 + stp * 2 ^ 16)) 0x100 0x3FFC0 0 kind .started) (.directoryOperation k0 7)).regPut 0 19
      (5 * 2 ^ 48 + 16 * 2 ^ 35 + 1) with dies := [(0, { dir := d })] }
def dirC (kind : CmdKind) (stp : Nat) : Command := cmdOf (word (9 * 2 ^ 32 + stp * 2 ^ 16)) 0x100 0x3FFC0 0 kind .started
/-- The same with an input that differs from the stored reference. -/
def dirFar : State := (dirS (.pchk 0 4) 5 [dirE 4 16 0]).poke (localLoc k0 0x100) [0, 0, 0x80, 0x3F] false
theorem wit_DirectoryOperations :
    (dirS .prec 5 [dirE 4 16 0]).Quiet ∧ (dirS .prec 5 [dirE 4 16 0]).Started k0 3 (dirC .prec 5)
    ∧ (dirS .prec 5 [dirE 4 16 0]).palStep ((dirS .prec 5 [dirE 4 16 0]).palRegion 0) = 5
    ∧ (dirC .prec 6).w0.toNat / 2 ^ 16 % 2 ^ 16 ≠ 5 ∧ (dirC .prec 5).w0.toNat / 2 ^ 16 % 2 ^ 16 = 5
    ∧ ((dirS .prec 5 [dirE 4 16 0]).die 0).entry 0 9 = some (dirE 4 16 0)
    ∧ apart ((dirS .prec 5 [dirE 4 16 0]).regLoc 0 19) 8 ((dirS .prec 5 [dirE 4 16 0]).palRef 0 0 3) 32768
    ∧ ((dirS (.pchk 0 4) 5 []).die 0).entry 0 9 = none
    ∧ (5 + 65536 - 5) % 65536 = 0 ∧ 32768 ≤ (5 + 65536 - 32773) % 65536 ∧ 0 < (5 + 65536 - 4) % 65536
    ∧ (5 + 65536 - 4) % 65536 < 32768 ∧ (dirE 4 16 0).len = 64 / 4 ∧ (dirE 4 16 0).rlen = 64 ∧ (dirE 4 16 3).run < 4
    ∧ palPass 0x3F800000 (palSums (fwords 16 ((dirS (.pchk 0 4) 5 [dirE 4 16 0]).bytes (localLoc k0 0x100) 64))
        (fwords 16 ((dirS (.pchk 0 4) 5 [dirE 4 16 0]).bytes ((dirS (.pchk 0 4) 5 [dirE 4 16 0]).palRef 0 0 3) 64)) 0 0).1 0 = true
    ∧ palPass 0 (palSums (fwords 16 (dirFar.bytes (localLoc k0 0x100) 64)) (fwords 16 (dirFar.bytes (dirFar.palRef 0 0 3) 64))
        0 0).1 0 = false
    ∧ userS.Clean [1, 2] [] ∧ 3 < (userS.g 1).toNat ∧ (userS.g 2).toNat ≤ 3 := by
  refine ⟨⟨rfl, by decide, by decide, by decide⟩,
    ⟨by decide, by decide⟩, by decide, by decide, by decide, by decide, ?_, by decide, by decide, by decide, by decide, by decide,
    by decide, by decide, by decide, by decide +kernel, by decide +kernel, rfl, by decide, by decide⟩
  unfold apart
  decide

/-! Regions: region 0 valid with at most 5 tasks, one of them live, and one armed task a cluster; a cluster that takes tasks of
domain 0 and kind `false`. -/

def tree (s : State) : State := ((s.regPut 0 0 (2 ^ 63)).regPut 0 13 (5 + 2 ^ 32)).regPut 0 14 1
theorem regPut_clusters_nil {s : State} (h : s.clusters = []) (n k v : Nat) : (s.regPut n k v).clusters = [] := by
  have e : ∀ l, tget none (s.cluster l).lines = fun _ => none := fun l => by simp [State.cluster, h]; rfl
  simp only [State.regPut, State.regMark]
  split
  · exact h
  · rw [e]; exact h
theorem tree_clusters_nil {s : State} (h : s.clusters = []) : (tree s).clusters = [] :=
  regPut_clusters_nil (regPut_clusters_nil (regPut_clusters_nil h _ _ _) _ _ _) _ _ _
/-- The same with the region at TMAX. -/
def crowd (s : State) : State := ((s.regPut 0 0 (2 ^ 63)).regPut 0 13 (1 + 2 ^ 32)).regPut 0 14 1
/-- A cluster with the pressure and queue given. -/
def openCl (q : List QEntry) (sum : Nat) : Cluster := { cw := [(cwSTAY, 10), (cwPDMASK, 1), (cwLOW, 8)], queue := q, sum := sum }
/-- A slot with an entry and a control word in g1 and g2, and SPTRIG. -/
def spX (e ctl trig : Word) : Ctx := { task := some task0, g := [(1, e), (2, ctl)], cw := [(cwSPTRIG, trig)] }
def spS (e ctl trig : Word) (cl : Cluster) (k : Core) : State :=
  tree { inCtx c0 (spX e ctl trig) with clusters := [(0, cl)], cores := [(0, k)] }
/-- A full send queue of requests. -/
def stuffed : Core := { sendReq := List.replicate 16 (.spawn plainTask) }
/-- An armed entry of region 0 for counter 0 of core 0. -/
def armedE (cat : Nat) : QEntry :=
  ⟨{ plainTask with typ := 1, cat := cat, cost := 1, trig := localLoc k0 0x80000, target := 3 }, 0, 0, 0, 0, 0⟩
def sp0 : State := spS 0x1000 1 0x80000 (openCl [] 0) {}
theorem wit_Spawns : sp0.Clean ([1, 2] ++ argRegs) [] ∧ (sp0.g 1).toNat % 4 = 0 ∧ (sp0.g 2).toNat % 256 ≠ 0
    ∧ (sp0.g 2).toNat / 2 ^ 9 % 2 ^ 7 = 0 ∧ (sp0.g 2).toNat / 2 ^ 22 % 2 ^ 10 = 0 ∧ (sp0.g 2).toNat / 2 ^ 9 % 2 ^ 21 = 0
    ∧ sp0.tasksFull = false ∧ sp0.verdict ⟨0, 0⟩ (sp0.spawnMsg 0 (sp0.g 1) (sp0.g 2) 0 0) = .stay
    ∧ ((spS 0x1002 1 0 (openCl [] 0) {}).g 1).toNat % 4 ≠ 0 ∧ ((spS 0x1000 0x100 0 (openCl [] 0) {}).g 2).toNat % 256 = 0
    ∧ ((spS 0x1000 0x8001 0 (openCl [] 0) {}).g 2).toNat / 2 ^ 9 % 2 ^ 7 ≠ 0
    ∧ (crowd (inCtx c0 (spX 0x1000 1 0x80000))).tasksFull = true :=
  ⟨rfl, by decide, by decide, by decide, by decide, by decide, by decide, by decide, by decide, by decide, by decide, by decide⟩
theorem wit_Spawns_elsewhere :
    (spS 0x1000 0x101 0 (openCl [] 10) {}).verdict ⟨0, 0⟩ ((spS 0x1000 0x101 0 (openCl [] 10) {}).spawnMsg 0 0x1000 0x101 0 0) ≠ .stay
    ∧ (spS 0x1000 0x101 0 (openCl [] 10) {}).requestsFull = false
    ∧ (spS 0x1000 0x101 0 (openCl [] 10) stuffed).requestsFull = true
    ∧ sp0.counterPa 0 = none ∧ sp0.counterPa 0x80002 = none ∧ sp0.counterPa 0x80000 = some (localLoc k0 0x80000)
    ∧ sp0.counterPa (winA - 8 + 0x800FC) = some (localLoc k5 0x800FC) ∧ paCluster (localLoc k5 0x800FC) = ⟨0, 2⟩
    ∧ sp0.counterPa (farA - 8 + 0x80000) = some (2 ^ 45 + localLoc k5 0x80000)
    ∧ paDev (2 ^ 45 + localLoc k5 0x80000) ≠ sp0.dev
    ∧ paDev (localLoc k0 0x80000) = sp0.dev ∧ paCluster (localLoc k0 0x80000) = ⟨0, 0⟩
    ∧ (sp0.cluster ⟨0, 0⟩).armedOf 0 = 0 ∧ sp0.budgetArm 0 = 1 ∧ (openCl [armedE 1] 0).armedOf 0 = 1
    ∧ (sp0.cluster ⟨0, 0⟩).armed.length < 128 ∧ sp0.regionOf sp0.cur = 0 := by
  decide
/-- SPAWNAT of a core given by an address, COST 1. -/
def sat (pa : Nat) : State := spS 0x1000 (word (pa + 1)) 0 (openCl [] 0) {}
theorem wit_Spawns_at : (∀ i pa m g, (sat 0).my.wait ≠ .spawnat i pa m g) ∧ (sat (localLoc k0 0)).destOk (word (localLoc k0 0 + 1)) = true
    ∧ (sat 0).destOk 1 = false ∧ paDev (destPa (word (localLoc k0 0 + 1))) = (sat 0).dev
    ∧ paCluster (destPa (word (localLoc k0 0 + 1))) = (sat 0).cur.core.cluster ∧ (sat 0).tasksFull = false
    ∧ (sat 0).destOk (word (localLoc k5 0 + 1)) = true
    ∧ paCluster (destPa (word (localLoc k5 0 + 1))) ≠ (sat 0).cur.core.cluster
    ∧ (sat 0).destOk (word (2 ^ 45 + localLoc k0 0 + 1)) = true
    ∧ paDev (destPa (word (2 ^ 45 + localLoc k0 0 + 1))) ≠ (sat 0).dev :=
  ⟨fun _ _ _ _ => by simp [sat, spS, tree, State.my, State.ctx, inCtx, State.regPut, State.pokeD, State.poke, tget, spX], by decide, by decide,
    by decide, by decide, by decide, by decide, by decide, by decide, by decide⟩
/-- A context of core 0 that waits for a SPAWNAT of core 0, and cluster 0 with some slots taken and some entries. -/
def satX : Ctx := { userX with wait := .spawnat 9 (localLoc k0 0) plainTask 5 }
def satS (taken : List Nat) (q : List QEntry) : State :=
  { tree { inCtx c0 satX with ctxs := (0, satX) :: taken.map (fun n => (n, userX)), clusters := [(0, openCl q 0)] } with
    event := .spawnatOutcome k0 c0 9 plainTask }
theorem wit_SpawnatOutcome : (satS [] []).event = .spawnatOutcome k0 c0 9 plainTask ∧ c0.isHandler = false
    ∧ ((satS [] []).ctx c0).wait = .spawnat 9 (localLoc k0 0) plainTask 5 ∧ paDev (localLoc k0 0) = (satS [] []).dev
    ∧ ((satS [] []).core k0).failed = false ∧ ((satS [] []).cluster ⟨0, 0⟩).failed = false
    ∧ ((satS [] []).cluster ⟨0, 0⟩).closed = false ∧ (satS [] []).belowSlots ⟨0, 0⟩ plainTask.region = true
    ∧ (satS [] []).plat.stopped.getLsbD plainTask.colour = false
    ∧ (satS [] []).freeSlots k0 = [⟨k0, 1⟩, ⟨k0, 2⟩, ⟨k0, 3⟩] ∧ (⟨k0, 1⟩ : CtxId) ≠ c0
    ∧ (satS [1, 2, 3] []).freeSlots k0 = [] ∧ ((satS [1, 2, 3] []).cluster ⟨0, 0⟩).queue.length < 256
    ∧ ((satX.cwv cwTSTAT).getLsbD 2) = false := by
  decide
theorem wit_SpawnatOutcome_full : 256 ≤ ((satS [1, 2, 3] (List.replicate 256 (armedE 1))).cluster ⟨0, 0⟩).queue.length :=
  Nat.le_of_eq (List.length_replicate ..).symm
def exitX (inl : Word) : Ctx := { userX with cw := [(cwTSTAT, inl)] }
/-- Supervisor mode, a catalogue number in g1 and a counter's address in g2, and armed entries of counter 0. -/
def tcS (g1 g2 : Word) : State :=
  { tree { inCtx c0 { supX with g := [(1, g1), (2, g2)] } with clusters := [(0, openCl [armedE 1, armedE 2] 0)] } with
    event := .tfatal c0 }
theorem wit_TaskEnds : (inCtx c0 (exitX 4)).InSlot ∧ (inCtx c0 (exitX 4)).my.task = some task0
    ∧ (inCtx c0 (exitX 4)).my.wait = .none ∧ ((inCtx c0 (exitX 4)).my.cwv cwTSTAT).getLsbD 2 = true
    ∧ ((inCtx c0 (exitX 3)).my.cwv cwTSTAT).getLsbD 2 = false
    ∧ ((inCtx c0 (exitX 3)).regEff task0.msg.region 20).getLsbD 63 = false
    ∧ smem task0.msg.cat (inCtx c0 (exitX 3)).plat.faultHandlers = false ∧ ¬ handS.InSlot
    ∧ (tcS 0 0x80000).event = .tfatal c0 ∧ c0.isHandler = false ∧ ((tcS 0 0x80000).ctx c0).task ≠ none
    ∧ userS.sup userS.cur = false ∧ (tcS 0 0x80000).sup (tcS 0 0x80000).cur = true ∧ (tcS 0 0x80000).Clean [1, 2] []
    ∧ (tcS 0 0x80000).counterPa ((tcS 0 0x80000).g 2) = some (localLoc k0 0x80000)
    ∧ (tcS 0 1).counterPa ((tcS 0 1).g 2) = none ∧ ((tcS 2 0x80000).cluster ⟨0, 0⟩).rings = []
    ∧ paDev (localLoc k0 0x80000) = (tcS 2 0x80000).dev ∧ (tcS 2 0x80000).inSubtree 0 0 = true :=
  ⟨rfl, by decide, by decide, by decide, by decide, by decide, by decide, (Bool.noConfusion : ¬ (true = false)), rfl, rfl, by decide,
    by decide, by decide, rfl, by decide, by decide, by decide, by decide, by decide⟩
/-- RGRD and RGWR operands: a value in g3, the region in g1, the doubleword in g2. -/
def rgS (v r k : Word) : State := tree (inCtx c0 { supX with g := [(1, r), (2, k), (3, v)] })
/-- A valid child of region 0 that is as deep as a region may be, and a task of it. -/
def deep : State :=
  (rgS 0x8000000000007005 5 0).regPut 7 0 (2 ^ 63 + 7 * 2 ^ 24)
theorem wit_RegionInstructions : (rgS 0 0 0).Clean [3, 1, 2] [] ∧ (rgS 0 0 0).sup c0 = true ∧ userS.sup c0 = false
    ∧ (rgS 0 4095 0).inSubtree 0 4095 = true ∧ 4095 < ((rgS 0 4096 0).g 1).toNat ∧ 31 < ((rgS 0 0 32).g 2).toNat
    ∧ (rgS 0 5 1).regValid 5 = false ∧ (rgS 0 0 31).regValid 0 = true
    ∧ (rgS 0xFF00FFFFFF 0 13).g 3 &&& ~~~(BitVec.ofNat 64 (regionBits 13)) = 0
    ∧ (rgS 0x1000000 0 13).g 3 &&& ~~~(BitVec.ofNat 64 (regionBits 13)) ≠ 0
    ∧ (rgS 0 0 31).g 3 &&& ~~~(BitVec.ofNat 64 (regionBits 31)) = 0
    ∧ ((rgS 0x8000000000000005 5 0).g 3).getLsbD 63 = true
    ∧ (rgS 0x8000000000000005 5 0).g 3 &&& ~~~(0x8000000007FFFFFF : Word) = 0
    ∧ (rgS 0x8000000000000005 5 0).regDepth 0 ≤ 6 ∧ deep.regValid 7 = true ∧ 6 < deep.regDepth 7
    ∧ 191 < ((rgS 0 192 0).g 1).toNat ∧ ((rgS 0 191 4).g 1).toNat ≤ 191 ∧ ((rgS 0 191 4).g 2).toNat ≤ 4
    ∧ 4 < ((rgS 0 191 5).g 2).toNat := by
  refine ⟨rfl, ?_⟩
  decide
/-- A task of region 5 at a number outside its subtree. -/
theorem wit_RegionInstructions_outside :
    let x : Ctx := { supX with task := some { task0 with msg := { plainTask with region := 5 } }, g := [(1, 0)] }
    (tree (inCtx c0 x)).inSubtree ((tree (inCtx c0 x)).regionOf c0) ((tree (inCtx c0 x)).g 1).toNat = false := by decide

/-! Placement: die 0 with the fields given, clusters of domain 0; region 0 is at (64 KiB) offset 0 of DRAM. -/

def msgA : TaskMsg := { plainTask with cost := 1, hops := 3 }
/-- Cluster 0 with the pressure given, cluster 1 open and idle, and a field of 0 at cluster 1 or at the up port. -/
def plS (sum : Nat) (flds : Table (List Nat)) (up : Table Nat) (m : TaskMsg) : State :=
  { tree userS with clusters := [(0, openCl [] sum), (1, openCl [] 0)], dies := [(0, { fields := flds, up := up })],
                    event := .taskPlacement ⟨0, 0⟩ m 0 }
theorem wit_Placement : (plS 9 [] [] msgA).event = .taskPlacement ⟨0, 0⟩ msgA 0 ∧ (plS 9 [] [] msgA).verdict ⟨0, 0⟩ msgA = .stay
    ∧ ((plS 9 [] [] msgA).cluster ⟨0, 0⟩).queue.length < 256 ∧ ((plS 9 [] [] msgA).ring ⟨0, 0⟩ 0).held = 0
    ∧ (plS 10 [(1, List.replicate 16 0)] [] msgA).verdict ⟨0, 0⟩ msgA = .mesh 1
    ∧ (plS 10 [] [(0, 0)] msgA).verdict ⟨0, 0⟩ msgA = .up
    ∧ (plS 10 [] [] { msgA with kind := true }).verdict ⟨0, 0⟩ { msgA with kind := true } = .fallback
    ∧ (plS 10 [] [] { msgA with kind := true }).fallbackOf 0 { msgA with kind := true, hcls := 1 } = some ⟨0, 1⟩
    ∧ (plS 10 [] [] { msgA with kind := true }).fallbackOf 0 { msgA with kind := true } = some ⟨0, 1⟩
    ∧ msgA.typ ≠ 2 ∧ { msgA with typ := 2 }.typ = 2 ∧ ((plS 9 [] [] msgA).cluster ⟨0, 0⟩).placed ≠ some (plS 9 [] [] msgA).time
    ∧ ({ plS 9 [] [] msgA with clusters := [(0, { openCl [] 9 with placed := some 0 })] }.cluster ⟨0, 0⟩).placed
      = some (plS 9 [] [] msgA).time := by decide
/-- A task from die 0 at the hub, die 1 with a low cluster 1; a device reported above. -/
def msgB : TaskMsg := { msgA with kind := true }
def hubS (up : Table Nat) : State :=
  { tree userS with clusters := [(256, openCl [] 0), (257, openCl [] 0)], dies := [(1, { low := [(1, some 1)] })],
                    event := .switchForward (some 0) msgB false, plat := { userS.plat with upDev := up } }
theorem wit_Placement_hub : (hubS []).event = .switchForward (some 0) msgB false ∧ (0 : Fin 4) ≠ 1
    ∧ (hubS []).dieLow 1 (2 * (hubS []).schedDom msgB.region + 1) = true
    ∧ (∀ z : Fin 4, z ≠ 0 → z < 1 → (hubS []).dieLow z 1 = false) ∧ tget none ((hubS []).die 1).low 1 = some 1
    ∧ smem msgB.cat (hubS []).plat.faultHandlers = false
    ∧ (∀ z : Fin 4, z ≠ 0 → { hubS [(1, 62)] with dies := [] }.dieLow z 1 = false)
    ∧ tget 63 { hubS [(1, 62)] with dies := [] }.plat.upDev 1 < 63 := by decide
def armS (q : List QEntry) (e : Event) : State := { tree userS with clusters := [(0, openCl q 0)], event := e }
theorem wit_Placement_armed : (armS [] (.armedTaskArrival ⟨0, 0⟩ (armedE 1).msg)).event = .armedTaskArrival ⟨0, 0⟩ (armedE 1).msg
    ∧ ((armS [] .fieldTick).cluster ⟨0, 0⟩).failed = false ∧ ((armS [] .fieldTick).cluster ⟨0, 0⟩).queue.length < 256
    ∧ ((armS [] .fieldTick).cluster ⟨0, 0⟩).armed.length < 128 ∧ (armedE 1).msg.cat / 2 ^ 37 = (armS [] .fieldTick).dev
    ∧ (2 ^ 37) / 2 ^ 37 ≠ (armS [] .fieldTick).dev ∧ (armS [] .fieldTick).regValid (armedE 1).msg.region = true
    ∧ (armS [armedE 1, armedE 2] (.armedRelease ⟨0, 0⟩ 2)).event = .armedRelease ⟨0, 0⟩ 2
    ∧ ((armS [armedE 1, armedE 2] (.armedRelease ⟨0, 0⟩ 2)).cluster ⟨0, 0⟩).queue = [armedE 1] ++ armedE 2 :: []
    ∧ (armedE 2).msg.typ = 1 ∧ (armedE 2).msg.cat = 2 ∧ (∀ f ∈ [armedE 1], ¬ (f.msg.typ = 1 ∧ f.msg.cat = 2))
    ∧ ((armS [armedE 1, armedE 2] .fieldTick).cluster ⟨0, 0⟩).rings = [] := by decide
def readyE : QEntry := ⟨msgA, 4, 0, 0, 0, 4⟩
theorem wit_DispatchSetsUp : (armS [readyE] (.dispatch ⟨0, 0⟩)).event = .dispatch ⟨0, 0⟩
    ∧ ((armS [readyE] .fieldTick).cluster ⟨0, 0⟩).dispatched ≠ some (armS [readyE] .fieldTick).time
    ∧ ((armS [readyE] .fieldTick).cluster ⟨0, 0⟩).queue = [readyE]
    ∧ ((armS [readyE] .fieldTick).cluster ⟨0, 0⟩).rings = [] ∧ readyE.msg.typ = 0
    ∧ (armS [readyE] .fieldTick).ready ⟨0, 0⟩ readyE = true
    ∧ (armS [readyE] .fieldTick).slotFor ⟨0, 0⟩ readyE = some ⟨⟨0, 0, 1⟩, 0⟩ ∧ readyE.msg.args.length = 6 := by
  decide +kernel
/-- A task that may be pre-empted; an entry of higher priority; a save area at DRAM offset 0x100000 with one record. -/
def lowT : Task := { task0 with preempt := true }
def preX : Ctx := { task := some lowT }
def saveS (c : Table Ctx) (q : List QEntry) (e : Event) : State :=
  { ((tree userS).regPut 0 10 0x100000).regPut 0 11 2 with ctxs := c, clusters := [(0, openCl q 0)], event := e }
def highE : QEntry := ⟨{ msgA with prio := 1 }, 0, 0, 0, 0, 0⟩
def savS : State := saveS [(0, preX)] [] (.slotSave c0)
theorem savS_quiet : savS.Quiet := ⟨rfl, by decide, by decide, by decide⟩
theorem wit_SlotsMove_saving : savS.event = .slotSave c0 ∧ c0.isHandler = false
    ∧ (savS.ctx c0).task = some lowT
    ∧ (savS.ctx c0).wait = .none
    ∧ (savS.ctx c0).frame = none ∧ (savS.ctx c0).suspended = false ∧ (0 < 1 ∧ 1 < 2 ^ 16) ∧ (savS.ctx c0).img = []
    ∧ savS.canSave c0 = true ∧ (savS.core k0).ports = []
    ∧ (savS.core k0).slice.owner ≠ some 0
    ∧ savS.saveFind 0 = some 1
    ∧ (savS.regEff 0 20).getLsbD 63 = false
    ∧ (savS.cluster ⟨0, 0⟩).queue.length < 256
    ∧ (savS.ring ⟨0, 0⟩ 0).held = 0
    ∧ (∀ j, j < 12 → (savS.ctx c0).cwv (cwECS + j) = 0)
 := by
  decide +kernel
/-- One core only of cluster 0 works, with its four slots taken. -/
def oneCore : Table Core := (upto 1 15).map (fun n => (n, { failed := true }))
def preS : State :=
  { saveS ((upto 0 4).map (fun n => (n, preX))) [highE] (.taskPreemption ⟨0, 0⟩) with cores := oneCore, time := 100000 }
theorem wit_SlotsMove_preempting : preS.event = .taskPreemption ⟨0, 0⟩ ∧ (preS.cluster ⟨0, 0⟩).saving = none
    ∧ preS.pressing ⟨0, 0⟩ = some 1
    ∧ preS.victimOf ((preS.running ⟨0, 0⟩).filter (fun e => e.2.preempt && decide (e.2.msg.prio < 1))) = some (c0, lowT)
    ∧ preS.saveFind lowT.msg.region ≠ none ∧ preS.roomToSave ⟨0, 0⟩ lowT.msg.region = true := by
  decide +kernel
def shipA : Shipment := ⟨0x2000, [(1, 7)], [], [], 0, [], msgA, 0, false⟩
def migX : Ctx := { userX with wait := .migrating }
def migS (q : Nat) : State :=
  { (tree { inCtx c0 migX with clusters := [(1, openCl [] 0)] }).regPut 0 13 (5 + 2 ^ 32 + q * 2 ^ 16) with
    event := .migrationArrival c0 0 ⟨0, 1⟩ shipA }
theorem wit_SlotsMove_migrating : (migS 0).event = .migrationArrival c0 (migS 0).dev ⟨0, 1⟩ shipA
    ∧ ((migS 0).ctx c0).wait = .migrating ∧ ((migS 0).ctx c0).task = some task0 ∧ (migS 0).regValid shipA.msg.region = true
    ∧ ((migS 0).cluster ⟨0, 1⟩).failed = false ∧ ((migS 0).cluster ⟨0, 1⟩).closed = false
    ∧ (migS 0).belowSlots ⟨0, 1⟩ shipA.msg.region = true ∧ (migS 0).bestSlot ⟨0, 1⟩ = some ⟨⟨0, 1, 0⟩, 0⟩
    ∧ (⟨⟨0, 1, 0⟩, 0⟩ : CtxId) ≠ c0 ∧ (migS 1).saveFind shipA.msg.region = none := by
  decide +kernel
/-- Where the region has one slot a cluster and a task of it runs there, none is free for another. -/
theorem wit_SlotsMove_full :
    let s := { migS 1 with ctxs := [(0, migX), (CtxId.key ⟨⟨0, 1, 0⟩, 0⟩, userX)] }
    s.belowSlots ⟨0, 1⟩ shipA.msg.region = false := by
  decide +kernel
/-- Cluster 0 with LOOP on, the target 80 and LMIN 2, LOW and STAY as given, and waits of 64 × w in sum over one task. -/
def loopCl (low w : Nat) : Cluster :=
  { cw := [(cwADAPT, word (2 ^ 63 + 80 * 2 ^ 32 + 2)), (cwLOW, word low), (cwSTAY, 9)], adaptN := 1, adaptSum := 64 * w }
def loopS (low w : Nat) : State := { userS with event := .adaptiveLoop ⟨0, 0⟩, clusters := [(0, loopCl low w)] }
theorem wit_Fields : (loopS 3 101).event = .adaptiveLoop ⟨0, 0⟩ ∧ ((loopS 3 101).cluster ⟨0, 0⟩).adaptN ≠ 0
    ∧ 2 ^ 63 ≤ (((loopS 3 101).cluster ⟨0, 0⟩).cwv cwADAPT).toNat
    ∧ ((((loopS 3 101).cluster ⟨0, 0⟩).cwv cwADAPT).toNat / 2 ^ 32 % 2 ^ 16) = 80 ∧ 5 * 80 < 4 * 101 ∧ 2 < 3
    ∧ 4 * 59 < 3 * 80 ∧ 8 < ((loopS 8 59).cluster ⟨0, 0⟩).stay ∧ 3 * 80 ≤ 4 * 60 ∧ 4 * 100 ≤ 5 * 80
    ∧ { userS with event := .fieldTick }.event = .fieldTick
    ∧ { userS with event := .summaries [(5, 7)] }.event = .summaries [(5, 7)] := by decide
def evS (e : Event) : State := { tree userS with event := e }
theorem wit_Failures : (evS (.clusterFailure ⟨0, 0⟩)).event = .clusterFailure ⟨0, 0⟩
    ∧ ((evS (.clusterFailure ⟨0, 0⟩)).cluster ⟨0, 0⟩).failed = false
    ∧ ({ evS (.clusterFailure ⟨0, 0⟩) with clusters := [(0, { failed := true })] }.cluster ⟨0, 0⟩).failed = true
    ∧ ((evS (.coreFailure k0)).core k0).failed = false ∧ (evS (.coreFailure k0)).event = .coreFailure k0
    ∧ ({ evS (.coreFailure k0) with cores := [(0, { failed := true })] }.core k0).failed = true
    ∧ (evS (.dieFailure 3)).event = .dieFailure 3 ∧ ((evS (.dieFailure 3)).die 3).failed = false
    ∧ (evS (.vaultFailure ⟨0, 0⟩)).event = .vaultFailure ⟨0, 0⟩
    ∧ ((evS (.vaultFailure ⟨0, 0⟩)).cluster ⟨0, 0⟩).vaultFailed = false
    ∧ ({ evS (.vaultFailure ⟨0, 0⟩) with clusters := [(0, { vaultFailed := true })] }.cluster ⟨0, 0⟩).vaultFailed = true := by
  decide

/-! Messages: an entry and a destination word in g1 and g2, SRPLY in the control words; cores with a handler table. -/

def sendX (e d rp : Word) : Ctx := { task := some task0, g := [(1, e), (2, d)], cw := [(cwSRPLY, rp)] }
def sendS (e d rp : Word) (k : Core) : State := { inCtx c0 (sendX e d rp) with cores := [(0, k)] }
/-- Core 0 by its address, alone and with a mask of cores 0 and 15. -/
def dst0 : Word := word (localLoc k0 0 + 3)
def dstM : Word := word (localLoc k0 0 + 0x8001 * 2 ^ 14)
theorem wit_Sends : (sendS 0x1000 dst0 0 {}).Clean ([1, 2] ++ argRegs) [] ∧ ((sendS 0x1002 dst0 0 {}).g 1).toNat % 4 ≠ 0
    ∧ ((sendS 0x1000 dst0 0 {}).g 1).toNat % 4 = 0 ∧ dst0.toNat / 2 ^ 3 % 2 ^ 11 = 0 ∧ dst0.toNat / 2 ^ 14 % 2 ^ 16 = 0
    ∧ (8 : Word).toNat / 2 ^ 3 % 2 ^ 11 ≠ 0 ∧ dstM.toNat / 2 ^ 14 % 2 ^ 16 ≠ 0 ∧ dstM.toNat / 2 ^ 30 % 2 ^ 4 = 0
    ∧ (0x8000000000000001 : Word).getLsbD 63 = true ∧ (0x8000000000000001 : Word).toNat % 2 ^ 6 ≠ 0
    ∧ (sendS 0 dst0 0 {}).destOk dst0 = true ∧ (sendS 0 dst0 0 {}).destOk dstM = true ∧ (sendS 0 0 0 {}).destOk 0 = false
    ∧ (sendS 0 dst0 0 {}).myCore.sendReq.length < 16 ∧ 16 ≤ (sendS 0 dst0 0 stuffed).myCore.sendReq.length
    ∧ (sendS 0 dst0 0 stuffed).InSlot ∧ ¬ { handS with cores := [(0, stuffed)] }.InSlot :=
  ⟨rfl, by decide, by decide, by decide, by decide, by decide, by decide, by decide, by decide, by decide, by decide, by decide,
    by decide, by decide, by decide, rfl, (Bool.noConfusion : ¬ (true = false))⟩
/-- A handler of a message that asked for a reply, or did not. -/
def askM (ra : Nat) : ActMsg := ⟨8, 0, 0, 0, 7, 0, 0x1000, [0, 0, 0, 0, 0, 0], ra, false, 0, 0, 0⟩
def repS (ra : Nat) (done : Bool) : State := inCtx h0 { handX with handled := some ⟨askM ra, done⟩ }
theorem wit_HandlerInstructions : userS.InSlot ∧ ¬ (repS 0x100 false).InSlot ∧ (repS 0x100 false).Clean argRegs []
    ∧ (repS 0 false).my.handled = some ⟨askM 0, false⟩ ∧ (repS 0x100 true).my.handled = some ⟨askM 0x100, true⟩
    ∧ (repS 0x100 false).my.handled = some ⟨askM 0x100, false⟩ ∧ (askM 0).raddr = 0 ∧ (askM 0x100).raddr ≠ 0
    ∧ (repS 0x100 false).myCore.sendReply.length < 16 ∧ (repS 0x100 false).my.wait = .none
    ∧ userS.sup userS.cur = false ∧ supS.sup supS.cur = true ∧ supS.Clean [1] [] ∧ supS.cur.ctx.val ≠ 4
    ∧ (repS 0x100 false).cur.ctx.val = 4 :=
  ⟨rfl, (Bool.noConfusion : ¬ (true = false)), rfl, by decide, by decide, by decide, by decide, by decide, by decide, by decide,
    by decide, by decide, rfl, by decide, by decide⟩
/-- A core that takes messages of class 0 with entries from 0x1000 to 0x1FFF. -/
def tabCore (low : Nat) : Core :=
  { cw := [(cwHTAB, word (2 ^ 63 + 2 ^ 62 + 0x2000 * 2 ^ 32 + 0x1000))], sendReq := [.msg (askM 0) [localLoc k0 0, localLoc k5 0]],
    sendReply := [.reply (askM (localLoc k5 0x3FFC0)) 5], inbox := List.replicate low ⟨askM 0, 0⟩ }
def msgS (low : Nat) (e : Event) : State := { userS with cores := [(0, tabCore low)], event := e }
theorem wit_MessageEvents : (msgS 0 (.sendQueueInjection k0 false)).event = .sendQueueInjection k0 false
    ∧ ((msgS 0 .fieldTick).core k0).sendReq = .msg (askM 0) [localLoc k0 0, localLoc k5 0] :: []
    ∧ (∀ pa ∈ [localLoc k0 0, localLoc k5 0], paDev pa = (msgS 0 .fieldTick).dev)
    ∧ ((msgS 0 .fieldTick).core k0).sendReply = .reply (askM (localLoc k5 0x3FFC0)) 5 :: []
    ∧ paDev (askM (localLoc k5 0x3FFC0)).raddr = (msgS 0 .fieldTick).dev
    ∧ (msgS 0 (.messageArrival k0 (askM 0))).event = .messageArrival k0 (askM 0)
    ∧ 2 ^ 63 ≤ (((msgS 0 .fieldTick).core k0).cwv (cwHTAB + 0)).toNat ∧ (askM 0).entry.toNat % 4 = 0
    ∧ (((msgS 0 .fieldTick).core k0).cwv (cwHTAB + 0)).toNat % 2 ^ 18 ≤ (askM 0).entry.toNat
    ∧ (askM 0).entry.toNat < (((msgS 0 .fieldTick).core k0).cwv (cwHTAB + 0)).toNat / 2 ^ 32 % 2 ^ 18
    ∧ (((msgS 0 .fieldTick).core k0).cwv (cwHTAB + 0)).toNat / 2 ^ 62 % 2 = 1
    ∧ ((msgS 27 .fieldTick).core k0).inbox.length ≤ 27 ∧ (msgS 27 .fieldTick).ringSlots k0 false = []
    ∧ ¬ (0x1000 ≤ ({ askM 0 with entry := 0xFFC } : ActMsg).entry.toNat)
    ∧ paOff (askM (localLoc k5 0x3FFC0)).raddr < 0x40000 ∧ (askM 0).payload.length = 6 ∧ (askM 0).tag < 2 ^ 16
    ∧ (askM 0).status < 2 ^ 8
    ∧ (msgS 0 (.replySink k5 (askM (localLoc k5 0x3FFC0)) 5)).event = .replySink k5 (askM (localLoc k5 0x3FFC0)) 5
    ∧ (msgS 0 (.atomicOperationResend k0 (askM 0))).event = .atomicOperationResend k0 (askM 0) := by
  decide
/-- A message of class 0 and an atomic operation message of F_ADD at local 0x3FFF8 with operand 5 in the inbox. -/
def inA : InMsg := ⟨askM 0, 3⟩
def addM : ActMsg := ⟨5, 0, 0, 0, 1, 0, 0x40003FFF8, [5, 0, 0, 0, 0, 0], 0, false, 0, 0, 0⟩
def boxS (e : InMsg) (c : Core) (ev : Event) : State :=
  { userS with cores := [(0, { c with inbox := [e] })], event := ev,
               plat := { userS.plat with sysOps := [⟨1, c0, 9, 0⟩] } }
theorem wit_Handlers : (boxS inA {} (.handlerStart k0 false)).event = .handlerStart k0 false
    ∧ ((boxS inA {} .fieldTick).core k0).spillSlots = [] ∧ ((boxS inA {} .fieldTick).ctx h0).handled = none
    ∧ ((boxS inA {} .fieldTick).core k0).waiting false = some inA ∧ inA.msg.payload.length = 6 ∧ inA.msg.typ ≠ 5
    ∧ ((boxS ⟨{ askM 0 with typ := 9 }, 3⟩ {} .fieldTick).core k0).waiting true = some ⟨{ askM 0 with typ := 9 }, 3⟩
    ∧ ((boxS inA { winOpen := true } .fieldTick).core k0).winOpen = true ∧ ((boxS inA {} .fieldTick).core k0).winOpen = false
    ∧ ((boxS ⟨addM, 3⟩ {} .fieldTick).core k0).waiting false = some ⟨addM, 3⟩ ∧ addM.typ = 5
    ∧ ((boxS inA { winOpen := true } .fieldTick).core k0).winLeft = 0
    ∧ ((boxS inA { winOpen := true, winLeft := 1 } .fieldTick).core k0).winLeft ≠ 0
    ∧ (boxS inA {} (.maskedWindowClose k0)).event = .maskedWindowClose k0
    ∧ (boxS inA {} (.atomicOperationMessage k0)).event = .atomicOperationMessage k0
    ∧ (boxS inA {} .fieldTick).plat.sysOps = ⟨1, c0, 9, 0⟩ :: [] ∧ addM.tag = 1 ∧ (boxS inA {} .fieldTick).dev = 0
    ∧ (amoOfCode (addM.entry.toNat / 2 ^ 32 % 2 ^ 5)).isSome = true ∧ (boxS inA {} .fieldTick).colourOk k0 addM.colour = true
    ∧ addM.entry.toNat % 2 ^ 30 < 0x40000
    ∧ (boxS inA {} .fieldTick).poisAt (localLoc k0 (addM.entry.toNat % 2 ^ 30)) 8 = false := by
  decide

/-! The Manifest: cluster 0 with a channel to device 1, region 0 allowed two channels; receive state 0 of die 0. -/

def chan (flags : List OutFlag) (scnt rel : Nat) : Channel := ⟨0, 1, 0, 5, scnt, 0, false, rel, 4096, 1, flags, none, []⟩
def flagA (id count : Nat) : Flag := ⟨id, 2 ^ 45 + localLoc k0 0x100, word count, none, count⟩
/-- MCHSEL and three operands; SCHMAX is 2. -/
def chX (sel a b g : Word) : Ctx := { task := some task0, g := [(1, a), (2, b), (3, g)], cw := [(cwMCHSEL, sel)] }
def chS (sel a b : Word) (c : Table (Option Channel)) (k : Core) : State :=
  { ((tree userS).regPut 0 18 (2 * 2 ^ 48)) with ctxs := [(0, chX sel a b 7)], cores := [(0, k)], clusters := [(0, { channels := c })] }
/-- A request for die 3 of device 1, and the request for a device there is not. -/
def die3 : Word := word (2 ^ 45 + 3 * 2 ^ 43)
def ch0 : State := chS 0x8000000000000000 die3 0 [] {}
def ch1 (a : Word) (x : Channel) : State := chS 0x8000000000000000 a 0 [(0, some x)] {}
theorem wit_ChannelInstructions : ch0.Clean [1] [] ∧ ch0.dlim ≤ (word (2047 * 2 ^ 45)).toNat / 2 ^ 45 % 2 ^ 11
    ∧ die3.toNat / 2 ^ 45 % 2 ^ 11 = 1 ∧ 1 < ch0.dlim ∧ 1 ≠ ch0.dev ∧ (0 : Word).toNat / 2 ^ 45 % 2 ^ 11 = ch0.dev
    ∧ (ch0.regEff 0 18).toNat / 2 ^ 48 % 2 ^ 5 = 2 ∧ ch0.regionOf ch0.cur = 0
    ∧ ch0.channel ⟨0, 0⟩ 0 = none ∧ (ch1 die3 (chan [] 0 0)).channel ⟨0, 0⟩ 0 ≠ none
    ∧ (ch1 die3 (chan [] 0 0)).channel ⟨0, 0⟩ 1 = none ∧ ch0.mayIssue ch0.cur 1 = true
    ∧ ({ ch0 with cores := [(0, mapCore 60)] }.mayIssue ch0.cur 1) = false
    ∧ (ch1 0 (chan [] 3 3)).channel ⟨0, 0⟩ 0 = some (chan [] 3 3) ∧ (chan [] 3 3).opening = none ∧ (chan [] 3 3).scnt = (chan [] 3 3).lastRel
    ∧ (chan [⟨flagA 1 3, 1⟩] 3 3).flags ≠ [] ∧ (chan [] 3 2).scnt ≠ (chan [] 3 2).lastRel := by
  refine ⟨rfl, ?_⟩
  decide +kernel
/-- All 16 channels open for another region; and two channels of the region open. -/
def chAll : State :=
  { ch0 with clusters := [(0, { channels := (upto 0 16).map (fun n => (n, some { chan [] 0 0 with region := 9 })) })] }
theorem wit_ChannelInstructions_full : (∀ n, n < 16 → chAll.channel ⟨0, 0⟩ n ≠ none)
    ∧ ((chAll.cluster ⟨0, 0⟩).channels.filter (fun e => match e.2 with
        | some x => x.region == 0
        | none => false)).length = 0
    ∧ 2 ≤ ((chS 0 die3 0 [(0, some (chan [] 0 0)), (1, some (chan [] 0 0))] {}).myCluster.channels.filter (fun e => match e.2 with
        | some x => x.region == 0
        | none => false)).length := by
  decide
/-- The flag's address in the window at device 1, an address to be translated, a counter of device 1. -/
def flagVa : Word := word (255 * 2 ^ 56 + 2 ^ 45 + localLoc k0 0x3FFF8)
def flagCtr : Word := word (255 * 2 ^ 56 + 2 ^ 45 + localLoc k0 0x800FC)
def rel (a : Word) (b : Word) (fl : List OutFlag) : State := chS 0x8000000000000000 a b [(0, some (chan fl 3 2))] {}
def fourFlags : List OutFlag := [⟨flagA 1 3, 1⟩, ⟨flagA 2 3, 1⟩, ⟨flagA 3 3, 1⟩, ⟨flagA 4 3, 1⟩]
theorem wit_FlagRelease : (rel flagVa 0 []).Clean [3, 1, 2] [] ∧ (rel flagVa 0 []).channel ⟨0, 0⟩ 0 = some (chan [] 3 2)
    ∧ ((rel flagVa 0 []).my.cwv cwMCHSEL).getLsbD 63 = true ∧ (chan [] 3 2).opening = none
    ∧ ((chS 0 flagVa 0 [] {}).my.cwv cwMCHSEL).getLsbD 63 = false
    ∧ flagVa.toNat % 8 = 0 ∧ (4 : Word).toNat % 8 ≠ 0 ∧ flagCtr.toNat % 4 = 0 ∧ (2 : Word).toNat % 4 ≠ 0
    ∧ (rel flagVa 0 []).place flagVa = .win (2 ^ 45 + localLoc k0 0x3FFF8)
    ∧ areaOf (paOff (2 ^ 45 + localLoc k0 0x3FFF8)) = .mem ∧ paDev (2 ^ 45 + localLoc k0 0x3FFF8) = 1
    ∧ paDie (2 ^ 45 + localLoc k0 0x3FFF8) = 0
    ∧ (rel winA 0 []).place winA = .win (localLoc k5 8) ∧ paDev (localLoc k5 8) ≠ 1
    ∧ (rel 8 0 []).place 8 ≠ .xl ∧ (rel 0x200000 0 []).place 0x200000 = .xl
    ∧ (rel flagVa flagCtr []).place flagCtr = .win (2 ^ 45 + localLoc k0 0x800FC)
    ∧ areaOf (paOff (2 ^ 45 + localLoc k0 0x800FC)) = .ctrs ∧ (rel flagVa flagVa []).place flagVa = .win (2 ^ 45 + localLoc k0 0x3FFF8)
    ∧ (rel flagVa 0 []).engineOn 0 (chan [] 3 2) = false ∧ 4 ≤ fourFlags.length
    ∧ ((rel 0x200000 0 []).translate k0 0 0x200000 false).2 = .absent := by
  refine ⟨rfl, ?_⟩
  decide +kernel
/-- A page of device 1 and one of this device. -/
def farPage : TlbEntry := ⟨0, 1, 3, 2 ^ 45, 0x4F, 0⟩
theorem wit_FlagRelease_translated :
    let s := chS 0x8000000000000000 0x40000040 0 [(0, some (chan [] 3 2))] { dtlb := [farPage] }
    let t := chS 0x8000000000000000 0x40000040 0 [(0, some (chan [] 3 2))] (mapCore 0)
    (s.translate k0 0 0x40000040 false).2 = .ok (2 ^ 45 + 0x40) farPage
    ∧ farPage.allows false true false ((s.translate k0 0 0x40000040 false).1.sup c0) = true
    ∧ (s.translate k0 0 0x40000040 false).1.dramOk (2 ^ 45 + 0x40) = true ∧ paDev (2 ^ 45 + 0x40) = 1 ∧ paDie (2 ^ 45 + 0x40) = 0
    ∧ (s.translate k0 0 0x40000040 false).1.engineOn 0 (chan [] 3 2) = false
    ∧ (t.translate k0 0 0x40000040 false).2 = .ok 0x40 ⟨0, 1, 3, 0, 0x4F, 0⟩ ∧ paDev 0x40 ≠ 1 := by
  decide
/-- RCHMAX 2 at the receiver; a receive state. -/
def rstate (base : Nat) (win : BitVec 1024) (pend : List Nat) (held : List Flag) (last : List (Nat × Bool)) : RecvState :=
  ⟨1, ⟨0, 3⟩, 2, 9, 0, base, win, pend, held, last, 4, 0, 4096, 1⟩
def hubR (e : Event) (rs : Table (Option RecvState)) : State :=
  { (tree userS).regPut 0 18 (2 * 2 ^ 32) with event := e, dies := [(0, { recv := rs })] }
def openE (d : Fin 4) (r : Nat) : Event := .openRequest 1 d ⟨0, 3⟩ 2 9 r 10 0
def opS : State :=
  { ch0 with clusters := [(0, { channels := [(2, some { chan [] 0 0 with opening := some (c0, 9, 5) })] })],
             cores := [(0, { outs := [⟨9, 0, true, .g 5 8 false, true, false, false, 0, 0, 0, 0⟩] })],
             event := .openReply ⟨0, 0⟩ 2 9 511 false false }
theorem wit_ChannelEvents : (hubR (openE 0 0) []).event = .openRequest 1 0 ⟨0, 3⟩ 2 9 0 10 0 ∧ ((hubR (openE 0 0) []).die 0).failed = false
    ∧ ({ hubR (openE 0 0) [] with dies := [(0, { failed := true })] }.die 0).failed = true
    ∧ (hubR (openE 0 5) []).regValid 5 = false ∧ (hubR (openE 0 0) []).regValid 0 = true
    ∧ ((hubR (openE 0 0) []).regEff 0 18).toNat / 2 ^ 32 % 2 ^ 10 = 2 ∧ ((hubR (openE 0 0) []).die 0).states = []
    ∧ (hubR (openE 0 0) []).recv 0 0 = none
    ∧ ((hubR (openE 0 0) [(0, some (rstate 0 0 [] [] [])), (1, some (rstate 0 0 [] [] []))]).die 0).states.length = 2
    ∧ opS.event = .openReply ⟨0, 0⟩ 2 9 511 false false
    ∧ opS.channel ⟨0, 0⟩ 2 = some { chan [] 0 0 with opening := some (c0, 9, 5) }
    ∧ opS.findOut c0 9 = some ⟨9, 0, true, .g 5 8 false, true, false, false, 0, 0, 0, 0⟩ ∧ (511 : Nat) < 2 ^ 40
    ∧ { opS with event := .openReply ⟨0, 0⟩ 2 8 4 true true }.event = .openReply ⟨0, 0⟩ 2 8 4 true true ∧ (8 : Nat) ≠ 9
    ∧ (hubR (.openClose 1 0 ⟨0, 3⟩ 2 9) [(0, some (rstate 0 0 [] [] []))]).event = .openClose 1 0 ⟨0, 3⟩ 2 9
    ∧ ((hubR (.openClose 1 0 ⟨0, 3⟩ 2 9) [(0, some (rstate 0 0 [] [] []))]).die 0).states = [(0, rstate 0 0 [] [] [])]
    ∧ (rstate 0 0 [] [] []).src = 1 ∧ (rstate 0 0 [] [] []).ch = 2 ∧ (rstate 0 0 [] [] []).req = 9 ∧ (9 : Nat) ≠ 10
    ∧ (hubR (.channelClose 0 0) [(0, some (rstate 0 0 [] [] []))]).event = .channelClose 0 0 := by
  decide +kernel
def cwS (seq pa : Nat) (x : RecvState) : State := hubR (.countedWriteArrival 1 0 0 seq pa 0 [1, 2, 3] 0 none) [(0, some x)]
/-- Core 5 of cluster 2 for another colour. -/
def shutS : State := { (cwS 0 0x40 (rstate 0 0 [] [] [])).regPut 0 2 (3 * 2 ^ 8) with cores := [(k5.key, { cw := [(cwLMCOL, 9)] })] }
theorem quiet_hubR (e : Event) (rs : Table (Option RecvState)) : (hubR e rs).Quiet := by
  have c : (hubR e rs).clusters = [] := regPut_clusters_nil (s := tree userS) (tree_clusters_nil rfl) 0 18 (2 * 2 ^ 32)
  have k : (hubR e rs).cores = [] := rfl
  exact ⟨rfl, by simp [k], by simp [c], by simp [c]⟩
theorem wit_CountedWrites : (cwS 65535 0x40 (rstate 65535 0 [] [] [])).event = .countedWriteArrival 1 0 0 65535 0x40 0 [1, 2, 3] 0 none
    ∧ (cwS 65535 0x40 (rstate 65535 0 [] [] [])).recv 0 0 = some (rstate 65535 0 [] [] [])
    ∧ (65535 + 65536 - 65535 % 65536) % 65536 = 0 ∧ 1024 ≤ (65534 + 65536 - 65535 % 65536) % 65536
    ∧ 1024 ≤ (1024 + 65536 - 0 % 65536) % 65536 ∧ (1 : BitVec 1024).getLsbD 0 = true ∧ (7 : Nat) ∈ [7]
    ∧ (1 : Nat) ≠ (cwS 0 0x40 (rstate 0 0 [] [] [])).dev ∧ paDev 0x40 = (cwS 0 0x40 (rstate 0 0 [] [] [])).dev
    ∧ (cwS 0 0x40 (rstate 0 0 [] [] [])).onDieOk (localLoc k5 0x3FFF8) = true
    ∧ (cwS 0 0x40 (rstate 0 0 [] [] [])).manifestOk 0 (localLoc k5 0x3FFF8) = true
    ∧ shutS.manifestOk 0 (localLoc k5 0x3FFF8) = false
    ∧ paOnDie 0x40 = false ∧ (cwS 0 0x40 (rstate 0 0 [] [] [])).dramOk 0x40 = true
    ∧ paOnDie (localLoc k5 0x3FFF8) = true ∧ paOff (localLoc k5 0x3FFF8) < 0x40000
    ∧ (hubR (.homeAcknowledge 0 0 7) [(0, some (rstate 7 0 [7] [] []))]).event = .homeAcknowledge 0 0 7
    ∧ (rstate 7 0 [7] [] []).held = [] ∧ (8 : Nat) ∉ (rstate 7 0 [7] [] []).pending := by
  refine ⟨rfl, ?_⟩
  decide +kernel
/-- A flag of count 1026 for local memory of this device, with the window's marks. -/
def flagB (count : Nat) : Flag := ⟨6, localLoc k0 0x100, word (7 * 65536 + count), some (localLoc k0 0x80000), count⟩
def flS (e : Event) (x : RecvState) : State := hubR e [(0, some x)]
theorem wit_FlagsReceived : (flS (.flagArrival 0 0 (flagB 1026)) (rstate 2 0 [] [] [])).event = .flagArrival 0 0 (flagB 1026)
    ∧ (rstate 2 0 [] [] [(6, true)]).last.lookup (flagB 2).id = some true ∧ (rstate 2 0 [] [] []).last.lookup 6 = none
    ∧ (rstate 2 0 [] [] []).held = [] ∧ 32768 ≤ (1 + 65536 - 2) % 65536 ∧ (1026 + 65536 - 2) % 65536 ≤ 1024
    ∧ (1026 : Nat) < 65536 ∧ (rstate 2 0 [] [] []).pending = []
    ∧ (rstate 2 0 [] [] []).window.getLsbD 1023 = false
    ∧ (∀ i : Fin 1, (rstate 2 1 [] [] []).window.getLsbD i.val = true)
    ∧ (flS (.holdTimerExpiry 0 0 4) (rstate 2 0 [] [flagB 3] [])).event = .holdTimerExpiry 0 0 4
    ∧ (rstate 2 0 [] [flagB 3] []).held = [flagB 3] ∧ (rstate 2 0 [] [flagB 3] []).gen = 4
    ∧ (rstate 2 0 [] [flagB 3] []).expiries < (rstate 2 0 [] [flagB 3] []).mtries
    ∧ ({ rstate 2 0 [] [flagB 3] [] with expiries := 1 } : RecvState).mtries ≤ 1 ∧ (4 : Nat) ≠ 5
    ∧ (flS .fieldTick (rstate 2 0 [] [] [])).manifestOk 0 (localLoc k0 0x100) = true
    ∧ (flS .fieldTick (rstate 2 0 [] [] [])).manifestOk 0 (localLoc k0 0x80000) = true := by
  decide +kernel
/-- The sender: one flag of count 3 outstanding. -/
def sfS (e : Event) (sends : Nat) : State :=
  { ch0 with clusters := [(0, { channels := [(2, some (chan [⟨flagA 1 3, sends⟩] 3 3))] })], event := e }
theorem wit_FlagsAtSender : (sfS (.flagCompleteNotice ⟨0, 0⟩ 2 1 3 false) 1).channel ⟨0, 0⟩ 2 = some (chan [⟨flagA 1 3, 1⟩] 3 3)
    ∧ (sfS (.flagCompleteNotice ⟨0, 0⟩ 2 1 3 true) 1).event = .flagCompleteNotice ⟨0, 0⟩ 2 1 3 true
    ∧ (∀ o ∈ (chan [⟨flagA 1 3, 1⟩] 3 3).flags, o.flag.id ≠ 2) ∧ (chan [⟨flagA 1 3, 1⟩] 3 3).flagOf 1 = some ⟨flagA 1 3, 1⟩
    ∧ ((sfS .fieldTick 1).regEff 0 20).getLsbD 63 = false ∧ (sfS (.flagResend ⟨0, 0⟩ 2 1) 1).event = .flagResend ⟨0, 0⟩ 2 1
    ∧ (1 : Nat) ≤ (chan [] 3 3).mtries ∧ (chan [] 3 3).mtries < 2 ∧ (chan [] 3 3).opening = none
    ∧ (sfS (.recount ⟨0, 0⟩ 2 0 2 3) 1).event = .recount ⟨0, 0⟩ 2 0 2 3
    ∧ (∀ i : Fin 2, (3 : BitVec 1024).getLsbD i.val = true) ∧ (2 : BitVec 1024).getLsbD 0 = false
    ∧ (sfS (.recount ⟨0, 0⟩ 2 0 2 2) 1).event = .recount ⟨0, 0⟩ 2 0 2 2 := by
  decide +kernel
theorem wit_FlagsAtSender_quiet : (sfS (.recount ⟨0, 0⟩ 2 0 2 2) 1).Quiet :=
  ⟨rfl, by decide, by decide, by decide⟩
/-- A link of some lanes, with flits kept, and a flit. -/
def linkS (w : Nat) (ret : BitVec 16) (retry : List Flit) (again : Nat) (e : Event) : State :=
  { userS with event := e, plat := { userS.plat with links := [(0, { up := true, width := w, retired := ret, retry := retry, again := again })] } }
def flitA (seq : Nat) (idle nak : Bool) : Flit := ⟨seq, 0, nak, idle, false, List.replicate 228 7⟩
theorem wit_Links : ((linkS 16 0 [] 0 .fieldTick).link 0).up = true
    ∧ flitOf ((linkS 16 0 [] 0 .fieldTick).link 0).rxKey (((linkS 16 0 [] 0 .fieldTick).link 0).rxSalt ++ BitVec.ofNat 64 0) [1, 2] = none
    ∧ (flitA 1 false true).fseq = (((linkS 16 0 [] 0 .fieldTick).link 0).ack + 1) % 2 ^ 32
    ∧ (flitA 0 true false).fseq ≠ (((linkS 16 0 [] 0 .fieldTick).link 0).ack + 1) % 2 ^ 32
    ∧ (flitA (2 ^ 32 - 1) false true).fseq < 2 ^ 32 ∧ (flitA 1 false true).ack < 2 ^ 32 ∧ (flitA 1 false true).body.length = 228
    ∧ (linkS 16 0 [] 0 (.flitReceive 0 [1, 2])).event = .flitReceive 0 [1, 2]
    ∧ (linkS 16 0 [] 0 (.flitSlot 0)).event = .flitSlot 0 ∧ ((linkS 16 0 [] 0 .fieldTick).link 0).again = 0
    ∧ ((linkS 16 0 [flitA 1 false false, flitA 2 false false] 1 .fieldTick).link 0).retry
      = [flitA 1 false false] ++ flitA 2 false false :: []
    ∧ ((linkS 16 0 [flitA 1 false false, flitA 2 false false] 1 .fieldTick).link 0).again = ([] : List Flit).length + 1
    ∧ (linkS 16 1 [] 0 (.laneRetirement 0 0)).event = .laneRetirement 0 0
    ∧ ((linkS 16 1 [] 0 .fieldTick).link 0).retired.getLsbD 0 = true
    ∧ ((linkS 8 0 [] 0 .fieldTick).link 0).retired.getLsbD 0 = false ∧ 9 ≤ ((linkS 9 0 [] 0 .fieldTick).link 0).width
    ∧ (linkS 8 0 [] 0 (.linkOrSwitchFailure (some 0) [0])).event = .linkOrSwitchFailure (some 0) [0]
    ∧ (linkS 8 0 [] 0 (.linkOrSwitchFailure none [0])).event = .linkOrSwitchFailure none [0] := by
  decide +kernel

/-! Debugging and the scrub. -/

def stopX (w : Word) : Ctx := { userX with cw := [(cwDBGST, w)] }
def dbg (x : Ctx) (e : Event) : State := { inCtx c0 x with event := e }
theorem wit_DebugStops : ((dbg userX (.debugStop c0)).ctx c0).live = true ∧ ((dbg userX (.debugStop c0)).ctx c0).stopped = false
    ∧ (dbg userX (.debugStop c0)).event = .debugStop c0 ∧ (dbg userX (.dbgctlStop c0)).event = .dbgctlStop c0
    ∧ ((dbg userX (.debugStop c0)).ctx c0).frame = none ∧ ((dbg userX (.debugStop c0)).ctx c0).wait = .none
    ∧ ((dbg userX (.debugStop c1)).ctx c1).live = false
    ∧ ((dbg (stopX 0x8000000000000000) (.dbgctlResume c0 true)).ctx c0).stopped = true
    ∧ (dbg (stopX 0x8000000000000000) (.dbgctlResume c0 true)).event = .dbgctlResume c0 true
    ∧ ((dbg (stopX 0x8000000000000000) (.dbgctlResume c0 true)).ctx c0).suspended = false
    ∧ ((dbg (stopX 0x8000000000000000) (.dbgctlResume c0 true)).ctx c0).live = true := by decide
def winE (off : Nat) (w : Word) : State := dbg (stopX 0x8000000000000000) (.controlWindowWrite k0 (BitVec.ofNat 16 off) w)
theorem wit_ControlWindow : (winE 0x5DF8 7).event = .controlWindowWrite k0 0x5DF8 7 ∧ (0x5DF8 % 0x1000) / 8 < 0x1C0
    ∧ (winE 0 7).deadSlotWord c0 0 = false ∧ (winE 0x1000 7).deadSlotWord c1 0 = true ∧ 0x1C0 ≤ (0x5E00 % 0x1000) / 8
    ∧ (0x6028 : Nat) < 0x6030 ∧ (winE 0x6000 7).event = .controlWindowWrite k0 0x6000 7
    ∧ (winE 0x8000 7).event = .controlWindowWrite k0 0x8000 7 ∧ (0xDFF8 : Nat) < 0xE000 ∧ (0x6030 : Nat) < 0x8000
    ∧ (dbg (stopX 0x8000000000000000) (.debuggerWrite c0 0x0F8 7)).event = .debuggerWrite c0 0x0F8 7
    ∧ ((winE 0 0).ctx c0).stopped = true ∧ ((winE 0 0).ctx c0).live = true ∧ (0x0F8 : BitVec 12).toNat = 8 * (31 : Reg).toNat
    ∧ (0x138 : BitVec 12).toNat = 0x100 + 8 * (7 : PReg).toNat ∧ (0xBF8 : BitVec 12).toNat = 0x400 + 64 * (31 : Reg).toNat + 8 * 7
    ∧ c0.isHandler = false ∧ ((dbg userX .fieldTick).ctx c0).stopped = false
    ∧ (winE 0 7).midInstruction c0 0 = false
    ∧ (dbg { userX with wait := .atomic 7 5 false false 0x100 } (.controlWindowWrite k0 0x20 7)).midInstruction c0 4 = true := by
  decide
def eccS (p : EccAt) (found : ScrubFind) (dirty : Bool) : State :=
  { evS (.eccError p found) with clusters := [(0, { lines := [(2, some ⟨0, 0, 0, dirty, false, [], []⟩)] })] }
theorem wit_Scrubbing : (evS (.scrub k0 0x7FFF .clean)).event = .scrub k0 0x7FFF .clean
    ∧ (evS (.scrub k0 0 .correctable)).event = .scrub k0 0 .correctable
    ∧ (evS (.scrub k0 0 .uncorrectable)).event = .scrub k0 0 .uncorrectable
    ∧ ((evS .fieldTick).regOwn ((evS .fieldTick).core k0).svc 9).toNat % 2 ^ 16 = 0
    ∧ apart (localLoc k0 0) 8 ((evS .fieldTick).regLoc ((evS .fieldTick).core k0).svc 9) 8
    ∧ (eccS (.greg c0 5) .uncorrectable false).event = .eccError (.greg c0 5) .uncorrectable ∧ (5 : Reg) ≠ 0
    ∧ (eccS (.vreg c0 5) .clean false).event = .eccError (.vreg c0 5) .clean
    ∧ (eccS (.dram 8) .correctable false).event = .eccError (.dram 8) .correctable
    ∧ (eccS (.line 0x80) .uncorrectable true).event = .eccError (.line 0x80) .uncorrectable
    ∧ tget none ((eccS (.line 0x80) .uncorrectable true).cluster ((eccS (.line 0x80) .uncorrectable true).homeOr 0x80)).lines
        (lineNo 0x80) = some ⟨0, 0, 0, true, false, [], []⟩ := by
  unfold apart
  decide
/-- A queue of two slots at DRAM offset 0x100000 with TAIL as given, and HEAD 0. -/
def queS (tail : Nat) : State := ((tree userS).regPut 0 7 0x100000).regPut 0 9 (2 + tail * 2 ^ 32)
theorem quiet_queS : (queS 0).Quiet := ⟨by decide, by decide, by decide, by decide⟩
theorem wit_FaultRecords : ((queS 0).regOwn 0 9).toNat % 2 ^ 16 = 2 ∧ ((queS 0).regOwn 0 9).toNat / 2 ^ 32 % 2 ^ 16 = 0
    ∧ (0 + 1) % 2 ≠ ((queS 0).regOwn 0 9).toNat / 2 ^ 16 % 2 ^ 16 ∧ (1 + 1) % 2 = ((queS 1).regOwn 0 9).toNat / 2 ^ 16 % 2 ^ 16
    ∧ ((queS 1).regOwn 0 9).toNat / 2 ^ 32 % 2 ^ 16 = 1 ∧ ((evS .fieldTick).regOwn 0 9).toNat % 2 ^ 16 = 0
    ∧ paDev ((queS 0).regOwn 0 7).toNat = (queS 0).dev ∧ paOnDie ((queS 0).regOwn 0 7).toNat = false
    ∧ (queS 0).areaBacked (paLoc ((queS 0).regOwn 0 7).toNat) 128 = true ∧ apart (paLoc ((queS 0).regOwn 0 7).toNat) 128 ((queS 0).regLoc 0 9) 8
    ∧ (List.replicate 96 (0 : Byte)).length ≤ 96 ∧ tget 0 (queS 0).recSeq 0 < 2 ^ 16 := by
  unfold apart
  decide

/-! The control port: number 3 is expected, and a session has the keys of zeros. -/

/-- A frame in clear, as it comes outside a session. -/
def frm (typ addr : Nat) (p : List Byte) : CFrame := ⟨typ, 1, 3, addr, p, []⟩
/-- A frame under the session: payload encrypted, and the tag of a LEN of n. -/
def sealF (typ addr n : Nat) (p : List Byte) : CFrame :=
  let q := gcmCrypt 0 (frameNonce 1 3) p
  ⟨typ, 1, 3, addr, q, gcmTag 0 (frameNonce 1 3) (frameHeader typ 1 n 3 addr) q⟩
def ses : Session := ⟨[], [], 0, 0⟩
def port (ph : Nat) (s : Option Session) (e : Event) : State :=
  { tree userS with event := e, plat := { userS.plat with session := s, expSeq := 3, phase := ph, joined := true } }
theorem good_tag (ph : Nat) (e : Event) (typ addr n : Nat) (p : List Byte) :
    (port ph (some ses) e).plat.authentic typ (sealF typ addr n p) n = true := by
  simp only [Platform.authentic, port, ses, sealF, BEq.rfl]
/-- A frame of a type at the port under the session in a phase is accepted. -/
theorem accepts_port {typ addr n ph : Nat} {p : List Byte} {e : Event} (hn : n ≤ 0x100000) (h3 : typ = 3 → ph = 1)
    (h4 : typ ∈ [0x10, 0x11] → 4 ≤ ph) (h5 : typ ∈ [0x20, 0x21, 0x22, 0x23] → ph = 5) :
    (port ph (some ses) e).Accepts typ (sealF typ addr n p) n :=
  ⟨⟨rfl, rfl⟩, rfl, good_tag .., rfl, .inl (by simp [port]), by simp [sealF], hn, fun t => h3 t, fun t => h4 t, fun t => ⟨h5 t, rfl⟩⟩
/-- A frame of the boot ROM in Hold without a session is accepted. -/
theorem accepts_open {typ addr : Nat} {p : List Byte} {e : Event} (hn : p.length ≤ 0x100000)
    (h : typ ∈ [0x01, 0x02, 0x03, 0x04, 0x3F]) : (port 1 none e).Accepts typ (frm typ addr p) (frm typ addr p).payload.length :=
  ⟨⟨rfl, rfl⟩, rfl, rfl, rfl, .inr h, by simp [frm], hn, fun _ => rfl, fun t => by simp at h t; omega, fun t => by simp at h t; omega⟩
theorem wit_FrameRules : (0x01, Instr.identity, Event.identity (frm 1 0 [])) ∈ [(0x01, Instr.identity, Event.identity (frm 1 0 []))]
    ∧ (port 1 none (.identity (frm 1 0 []))).event = .identity (frm 1 0 []) ∧ (port 1 none .fieldTick).plat.session = none
    ∧ (port 1 (some ses) .fieldTick).plat.authentic 1 (frm 1 0 []) 0 = false
    ∧ (port 1 none .fieldTick).plat.authentic 1 (frm 1 0 []) 0 = true
    ∧ (port 1 none .fieldTick).plat.portUp = true ∧ (port 1 none .fieldTick).plat.vaux = true ∧ (frm 1 0 []).seq = (port 1 none .fieldTick).plat.expSeq
    ∧ ({ frm 1 0 [] with seq := 2 } : CFrame).seq ≠ (port 1 none .fieldTick).plat.expSeq
    ∧ { port 1 none .fieldTick with plat := { userS.plat with portUp := false } }.plat.portUp = false
    ∧ 0x10 ∉ [0x01, 0x02, 0x03, 0x04, 0x3F] ∧ 2 ≤ ({ frm 1 0 [] with flags := 2 } : CFrame).flags
    ∧ (port 2 none .fieldTick).plat.phase ≠ 1 ∧ (port 3 none .fieldTick).plat.phase < 4 ∧ (port 4 none .fieldTick).plat.phase ≠ 5
    ∧ (port 4 none .fieldTick).portBusy = false
    ∧ { port 4 none .fieldTick with timers := [(9, .controlWindowWrite k0 0x20 7)] }.portBusy = true ∧ (List.replicate 88 (0 : Byte)).length = 88
    ∧ (port 4 none (.unknownFrame (frm 0x77 0 []))).event = .unknownFrame (frm 0x77 0 [])
    ∧ (port 4 none (.unknownFrame (frm 0x77 0 []))).plat.authentic 0x77 (frm 0x77 0 []) 0 = true := by
  decide +kernel
theorem wit_BootFrames : (port 1 none (.identity (frm 1 0 []))).Accepts 1 (frm 1 0 []) (frm 1 0 []).payload.length
    ∧ (port 1 none (.attest (frm 2 0 (List.replicate 416 0)))).Accepts 2 (frm 2 0 (List.replicate 416 0))
        (frm 2 0 (List.replicate 416 0)).payload.length
    ∧ (frm 2 0 (List.replicate 416 0)).payload.length = 416 ∧ (port 1 none .fieldTick).plat.digest.length = 32
    ∧ (port 1 none (.firmware (frm 3 0 []))).Accepts 3 (frm 3 0 []) (frm 3 0 []).payload.length
    ∧ (port 1 none (.status (frm 4 0 []))).Accepts 4 (frm 4 0 []) (frm 4 0 []).payload.length
    ∧ (port 1 none (.reset (frm 0x3F 0 []))).Accepts 0x3F (frm 0x3F 0 []) (frm 0x3F 0 []).payload.length :=
  ⟨accepts_open (by decide) (by decide), accepts_open ((List.length_replicate ..).trans_le (by decide)) (by decide), List.length_replicate .., by decide,
    accepts_open (by decide) (by decide), accepts_open (by decide) (by decide), accepts_open (by decide) (by decide)⟩
/-- Every image meets one of the cases of a Firmware frame, and every E one of those of Attest (both are opaque). -/
theorem wit_BootFrames_cases (img : Firmware) (e : List Byte) :
    (img.wellFormed = false ∨ (img.wellFormed = true ∧ (img.signed = false ∨ img.rollback < Config.rollbackMin.toNat))
      ∨ (img.wellFormed = true ∧ img.signed = true ∧ Config.rollbackMin.toNat ≤ img.rollback))
    ∧ ((∀ k, Config.decrypt e = some k → k.length ≠ 32) ∨ ∃ k, Config.decrypt e = some k ∧ k.length = 32) := by
  constructor
  · cases img.wellFormed <;> cases img.signed <;> simp [or_iff_not_imp_left]
  · by_cases h : ∃ k, Config.decrypt e = some k ∧ k.length = 32
    · exact .inr h
    · exact .inl (fun k hk hl => h ⟨k, hk, hl⟩)
/-- A frame under the session whose LEN is its payload's. -/
def sf (typ addr : Nat) (p : List Byte) : CFrame := sealF typ addr p.length p
def memF (e : Event) : State := port 5 (some ses) e
theorem quiet_memF (e : Event) : (memF e).Quiet := by
  have c : (memF e).clusters = [] := tree_clusters_nil (s := userS) rfl
  have k : (memF e).cores = [] := rfl
  exact ⟨rfl, by simp [k], by simp [c], by simp [c]⟩
theorem wit_MemoryFrames : (memF (.write (sf 0x10 0x40 [1, 2]))).Accepts 0x10 (sf 0x10 0x40 [1, 2]) 2
    ∧ (sf 0x10 0x40 [1, 2]).payload.length = 2
    ∧ (memF (.read (sealF 0x11 0x40 8 []) 8)).Accepts 0x11 (sealF 0x11 0x40 8 []) 8 ∧ (sealF 0x11 0x40 8 []).payload = []
    ∧ (memF .fieldTick).plat.joined = true
    ∧ (paDev 0x40 = (memF .fieldTick).dev ∧ (0x40 + 2 - 1) / 2 ^ 36 = 0x40 / 2 ^ 36 ∧ paOnDie 0x40 = false)
    ∧ (memF .fieldTick).dramOk (0xFFFFFFFFE + 2 - 1) = true
    ∧ paOnDie (localLoc k5 0x3FFF8) = true ∧ (memF .fieldTick).onDieOk (localLoc k5 0x3FFF8) = true ∧ paOff (localLoc k5 0x3FFF8) + 8 ≤ 0x40000
    ∧ paOff (localLoc k0 0x10FFF8) + 8 ≤ 0x110000 ∧ 0x100000 ≤ paOff (localLoc k0 0x100000)
    ∧ (memF .fieldTick).onDieOk (localLoc k0 0x10FFF8) = true ∧ paDev (2 ^ 45) ≠ (memF .fieldTick).dev
    ∧ { memF .fieldTick with pois := [localLoc k0 8 / 8] }.poisAt (localLoc k0 8) 8 = true :=
  ⟨accepts_port (by decide) (by decide) (by decide) (by decide), by decide +kernel,
    accepts_port (by decide) (by decide) (by decide) (by decide), by decide +kernel, rfl,
    by decide, by decide, by decide, by decide, by decide, by decide, by decide, by decide, by decide, by decide⟩
/-- A launch of region 0 with COST 1, KIND 0, and PIN as given, to cluster 0. -/
def launchP (pin : Nat) : List Byte := leBytes 8 (2 ^ 16 + pin * 2 ^ 25) ++ leBytes 8 0x1000 ++ leBytes 72 0
def jobS (e : Event) : State := port 5 (some ses) e
theorem opened_launch : ((jobS .fieldTick).plat.opened (sf 0x20 (localLoc k0 0) (launchP 0))).payload = launchP 0
    ∧ (sf 0x20 (localLoc k0 0) (launchP 0)).payload.length = 88 ∧ (launchP 0).length = 88
    ∧ ((jobS .fieldTick).plat.opened (sf 0x20 (localLoc k0 0) (launchP 1))).payload = launchP 1
    ∧ (sf 0x23 7 (leBytes 16 (2 ^ 63))).payload.length = 16 := by decide +kernel
theorem wit_JobFrames : (jobS (.launch (sf 0x20 (localLoc k0 0) (launchP 0)))).Accepts 0x20 (sf 0x20 (localLoc k0 0) (launchP 0))
      (launchP 0).length
    ∧ localLoc k0 0 < 2 ^ 56 ∧ paDev (localLoc k0 0) = (jobS .fieldTick).dev
    ∧ (jobS .fieldTick).onDieOk (localLoc k0 0) = true ∧ localLoc k0 0 % 2 ^ 34 = 0 ∧ localLoc ⟨0, 0, 1⟩ 0 % 2 ^ 34 ≠ 0
    ∧ (leNat ((launchP 0).take 8) / 2 ^ 16 % 2 ^ 8 = 1 ∧ leNat ((launchP 0).take 8) / 2 ^ 26 = 0
      ∧ leNat ((launchP 0).take 8) / 2 ^ 12 % 2 ^ 4 = 0 ∧ leNat (((launchP 0).drop 72).take 8) / 2 ^ 32 = 0)
    ∧ (leNat ((launchP 1).take 8)).testBit 25 = true
    ∧ (jobS .fieldTick).liveTasks 0 + 1 < 2 ^ 32
    ∧ ((jobS .fieldTick).cluster ⟨0, 0⟩).closed = false ∧ ((jobS .fieldTick).cluster ⟨0, 0⟩).failed = false
    ∧ ({ jobS .fieldTick with clusters := [(0, { closed := true })] }.cluster ⟨0, 0⟩).closed = true
    ∧ (jobS (.close (sf 0x21 (localLoc k0 0) []))).Accepts 0x21 (sf 0x21 (localLoc k0 0) []) 0
    ∧ (jobS (.partition (sf 0x22 63 []))).Accepts 0x22 (sf 0x22 63 []) 0 ∧ (sf 0x22 63 []).payload = [] ∧ (63 : Nat) < 64
    ∧ (jobS (.breakpoint (sf 0x23 7 (leBytes 16 (2 ^ 63))))).Accepts 0x23 (sf 0x23 7 (leBytes 16 (2 ^ 63))) (leBytes 16 (2 ^ 63)).length
    ∧ leNat ((leBytes 16 (2 ^ 63)).take 8) / 2 ^ 52 % 2 ^ 7 = 0 ∧ leNat ((leBytes 16 (2 ^ 52)).take 8) / 2 ^ 52 % 2 ^ 7 ≠ 0 :=
  ⟨accepts_port (by decide) (by decide) (by decide) (by decide), by decide, by decide, by decide,
    by decide, by decide, by decide, by decide, by decide, by decide, by decide, by decide,
    accepts_port (by decide) (by decide) (by decide) (by decide), accepts_port (by decide) (by decide) (by decide) (by decide),
    by decide +kernel, by decide, accepts_port (by decide) (by decide) (by decide) (by decide), by decide, by decide⟩
/-- A register number but 0 names a register of the catalogue or none, of which a write is within the limits or not: all are the
build's (log entry 24), and the limits of VDIE and of the coolant have both. -/
theorem wit_ServiceFrames : (jobS (.telemetry (sf 0x30 0 []))).Accepts 0x30 (sf 0x30 0 []) 0
    ∧ (jobS (.management (sf 0x40 0 []))).Accepts 0x40 (sf 0x40 0 []) 0 ∧ (sf 0x40 (2 ^ 33 - 1) []).addr < 2 ^ 33
    ∧ (mgmtReg 1 = none ∨ ∃ m, mgmtReg 1 = some m)
    ∧ mgmtWithin .vdie 750000 = true ∧ mgmtWithin .vdie 752000 = false := by
  refine ⟨accepts_port (by decide) (by decide) (by decide) (by decide), accepts_port (by decide) (by decide) (by decide) (by decide),
    by simp [sf, sealF], ?_, by decide, by decide⟩
  cases mgmtReg 1 <;> simp

/-! Start-up, rails, power and heat. -/

def startS (ph : Nat) (e : Event) : State := { State.reset with event := e, plat := { phase := ph, verified := true } }
/-- A block of region 0 that is valid, and one that is not. -/
def block0 : List Word := 0x8000000000000000 :: List.replicate 31 0
theorem wit_StartUp : (startS 1 (.verify [])).event = .verify []
    ∧ (startS 1 .fieldTick).plat.phase = 1 ∧ (startS 1 .fieldTick).plat.mayLeaveHold = true ∧ (startS 2 .fieldTick).plat.phase ≠ 1
    ∧ (startS 2 (.initialise [(8, 8), (0, 0), (0, 0), (0, 0)] [])).event = .initialise [(8, 8), (0, 0), (0, 0), (0, 0)] []
    ∧ (startS 2 .fieldTick).plat.verified = true ∧ [((8 : Nat), (8 : Nat)), (0, 0), (0, 0), (0, 0)].length = 4
    ∧ (startS 3 (.join 1 1152 (2 ^ 45) 0 [(17, ⟨1, 2, 3, 4⟩)])).event = .join 1 1152 (2 ^ 45) 0 [(17, ⟨1, 2, 3, 4⟩)]
    ∧ (startS 3 .fieldTick).plat.joined = false ∧ (startS 3 (.linksTrained [17])).event = .linksTrained [17]
    ∧ { startS 3 .fieldTick with plat := { (startS 3 .fieldTick).plat with joined := true } }.plat.joined = true
    ∧ ([((17 : Fin 18), (⟨1, 2, 3, 4⟩ : LinkKeys))].map (fun e => e.1)).Nodup ∧ { startS 1 .fieldTick with plat := { vaux := false } }.plat.mayLeaveHold = false
    ∧ (startS 3 .fieldTick).plat.failPhase = 0
    ∧ (1 : Nat) ≤ 1151 ∧ (1 : Nat) < 1152 ∧ paDev (2 ^ 45) = 1 ∧ paOnDie (2 ^ 45) = false ∧ 2 ^ 45 / 2 ^ 36 % 2 ^ 6 = 0
    ∧ (startS 3 .fieldTick).backed (2 ^ 45) = true ∧ paDev 0 ≠ 1
    ∧ (startS 4 (.ready block0)).event = .ready block0 ∧ blockOk block0 = true ∧ blockOk [] = false := by
  decide
def heatS (e : Event) (tripped : Bool) : State :=
  { userS with event := e, clusters := [(0, { tripped := tripped, duty := if tripped then 4 else 16 })] }
theorem wit_PowerAndHeat : (heatS (.powerGood 2) false).event = .powerGood 2 ∧ (heatS (.railFall 0) false).event = .railFall 0
    ∧ 3400000 < (heatS .fieldTick false).budgets [((⟨0, 0⟩ : ClusterId), 3400001, 16)]
    ∧ (heatS .fieldTick false).budgets [((⟨0, 0⟩ : ClusterId), 3400000, 17)] ≤ 3400000 ∧ (heatS .fieldTick false).time % 33000 = 0
    ∧ { heatS .fieldTick false with time := 1 }.time % 33000 ≠ 0
    ∧ ([((⟨0, 0⟩ : ClusterId), 3400000, 17)].map (fun e => e.1)).Nodup
    ∧ (heatS (.powerRedivision [(⟨0, 0⟩, 3400000, 17)]) false).event = .powerRedivision [(⟨0, 0⟩, 3400000, 17)]
    ∧ (heatS (.trip ⟨0, 0⟩ 1051 1000) false).event = .trip ⟨0, 0⟩ 1051 1000 ∧ (1050 : Int) < 1051 ∧ ¬ ((1050 : Int) < 1050 ∨ 1000 < 1000)
    ∧ (heatS (.tripPersisted ⟨0, 0⟩) true).event = .tripPersisted ⟨0, 0⟩ ∧ ((heatS .fieldTick true).cluster ⟨0, 0⟩).tripped = true
    ∧ ((heatS .fieldTick false).cluster ⟨0, 0⟩).tripped = false ∧ (heatS (.tripOutput ⟨0, 0⟩ 1150) false).event = .tripOutput ⟨0, 0⟩ 1150
    ∧ (1149 : Int) < 1150 ∧ (heatS (.moduleFault 3 7) false).event = .moduleFault 3 7 ∧ moduleWithin 3 7 = false
    ∧ moduleWithin 3 400 = true ∧ moduleWithin 3 401 = false ∧ moduleWithin 1 60000 = true ∧ moduleWithin 2 1999 = false
    ∧ (heatS (.powerReadings 5 [(3, 1, -20, 700)] [(⟨0, 0⟩, 9)] [(17, 30)]) false).event
      = .powerReadings 5 [(3, 1, -20, 700)] [(⟨0, 0⟩, 9)] [(17, 30)]
    ∧ ([((3 : Fin 4), (1 : Nat), (-20 : Int), (700 : Nat))].map (fun e => e.1)).Nodup
    ∧ (∀ e ∈ [((3 : Fin 4), (1 : Nat), (1149 : Int), (700 : Nat))], e.2.2.1 < 1150)
    ∧ (∀ e ∈ [((3 : Fin 4), (1 : Nat), (1150 : Int), (700 : Nat))], e.1 ≠ 3 → e.2.2.1 < 1150)
    ∧ ([((⟨0, 0⟩ : ClusterId), 9)].map (fun e => e.1)).Nodup ∧ ([((17 : Fin 18), 30)].map (fun e => e.1)).Nodup ∧ (heatS .fieldTick false).plat.portUp = true := by
  decide
def gangX (time : Word) : Ctx := { userX with wait := .gang 4, cw := [(cwGTIME, time)] }
theorem wit_GangTimeouts : (dbg (gangX 9) (.gangTimeout c0 4)).event = .gangTimeout c0 4
    ∧ ((dbg (gangX 9) (.gangTimeout c0 4)).ctx c0).wait = .gang 4 ∧ ((dbg userX (.gangTimeout c0 4)).ctx c0).wait ≠ .gang 4
    ∧ ((gangX 9).cwv cwGTIME).getLsbD 63 = false ∧ ((gangX 0x8000000000000009).cwv cwGTIME).getLsbD 63 = true := by decide
theorem wit_IllegalWords : (evS (.illegalInstruction 0xFFFFFFFF)).event = .illegalInstruction 0xFFFFFFFF
    ∧ decode 0xFFFFFFFF = none := by decide

/-! ### The spec's worked examples -/

/-- The state after an instruction. -/
def after (i : Instr) (s : State) : State :=
  match exec i s with
  | .next t => t
  | _ => s
/-- A vector register with some FP32 lanes, the others +0. -/
def lanes (l : List (Nat × Nat)) : VWord := BitVec.ofNat 512 ((l.map (fun e => e.2 * 2 ^ (32 * e.1))).sum)
/-- R20: the window address 0xFF002CC0C0080010 is mb4 of core 3 of cluster 48 of die 1 of device 1. -/
theorem test_window_address : userS.place 0xFF002CC0C0080010 = .win 0x2CC0C0080010 ∧ paDev 0x2CC0C0080010 = 1
    ∧ paCoreId 0x2CC0C0080010 = ⟨1, 48, 3⟩ ∧ paOff 0x2CC0C0080010 = 0x80010 ∧ planeCluster ⟨1, 48⟩ = true
    ∧ ctrNo (paOff 0x2CC0C0080010) = 4 := by decide
/-- RPT #4, #1, #1, #1, #0 over VFMA.F32 v8, v0, v16: the words of iterations 1 to 3, and the scalar stream goes on at the RPT
address + 8. -/
def rptEx : State := userS.poke (localLoc k0 4) (leBytes 4 0xA5008003) false
theorem test_rpt_words : (upto 0 4).map (fun i => decode (strideWord 0xA5008003 ⟨some 31, some 31, some 31⟩ 1 1 0 i))
    = [some (.vfma .f32 8 0 16 0), some (.vfma .f32 9 1 16 0), some (.vfma .f32 10 2 16 0), some (.vfma .f32 11 3 16 0)] := by
  decide
theorem test_rpt_starts : (after (.rptImmediate 0 1 1 0 4) rptEx).my.pc = 8
    ∧ (after (.rptImmediate 0 1 1 0 4) rptEx).my.frame = some ⟨[0xA5008003], 1, 1, 0, 4, 0, 0⟩ := by decide +kernel
/-- RPT #4, #1, #3, #0, #0 over VFMA.F32 v24, v0, v16 fails check 5; with a count of 0 it does not. -/
theorem test_rpt_range : frameFault [0xA7008003] 3 0 0 4 = some (0x09, 0) ∧ frameFault [0xA7008003] 3 0 0 0 = none := by decide
/-- ST.W [g9+2], g6 with g9 = 0x2000 at 0x108: fault 0x03 with TVAL 0x2002, TPC 0x108, SV 1, PM 0, TB 1, pc 0x30000. -/
def trapEx : State :=
  inCtx c0 { task := some task0, pc := 0x108, g := [(6, 7), (9, 0x2000)], cw := [(cwTVEC, 0x30000), (cwTMASK, 8)] }
theorem test_misaligned_store : (after (.stW 6 9 2) trapEx).my.pc = 0x30000
    ∧ (upto 0 4).map (after (.stW 6 9 2) trapEx).my.cwv = [5, 3, 0x2002, 0x108]
    ∧ (after (.stW 6 9 2) trapEx).mem = [] := by decide +kernel
/-- The handler's TRET with TPC moved on: pc 0x10C, task mode, TB 0. -/
theorem test_tret : let s := inCtx c0 { task := some task0, pc := 0x3000C, cw := [(0, 5), (3, 0x10C)] }
    (after .tret s).my.pc = 0x10C ∧ (after .tret s).my.cwv 0 = 0 := by decide
/-- One rounding per step: 1 + 2^-25 in a VFMA.F32 rounds to 1.0 and sets NX (2^-12 is 0x39800000, 2^-13 is 0x39000000). -/
def fmaEx : State := inCtx c0 { task := some task0, v := [(1, 0x39800000), (2, 0x39000000), (3, 0x3F800000)] }
theorem test_vfma_rounds : laneAt 32 ((after (.vfma .f32 3 1 2 0) fmaEx).v 3) 0 = 0x3F800000
    ∧ ((after (.vfma .f32 3 1 2 0) fmaEx).my.cwv cwFFLAGS).getLsbD 4 = true := by decide +kernel
/-- The tree of R113: 2^24 and three ones sum to 16,777,218, and NX is set. -/
def sumEx : State :=
  inCtx c0 { task := some task0, v := [(1, lanes [(0, 0x4B800000), (1, 0x3F800000), (2, 0x3F800000), (3, 0x3F800000)])] }
theorem test_vrsum_tree : (after (.vrsumF32 5 1 0) sumEx).g 5 = 0x4B800001
    ∧ ((after (.vrsumF32 5 1 0) sumEx).my.cwv cwFFLAGS).getLsbD 4 = true := by decide +kernel
/-- VCOMPRESS v6, v2 of the example of R138. -/
def pruneEx : State := inCtx c0 { task := some task0, v := [(2, 0x4000C0004000800040403F00C0403F80)] }
theorem test_vcompress : (after (.vcompress 6 2) pruneEx).v 6
    = 0x0F0F0F6A000000000000000000000000000000000000000000000000C00040004040C040 := by decide +kernel
/-- VTOPK.NZ v4, v0, g6 over the two chunks of the example of R135. -/
def topEx (v0 v4 v5 : VWord) (g6 : Word) : State := inCtx c0 { task := some task0, g := [(6, g6)], v := [(0, v0), (4, v4), (5, v5)] }
def chunk0 : VWord := lanes [(2, 0x3F000000), (5, 0x3F400000), (9, 0x7FC00000), (11, 0x3F000000)]
def chunk1 : VWord := lanes [(0, 0x3F400000), (3, 0x80000000)]
def top0 : State := after (.vtopkNz 4 0 6 0) (topEx chunk0 0 0 4)
theorem test_vtopk_first : (upto 0 4).map (laneAt 32 (top0.v 4)) = [0x3F400000, 0x3F000000, 0x3F000000, 0xFF800000]
    ∧ (upto 0 4).map (laneAt 32 (top0.v 5)) = [5, 2, 11, 0xFFFFFFFF] ∧ top0.g 6 = 0x0000001000000304 := by decide +kernel
def top1 : State :=
  after (.vtopkNz 4 0 6 0) (topEx chunk1 (lanes [(0, 0x3F400000), (1, 0x3F000000), (2, 0x3F000000), (3, 0xFF800000)])
    (lanes [(0, 5), (1, 2), (2, 11), (3, 0xFFFFFFFF)]) 0x0000001000000304)
theorem test_vtopk_second : (upto 0 4).map (laneAt 32 (top1.v 4)) = [0x3F400000, 0x3F400000, 0x3F000000, 0x3F000000]
    ∧ (upto 0 4).map (laneAt 32 (top1.v 5)) = [5, 16, 2, 11] ∧ top1.g 6 = 0x0000002000000404 := by decide +kernel
/-- MMAS.BF16 m0, v7, [g9] of the pruned column: row 0 gets -10.0 in element (0, 0) and +0 beside it. -/
def mmaRow : List Byte :=
  (upto 0 32).flatMap (fun k => leBytes 2 (if k = 0 then 0x42C8 else if k = 1 then 0x4000 else if k = 5 then 0x3F00
    else if k = 6 then 0x4080 else 0x3F80))
def mmaWa : Plane := { fmt := 1, cols := [(0, 0x40), (1, 0xC0), (2, 0x40), (3, 0x40), (5, 0x40), (7, 0xC0)] }
def mmaMeta (b5 : Nat) : List Nat := 0x6A :: (List.replicate 4 0x0F ++ [b5] ++ List.replicate 58 0x0F)
theorem test_mmas_pruned : mulRow .sbf16 1 mmaWa (mmaMeta 0x0F) 0 mmaRow 0 = 0xC1200000 := by decide +kernel
def mmaEx : State :=
  let md := BitVec.ofNat 512 (leNat ((mmaMeta 0x1F).map (BitVec.ofNat 8)))
  { inCtx c0 { task := some task0, g := [(9, 0x6000)], v := [(7, md)], cw := [(cwTVEC, 0x30000), (cwTMASK, 0x100)] } with
    cores := [(0, { slice := { owner := some 0, wa := mmaWa } })] }
/-- Five bits in byte 5: fault 0x08 with TVAL 0x1F05. -/
theorem test_mmas_metadata : (upto 1 2).map (after (.mmasBf16 0 7 9) mmaEx).my.cwv = [8, 0x1F05]
    ∧ (after (.mmasBf16 0 7 9) mmaEx).slice.acc = [] := by decide +kernel
/-- The tests of R174 in the example of Chapter 7: target 1 and counter 0xFFFFFFFF, 0 and 1. -/
theorem test_counter_wrap : ctrTest 0xFFFFFFFF 1 = false ∧ ctrTest 0 1 = false ∧ ctrTest 1 1 = true := by decide
/-- Equal priority and stamp: the lower catalogue number goes first; a higher priority goes before an older entry (R172). -/
def queE (prio stamp cat : Nat) : QEntry := ⟨{ plainTask with prio := prio, cat := cat }, stamp, 0, 0, 0, 0⟩
theorem test_dispatch_order : firstEntry [queE 5 900 0x88000040, queE 5 900 0x8800003C, queE 3 100 0x88000007]
      = some (queE 5 900 0x8800003C)
    ∧ firstEntry [queE 5 900 0x88000040, queE 3 100 0x88000007, queE 6 1010 0x88000051] = some (queE 6 1010 0x88000051) := by decide
/-- A field over five clusters: the tick ending in cycle 383 from the fields of the one before, and the placement of T1. -/
def rowS (fl : List Nat) : State :=
  { userS with
    clusters := (upto 0 5).zip [40, 5, 20, 7, 10] |>.map (fun e => (e.1, { cw := [(cwPDMASK, 4), (cwLOW, 16), (cwSTAY, 32)], sum := e.2 })),
    dies := [(0, { fields := (upto 0 5).zip fl |>.map (fun e => (e.1, [63, 63, 63, 63, e.2] ++ List.replicate 11 63)) })],
    regs := [(2, 0x20000)] }
theorem test_fields : (upto 0 5).map (fun c => (rowS [63, 3, 2, 1, 0]).tickFields 0 c |>.getD 4 63) = [4, 3, 2, 1, 0] := by decide +kernel
def t1 (pull : Nat) : TaskMsg := { plainTask with cost := 8, hops := 24, pull := pull }
theorem test_placement : (upto 0 4).map (fun p => (rowS [4, 3, 2, 1, 0]).verdict ⟨0, 0⟩ (t1 p)) = [.mesh 1, .stay, .stay, .stay]
    ∧ (rowS [4, 3, 2, 1, 0]).verdict ⟨0, 1⟩ (t1 0) = .mesh 2 ∧ (rowS [4, 3, 2, 1, 0]).verdict ⟨0, 2⟩ (t1 0) = .stay := by decide
/-- The message and the reply of Chapter 10's example: core 5 of cluster 20 asks core 9 of cluster 21. -/
theorem test_send_destination : destsOf 0x0000045640000000 = [localLoc ⟨0, 21, 9⟩ 0] ∧ localLoc ⟨0, 20, 5⟩ 0x3000 = 0x0000045140003000 := by
  decide
/-! Known answers of the standards R352, R385 and R386 name: SHA-256 of "abc" and of the empty string, HMAC of RFC 4231 case 2, AES-256 of
FIPS 197, GCM with the key of zeros on nothing and on one block of zeros. -/

theorem test_sha256 : beNat (sha256 [0x61, 0x62, 0x63]) = 0xBA7816BF8F01CFEA414140DE5DAE2223B00361A396177A9CB410FF61F20015AD
    ∧ beNat (sha256 []) = 0xE3B0C44298FC1C149AFBF4C8996FB92427AE41E4649B934CA495991B7852B855 := by decide +kernel
theorem test_hmac : beNat (hmac [0x4A, 0x65, 0x66, 0x65] [0x77, 0x68, 0x61, 0x74, 0x20, 0x64, 0x6F, 0x20, 0x79, 0x61, 0x20, 0x77, 0x61, 0x6E,
      0x74, 0x20, 0x66, 0x6F, 0x72, 0x20, 0x6E, 0x6F, 0x74, 0x68, 0x69, 0x6E, 0x67, 0x3F])
    = 0x5BDCC146BF60754E6A042426089575C75A003F089D2739839DEC58B964EC3843 := by decide +kernel
theorem test_aes : aesBlock (aesKeys 0x000102030405060708090A0B0C0D0E0F101112131415161718191A1B1C1D1E1F) 0x00112233445566778899AABBCCDDEEFF
    = 0x8EA2B7CA516745BFEAFC49904B496089 := by decide +kernel
theorem test_gcm : beNat (gcmTag 0 0 [] []) = 0x530F8AFBC74536B9A963B4F1C4CB738B
    ∧ beNat (gcmCrypt 0 0 (List.replicate 16 0)) = 0xCEA7403D4D606B6E074EC5D3BAF39D18
    ∧ beNat (gcmTag 0 0 [] (beBytes 16 0xCEA7403D4D606B6E074EC5D3BAF39D18)) = 0xD0D1C8A799996BF0265B98B5D48AB919 := by decide +kernel
/-- A flit of 228 bytes goes over a link and is read back. -/
theorem wit_Links_received : flitOf 0 0 (flitWire (flitA 1 false true) 0 0) = some (flitA 1 false true) := by decide +kernel

/-! Clauses that the sections above leave out. -/

/-- The row of core 0 at the barrier with core 3 asking for another K, every member's traps on and its vector set. -/
def vecOn : Ctx := { userX with g := [(1, 0)], cw := [(4, 0x200000), (5, 0x80)] }
def gangD : State :=
  { gangS (some { arr with k := 2 }) with
    ctxs := (c0.key, vecOn) :: ([⟨0, 0, 1⟩, ⟨0, 0, 2⟩, ⟨0, 0, 3⟩] : List CoreId).map (fun k => ((ctxAt k 1).key, vecOn)) }
theorem wit_GangBarrier_differs : gangD.InSlot ∧ gangD.MaySlice ∧ gangD.slice.queue = [] ∧ gangD.Clean [1] [0, 0 + 1]
    ∧ badMeta 0 (gangD.metaOf .bf16 0) = none
    ∧ (∀ k ∈ rowCores gangD.cur.core, k = gangD.cur.core ∨ ((gangD.core k).gangAt).isSome = true)
    ∧ (∃ k ∈ rowCores gangD.cur.core, (gangD.core k).gangAt = some { arr with k := 2 })
    ∧ (∀ k ∈ rowCores gangD.cur.core, let x := gangD.ctx (ctxAt k (if k = gangD.cur.core then 0 else 1))
        x.frame = none ∧ x.tb = false ∧ (x.cwv 0x005).getLsbD 7 = true ∧ x.cwv 0x004 ≠ 0) :=
  ⟨rfl, .inl ⟨rfl, rfl⟩, rfl, rfl, by decide, by decide, by decide, by decide⟩
/-- A load and a store in the wait table, on an empty word and on a full one. -/
def waitQ (op : TagOp) : TagReq := ⟨c1, 9, k0, 0x100, op, 77, none, false, 0⟩
def wakeS (op : TagOp) (full : Bool) : State :=
  { inCtx c1 { userX with wait := .tagged 9 (some 5) (some 6) none } with
    tags := if full then [tagKey k0 0x100] else [], cores := [(0, { tagWaits := [waitQ op] })] }
theorem wit_TagWakes : ((wakeS .ldf true).core (waitQ .ldf).core).tagWaits = [waitQ .ldf]
    ∧ ((wakeS .ldf true).core (waitQ .ldf).issuer.core).stashAt 0x100 = none
    ∧ ((wakeS .ste false).ctx (waitQ .ste).issuer).wait = .tagged 9 (some 5) (some 6) none
    ∧ (wakeS .ldfe true).poisAt (localLoc k0 0x100) 8 = false
    ∧ (wakeS .ldf true).full k0 0x100 = true ∧ (wakeS .ste false).full k0 0x100 = false
    ∧ (wakeS .ldf false).full k0 0x100 = (TagOp.ldf == .ste) ∧ (wakeS .ste true).full k0 0x100 = (TagOp.ste == .ste)
    ∧ (tagS true 0).PlainLocal ((tagS true 0).g 1) 8 ∧ (tagS true 0).Clean [1, 2] [] :=
  ⟨by decide, by decide, by decide, by decide, by decide, by decide, by decide, by decide,
    plainLane rfl (by decide) (by decide) (by decide), rfl⟩
/-- Window 0 over the line at local offset 64, of a region, with its line as given, and its DRAM line at 0x80. -/
def lineX (n : Nat) (st : Table (Option StashLine)) (on : Bool) : Core :=
  { cw := [(cwSWL, word (2 ^ 63 + n * 2 ^ 48 + 2 ^ 32 + 64)), (cwSWV, 0x40000080)], stash := st,
    dtlb := if on then [⟨0, 1, 3, 0, 0x4F, 0⟩] else [] }
def stS (n : Nat) (st : Table (Option StashLine)) (on : Bool) : State :=
  { inCtx c0 { userX with g := [(1, 72), (2, 0x1122334455667788)] } with
    cores := [(0, lineX n st on), (1, { stash := [(3, some ⟨0x80, false, false⟩)] })] }
def stT (n : Nat) (st : Table (Option StashLine)) (on : Bool) : State := { stS n st on with cores := [(0, lineX n st on)] }
def stAddr : Word := MemForm.ea ⟨false, 8, false, 6, 1, 0⟩ (stS 0 [] true)
theorem wit_StashAccess : memForm (.ldD 6 1 0) = some ⟨false, 8, false, 6, 1, 0⟩ ∧ memForm (.stD 2 1 0) = some ⟨true, 8, false, 2, 1, 0⟩
    ∧ (stS 0 [] true).Clean [1] [] ∧ (stS 0 [] true).Clean [1, 2] [] ∧ (stS 0 [] true).NoBreak ∧ stAddr.toNat = 72
    ∧ (stS 0 [] true).myCore.stashAt 72 = some (stashKey 0 ((72 - 64) / 64))
    ∧ ((stS 0 [] true).myCore.swl 0).toNat % 2 ^ 18 = 64
    ∧ (stS 5 [] true).myCore.stashRegion 0 ≠ (stS 5 [] true).regionOf c0 ∧ (stS 0 [] true).myCore.stashRegion 0 = (stS 0 [] true).regionOf c0
    ∧ tget none (stS 0 [(0, some ⟨0x80, true, false⟩)] true).myCore.stash 0 = some ⟨0x80, true, false⟩
    ∧ tget none (stS 0 [(0, some ⟨0x80, false, false⟩)] true).myCore.stash 0 = some ⟨0x80, false, false⟩
    ∧ (stS 0 [(0, some ⟨0x80, true, false⟩)] true).poisAt (localLoc k0 72) 8 = false
    ∧ ((stS 0 [(0, some ⟨0x80, false, false⟩)] true).core ⟨0, 0, 1⟩).stash = [(3, some ⟨0x80, false, false⟩)]
    ∧ tget none (stS 0 [] true).myCore.stash 0 = none
    ∧ ((stS 0 [] false).translate k0 0 0x40000080 false).2 = .absent
    ∧ ((stT 0 [] true).translate k0 0 0x40000080 false).2 = .ok 0x80 ⟨0, 1, 3, 0, 0x4F, 0⟩
    ∧ TlbEntry.allows ⟨0, 1, 3, 0, 0x4F, 0⟩ true false false false = true ∧ TlbEntry.allows ⟨0, 1, 3, 0, 0x49, 0⟩ true false false false = false
    ∧ ((stT 0 [] true).translate k0 0 0x40000080 false).1.dramOk 0x80 = true
    ∧ ((stT 0 [] true).translate k0 0 0x40000080 false).1.holders 0x80 = []
    ∧ ((stT 0 [] true).translate k0 0 0x40000080 false).1.pois = []
    ∧ ((stT 0 [] true).translate k0 0 0x40000080 false).1.vaultBad 0x80 = false := by
  refine ⟨rfl, rfl, rfl, rfl, noBreak_empty rfl, ?_⟩
  decide +kernel
/-- MFILL with its lines not yet there, and with both there. -/
def task3 : Task := { task0 with msg := { plainTask with colour := 3 } }
def fillX (rb : List (Nat × Byte)) (colour : Word) : State :=
  let s := fillS 0x40000040 0x800100020003FF80
  { s with ctxs := [(c0.key, { s.my with rbuf := rb, task := if colour = 0 then some task0 else some task3 })],
           cores := [(0, { mapCore 0 with cw := [(cwLMCOL, colour)] })] }
def fullBuf : List (Nat × Byte) := (List.range 128).map (fun n => (0x40 + n, 7))
theorem wit_MfillResult_lines : ((fillX fullBuf 0).rangePas 0x40000040 2).2 = some [0x40, 0x80]
    ∧ (∀ pa ∈ [0x40, 0x80], ((fillX [] 0).rangePas 0x40000040 2).1.farHave pa 64 = false)
    ∧ 0 < ((fillX [] 0).rangePas 0x40000040 2).1.mayTake c0
    ∧ (∀ pa ∈ [0x40, 0x80], ((fillX fullBuf 0).rangePas 0x40000040 2).1.farHave pa 64 = true)
    ∧ ((fillX fullBuf 0).rangePas 0x40000040 2).1.my.rpois = []
    ∧ ((fillX fullBuf 0).rangePas 0x40000040 2).1.mayIssue c0 1 = true
    ∧ (∃ j, j < 16 ∧ (0x8001 : Nat).testBit j = true
        ∧ ((fillX [] 5).rangePas 0x40000040 2).1.colourOk (c0.core.cluster.coreAt j) (((fillX [] 5).rangePas 0x40000040 2).1.colourOf c0) = false) := by
  refine ⟨by decide +kernel, by decide +kernel, by decide +kernel, by decide +kernel, by decide +kernel, by decide +kernel, ?_⟩
  exact ⟨0, by decide, by decide, by decide +kernel⟩
/-- A task whose frame has tiles to read, with an older store waiting; its store's request. -/
def tileF : Frame := ⟨[encode (.mmaBf16 1 2), 0], 0, 0, 0, 3, 0, 0⟩
def lateX (fr : Bool) (n : Nat) : Ctx := { userX with g := [(1, 0x3FFF8), (2, 7)], late := n, frame := if fr then some tileF else none }
def heldR : Request := ⟨c0, 7, localLoc k0 0x3FFF8, .write [1, 2, 3, 4, 5, 6, 7, 8] 0, 0, 0, 0⟩
def lateS (fr : Bool) (n : Nat) (own : Bool) : State := { inCtx c0 (lateX fr n) with event := .heldStore heldR own, cores := [(0, mapCore 0)] }
theorem wit_OrderingInstructions_held : (lateS true 0 true).my.tilesAhead = true ∧ 0 < (lateS false 1 true).my.late
    ∧ (lateS true 0 true).Clean [1, 2] [] ∧ (lateS true 0 true).PlainLocal ((lateS true 0 true).g 1) 8
    ∧ (lateS true 1 true).event = .heldStore heldR true ∧ heldR.kind = .write [1, 2, 3, 4, 5, 6, 7, 8] 0
    ∧ ((lateS true 1 true).ctx heldR.issuer).tilesAhead = true ∧ ((lateS false 1 true).ctx heldR.issuer).tilesAhead = false
    ∧ paOff heldR.pa + 8 ≤ 0x40000 ∧ paDev heldR.pa = (lateS false 1 false).dev ∧ paOnDie heldR.pa = true
    ∧ paOnDie { heldR with pa := 0x40 }.pa = false
    ∧ ((lateS false 1 true).access (.stl .d .cls 1 2) winA ⟨8, false, true, false, true, false⟩).2 = some (.core (localLoc k5 8))
    ∧ ((lateS true 0 true).access (.stl .d .cls 1 2) winA ⟨8, false, true, false, true, false⟩).1.mayIssue c0 1 = true
    ∧ ((lateS true 0 true).my.cwv cwMCHSEL).getLsbD 63 = false := by
  refine ⟨by decide +kernel, by decide +kernel, rfl, plainLane rfl (by decide +kernel) (by decide +kernel) rfl, rfl, rfl, ?_⟩
  decide +kernel
/-- A walk of region 0: the address of an entry of a table at DRAM offset 0x400000, with one entry of level 1 as given. -/
def walkS (d0 d1 : Nat) : State := { userS with mem := memPuts [] (paLoc 0x400010) (leBytes 8 d0 ++ leBytes 8 d1) }
theorem wit_TableWalk : (walkS 0x200047 0).Quiet ∧ paDev 0x400000 = (walkS 0 0).dev ∧ (walkS 0 0).dramOk 0x400010 = true
    ∧ (walkS 0 0).dramOk 0x1000000000 = false ∧ 0x1000 / 2 ^ (9 * 1 + 3) % 2 ^ 9 = 1
    ∧ (((walkS 0 0).poke (paLoc 0x400010) [0] true).homeRead 0x400010 16 0 (some k0)).readBad (paLoc 0x400010) 16 = true
    ∧ ((walkS 0x200047 0).dword (paLoc 0x400010)).getLsbD 0 = true ∧ ((walkS 0x200047 0).dword (paLoc 0x400010)).getLsbD 6 = true
    ∧ ((walkS 0x200046 0).dword (paLoc 0x400010)).getLsbD 0 = false
    ∧ ((walkS 0x200147 0).dword (paLoc 0x400010)).toNat / 2 ^ 8 % 2 ^ 4 ≠ 0
    ∧ ((walkS 0x200047 0).dword (paLoc 0x400010)).toNat / 2 ^ 8 % 2 ^ 4 = 0
    ∧ ((walkS 0x200047 0).dword (paLoc 0x400010)).toNat / 2 ^ 56 = 0
    ∧ ((walkS 0x200047 0).dword (paLoc 0x400018)).toNat / 2 ^ 25 = 0
    ∧ ((walkS 0x800001 0).dword (paLoc 0x400010)).getLsbD 6 = false ∧ ((walkS 0x800001 0).dword (paLoc 0x400010)).toNat / 2 % 2 ^ 5 = 0
    ∧ paOnDie 0x200000 = false ∧ paDev 0x200000 < (walkS 0 0).dlim ∧ (walkS 0 0).dlim ≤ paDev (2047 * 2 ^ 45) := by
  refine ⟨⟨rfl, by decide, by decide, by decide⟩, ?_⟩
  decide +kernel
/-- A read-only page, a page not executable, an address of no page, in task mode; a context that has parked. -/
def pageS (flags : Word) (a : Word) : State := { atS a with cores := [(0, { dtlb := [⟨0, 1, 3, 0, flags, 0⟩], itlb := [⟨0, 1, 3, 0, flags, 0⟩] })] }
def parkS (plim failed : Nat) : State :=
  inCtx c0 { task := some { task0 with basic := { plim := plim } }, wait := .parked 4 0x40000000 0 512 failed 0x40000000 0 }
theorem wit_AccessTranslated : (pageS 0x43 0x40000040).Clean [1] [] ∧ 0x200000 ≤ ((pageS 0x43 0x40000040).g 1).toNat
    ∧ ((pageS 0x43 0x40000040).translate k0 0 0x40000040 false).2 = .ok 0x40 ⟨0, 1, 3, 0, 0x43, 0⟩
    ∧ ((pageS 0x43 0x80000000).translate k0 0 0x80000000 false).2 = .absent
    ∧ ((pageS 0x43 0).translate k0 0 0x40000040 true).2 = .ok 0x40 ⟨0, 1, 3, 0, 0x43, 0⟩
    ∧ (0x43 : Word).getLsbD 2 = false ∧ (0x43 : Word).getLsbD 3 = false ∧ (0x45 : Word).getLsbD 1 = false ∧ (0x5F : Word).getLsbD 4 = true
    ∧ (pageS 0x43 0).sup c0 = false ∧ (pageS 0x43 0).my.fq.find? (fun f => f.va == 0x40000040) = none
    ∧ (parkS 3 1).my.wait = .parked 4 0x40000000 0 512 1 0x40000000 0 ∧ ((parkS 3 1).basicOf c0).plim = 3
    ∧ 1 + 1 < 3 ∧ 3 ≤ 2 + 1 ∧ ((parkS 0 9).basicOf c0).plim = 0 := by
  refine ⟨rfl, ?_⟩
  decide +kernel
/-- A table whose root lies outside DRAM. -/
theorem wit_AccessTranslated_walkFault :
    trKind (((atS 0x40000040).regPut 0 21 (2 ^ 36)).translate k0 0 0x40000040 false) = (2, []) := by decide +kernel
/-- Window addresses of a task of colour 3: a core of another colour, and a core of device 1 of which nothing is known. -/
def winS (a : Word) (rb : List (Nat × Byte)) : State :=
  { inCtx c0 { task := some task3, g := [(1, a)], rbuf := rb } with cores := [(k5.key, { cw := [(cwLMCOL, 5)] })] }
theorem wit_LoadStoreByPlace_colour : (winS winA []).Clean [1] [] ∧ (winS winA []).place winA = .win (localLoc k5 8)
    ∧ areaOf (paOff (localLoc k5 8)) = .mem ∧ (winS winA []).windowOk c0 (localLoc k5 8) = false
    ∧ (winS farA []).place farA = .win (2 ^ 45 + localLoc k5 8) ∧ (winS farA []).windowOk c0 (2 ^ 45 + localLoc k5 8) = true
    ∧ (winS farA []).colourKnown (2 ^ 45 + localLoc k5 8) = false
    ∧ (winS farA [(colourKey (2 ^ 45 + localLoc k5 8), 0)]).windowOk c0 (2 ^ 45 + localLoc k5 8) = false := by
  refine ⟨rfl, ?_⟩
  decide +kernel
/-- An armed command with LCV, alone on the core. -/
def armD : Command := cmdOf 128 0 0x3FF80 0xBF00000000000000 .engine (.armed 63 5)
theorem wit_EngineCompletions_cancel : (((reqS (copyX []) 0 { cmds := [armD] }).core c0.core).port 0).cmds = [armD] ∧ armD.ctx = c0.ctx.val
    ∧ armD.state = .armed 63 5 ∧ (∀ q, q < 4 → q ≠ 0 → (((reqS (copyX []) 0 { cmds := [armD] }).core c0.core).port q).cmds = [])
    ∧ armD.w3.getLsbD 63 = true ∧ c0.isHandler = false ∧ ((reqS (copyX []) 0 { cmds := [armD] }).ctx c0).wait = .none
    ∧ ((reqS (copyX []) 0 { cmds := [armD] }).ctx c0).task = some task0
    ∧ h0.isHandler = true ∧ (inCtx h0 handX |>.ctx h0).wait = .none
    ∧ (({ inCtx h0 handX with cores := [(0, { ports := [(0, { cmds := [{ armD with ctx := 4 }] })] })] }.core k0).port 0).cmds
      = [{ armD with ctx := 4 }] := by decide
/-- Indices 3, 9 and 0, of which the middle one is out of range: the row before it is in range. -/
theorem wit_IndexEngine_bad : (cIdx 0 true [3, 9, 0]).w0.toNat % 2 ^ 32 = 3 ∧ (cIdx 0 true [3, 9, 0]).w2.toNat % 2 ^ 18 + 3 * 8 ≤ 0x40000
    ∧ [(3 : BitVec 32), 9, 0].takeWhile (fun x => !(decide (4 ≤ x.toNat) || decide (2 ^ 31 ≤ x.toNat))) = [3]
    ∧ [(3 : BitVec 32), 9, 0].countP (fun x => decide (4 ≤ x.toNat) || decide (2 ^ 31 ≤ x.toNat)) = 1
    ∧ apart (keyOf 3) 8 (localLoc k0 (0x3FFE8 + 0 * 8)) (3 * 8) ∧ ((engS 1 (cIdx 0 false [3, 9, 0]) .fieldTick).core k0).cwv cwECNT = 0 := by
  unfold apart
  decide
/-- PCHK in reach of its bound and past its run; poisoned input; a poisoned reference. -/
theorem wit_PalimpsestDecisions :
    let s := dirS (.pchk 0x3F800000 4) 5 [dirE 4 16 4]
    s.Started k0 3 (dirC (.pchk 0x3F800000 4) 5) ∧ s.event = .directoryOperation k0 7
    ∧ (∀ p ∈ s.cores, p.2.stash = []) ∧ (∀ p ∈ s.clusters, p.2.vaultFailed = false)
    ∧ (∀ p ∈ s.clusters, ∀ e ∈ p.2.lines, ∀ l, e.2 = some l → l.bad = false)
    ∧ s.palStep (s.palRegion 0) = 5 ∧ (s.regEff 0 20).getLsbD 63 = false ∧ (s.die 0).entry 0 9 = some (dirE 4 16 4)
    ∧ s.pois = [] ∧ 4 ≤ (dirE 4 16 4).run
    ∧ palPass 0x3F800000 (palSums (fwords 16 (s.bytes (localLoc k0 0x100) 64)) (fwords 16 (s.bytes (s.palRef 0 0 3) 64)) 0 0).1 0 = true
    ∧ (s.poke (localLoc k0 0x100) [0] true).poisAt (localLoc k0 0x100) 64 = true
    ∧ (s.poke (localLoc k0 0x100) [0] true).readBad (s.palRef 0 0 3) 64 = false
    ∧ (s.poke (localLoc k0 0x100) [0] true).readBad (s.palRes 0 0 3) 64 = false
    ∧ (s.poke (s.palRef 0 0 3) [0] true).readBad (s.palRef 0 0 3) 64 = true := by
  refine ⟨⟨by decide, by decide⟩, ?_⟩
  decide +kernel
/-- PREC of block 9 with no entry of it: with room, with the region's 16 slots taken, in a region of none. -/
def otherE (n : Nat) : DirEntry := ⟨0, 100 + n, 4, n, 16, 64, 0, n⟩
def recS (pm : Nat) (d : List DirEntry) : State := { (dirS .prec 5 []).regPut 0 19 (5 * 2 ^ 48 + pm * 2 ^ 35 + 1) with dies := [(0, { dir := d })] }
theorem wit_PalimpsestDecisions_new : (recS 16 [otherE 0, otherE 2]).palMax 0 = 16
    ∧ (recS 0 []).palMax 0 = 0 ∧ ((recS 16 []).die 0).entry 0 9 = none ∧ (recS 16 [otherE 0]).pois = []
    ∧ ((recS 16 [otherE 0, otherE 2]).die 0).dir.length < 4096 ∧ 2 < (recS 16 []).palMax 0
    ∧ (∀ e ∈ [otherE 0, otherE 2], e.slot ≠ 1) ∧ (∀ i, i < 1 → ∃ e ∈ [otherE 0, otherE 2], e.slot = i)
    ∧ (recS 2 []).palMax 0 ≤ [otherE 0, otherE 1].length
    ∧ (∀ e ∈ [otherE 0, otherE 1], e ≠ otherE 0 → e.block ≠ (otherE 0).block ∧ ((otherE 0).checked < e.checked
        ∨ ((otherE 0).checked = e.checked ∧ (otherE 0).block < e.block)))
    ∧ (∀ e ∈ [otherE 0, otherE 1], e ≠ otherE 0 → e.slot ≠ 0) := by
  decide +kernel
/-- FP32 numbers: 2, 3, 2^-128, a number past 2^126, 1/2. -/
theorem f32_two : f32Val 0x40000000 = 2 := by norm_num [f32Val, fval, ffrac, Nat.testBit_eq_decide_div_mod_eq]
theorem f32_three : f32Val 0x40400000 = 3 := by norm_num [f32Val, fval, ffrac, Nat.testBit_eq_decide_div_mod_eq]
theorem f32_half : f32Val 0x3F000000 = 1 / 2 := by norm_num [f32Val, fval, ffrac, Nat.testBit_eq_decide_div_mod_eq]
theorem no_power (n : Int) : (3 : ℚ) ≠ (2 : ℚ) ^ n := by
  intro h
  rcases le_or_gt n 1 with l | l
  · have := zpow_le_zpow_right₀ (by norm_num : (1 : ℚ) ≤ 2) l
    rw [← h] at this
    norm_num at this
  · have := zpow_le_zpow_right₀ (by norm_num : (1 : ℚ) ≤ 2) (show (2 : Int) ≤ n by omega)
    rw [← h] at this
    norm_num at this
theorem wit_FloatBounds : f32Val 0x40000000 = (2 : ℚ) ^ (1 : Int) ∧ (∀ n : Int, |f32Val 0x40400000| ≠ (2 : ℚ) ^ n)
    ∧ 0 < 0x40400000 % 2 ^ 31 ∧ 0x40400000 % 2 ^ 31 < 0x7F800000 ∧ f32Val 0x40800000 = (4 : ℚ) ^ (1 : Int)
    ∧ |f32Val 0x00200000| ≤ (2 : ℚ) ^ (-128 : Int) ∧ (2 : ℚ) ^ (126 : Int) < |f32Val 0x7E800001|
    ∧ 128 ≤ f32Val 0x43000000 ∧ f32Val 0xC2FE0000 < -126 ∧ (2 : ℚ) ^ (-128 : Int) < |f32Val 0x40400000|
    ∧ |f32Val 0x40400000| ≤ (2 : ℚ) ^ (126 : Int) := by
  refine ⟨by rw [f32_two]; norm_num, by rw [f32_three]; norm_num; exact no_power, by decide, by decide, ?_, ?_, ?_, ?_, ?_, ?_, ?_⟩ <;>
    norm_num [f32Val, fval, ffrac, Nat.testBit_eq_decide_div_mod_eq]
theorem wit_Exp2Bound : 0x3F000000 % 2 ^ 31 < 0x7F800000 ∧ -126 ≤ f32Val 0x3F000000 ∧ f32Val 0x3F000000 < 128
    ∧ ∀ n : Int, f32Val 0x3F000000 ≠ n := by
  rw [f32_half]
  refine ⟨by decide, by norm_num, by norm_num, fun n h => ?_⟩
  have : (1 : ℚ) = 2 * n := by rw [← h]; norm_num
  have : (1 : Int) = 2 * n := by exact_mod_cast this
  omega
theorem wit_ConversionFlags : vecS.InSlot ∧ vecS.Clean [] [1] ∧ (2 : Nat) < 4 ∧ 0x3F808000 % 2 ^ 31 < 0x7F800000
    ∧ 0x3F808000 % 2 ^ 16 ≠ 0 ∧ 0x3F800000 % 2 ^ 16 = 0 ∧ 0x7F800000 < 0x7FC00001 % 2 ^ 31 :=
  ⟨rfl, rfl, by decide, by decide, by decide, by decide, by decide⟩
/-- Armed entries at the limits: one of the region (ARMMAX 1), and 128 of another region. -/
theorem wit_Spawns_arms : sp0.armsOf ⟨0, 0⟩ 0 = 0 ∧ sp0.budgetArm 0 = 1 ∧ (spS 0x1000 1 0x80000 (openCl [armedE 1] 0) {}).armsOf ⟨0, 0⟩ 0 = 1
    ∧ sp0.armsIn ⟨0, 0⟩ < 128
    ∧ 128 ≤ (spS 0x1000 1 0x80000 (openCl (List.replicate 128 { armedE 1 with msg := { (armedE 1).msg with region := 7 } }) 0) {}).armsIn ⟨0, 0⟩
    ∧ (spS 0x1000 1 0x80000 (openCl (List.replicate 128 { armedE 1 with msg := { (armedE 1).msg with region := 7 } }) 0) {}).armsOf ⟨0, 0⟩ 0 = 0 := by
  decide +kernel
/-- Requests of device 1 for counter 0 of core 0: an armed task, a cancel. -/
def farReq (k : ReqKind) : Request := ⟨c1, 7, localLoc k0 0x80000, k, 0, 0, 0⟩
def farS (q : List QEntry) (k : ReqKind) : State := armS q (.remoteRequest 1 (farReq k))
theorem wit_FarSpawns : (farS [] (.arm (armedE 1).msg)).event = .remoteRequest 1 (farReq (.arm (armedE 1).msg)) ∧ 1 ≠ (farS [] .fill).dev
    ∧ paDev (farReq .fill).pa = (farS [] .fill).dev ∧ paOnDie (farReq .fill).pa = true ∧ paCluster (armedE 1).msg.trig = ⟨0, 0⟩
    ∧ (farS [] .fill).regValid 0 = true ∧ ((farS [] .fill).cluster ⟨0, 0⟩).failed = false
    ∧ (farS [] .fill).armsOf ⟨0, 0⟩ 0 < (farS [] .fill).budgetArm 0 ∧ (farS [] .fill).armsIn ⟨0, 0⟩ < 128
    ∧ (farS [armedE 1] .fill).budgetArm 0 ≤ (farS [armedE 1] .fill).armsOf ⟨0, 0⟩ 0
    ∧ (farReq (.cancel 2)).kind = .cancel 2 ∧ ((farS [armedE 1, armedE 2] .fill).cluster (paCluster (farReq .fill).pa)).rings = [] := by
  decide +kernel
/-- A SPAWNTRIG that was told, a SPAWNAT that was recalled, decided and not. -/
def toldS (w : Wait) (e : Event) (ans : Table Nat) : State :=
  { tree { inCtx c0 { userX with wait := w } with clusters := [(0, openCl [] 0)] } with
    event := e, plat := { userS.plat with answered := ans } }
theorem wit_FarSpawns_answers :
    ((toldS (.told 9 5 (some msgA)) (.atomicReply c0 9 2 false false) []).ctx c0).wait = .told 9 5 (some msgA)
    ∧ (toldS (.told 9 5 none) (.atomicReply c0 9 2 false false) []).event = .atomicReply c0 9 2 false false ∧ (2 : Word) ≠ 0
    ∧ (toldS .none (.spawnatCancel 1 k0 c1 9 2) [(callerKey 1 c1, 9)]).event = .spawnatCancel 1 k0 c1 9 2
    ∧ tget 0 (toldS .none .fieldTick [(callerKey 1 c1, 9)]).plat.answered (callerKey 1 c1) = 9
    ∧ tget 0 (toldS .none .fieldTick []).plat.answered (callerKey 1 c1) ≠ 9
    ∧ (toldS (.recalled 9 (2 ^ 45) msgA 5) (.spawnatAnswer c0 9 3) []).event = .spawnatAnswer c0 9 3
    ∧ ((toldS (.recalled 9 (2 ^ 45) msgA 5) (.spawnatAnswer c0 9 1) []).ctx c0).wait = .recalled 9 (2 ^ 45) msgA 5 := by decide
theorem wit_TaskEnds_far : (tcS 0 (farA - 8 + 0x80000)).counterPa ((tcS 0 (farA - 8 + 0x80000)).g 2) = some (2 ^ 45 + localLoc k5 0x80000)
    ∧ paDev (2 ^ 45 + localLoc k5 0x80000) ≠ (tcS 0 (farA - 8 + 0x80000)).dev := by decide
/-- A pinned launch at a cluster that failed, and at one that is closed; an armed task at one that failed. -/
def badCl (closed : Bool) : State := { armS [] .fieldTick with clusters := [(0, { closed := closed, failed := !closed })] }
theorem wit_Placement_pinned : ((badCl false).cluster ⟨0, 0⟩).failed = true ∧ ((badCl true).cluster ⟨0, 0⟩).failed = false
    ∧ ((badCl true).cluster ⟨0, 0⟩).closed = true ∧ { msgA with typ := 2 }.typ = 2 ∧ (armedE 1).msg.cat / 2 ^ 37 = (badCl false).dev
    ∧ { badCl false with event := .armedTaskArrival ⟨0, 0⟩ (armedE 1).msg }.event = .armedTaskArrival ⟨0, 0⟩ (armedE 1).msg
    ∧ 256 ≤ (List.replicate 256 (armedE 1)).length := by decide +kernel
/-- A saved entry alone in the queue, its record in use. -/
def savedE : QEntry := ⟨{ msgA with typ := 3 }, 4, 1, 1, 0, 4⟩
def restS : State := (saveS [] [savedE] (.dispatch ⟨0, 0⟩)).pokeD 0x100000 2
theorem wit_Restores : restS.event = .dispatch ⟨0, 0⟩ ∧ (restS.cluster ⟨0, 0⟩).dispatched ≠ some restS.time
    ∧ (restS.cluster ⟨0, 0⟩).queue = [savedE] ∧ (restS.cluster ⟨0, 0⟩).rings = [] ∧ savedE.msg.typ = 3
    ∧ restS.ready ⟨0, 0⟩ savedE = true ∧ restS.slotFor ⟨0, 0⟩ savedE = some c0 := by decide +kernel
theorem restS_quiet : restS.Quiet := ⟨rfl, by decide, by decide, by decide⟩
/-- A full cluster with a ring of four slots at DRAM offset 0x200000, of which `held` hold a record. -/
def spillS (depth held : Nat) (q : List QEntry) (e : Event) : State :=
  { (tree userS).regPut 0 15 (0x200000 + depth * 2 ^ 40) with event := e, clusters := [(0, { openCl q 0 with
      rings := if held = 0 then [] else [(0, ⟨1, (1 + held) % 4, held, (List.range held).map (fun n => { readyE with stamp := n })⟩)] })] }
theorem quiet_spillS : (spillS 4 1 [] (.taskPlacement ⟨0, 0⟩ msgA 0)).Quiet ∧ (spillS 4 2 [armedE 1] (.armedRelease ⟨0, 0⟩ 1)).Quiet :=
  ⟨⟨rfl, by decide, by decide, by decide⟩, ⟨rfl, by decide, by decide, by decide⟩⟩
theorem wit_Spilling : (spillS 4 1 [] (.taskPlacement ⟨0, 0⟩ msgA 0)).event = .taskPlacement ⟨0, 0⟩ msgA 0 ∧ msgA.typ ≠ 2 ∧ msgA.cost ≠ 0
    ∧ ((spillS 4 1 [] .fieldTick).cluster ⟨0, 0⟩).placed ≠ some 0 ∧ (spillS 4 1 [] .fieldTick).verdict ⟨0, 0⟩ msgA = .stay
    ∧ 0 < ((spillS 4 1 [] .fieldTick).ring ⟨0, 0⟩ 0).held ∧ ((spillS 4 1 [] .fieldTick).ring ⟨0, 0⟩ 0).held < (spillS 4 1 [] .fieldTick).spillDepth 0
    ∧ (spillS 4 1 [] .fieldTick).areaBacked ((spillS 4 1 [] .fieldTick).spillLoc ⟨0, 0⟩ 0 0) (128 * 4) = true
    ∧ (spillS 4 4 [] .fieldTick).spillDepth 0 ≤ ((spillS 4 4 [] .fieldTick).ring ⟨0, 0⟩ 0).held
    ∧ (spillS 4 2 [armedE 1] (.armedRelease ⟨0, 0⟩ 1)).event = .armedRelease ⟨0, 0⟩ 1
    ∧ ((spillS 4 2 [armedE 1] .fieldTick).cluster ⟨0, 0⟩).queue = [] ++ armedE 1 :: []
    ∧ ((spillS 4 2 [armedE 1] .fieldTick).ring ⟨0, 0⟩ 0).entries = { readyE with stamp := 0 } :: [{ readyE with stamp := 1 }]
    ∧ (∀ x ∈ ((spillS 4 2 [armedE 1] .fieldTick).cluster ⟨0, 0⟩).rings, x.1 ≠ 0 → ∀ f ∈ x.2.entries.head?, (0 : Nat) < f.stamp) := by
  decide +kernel
/-- A load of a page with MIG set whose home lies on die 1, and on device 1; a cluster of die 1 backs its first lines. -/
def migPage (pa : Nat) : TlbEntry := ⟨0, 1, 3, pa, 0x6F, 0⟩
def migT (pa n : Nat) : State :=
  { inCtx c0 { userX with g := [(1, 0x40000000), (2, 3)] } with cores := [(0, { dtlb := [migPage pa], outs := List.replicate n (busy 0) })] }
def migU (pa n : Nat) : State := ((migT pa n).translate k0 0 0x40000000 false).1
theorem wit_MigrationSource : (migT 0 0).Clean [1] [] ∧ ((migT (2 ^ 43) 0).translate k0 0 0x40000000 false).2 = .ok (2 ^ 43) (migPage (2 ^ 43))
    ∧ (migPage 0).allows true false false false = true ∧ (migPage 0).flags.getLsbD 5 = true ∧ (migU (2 ^ 43) 0).dramOk (2 ^ 43) = true
    ∧ (migU (2 ^ 43) 0).mayMigrate (2 ^ 43) = true ∧ (migU (2 ^ 43) 0).my.task = some task0 ∧ (migU (2 ^ 43) 0).my.frame = none
    ∧ (migU (2 ^ 43) 0).anyOut c0 = false ∧ (migU (2 ^ 43) 1).anyOut c0 = true ∧ ((migU (2 ^ 43) 0).homeOf (2 ^ 43)).isSome = true
    ∧ paDev (2 ^ 43) = (migU (2 ^ 43) 0).dev
    ∧ ((migT (2 ^ 45) 0).translate k0 0 0x40000000 false).2 = .ok (2 ^ 45) (migPage (2 ^ 45)) ∧ (migU (2 ^ 45) 0).mayMigrate (2 ^ 45) = true
    ∧ (migU (2 ^ 45) 0).dramOk (2 ^ 45) = true ∧ paDev (2 ^ 45) ≠ (migU (2 ^ 45) 0).dev
    ∧ { migS 0 with event := .migrationAnswer c0 (some 1) }.event = .migrationAnswer c0 (some 1)
    ∧ ((migS 0).regEff 0 20).getLsbD 63 = false ∧ smem task0.msg.cat (migS 0).plat.faultHandlers = false := by
  refine ⟨rfl, ?_⟩
  decide +kernel
/-- Annals of region 0 with task ends enabled at DRAM offset 0x200000, 512 words, WR and RD at 3. -/
def annS : State := ((((tree userS).regPut 0 20 (2 ^ 63 + 2 ^ 56 + 0x20)).pokeD 0x200000 3).pokeD 0x200008 3)
theorem annS_quiet : annS.Quiet := by
  have c : annS.clusters = [] := by
    simp only [annS, State.pokeD, State.poke]
    exact regPut_clusters_nil (tree_clusters_nil rfl) _ _ _
  have k : annS.cores = [] := rfl
  exact ⟨rfl, by simp [k], by simp [c], by simp [c]⟩
theorem wit_AnnalsAtExit : annS.InSlot ∧ annS.my.task = some task0 ∧ annS.my.wait = .none ∧ (annS.my.cwv cwTSTAT).getLsbD 2 = false
    ∧ (annS.regEff 0 20).getLsbD 63 = true ∧ (annS.regEff 0 20).getLsbD 56 = true
    ∧ dramLoc 0 ((annS.regEff 0 20).toNat % 2 ^ 20 * 65536) = 0x200000 ∧ (annS.regEff 0 20).toNat / 2 ^ 52 % 16 = 0
    ∧ annS.areaBacked 0x200000 (64 + 8 * 512) = true ∧ (annS.dword 0x200000).toNat + 5 < 512 ∧ annS.dword 0x200008 = annS.dword 0x200000
    ∧ annS.dword 0x200010 = 0 ∧ annS.regLoc 0 14 + 8 ≤ 0x200000 :=
  ⟨rfl, by decide +kernel⟩
theorem wit_Fields_stay : ((loopS 8 59).cluster ⟨0, 0⟩).stayAt (loopS 8 59).time = 9
    ∧ ({ evS (.dieFailure 3) with dies := [(3, { failed := true })] }.die 3).failed = true := by decide
/-- Core 0 with 28 low messages in its inbox and a ring of two slots at DRAM offset 0x200000, of which those listed are used. -/
def ringS (n : Nat) (depth : Nat) (slots : List Nat) (e : Event) : State :=
  { (tree userS).regPut 0 22 (0x200000 + depth * 2 ^ 40) with event := e, cores := [(0, { tabCore 0 with
      inbox := List.replicate n inA, spillSlots := slots })] }
theorem wit_InboxRing : (ringS 28 2 [] (.messageArrival k0 addM)).event = .messageArrival k0 addM ∧ addM.typ = 5
    ∧ (ringS 28 2 [] .fieldTick).accepts k0 (askM 0) = true
    ∧ 27 < ((ringS 28 2 [] .fieldTick).core k0).inbox.length ∧ (ringS 0 2 [0] .fieldTick).ringSlots k0 false ≠ []
    ∧ ((ringS 28 2 [] .fieldTick).regEff 0 22).toNat / 2 ^ 40 % 256 = 2
    ∧ (ringS 28 2 [] .fieldTick).areaBacked ((ringS 28 2 [] .fieldTick).ringLoc k0 0) (128 * 2) = true
    ∧ 1 ∉ ((ringS 28 2 [0] .fieldTick).core k0).spillSlots ∧ (∀ j, j < 1 → j ∈ ((ringS 28 2 [0] .fieldTick).core k0).spillSlots)
    ∧ (∀ i, i < 2 → i ∈ ((ringS 28 2 [0, 1] .fieldTick).core k0).spillSlots) ∧ (askM 0x40).raddr ≠ 0
    ∧ paDev (askM 0x40).raddr = (ringS 28 2 [] .fieldTick).dev := by decide +kernel
theorem quiet_ringS : (ringS 28 2 [] (.messageArrival k0 addM)).Quiet := ⟨rfl, by decide, by decide, by decide⟩
/-- A handler runs in H0, and the ring holds a record of class 0 in slot 0. -/
def refillS (n : Nat) : State :=
  { ringS n 2 [0] (.handlerStart k0 false) with ctxs := [(h0.key, handX)] }
theorem wit_InboxRing_refill : (refillS 0).event = .handlerStart k0 false ∧ ((refillS 0).ctx ⟨k0, 4⟩).handled ≠ none
    ∧ 0 ∈ (refillS 0).ringSlots k0 false ∧ (∀ j ∈ (refillS 0).ringSlots k0 false, j ≠ 0 → False)
    ∧ (refillS 0).ringSlots k0 true = [] ∧ ((refillS 0).core k0).inbox.length + 1 + 0 ≤ 27
    ∧ 27 < ((refillS 27).core k0).inbox.length + 1 + 0 := by decide +kernel
theorem quiet_refillS : (refillS 0).Quiet := ⟨rfl, by decide, by decide, by decide⟩
/-- A store to a page of die 3 of device 1 with MCHSEL naming channel 0; the channel's counts as given. -/
def csPage : TlbEntry := ⟨0, 1, 3, 2 ^ 45 + 3 * 2 ^ 43, 0x4F, 0⟩
def csCh (scnt fcnt : Nat) (fl : List OutFlag) : Channel := { chan fl scnt 0 with die := 3, fcnt := fcnt }
def csX (sel : Word) : Ctx := { task := some task0, g := [(1, 0x40000000), (2, 7)], cw := [(cwMCHSEL, sel)] }
def csS (sel : Word) (ch : Table (Option Channel)) : State :=
  let s := (tree userS).regPut 0 18 (2 * 2 ^ 48 + 0x20)
  { s with ctxs := [(0, csX sel)], cores := [(0, { dtlb := [csPage] })], clusters := [(0, { channels := ch })] }
def csU (sel : Word) (ch : Table (Option Channel)) : State := ((csS sel ch).translate k0 0 0x40000000 false).1
def selOn : Word := 0x8000000000000000
theorem wit_CountedSends : memForm (.stD 2 1 0) = some ⟨true, 8, false, 2, 1, 0⟩ ∧ (csS selOn []).Clean [1, 2] []
    ∧ ((csS selOn []).translate k0 0 0x40000000 false).2 = .ok csPage.pa csPage
    ∧ csPage.allows false true false false = true ∧ (csU selOn []).dramOk csPage.pa = true ∧ csPage.flags.getLsbD 5 = false
    ∧ paDev csPage.pa ≠ (csU selOn []).dev ∧ ((csU selOn []).my.cwv cwMCHSEL).getLsbD 63 = true
    ∧ (csU selOn []).channel ⟨0, 0⟩ 0 = none
    ∧ (csU selOn [(0, some (csCh 5 0 []))]).channel ⟨0, 0⟩ 0 = some (csCh 5 0 []) ∧ (csCh 5 0 []).opening = none
    ∧ (csCh 5 0 []).region = (csU selOn []).regionOf c0 ∧ paDev csPage.pa = (csCh 5 0 []).dev ∧ paDie csPage.pa = (csCh 5 0 []).die
    ∧ 1024 < ((csCh 1024 0 []).scnt + 1 + 65536 - (csCh 1024 0 []).fcnt) % 65536
    ∧ ¬ 1024 < ((csCh 1023 0 []).scnt + 1 + 65536 - (csCh 1023 0 []).fcnt) % 65536
    ∧ (csCh 1024 0 [⟨flagA 1 3, 1⟩]).flags ≠ [] ∧ (0xC000000000000000 : Word).getLsbD 62 = true
    ∧ (csU selOn [(0, some (csCh 5 0 []))]).mayIssue c0 1 = true
    ∧ (csU selOn []).areaBacked ((csU selOn []).journalLoc 0 ⟨0, 0⟩ 0 5) 80 = true := by
  refine ⟨rfl, rfl, ?_⟩
  decide +kernel
theorem quiet_sendU : (csU selOn [(0, some (csCh 5 0 []))]).Quiet ∧ (csU selOn [(0, some (csCh 5 0 []))]).NoBreak :=
  ⟨⟨rfl, by decide +kernel, by decide +kernel, by decide +kernel⟩, noBreak_empty rfl⟩
/-- A release by a task of a colour that knows the colour of the receiving core, and by one that has to ask. -/
def relC (rb : List (Nat × Byte)) : State :=
  let s := rel flagVa 0 []
  { s with ctxs := [(0, { s.my with task := some task3, rbuf := rb })] }
theorem wit_FlagRelease_asks : (relC []).relWindows (chan [] 3 2) flagVa 0 = [] ++ (2 ^ 45 + localLoc k0 0x3FFF8) :: []
    ∧ (relC []).colourKnown (2 ^ 45 + localLoc k0 0x3FFF8) = false
    ∧ (relC [(colourKey (2 ^ 45 + localLoc k0 0x3FFF8), 1)]).colourKnown (2 ^ 45 + localLoc k0 0x3FFF8) = true
    ∧ (relC [(colourKey (2 ^ 45 + localLoc k0 0x3FFF8), 1)]).windowOk c0 (2 ^ 45 + localLoc k0 0x3FFF8) = true
    ∧ (relC [(colourKey (2 ^ 45 + localLoc k0 0x3FFF8), 0)]).windowOk c0 (2 ^ 45 + localLoc k0 0x3FFF8) = false := by decide +kernel
/-- A link with lanes that wait for a quiet point, and the flit that answers. -/
def retiringS (w : Nat) : State :=
  { userS with event := .laneRetirement 0 3, plat := { userS.plat with links := [(0, { up := true, width := w, retiring := 0x8, quiet := 2 })] } }
def quietF : Flit := { flitA 1 false false with quiet := true }
theorem wit_Links_quiet : ((retiringS 16).link 0).retiring ≠ 0 ∧ ((retiringS 16).link 0).quiet ≠ 0 ∧ quietF.quiet = true
    ∧ quietF.fseq = (((retiringS 16).link 0).ack + 1) % 2 ^ 32 ∧ ((linkS 16 0 [] 0 .fieldTick).link 0).retiring = 0
    ∧ 8 ≤ ((linkS 16 0 [] 0 .fieldTick).link 0).width ∧ ((linkS 16 0 [] 0 .fieldTick).link 0).retiring.getLsbD 3 = false
    ∧ ((List.range 16).filter (fun n => ((retiringS 8).link 0).retiring.getLsbD n)).length = 1 := by decide

end Sys2Proof.Tests
end

/-! SUPPORT. The decoder read backwards: a word that decodes is the encoding of the instruction it gives (R7, R30, R31).

A format's word is the given word exactly when each of its fields is (`mkR_eq_iff` and its like). Each map of
the decoder is then split into its rows; in a row the opcode bits, the operands that are read and the reserved bits that
are checked make up every field of the format. -/

namespace Sys2Proof.Proofs.Decoder

open Laws

/-! ### A word by its fields -/

/-- A field laid out as two parts, by its parts. -/
theorem eq_append_iff (m n : Nat) {x : BitVec m} {y : BitVec n} {z : BitVec (m + n)} :
    z = x ++ y ↔ z.extractLsb' n m = x ∧ z.extractLsb' 0 n = y := by
  constructor
  · rintro rfl
    exact ⟨BitVec.extractLsb'_append_eq_left, BitVec.extractLsb'_append_eq_right⟩
  · rintro ⟨rfl, rfl⟩
    exact BitVec.extractLsb'_append_extractLsb'.symm

/-- Two fields are equal when their parts are. -/
theorem eq_iff_parts (m n : Nat) {x y : BitVec (m + n)} :
    x = y ↔ x.extractLsb' n m = y.extractLsb' n m ∧ x.extractLsb' 0 n = y.extractLsb' 0 n := by
  rw [← eq_append_iff, BitVec.extractLsb'_append_extractLsb']

theorem extractLsb'_extractLsb' {k : Nat} (x : BitVec k) {s n t m : Nat} (h : t + m ≤ n) :
    (x.extractLsb' s n).extractLsb' t m = x.extractLsb' (s + t) m := by
  ext i hi
  simp [show t + i < n by omega, Nat.add_assoc]

theorem mkR_eq_iff {m : BitVec 6} {a b c : BitVec 5} {f : BitVec 11} {w : IWord} :
    mkR m a b c f = w ↔ fMaj w = m ∧ fA w = a ∧ fB w = b ∧ fC w = c ∧ fF w = f := by
  rw [eq_comm]
  simp [mkR, fMaj, fA, fB, fC, fF, eq_append_iff 21 11, eq_append_iff 16 5, eq_append_iff 11 5,
    eq_append_iff 6 5, extractLsb'_extractLsb', and_assoc]

theorem mkI_eq_iff {m : BitVec 6} {a b : BitVec 5} {n : BitVec 16} {w : IWord} :
    mkI m a b n = w ↔ fMaj w = m ∧ fA w = a ∧ fB w = b ∧ fImm w = n := by
  rw [eq_comm]
  simp [mkI, fMaj, fA, fB, fImm, eq_append_iff 16 16, eq_append_iff 11 5, eq_append_iff 6 5,
    extractLsb'_extractLsb', and_assoc]

theorem mkJ_eq_iff {m : BitVec 6} {d : BitVec 26} {w : IWord} :
    mkJ m d = w ↔ fMaj w = m ∧ w.extractLsb' 0 26 = d := by
  rw [eq_comm]
  simp [mkJ, fMaj, eq_append_iff 6 26]

theorem mkV_eq_iff {m : BitVec 6} {a b c : BitVec 5} {q : BitVec 3} {f : BitVec 8} {w : IWord} :
    mkV m a b c q f = w ↔ fMaj w = m ∧ fA w = a ∧ fB w = b ∧ fC w = c ∧ fQ w = q ∧ fFn w = f := by
  rw [eq_comm]
  simp [mkV, fMaj, fA, fB, fC, fQ, fFn, eq_append_iff 24 8, eq_append_iff 21 3, eq_append_iff 16 5,
    eq_append_iff 11 5, eq_append_iff 6 5, extractLsb'_extractLsb', and_assoc]

theorem mkM_eq_iff {m : BitVec 2} {v g : BitVec 5} {pl md : BitVec 3} {f : BitVec 8} {w : IWord} :
    mkM m v g pl md f = w ↔
      fMaj w = 0x30 ∧ fM w = m ∧ fV w = v ∧ fG w = g ∧ fPl w = pl ∧ fQ w = md ∧ fFn w = f := by
  rw [eq_comm]
  simp [mkM, fMaj, fM, fV, fG, fPl, fQ, fFn, eq_append_iff 24 8, eq_append_iff 21 3, eq_append_iff 18 3,
    eq_append_iff 13 5, eq_append_iff 8 5, eq_append_iff 6 2, extractLsb'_extractLsb', and_assoc]

theorem mkE_eq_iff {a b c : BitVec 5} {p : BitVec 2} {o : BitVec 3} {f : BitVec 6} {w : IWord} :
    mkE a b c p o f = w ↔ fMaj w = 0x34 ∧ fA w = a ∧ fB w = b ∧ fC w = c
      ∧ w.extractLsb' 9 2 = p ∧ w.extractLsb' 6 3 = o ∧ w.extractLsb' 0 6 = f := by
  rw [eq_comm]
  simp [mkE, fMaj, fA, fB, fC, eq_append_iff 26 6, eq_append_iff 23 3, eq_append_iff 21 2, eq_append_iff 16 5,
    eq_append_iff 11 5, eq_append_iff 6 5, extractLsb'_extractLsb', and_assoc]

theorem mkL_eq_iff {a b c op : BitVec 5} {sc : BitVec 2} {md : BitVec 4} {w : IWord} :
    mkL a b c op sc md = w ↔ fMaj w = 0x3A ∧ fA w = a ∧ fB w = b ∧ fC w = c
      ∧ w.extractLsb' 6 5 = op ∧ w.extractLsb' 4 2 = sc ∧ w.extractLsb' 0 4 = md := by
  rw [eq_comm]
  simp [mkL, fMaj, fA, fB, fC, eq_append_iff 28 4, eq_append_iff 26 2, eq_append_iff 21 5, eq_append_iff 16 5,
    eq_append_iff 11 5, eq_append_iff 6 5, extractLsb'_extractLsb', and_assoc]

theorem rptIWord_eq_iff {l : BitVec 4} {d a b : BitVec 2} {n : BitVec 15} {w : IWord} :
    rptIWord l d a b n = w ↔ fMaj w = 0x3C ∧ w.extractLsb' 22 4 = l ∧ w.extractLsb' 20 2 = d
      ∧ w.extractLsb' 18 2 = a ∧ w.extractLsb' 16 2 = b ∧ w.extractLsb' 15 1 = 0 ∧ w.extractLsb' 0 15 = n := by
  rw [eq_comm]
  simp [rptIWord, fMaj, eq_append_iff 17 15, eq_append_iff 16 1, eq_append_iff 14 2, eq_append_iff 12 2,
    eq_append_iff 10 2, eq_append_iff 6 4, extractLsb'_extractLsb', and_assoc]

theorem rptRWord_eq_iff {l : BitVec 4} {d a b : BitVec 2} {r : BitVec 5} {w : IWord} :
    rptRWord l d a b r = w ↔ fMaj w = 0x3C ∧ w.extractLsb' 22 4 = l ∧ w.extractLsb' 20 2 = d
      ∧ w.extractLsb' 18 2 = a ∧ w.extractLsb' 16 2 = b ∧ w.extractLsb' 15 1 = 1 ∧ w.extractLsb' 10 5 = r
      ∧ w.extractLsb' 0 10 = 0 := by
  rw [eq_comm]
  simp [rptRWord, fMaj, eq_append_iff 22 10, eq_append_iff 17 5, eq_append_iff 16 1, eq_append_iff 14 2,
    eq_append_iff 12 2, eq_append_iff 10 2, eq_append_iff 6 4, extractLsb'_extractLsb', and_assoc]

/-! ### Operand codes read back -/

theorem width_code_ofCode (c : BitVec 2) : (Width.ofCode c).code = c := by
  revert c; decide

theorem scope_code_ofCode (c : BitVec 2) : (Scope.ofCode c).code = c := by
  revert c; decide

theorem ffmt_code_of_ofCode : ∀ {c : BitVec 2} {f : FFmt}, FFmt.ofCode c = some f → f.code = c := by
  decide

theorem cmpTy_code_of_ofCode : ∀ {c : BitVec 3} {t : CmpTy}, CmpTy.ofCode c = some t → t.code = c := by
  decide

theorem memW_code_of_ofCode : ∀ {c : BitVec 4} {wd : MemW}, MemW.ofCode c = some wd → wd.code = c := by
  decide

theorem gangForm_code_of_ofCode : ∀ {c : BitVec 3} {f : GangForm}, GangForm.ofCode c = some f → f.code = c := by
  decide

theorem w32Code_of_w32Of : ∀ {c : BitVec 4} {b : Bool}, w32Of c = some b → w32Code b = c := by
  decide

/-- The option bit of the engine format as the flag it is read as. -/
theorem ofBool_beq_one (b : BitVec 1) : BitVec.ofBool (b == 1#1) = b := by
  revert b; decide

/-- The unsigned compares take their width from the lower bits of the type field, which then lies below 4 (R36). -/
theorem width_of_type : ∀ {t : BitVec 3}, t.toNat < 4 →
    t = (0 : BitVec 1) ++ (Width.ofCode (t.extractLsb' 0 2)).code := by
  decide

/-- An even register number, by its lowest bit and as `wellFormed` has it. -/
theorem even_of_bit_zero : ∀ {r : Reg}, r.extractLsb' 0 1 = 0 → (r.toNat % 2 == 0) = true := by
  decide

/-! ### What the decoder may answer -/

/-- The instruction is encoded and well formed, and the word is its encoding. -/
def Encodes (i : Instr) (w : IWord) : Prop :=
  i.encoded = true ∧ wellFormed i = true ∧ encode i = w

/-- What the decoder answers for the word, if anything, encodes to the word. -/
def Faithful (w : IWord) (o : Option Instr) : Prop :=
  ∀ i, o = some i → Encodes i w

theorem faithful_none (w : IWord) : Faithful w none := by
  simp [Faithful]

theorem faithful_some {w : IWord} {i : Instr} : Faithful w (some i) ↔ Encodes i w := by
  simp [Faithful]

theorem faithful_ite {w : IWord} {p : Prop} [Decidable p] {o o' : Option Instr} :
    Faithful w (if p then o else o') ↔ (p → Faithful w o) ∧ (¬p → Faithful w o') := by
  split <;> simp [*]

/-- A row with reserved bits: they are zero where it answers. -/
theorem faithful_req {w : IWord} {b : Bool} {i : Instr} : Faithful w (req b i) ↔ (b = true → Encodes i w) := by
  simp [req, faithful_ite, faithful_some, faithful_none]

/-- What the decoder's matches on numbers say of the field they match. -/
theorem eq_ofNat_of_toNat_eq {n k : Nat} {x : BitVec n} (h : x.toNat = k) : x = BitVec.ofNat n k := by
  simp [← h]

/-! ### The maps, row by row -/

section
variable {w : IWord}

/-- SEL keeps its predicate in the lower bits of the function field (R33). -/
theorem sel_fields (h : (fF w).toNat / 8 = 16) : fF w = (0x10 : BitVec 8) ++ (fF w).extractLsb' 0 3 := by
  have hhi : (fF w).extractLsb' 3 8 = 0x10 := BitVec.eq_of_toNat_eq (by simp [Nat.shiftRight_eq_div_pow, h])
  exact (eq_append_iff 8 3).2 ⟨hhi, rfl⟩

/-! Each proof below splits the map into its rows, reads off what the row requires of its reserved fields, and closes the
format's conditions, field by field, from that and from the opcode bits. -/

theorem decA_faithful (hm : fMaj w = 0x01) : Faithful w (decA w) := by
  unfold decA
  split <;> rename_i hf <;> simp only [faithful_some, faithful_none, faithful_req, faithful_ite, beq_iff_eq]
  case h_25 => -- SEL
    exact ⟨fun hsel => ⟨rfl, rfl, mkR_eq_iff.2 ⟨hm, rfl, rfl, rfl, sel_fields hsel⟩⟩, fun _ => trivial⟩
  all_goals (intros; exact ⟨rfl, rfl, mkR_eq_iff.2 (by simp [eq_ofNat_of_toNat_eq hf, *])⟩)

theorem decB_faithful (hm : fMaj w = 0x24) : Faithful w (decB w) := by
  unfold decB
  split <;> rename_i hf <;> simp only [faithful_none, faithful_req, beq_iff_eq, Bool.and_eq_true]
  all_goals (intros; exact ⟨rfl, rfl, mkR_eq_iff.2 (by simp [eq_ofNat_of_toNat_eq hf, eq_append_iff 1 4, *])⟩)

theorem decC_faithful (hm : fMaj w = 0x28) : Faithful w (decC w) := by
  unfold decC
  split <;> rename_i hf <;> simp only [faithful_some, faithful_none, faithful_req, beq_iff_eq]
  all_goals
    intros
    replace hf := eq_ofNat_of_toNat_eq hf
    exact ⟨rfl, rfl, mkV_eq_iff.2 (by simp [eq_iff_parts 2 6, hi_2_6, lo_2_6, width_code_ofCode, *])⟩

theorem decD_faithful (hm : fMaj w = 0x29) : Faithful w (decD w) := by
  unfold decD
  split
  case h_1 => exact faithful_none w
  case h_2 f hfmt =>
    have hcode := ffmt_code_of_ofCode hfmt
    split <;> rename_i hf <;> simp only [faithful_some, faithful_none, faithful_req, Bool.and_eq_true, beq_iff_eq]
    all_goals
      intros
      replace hf := eq_ofNat_of_toNat_eq hf
      exact ⟨rfl, rfl, mkV_eq_iff.2 (by simp [eq_iff_parts 2 6, hi_2_6, lo_2_6, *])⟩

theorem decQ_faithful (hm : fMaj w = 0x2A) (hty : (fFn w).extractLsb' 5 3 = 7) : Faithful w (decQ w) := by
  unfold decQ
  split <;> rename_i hf <;> simp only [faithful_none, faithful_req, Bool.and_eq_true, beq_iff_eq]
  all_goals
    intros
    replace hf := eq_ofNat_of_toNat_eq hf
    exact ⟨rfl, rfl, mkV_eq_iff.2 (by simp [eq_iff_parts 3 5, eq_append_iff 2 3, *])⟩

theorem decE_faithful (hm : fMaj w = 0x2A) : Faithful w (decE w) := by
  unfold decE
  simp only [faithful_ite]
  refine ⟨decQ_faithful hm, fun _ => ?_⟩
  split
  case h_1 => exact faithful_none w
  case h_2 t hty =>
    have hcode := cmpTy_code_of_ofCode hty
    split <;> rename_i hf <;> simp only [faithful_none, faithful_req, Bool.and_eq_true, beq_iff_eq, decide_eq_true_eq]
    case h_5 | h_6 => -- VCMP.LTU and VCMP.LEU, for the integer types only
      rintro ⟨hd, hlt⟩
      have hA := (eq_append_iff 2 3).2 ⟨hd, rfl⟩
      have hFn := (eq_append_iff 3 5).2 ⟨width_of_type hlt, eq_ofNat_of_toNat_eq hf⟩
      exact ⟨rfl, rfl, mkV_eq_iff.2 ⟨hm, hA, rfl, rfl, rfl, hFn⟩⟩
    all_goals
      intros
      replace hf := eq_ofNat_of_toNat_eq hf
      exact ⟨rfl, rfl, mkV_eq_iff.2 (by simp [eq_append_iff 3 5, eq_append_iff 2 3, *])⟩

theorem decF_faithful (hm : fMaj w = 0x2B) : Faithful w (decF w) := by
  unfold decF
  split <;> rename_i hf <;> simp only [faithful_none, faithful_req, Bool.and_eq_true, beq_iff_eq]
  case h_10 | h_11 => -- VTOPK and VTOPK.NZ
    intro heven
    exact ⟨rfl, even_of_bit_zero heven, mkV_eq_iff.2 ⟨hm, rfl, rfl, rfl, rfl, eq_ofNat_of_toNat_eq hf⟩⟩
  all_goals
    intros
    replace hf := eq_ofNat_of_toNat_eq hf
    exact ⟨rfl, rfl, mkV_eq_iff.2
      (by simp [eq_append_iff 1 2, eq_append_iff 4 1, eq_append_iff 3 2, width_code_ofCode, *])⟩

theorem decG_faithful (hm : fMaj w = 0x2C) : Faithful w (decG w) := by
  unfold decG
  split <;> rename_i hf <;> simp only [faithful_some, faithful_none]
  all_goals exact ⟨rfl, rfl, mkV_eq_iff.2 (by simp [eq_ofNat_of_toNat_eq hf, *])⟩

theorem decH_faithful (hm : fMaj w = 0x30) : Faithful w (decH w) := by
  unfold decH
  split <;> rename_i hf <;> simp only [faithful_none, faithful_req, faithful_ite, Bool.and_eq_true, beq_iff_eq]
  case h_12 => -- MSTACC, in F32 and in BF16
    replace hf := eq_ofNat_of_toNat_eq hf
    constructor
    · rintro hd ⟨hv, hp⟩
      exact ⟨rfl, rfl, mkM_eq_iff.2 ⟨hm, rfl, hv, rfl, hp, hd, hf⟩⟩
    · rintro - ⟨⟨hv, hp⟩, hd⟩
      exact ⟨rfl, rfl, mkM_eq_iff.2 ⟨hm, rfl, hv, rfl, hp, hd, hf⟩⟩
  case h_14 | h_15 => -- GANG and GANG.T
    split
    case h_1 => exact faithful_none w
    case h_2 f hform =>
      refine faithful_req.2 fun hg => ⟨rfl, hg, mkM_eq_iff.2 ?_⟩
      exact ⟨hm, rfl, rfl, rfl, rfl, (gangForm_code_of_ofCode hform).symm, eq_ofNat_of_toNat_eq hf⟩
  all_goals
    intros
    replace hf := eq_ofNat_of_toNat_eq hf
    exact ⟨rfl, by simp_all [wellFormed], mkM_eq_iff.2 (by simp [*])⟩

theorem decI_faithful (hm : fMaj w = 0x34) : Faithful w (decI w) := by
  unfold decI
  split <;> rename_i hf <;> simp only [faithful_none, faithful_req, Bool.and_eq_true, beq_iff_eq]
  all_goals
    intros
    replace hf := eq_ofNat_of_toNat_eq hf
    exact ⟨rfl, by simp [wellFormed, *], mkE_eq_iff.2 (by simp [eq_append_iff 2 1, ofBool_beq_one, *])⟩

theorem decJ_faithful (hm : fMaj w = 0x38) : Faithful w (decJ w) := by
  unfold decJ
  split <;> rename_i hf <;> simp only [faithful_some, faithful_none, faithful_req, beq_iff_eq, Bool.and_eq_true]
  all_goals (intros; exact ⟨rfl, rfl, mkR_eq_iff.2 (by simp [eq_ofNat_of_toNat_eq hf, *])⟩)

theorem decK_faithful (hm : fMaj w = 0x39) : Faithful w (decK w) := by
  unfold decK
  split <;> rename_i hf <;> simp only [faithful_some, faithful_none, faithful_req, beq_iff_eq, Bool.and_eq_true]
  all_goals (intros; exact ⟨rfl, rfl, mkR_eq_iff.2 (by simp [eq_ofNat_of_toNat_eq hf, *])⟩)

theorem decL_faithful (hm : fMaj w = 0x3A) : Faithful w (decL w) := by
  unfold decL
  split <;> rename_i hf <;> simp only [faithful_none, faithful_req, Bool.and_eq_true, beq_iff_eq]
  case h_2 | h_3 => -- LDA and STL
    split
    case h_1 => exact faithful_none w
    case h_2 wd hwd =>
      have hcode := memW_code_of_ofCode hwd
      replace hf := eq_ofNat_of_toNat_eq hf
      simp only [faithful_req, beq_iff_eq]
      exact fun hz => ⟨rfl, rfl, mkL_eq_iff.2 (by simp [scope_code_ofCode, *])⟩
  case h_1 | h_14 | h_15 | h_16 | h_17 | h_18 | h_19 => -- FENCE, AMO.FADD, the cache and translation rows
    intros
    replace hf := eq_ofNat_of_toNat_eq hf
    exact ⟨rfl, by simp_all [wellFormed], mkL_eq_iff.2 (by simp [scope_code_ofCode, *])⟩
  all_goals -- CAS and the other AMO rows
    split
    case h_1 => exact faithful_none w
    case h_2 b hb =>
      have hcode := w32Code_of_w32Of hb
      replace hf := eq_ofNat_of_toNat_eq hf
      exact faithful_some.2 ⟨rfl, rfl, mkL_eq_iff.2 (by simp [scope_code_ofCode, *])⟩

theorem decM_faithful (hm : fMaj w = 0x3B) : Faithful w (decM w) := by
  unfold decM
  split <;> rename_i hf <;> simp only [faithful_some, faithful_none, faithful_req, beq_iff_eq]
  all_goals (intros; exact ⟨rfl, rfl, mkR_eq_iff.2 (by simp [eq_ofNat_of_toNat_eq hf, *])⟩)

theorem decN_faithful (hm : fMaj w = 0x3D) : Faithful w (decN w) := by
  unfold decN
  split <;> rename_i hf <;> simp only [faithful_some, faithful_none, faithful_req, beq_iff_eq, Bool.and_eq_true]
  all_goals (intros; exact ⟨rfl, rfl, mkR_eq_iff.2 (by simp [eq_ofNat_of_toNat_eq hf, *])⟩)

theorem decRpt_faithful (hm : fMaj w = 0x3C) : Faithful w (decRpt w) := by
  unfold decRpt
  simp only [faithful_ite, faithful_some, faithful_req, beq_iff_eq]
  constructor
  · intro hk
    exact ⟨rfl, rfl, rptIWord_eq_iff.2 (by simp [*])⟩
  · intro hk hz
    have hone : w.extractLsb' 15 1 = 1 := (BitVec.eq_zero_or_eq_one _).resolve_left hk
    exact ⟨rfl, rfl, rptRWord_eq_iff.2 (by simp [*])⟩

end

/-! ### Every word -/

/-- The maps answer for their majors; the immediate, branch, jump and control-word rows stand in `decode` itself
(R30). -/
theorem decode_faithful (w : IWord) : Faithful w (decode w) := by
  unfold decode
  split
  case h_1 hm => exact decA_faithful (eq_ofNat_of_toNat_eq hm)
  case h_34 hm => exact decB_faithful (eq_ofNat_of_toNat_eq hm)
  case h_37 hm => exact decC_faithful (eq_ofNat_of_toNat_eq hm)
  case h_38 hm => exact decD_faithful (eq_ofNat_of_toNat_eq hm)
  case h_39 hm => exact decE_faithful (eq_ofNat_of_toNat_eq hm)
  case h_40 hm => exact decF_faithful (eq_ofNat_of_toNat_eq hm)
  case h_41 hm => exact decG_faithful (eq_ofNat_of_toNat_eq hm)
  case h_42 hm => exact decH_faithful (eq_ofNat_of_toNat_eq hm)
  case h_43 hm => exact decI_faithful (eq_ofNat_of_toNat_eq hm)
  case h_44 hm => exact decJ_faithful (eq_ofNat_of_toNat_eq hm)
  case h_45 hm => exact decK_faithful (eq_ofNat_of_toNat_eq hm)
  case h_46 hm => exact decL_faithful (eq_ofNat_of_toNat_eq hm)
  case h_47 hm => exact decM_faithful (eq_ofNat_of_toNat_eq hm)
  case h_48 hm => exact decRpt_faithful (eq_ofNat_of_toNat_eq hm)
  case h_49 hm => exact decN_faithful (eq_ofNat_of_toNat_eq hm)
  case h_32 hm | h_33 hm => -- J and JAL
    exact faithful_some.2 ⟨rfl, rfl, mkJ_eq_iff.2 ⟨eq_ofNat_of_toNat_eq hm, rfl⟩⟩
  all_goals
    rename_i hm
    simp only [faithful_some, faithful_none, faithful_req, Bool.and_eq_true, beq_iff_eq]
  all_goals
    intros
    replace hm := eq_ofNat_of_toNat_eq hm
    exact ⟨rfl, rfl, mkI_eq_iff.2
      (by simp [fImm, eq_append_iff 10 6, eq_append_iff 4 12, extractLsb'_extractLsb', *])⟩

/-- Settles O7: every row of the decoder checks or reads every bit of its format. -/
theorem encodeDecode : Obligations.EncodeDecode := by
  unfold Obligations.EncodeDecode
  exact decode_faithful

end Sys2Proof.Proofs.Decoder

/-! SUPPORT. The encoder read back, and the spec's own words (R26 to R41). -/

namespace Sys2Proof.Laws.RoundTrip

/-- One round trip per constructor, in the order of the constructors of `Instr`. -/
theorem statement_of_instr (i : Instr) : Statement i :=
  Instr.casesOn (motive := Statement) i
    -- Map A (R81)
    add sub and or xor andn sll srl sra clt cltu min max minu maxu mul mulh mulhu div divu rem remu clz popc sel
    -- Immediates (R82 to R84)
    addi andi ori xori clti cltiu insh0 insh1 insh2 insh3 slli srli srai
    -- Loads and stores (R85)
    ldB ldBu ldH ldHu ldW ldWu ldD stB stH stW stD
    -- Branches and jumps (R89 to R91)
    beq bne blt bge bltu bgeu j jal jalr
    -- Map B and control words (R92 to R97)
    trap tret ifence rdc bkpt cwrd cwwr
    -- The repeat frame (R49)
    rptImmediate rptRegister
    -- Map C (R127, R128)
    vadd vsub vmul vadds vsubs vmin vmax vminu vmaxu vsll vsrl vsra vabs vand vor vxor vandn vsel
    -- Map D (R129)
    vfadd vfsub vfmul vfma vfnma vfmin vfmax vfabs vfneg vexp2 vrcp vrsq
    -- Map E (R130, R131)
    vcmpEq vcmpNe vcmpLt vcmpLe vcmpLtu vcmpLeu qand qor qxor qandn qnot qcnt qfromg qtog
    -- Map F (R132 to R138)
    vrsumF32 vrmaxF32 vrsumI32 vrmaxI32 vbcast vextr vins vperm vslide vtopk vtopkNz vcompress vcvtF32Bf16 vcvtBf16F32
    vcvtF32I32 vcvtI32F32 vcvtI8I32 vcvtUi8I32 vcvtI32I8
    -- Map G (R122)
    vld vst vlds vsts vldx vstx vldb
    -- Map H (R147)
    mldwBf16 mldwF32 mldwP mswap mmaBf16 mmaF32 mmaP mmasBf16 mmasP mzero mldacc mstacc mstaccBf16 mscale gang gangT
    msave mrest mfree
    -- Map I (R255, R261, R297, R301, R358, R364)
    enq enqt deq deqt mbinc mbwait mbwaitT mbrd mbset bmv bfence pchk prec pstep pdrop
    -- Map J (R178, R207)
    spawn spawnat spawntrig exit tid tcancel rgid rgrd rgwr prd
    -- Map K (R243)
    send sendh sendt hend cmask cunmask hmask hunmask
    -- Map L (R283, R303, R323)
    fence lda stl cas amoAdd amoAnd amoOr amoXor amoMin amoMax amoMinu amoMaxu amoSwap amoFadd cwb cinv cpf tlbinv
    probe
    -- Map M (R343)
    mchopen mrel mchclose mchstat
    -- Map N (R215, R221, R225, R226)
    ldf ldfe ste stf ldfT ldfeT steT tagrd tagwr smap sunmap sflush mfill armh
    -- The events, which have no encoding
    loadReply replyTimeout homeSliceRequest stashRecall parkRetry migrationArrival tfatal taskPlacement switchForward
    armedRelease spawnatOutcome dispatch taskPreemption slotSave fieldTick adaptiveLoop clusterFailure messageArrival
    handlerStart maskedWindowClose atomicOperationMessage replySink counterChange mbwaitTimeout taggedRequestArrival
    taggedRequestResend taggedWaitTimeout deqtTimeout gangTimeout triggeredCommandStart copy get put rcopy gather
    scatter scatterReduction carrelTurn directoryOperation remoteRequest countedWriteArrival homeAcknowledge
    flagArrival flagCompleteNotice holdTimerExpiry recount flagResend openRequest openReply channelClose flitReceive
    laneRetirement scrub debugStop dbgctlStop dbgctlResume debuggerWrite controlWindowWrite identity attest firmware
    status write read launch close partition breakpoint telemetry management reset hold verify initialise join ready
    powerGood powerRedivision trip tripPersisted tripOutput moduleFault illegalInstruction memoryPortRequest
    clusterUnitAtomic storeAcknowledgement atomicReply sendQueueInjection armedTaskArrival atomicOperationResend
    coreFailure dieFailure vaultFailure linkOrSwitchFailure railFall controlPortDown controlPortUp unknownFrame

end Sys2Proof.Laws.RoundTrip

namespace Sys2Proof.Proofs.Decoder

/-- Settles O6: every constructor's word is read back field by field, at every value of its operands. -/
theorem decodeEncode : Obligations.DecodeEncode := by
  unfold Obligations.DecodeEncode
  exact Laws.RoundTrip.statement_of_instr

/-- Settles O5: the decoder evaluated on the seventeen words and on the two that are no instruction. -/
theorem specWordsDecode : Obligations.SpecWordsDecode := by
  unfold Obligations.SpecWordsDecode
  decide

end Sys2Proof.Proofs.Decoder

/-! SUPPORT. Contexts between instructions, J, JAL, IFENCE and RDC (R29, R90, R96, R97). -/

namespace Sys2Proof.Proofs.Contexts

open Machine

/-- A context with the same tables of registers and control words, task and message keeps all of them. -/
theorem keeps_of_same {gs qs vs cws} {x y : Ctx} (hg : y.g = x.g := by rfl) (hgp : y.gpois = x.gpois := by rfl)
    (hq : y.q = x.q := by rfl) (hv : y.v = x.v := by rfl) (hvp : y.vpois = x.vpois := by rfl)
    (hcw : y.cw = x.cw := by rfl) (htask : y.task = x.task := by rfl) (hhandled : y.handled = x.handled := by rfl) :
    Keeps gs qs vs cws x y :=
  ⟨fun _ _ => ⟨by simp [Ctx.greg, hg], by rw [hgp]⟩, fun _ _ => by simp [Ctx.qreg, hq],
    fun _ _ => ⟨by simp [Ctx.vreg, hv], by rw [hvp]⟩, fun _ _ => by simp [Ctx.cwv, hcw], htask, hhandled⟩

theorem advance_of_scalar {x : Ctx} (h : x.onFrame = false) : x.advance = { x.leave with pc := x.pc + 4 } := by
  have hleave : x.leave.onFrame = false := h
  rw [Ctx.advance]
  simp only [hleave]
  rfl

end Sys2Proof.Proofs.Contexts

namespace Sys2Proof.Proofs.Jumps

open Machine Contexts

/-- What IFENCE discards: the line buffer of the core and the fetch queue of the context (R96). -/
def discardFetched (s : State) : State :=
  (s.setMyCore { s.myCore with lineBuf := [] }).setMy { s.my with fq := [] }

theorem discardFetched_my (s : State) : (discardFetched s).my = { s.my with fq := [] } := my_setMy _ _

theorem discardFetched_myCore (s : State) : (discardFetched s).myCore = { s.myCore with lineBuf := [] } :=
  myCore_setMyCore s _

theorem advance_discardFetched_my {s : State} (h : s.my.onFrame = false) :
    (discardFetched s).advance.my = { s.my.leave with fq := [], pc := s.my.pc + 4 } := by
  have hframe : (discardFetched s).my.onFrame = false := by rw [discardFetched_my]; exact h
  rw [my_advance, advance_of_scalar hframe, discardFetched_my]
  rfl

theorem exec_ifence (s : State) :
    exec .ifence s = .next (if s.myCore.outs.any (fun o => o.ctx == s.cur.ctx.val && !o.load) then s
      else (discardFetched s).advance) := rfl

theorem exec_rdc (s : State) (gd : Reg) (n : BitVec 4) :
    exec (.rdc gd n) s = .next (if s.anyLoad s.cur then s else s.done gd (s.myCore.cwv (cwPCCNT + n.toNat))) := rfl

/-- J and JAL are their jumps by definition (R90). -/
theorem jumps_go_to_target : Claim.JumpTargets := fun _ _ => ⟨rfl, rfl⟩

/-- IFENCE and RDC wait for the context's older requests, then act (R96, R97). -/
theorem ifence_and_rdc : Claim.IfenceAndRdc := by
  intro s
  refine ⟨fun hout hframe => ?_, fun hout => ?_, fun gd n hload => ?_, fun gd n hload => ?_⟩
  · have hmy := advance_discardFetched_my hframe
    have hcore : (discardFetched s).advance.myCore = { s.myCore with lineBuf := [] } := discardFetched_myCore s
    refine ⟨(discardFetched s).advance, by rw [exec_ifence, hout]; rfl, ?_, ?_, ?_, ⟨rfl, rfl⟩, ?_, hcore⟩
    · rw [hmy]
    · rw [hcore]
    · rw [hmy]
    · rw [hmy]
      exact (keeps_leave s.my).trans keeps_of_same
  · rw [exec_ifence, if_pos hout]
  · rw [exec_rdc, hload]
    rfl
  · rw [exec_rdc, hload]
    rfl

/-- Settles O14: J and JAL by definition, IFENCE and RDC by what stands between them and the context's older requests. -/
theorem jumpTargets : Obligations.JumpTargets := by
  unfold Obligations.JumpTargets
  exact ⟨jumps_go_to_target, ifence_and_rdc⟩

end Sys2Proof.Proofs.Jumps

/-! SUPPORT. What a step performs: the head of the agenda, a captured word, the word at the pc (R31, R52, R54, R71). -/

namespace Sys2Proof.Proofs.Steps

open Machine

/-! ### The head of the agenda (log entry 1) -/

theorem firstAct_eq_none {s : State} {l : List Act} (h : s.firstAct l = none) : l = [] := by
  cases l with
  | nil => rfl
  | cons b l =>
    rw [State.firstAct] at h
    split at h
    · cases h
    · split at h <;> cases h

/-- The act found stands before all of its rank and of any higher rank. -/
theorem firstAct_eq_some {s : State} {l t : List Act} {a : Act} (h : s.firstAct l = some (a, t)) :
    ∃ p q, l = p ++ a :: q ∧ t = p ++ q ∧ (∀ b ∈ p, s.rank a < s.rank b) ∧ ∀ b ∈ q, s.rank a ≤ s.rank b := by
  induction l generalizing a t with
  | nil => cases h
  | cons b l ih =>
    rw [State.firstAct] at h
    cases hl : s.firstAct l with
    | none =>
      rw [hl] at h
      cases h
      exact ⟨[], l, rfl, rfl, by simp, by simp [firstAct_eq_none hl]⟩
    | some e =>
      obtain ⟨c, r⟩ := e
      obtain ⟨p, q, rfl, rfl, hp, hq⟩ := ih hl
      simp only [hl] at h
      split at h
      · rename_i hbc
        cases h
        refine ⟨[], _, rfl, rfl, by simp, fun d hd => ?_⟩
        rcases List.mem_append.1 hd with hd | hd
        · exact hbc.trans (hp d hd).le
        · rcases List.mem_cons.1 hd with rfl | hd
          · exact hbc
          · exact hbc.trans (hq d hd)
      · rename_i hbc
        cases h
        refine ⟨b :: p, q, rfl, rfl, fun d hd => ?_, hq⟩
        rcases List.mem_cons.1 hd with rfl | hd
        · exact Nat.lt_of_not_le hbc
        · exact hp d hd

theorem step_of_issue {s : State} {c : CtxId} {rest : List Act} (h : s.firstAct s.agenda = some (.issue c, rest)) :
    step s = issue { s with agenda := rest } c := by
  simp only [step, h]

theorem step_of_seq {s : State} {c : CtxId} {rest : List Act} (h : s.firstAct s.agenda = some (.seq c, rest)) :
    step s = Machine.sequence { s with agenda := rest } c := by
  simp only [step, h]

/-- What a step performs is the act found on the agenda, by its kind. -/
theorem step_performs_first_act : Claim.StepHeadOfAgenda := by
  intro s
  refine ⟨fun _ _ _ => firstAct_eq_some, fun _ => firstAct_eq_none, ?_, fun _ _ => step_of_issue, fun _ _ => step_of_seq,
    ?_, ?_, fun h => by rw [step, h]; rfl⟩
  all_goals
    intros
    simp only [step, *]

/-! ### The state in which a context's instruction is performed -/

theorem takeSlice_cur (s : State) : s.takeSlice.cur = s.cur := by
  rw [State.takeSlice]
  split <;> rfl

theorem takeSlice_plat (s : State) : s.takeSlice.plat = s.plat := by
  rw [State.takeSlice]
  split <;> rfl

/-- A slice taken back leaves the context's image and nothing else of the context (R141). -/
theorem takeSlice_my (s : State) : s.takeSlice.my = { s.my with img := [] } := by
  rw [State.takeSlice]
  dsimp only
  split
  · rename_i h
    conv_rhs => rw [← h]
  · exact my_setMy _ _

theorem ready1_cur (s : State) (c : CtxId) : (s.ready1 c).cur = c := takeSlice_cur _

theorem ready1_plat (s : State) (c : CtxId) : (s.ready1 c).plat = s.plat := takeSlice_plat _

theorem ready1_my (s : State) (c : CtxId) : (s.ready1 c).my = { s.ctx c with img := [], left := false } := by
  rw [State.ready1]
  dsimp only
  rw [my_setMy, takeSlice_my]
  rfl

/-! ### Captured words (R52, R54) -/

/-- The state in which a captured word is performed: what the scalar stream waits for stands aside. -/
def onFrameState (s : State) : State :=
  s.setMy { s.my with onFrame := true, wait := .none, rbuf := [], rpois := [], skipNow := false }

theorem execCaptured_of_decode {s t : State} {f : Frame} {i : Instr} (hdec : decode f.current = some i)
    (hexec : exec i (onFrameState s) = .next t) (hfault : t.faulted = false) :
    execCaptured s f = .next (t.setCtx s.cur { t.ctx s.cur with
      onFrame := false, wait := s.my.wait, rbuf := s.my.rbuf, rpois := s.my.rpois, skipNow := s.my.skipNow }) := by
  have hfetched : execFetched (onFrameState s) f.current false = .next t := by
    simp only [execFetched, hdec, hexec, Bool.false_eq_true, if_false]
  rw [onFrameState] at hfetched
  simp only [execCaptured, hfetched, hfault, Bool.false_eq_true, if_false]

theorem sequence_of_captured {s t : State} {c : CtxId} {f : Frame} (hframe : (s.ctx c).frame = some f)
    (hcan : s.canSequence c = true) (hexec : execCaptured (s.ready1 c) f = .next t) (hfault : t.faulted = false) :
    Machine.sequence s c = .next (s.countCaptured t c f.current).heldTrapNow := by
  simp [Machine.sequence, hframe, hcan, hexec, hfault]

theorem step_runs_captured : Claim.StepRunsCaptured := by
  intro s t c rest f i hfirst hframe hcan hdec s1 hexec hfault
  have hcur : s1.cur = c := ready1_cur _ _
  have hcaptured := execCaptured_of_decode (s := s1) hdec hexec hfault
  rw [hcur] at hcaptured
  rw [step_of_seq hfirst]
  exact sequence_of_captured hframe hcan hcaptured hfault

/-! ### Words that are no instruction (R31) -/

theorem illegal_word_faults : Claim.IllegalWords := by
  intro s w h
  have hexec : exec .illegalInstruction s = execIllegalInstruction s := rfl
  rw [hexec, execIllegalInstruction, h]

/-- Settles O3: the agenda by induction on its acts, the captured word through `sequence`, the illegal word by its event. -/
theorem stepDispatch : Obligations.StepDispatch := by
  unfold Obligations.StepDispatch
  exact ⟨step_performs_first_act, step_runs_captured, illegal_word_faults⟩

end Sys2Proof.Proofs.Steps

/-! ### Reading code words -/

namespace Sys2Proof.Proofs.Fetching

open Machine

@[simp] theorem readLE_setMy_word (s : State) (x : Ctx) (a : Nat) : (s.setMy x).readLE a 4 = s.readLE a 4 := rfl
@[simp] theorem readBad_setMy (s : State) (x : Ctx) (a n : Nat) : (s.setMy x).readBad a n = s.readBad a n := rfl

theorem fetch_of_queued {s : State} {va : Word} {f : Fetched} (halign : va.toNat % 4 = 0)
    (hfind : s.my.fq.find? (fun f => f.va == va) = some f) (hclean : f.pois = false) :
    s.fetch va = (s, .word f.word false) := by
  simp [State.fetch, halign, hfind, hclean]

/-- The state after a local word that was not in the queue has filled it, with up to eight words (R71). -/
def queueLocal (s : State) (va : Word) : State :=
  s.setMy { s.my with
    fq := fetchedFrom va ((s.codeAt (localLoc s.cur.core va.toNat) (min 8 ((0x40000 - va.toNat) / 4))).take 8) }

theorem fetch_of_local {s : State} {va : Word} (halign : va.toNat % 4 = 0)
    (hfind : s.my.fq.find? (fun f => f.va == va) = none) (hlocal : va.toNat < 0x40000)
    (hclean : s.readBad (localLoc s.cur.core va.toNat) 4 = false) :
    s.fetch va
      = (queueLocal s va, .word (BitVec.ofNat 32 (s.readLE (localLoc s.cur.core va.toNat) 4)) false) := by
  obtain ⟨n, hn⟩ : ∃ n, min 8 ((0x40000 - va.toNat) / 4) = n + 1 := Nat.exists_eq_add_one.2 (by omega)
  simp [State.fetch, queueLocal, halign, hfind, hlocal, hclean, hn, State.codeAt, State.queueCode]

end Sys2Proof.Proofs.Fetching

/-! ### The word at the pc (R71) -/

namespace Sys2Proof.Proofs.Steps

open Machine Fetching

theorem execHit_of_no_breakpoint {s : State} (h : s.plat.bpc = []) : s.execHit = none := by
  have hmatch : ∀ n, s.bpMatch n = false := fun n => by simp [State.bpMatch, h, bit]
  rw [State.execHit]
  split
  · rfl
  · simp [hmatch]

theorem issue_of_canIssue {s : State} {c : CtxId} (hlive : (s.ctx c).live = true) (hbound : s.bound c = false)
    (hheld : s.heldBack c = false) (hcan : s.canIssue c = true) : issue s c = issueRun s c := by
  simp [issue, hlive, hbound, hheld, hcan]

/-- An outcome with the issue counted in the state it leads to (R370). -/
def issueCounted (s : State) (c : CtxId) (o : Out) : Out :=
  match o with
  | .next t => .next (s.countIssue t c)
  | .fault f => .fault f
  | .refused r => .refused r

theorem issueRun_eq_issueCounted (s : State) (c : CtxId) : issueRun s c = issueCounted s c (execOne (s.ready1 c)) := rfl

/-- A context at no breakpoint performs the unpoisoned word that fetch gives for its pc. -/
theorem execOne_of_fetch {s u : State} {w : IWord} (hbreak : s.plat.bpc = []) (hpeek : (s.peek s.cur).isSome)
    (hfetch : s.fetch s.my.pc = (u, .word w false)) : execOne s = execFetched u w false := by
  have hnone : (s.peek s.cur).isNone = false := by rw [← Option.not_isSome, hpeek]; rfl
  simp only [execOne, execHit_of_no_breakpoint hbreak, hnone, Bool.false_eq_true, if_false, execAtPc, hfetch]

/-- A context that can issue, at no request and no breakpoint, performs the unpoisoned word that fetch gives for its pc, and
the issue is counted (R370). -/
theorem issue_of_fetch {s u : State} {c : CtxId} {w : IWord} (hlive : (s.ctx c).live = true) (hbound : s.bound c = false)
    (hheld : s.heldBack c = false) (hcan : s.canIssue c = true) (hbreak : s.plat.bpc = [])
    (hpeek : ((s.ready1 c).peek c).isSome) (hfetch : (s.ready1 c).fetch (s.ctx c).pc = (u, .word w false)) :
    issue s c = issueCounted s c (execFetched u w false) := by
  have hpc : (s.ready1 c).my.pc = (s.ctx c).pc := by rw [ready1_my]
  have hone : execOne (s.ready1 c) = execFetched u w false :=
    execOne_of_fetch (by rw [ready1_plat, hbreak]) (by rw [ready1_cur]; exact hpeek) (by rw [hpc]; exact hfetch)
  rw [issue_of_canIssue hlive hbound hheld hcan, issueRun_eq_issueCounted, hone]

theorem peek_isSome_of_queued {s : State} {c : CtxId} {f : Fetched}
    (hfind : (s.ctx c).fq.find? (fun f => f.va == (s.ctx c).pc) = some f) : (s.peek c).isSome := by
  simp [State.peek, hfind]

theorem peek_isSome_of_local {s : State} {c : CtxId} (hlocal : (s.ctx c).pc.toNat < 0x40000) : (s.peek c).isSome := by
  rw [State.peek]
  split
  · rfl
  · simp [hlocal]

theorem ready1_ctx (s : State) (c : CtxId) : (s.ready1 c).ctx c = { s.ctx c with img := [], left := false } := by
  have h := ready1_my s c
  rw [State.my, ready1_cur] at h
  exact h

/-- With no slice to take back, only the context's mark of having left its instruction changes. -/
theorem ready1_of_no_image {s : State} {c : CtxId} (h : (s.ctx c).img = []) :
    s.ready1 c = State.setMy { s with cur := c, faulted := false } { s.ctx c with left := false } := by
  have hslice : State.takeSlice { s with cur := c, faulted := false } = { s with cur := c, faulted := false } := by
    rw [State.takeSlice]
    exact if_pos h
  rw [State.ready1, hslice]
  rfl

theorem step_runs_fetched : Claim.StepRunsFetched := by
  intro s c rest f hfirst hlive hbound hheld hcan _ halign hbreak hfind hclean s1
  have hpeek : (s1.peek c).isSome := peek_isSome_of_queued (f := f) (by rw [ready1_ctx]; exact hfind)
  have hfetch : s1.fetch (s.ctx c).pc = (s1, .word f.word false) :=
    fetch_of_queued halign (by rw [ready1_my]; exact hfind) hclean
  exact (step_of_issue hfirst).trans
    (issue_of_fetch (s := { s with agenda := rest }) hlive hbound hheld hcan hbreak hpeek hfetch)

theorem step_runs_decoded : Claim.StepRunsDecoded := by
  intro s c rest w hfirst hlive hbound hheld hcan _ himg hfq hlocal halign hbreak hw hclean s1 pc ws s2
  have hs1 : s1 = State.setMy { s with agenda := rest, cur := c, faulted := false } { s.ctx c with left := false } :=
    ready1_of_no_image himg
  have hmy : s1.my = { s.ctx c with left := false } := by rw [hs1, my_setMy]
  have hcur : s1.cur = c := ready1_cur _ _
  have hpc : pc = (s.ctx c).pc := by show s1.my.pc = _; rw [hmy]
  have hpeek : (s1.peek c).isSome := peek_isSome_of_local (by rw [ready1_ctx]; exact hlocal)
  have hs2 : queueLocal s1 (s.ctx c).pc = s2 := by rw [queueLocal, hcur, ← hpc]
  have hread : s1.readLE (localLoc c.core (s.ctx c).pc.toNat) 4 = s.readLE (localLoc c.core (s.ctx c).pc.toNat) 4 := by
    rw [hs1]; rfl
  have hbad : s1.readBad (localLoc c.core (s.ctx c).pc.toNat) 4 = false := by
    rw [hs1]; exact hclean
  have hfetch : s1.fetch (s.ctx c).pc = (s2, .word w false) := by
    have h := fetch_of_local (s := s1) halign (by rw [hmy, hfq]; rfl) hlocal (by rw [hcur]; exact hbad)
    rw [h, hs2, hcur, hread, ← hw]
  exact (step_of_issue hfirst).trans
    (issue_of_fetch (s := { s with agenda := rest }) hlive hbound hheld hcan hbreak hpeek hfetch)

/-- Settles O4: the fetch from the queue or from local memory, then the issue of what it gives. -/
theorem stepRunsDecoded : Obligations.StepRunsDecoded := by
  unfold Obligations.StepRunsDecoded
  exact ⟨step_runs_decoded, step_runs_fetched⟩

end Sys2Proof.Proofs.Steps

/-! SUPPORT. The repeat frame: its order, its strides, its control words, the trap held beside it (R51 to R56). -/

namespace Sys2Proof.Proofs.Frames

open Machine Contexts

/-! ### The order of a frame's steps (R52) -/

theorem succ_div_mod_of_lt {k n : Nat} (h : k % n + 1 < n) : (k + 1) / n = k / n ∧ (k + 1) % n = k % n + 1 := by
  have hk := Nat.mod_add_div k n
  exact (Nat.div_mod_unique (by omega)).2 ⟨by omega, h⟩

theorem succ_div_mod_of_not_lt {k n : Nat} (hn : 0 < n) (h : ¬ k % n + 1 < n) :
    (k + 1) / n = k / n + 1 ∧ (k + 1) % n = 0 := by
  have hk := Nat.mod_add_div k n
  have hlt := Nat.mod_lt k hn
  exact (Nat.div_mod_unique hn).2 ⟨by rw [Nat.mul_succ]; omega, hn⟩

/-- A frame where it stands after k steps from its start. -/
def atStep (f : Frame) (k : Nat) : Frame := { f with iter := k / f.words.length, pos := k % f.words.length }

theorem next_atStep (f : Frame) (k : Nat) : (atStep f k).next =
    if k % f.words.length + 1 < f.words.length then some { atStep f k with pos := k % f.words.length + 1 }
    else if k / f.words.length + 1 < f.count then some { atStep f k with pos := 0, iter := k / f.words.length + 1 }
    else none := rfl

theorem next_atStep_of_lt {f : Frame} {k : Nat} (hwords : 0 < f.words.length) (hk : k + 1 < f.count * f.words.length) :
    (atStep f k).next = some (atStep f (k + 1)) := by
  rw [next_atStep]
  by_cases hpos : k % f.words.length + 1 < f.words.length
  · obtain ⟨hdiv, hmod⟩ := succ_div_mod_of_lt hpos
    rw [if_pos hpos, atStep, atStep, hdiv, hmod]
  · obtain ⟨hdiv, hmod⟩ := succ_div_mod_of_not_lt hwords hpos
    have hiter : k / f.words.length + 1 < f.count := hdiv ▸ (Nat.div_lt_iff_lt_mul hwords).2 hk
    rw [if_neg hpos, if_pos hiter, atStep, atStep, hdiv, hmod]

theorem next_atStep_last {f : Frame} {k : Nat} (hwords : 0 < f.words.length) (hk : k + 1 = f.count * f.words.length) :
    (atStep f k).next = none := by
  have hend : (k + 1) % f.words.length = 0 := by rw [hk, Nat.mul_mod_left]
  have hpos : ¬ k % f.words.length + 1 < f.words.length := fun h => by have := (succ_div_mod_of_lt h).2; omega
  have hiter : k / f.words.length + 1 = f.count := by
    rw [← (succ_div_mod_of_not_lt hwords hpos).1, hk, Nat.mul_div_cancel _ hwords]
  rw [next_atStep, if_neg hpos, if_neg (by omega)]

theorem after_eq_atStep {f : Frame} {k : Nat} (hwords : 0 < f.words.length) (hiter : f.iter = 0) (hpos : f.pos = 0)
    (hk : k < f.count * f.words.length) : f.after k = some (atStep f k) := by
  have hstart : atStep f 0 = f := by
    cases f
    simp_all [atStep]
  induction k with
  | zero => rw [Frame.after, hstart]
  | succ k ih =>
    rw [Frame.after, ih (by omega)]
    exact next_atStep_of_lt hwords hk

theorem frame_runs_in_order : Claim.FrameOrder := by
  intro f k hwords hiter hpos hcount
  refine ⟨after_eq_atStep hwords hiter hpos, ?_⟩
  obtain ⟨m, hm⟩ := Nat.exists_eq_add_one.2 (Nat.mul_pos hcount hwords)
  rw [hm, Frame.after, after_eq_atStep hwords hiter hpos (by omega)]
  exact next_atStep_last hwords hm.symm

/-! ### Strides (R51, R52) -/

theorem toNat_append_eq {m n : Nat} (x : BitVec m) (y : BitVec n) : (x ++ y).toNat = x.toNat * 2 ^ n + y.toNat := by
  rw [BitVec.toNat_append, ← Nat.shiftLeft_add_eq_or_of_lt y.isLt, Nat.shiftLeft_eq]

theorem toNat_mkR (m : BitVec 6) (a b c : BitVec 5) (f : BitVec 11) : (mkR m a b c f).toNat
    = m.toNat * 2 ^ 26 + a.toNat * 2 ^ 21 + b.toNat * 2 ^ 16 + c.toNat * 2 ^ 11 + f.toNat := by
  simp only [mkR, toNat_append_eq]
  ring

/-- Raising the three register fields of a word within the file carries into no other field. -/
theorem mkR_add_fields (m : BitVec 6) (a b c : BitVec 5) (f : BitVec 11) {i j k : Nat} (ha : a.toNat + i ≤ 31)
    (hb : b.toNat + j ≤ 31) (hc : c.toNat + k ≤ 31) :
    mkR m a b c f + BitVec.ofNat 32 (i * 2 ^ 21 + j * 2 ^ 16 + k * 2 ^ 11)
      = mkR m (BitVec.ofNat 5 (a.toNat + i)) (BitVec.ofNat 5 (b.toNat + j)) (BitVec.ofNat 5 (c.toNat + k)) f := by
  apply BitVec.eq_of_toNat_eq
  have hm := m.isLt
  have hf := f.isLt
  rw [BitVec.toNat_add, toNat_mkR, toNat_mkR]
  simp only [BitVec.toNat_ofNat]
  omega

theorem strides_stay_in_fields : Claim.StridedRegisters := by
  intro d a b i sd sa sb hd ha hb
  refine ⟨⟨some 31, some 31, some 31⟩, rfl, ?_⟩
  have hmajor : fMaj (encode (.add d a b)) ≠ 0x30 := by
    rw [show fMaj (encode (.add d a b)) = 0x01 from Laws.fMaj_mkR _ _ _ _ _]
    decide
  have hword : strideWord (encode (.add d a b)) ⟨some 31, some 31, some 31⟩ sd sa sb i
      = encode (.add (BitVec.ofNat 5 (d.toNat + i * sd)) (BitVec.ofNat 5 (a.toNat + i * sa))
        (BitVec.ofNat 5 (b.toNat + i * sb))) :=
    (if_neg hmajor).trans (mkR_add_fields _ _ _ _ _ hd ha hb)
  rw [hword]
  exact Laws.RoundTrip.add _ _ _ rfl rfl

/-! ### The control words of an interrupted frame (R55, R56) -/

theorem upto_eq_range' (a n : Nat) : upto a n = List.range' a n := by
  induction n generalizing a with
  | zero => rfl
  | succ n ih => rw [upto, ih, List.range'_succ]

theorem cwv_setCw_eq_ite (x : Ctx) (i j : Nat) (w : Word) : (x.setCw i w).cwv j = if j = i then w else x.cwv j := by
  split
  · rename_i h
    rw [h, cwv_setCw]
  · exact cwv_setCw_other x w ‹_›

/-- Control words base + k written for each k of a list. -/
theorem cwv_foldl_setCw (base : Nat) (g : Nat → Word) (n : Nat) (l : List Nat) (x : Ctx) :
    (l.foldl (fun x k => x.setCw (base + k) (g k)) x).cwv n
      = if base ≤ n ∧ n - base ∈ l then g (n - base) else x.cwv n := by
  induction l generalizing x with
  | nil => simp
  | cons k l ih =>
    rw [List.foldl_cons, ih, cwv_setCw_eq_ite]
    by_cases hk : n = base + k
    · subst hk
      simp
    · have hmem : (base ≤ n ∧ n - base ∈ k :: l) ↔ (base ≤ n ∧ n - base ∈ l) :=
        and_congr_right fun hle => List.mem_cons.trans (or_iff_right (by omega))
      simp only [hmem, if_neg hk]

theorem keeps_foldl_setCw (base : Nat) (g : Nat → Word) (l : List Nat) (x : Ctx) :
    Keeps [] [] [] (l.map (base + ·)) x (l.foldl (fun x k => x.setCw (base + k) (g k)) x) := by
  induction l generalizing x with
  | nil => exact Keeps.refl _ _ _ _ _
  | cons k l ih =>
    exact ((keeps_setCw x _ _).mono (by simp) (by simp) (by simp) (by simp)).trans
      ((ih _).mono (by simp) (by simp) (by simp) (by simp))

/-- A context whose frame's state has gone to the control words, the frame still live. -/
def withFrameWords (x : Ctx) (f : Frame) : Ctx :=
  (upto 0 8).foldl (fun x k => x.setCw (cwRPTW + k) (f.wk k)) ((x.setCw cwRPTST f.st).setCw cwRPTCNT (word f.count))

theorem interruptFrame_of_live {x : Ctx} {f : Frame} (h : x.frame = some f) :
    x.interruptFrame = { withFrameWords x f with frame := none, heldTrap := none } := by
  rw [Ctx.interruptFrame, h]
  rfl

theorem keeps_withFrameWords (x : Ctx) (f : Frame) :
    Keeps [] [] [] ([0x020, 0x021] ++ (List.range 8).map (fun k => 0x028 + k)) x (withFrameWords x f) := by
  have hst := keeps_setCw x cwRPTST f.st
  have hcnt := keeps_setCw (x.setCw cwRPTST f.st) cwRPTCNT (word f.count)
  have hwords := keeps_foldl_setCw cwRPTW f.wk (upto 0 8) ((x.setCw cwRPTST f.st).setCw cwRPTCNT (word f.count))
  have hnil {α : Type} : ([] : List α) ⊆ [] := List.Subset.refl _
  exact ((hst.mono hnil hnil hnil (by decide)).trans (hcnt.mono hnil hnil hnil (by decide))).trans
    (hwords.mono hnil hnil hnil (by decide))

theorem cwv_withFrameWords (x : Ctx) (f : Frame) (n : Nat) : (withFrameWords x f).cwv n =
    if cwRPTW ≤ n ∧ n - cwRPTW < 8 then f.wk (n - cwRPTW) else if n = cwRPTCNT then word f.count
    else if n = cwRPTST then f.st else x.cwv n := by
  have hmem : n - cwRPTW ∈ upto 0 8 ↔ n - cwRPTW < 8 := by simp [upto_eq_range']
  simp only [withFrameWords, cwv_foldl_setCw, cwv_setCw_eq_ite, hmem]

theorem toNat_st {f : Frame} (h : f.Ok) : f.st.toNat = 2 ^ 63 + f.pos * 2 ^ 59 + (f.words.length - 1) * 2 ^ 55
    + f.sd * 2 ^ 53 + f.sa * 2 ^ 51 + f.sb * 2 ^ 49 + f.iter := by
  obtain ⟨_, hfew, hsd, hsa, hsb, hcount, hiter, hpos⟩ := h
  rw [Frame.st, word, BitVec.toNat_ofNat]
  omega

theorem toNat_wk (f : Frame) (k : Nat) :
    (f.wk k).toNat = (f.words.getD (2 * k) 0).toNat + 2 ^ 32 * (f.words.getD (2 * k + 1) 0).toNat := by
  have hlo := (f.words.getD (2 * k) 0).isLt
  have hhi := (f.words.getD (2 * k + 1) 0).isLt
  rw [Frame.wk, word, BitVec.toNat_ofNat]
  omega

/-- Captured word j is a half of RPTW(j / 2) (R56). -/
theorem word_of_wk (f : Frame) (j : Nat) :
    BitVec.ofNat 32 ((f.wk (j / 2)).toNat / 2 ^ (32 * (j % 2))) = f.words.getD j 0 := by
  apply BitVec.eq_of_toNat_eq
  rw [BitVec.toNat_ofNat, toNat_wk]
  have hlo := (f.words.getD (2 * (j / 2)) 0).isLt
  have hhi := (f.words.getD (2 * (j / 2) + 1) 0).isLt
  rcases Nat.mod_two_eq_zero_or_one j with hj | hj
  · rw [show 2 * (j / 2) = j by omega] at hlo ⊢
    rw [hj]
    omega
  · rw [show 2 * (j / 2) + 1 = j by omega] at hhi ⊢
    rw [hj]
    omega

theorem bits_st {f : Frame} (h : f.Ok) : bits f.st 58 55 + 1 = f.words.length ∧ bits f.st 54 53 = f.sd
    ∧ bits f.st 52 51 = f.sa ∧ bits f.st 50 49 = f.sb ∧ bits f.st 31 0 = f.iter ∧ bits f.st 62 59 = f.pos := by
  have hst := toNat_st h
  obtain ⟨hsome, hfew, hsd, hsa, hsb, hcount, hiter, hpos⟩ := h
  simp only [bits, bitsN, hst]
  omega

theorem bit_st_63 {f : Frame} (h : f.Ok) : bit f.st 63 = true := by
  have hst := toNat_st h
  have hlt := f.st.isLt
  rw [bit, BitVec.getLsbD, hst, Nat.testBit_eq_decide_div_mod_eq, decide_eq_true_eq]
  omega

/-- Control words that hold a frame's state hold that frame. -/
theorem savedFrame_of_words {x : Ctx} {f : Frame} (h : f.Ok) (hst : x.cwv cwRPTST = f.st)
    (hcnt : x.cwv cwRPTCNT = word f.count) (hw : ∀ k, k < 8 → x.cwv (cwRPTW + k) = f.wk k) : x.savedFrame = f := by
  obtain ⟨hlen, hsd, hsa, hsb, hiter, hpos⟩ := bits_st h
  have hcount : bits (word f.count) 31 0 = f.count := by
    have := h.count
    simp only [bits, bitsN, word, BitVec.toNat_ofNat]
    omega
  have hwords : (upto 0 f.words.length).map (fun j =>
      BitVec.ofNat 32 ((x.cwv (cwRPTW + j / 2)).toNat / 2 ^ (32 * (j % 2)))) = f.words := by
    refine List.ext_getElem (by simp [upto_eq_range']) fun j _ hj => ?_
    have hfew := h.few
    simp only [upto_eq_range', List.getElem_map, List.getElem_range', Nat.zero_add, Nat.one_mul]
    rw [hw (j / 2) (by omega), word_of_wk, List.getD_eq_getElem]
  simp only [Ctx.savedFrame, hst, hcnt, hlen, hsd, hsa, hsb, hiter, hpos, hcount, hwords]

theorem interrupted_frame_resumes : Claim.FrameSaveResume := by
  intro x f hok hframe
  have hint := interruptFrame_of_live hframe
  have htable : x.interruptFrame.cw = (withFrameWords x f).cw := by rw [hint]
  have hcw : ∀ n, x.interruptFrame.cwv n = (withFrameWords x f).cwv n := fun n => by rw [Ctx.cwv, Ctx.cwv, htable]
  have hst : x.interruptFrame.cwv cwRPTST = f.st := by
    rw [hcw, cwv_withFrameWords, if_neg (by decide), if_neg (by decide), if_pos rfl]
  have hcnt : x.interruptFrame.cwv cwRPTCNT = word f.count := by
    rw [hcw, cwv_withFrameWords, if_neg (by decide), if_pos rfl]
  have hw : ∀ k, k < 8 → x.interruptFrame.cwv (cwRPTW + k) = f.wk k := fun k hk => by
    rw [hcw, cwv_withFrameWords, Nat.add_sub_cancel_left, if_pos ⟨Nat.le_add_right _ _, hk⟩]
  have hlive : bit (x.interruptFrame.cwv cwRPTST) 63 = true := by rw [hst]; exact bit_st_63 hok
  refine ⟨by rw [hint], hlive, ?_, by rw [hint]; exact (keeps_withFrameWords x f).trans keeps_of_same⟩
  rw [Ctx.resumeFrame, if_pos hlive, savedFrame_of_words hok hst hcnt hw]

/-! ### The trap held beside a frame (R54) -/

theorem raise_beside_frame {s : State} {f : Frame} (hframe : s.my.frame = some f) (hbeside : s.my.onFrame = false)
    (code : Nat) (val : Word) : s.raise code val = s.holdTrap code val := by
  simp [State.raise, hframe, hbeside]

theorem holdTrap_my (s : State) (code : Nat) (val : Word) : (s.holdTrap code val).my
    = { s.my with heldTrap := some (code, val), wait := .none, rbuf := [], rpois := [] } := my_setMy _ _

theorem heldTrapNow_of_live {s : State} {f : Frame} (h : s.my.frame = some f) : s.heldTrapNow = s := by
  simp [State.heldTrapNow, h]

theorem held_traps : Claim.HeldTraps := by
  intro s code val
  refine ⟨fun f hframe hbeside => ?_, fun hframe hheld => ?_, fun hheld => ?_⟩
  · rw [raise_beside_frame hframe hbeside]
    have hmy := holdTrap_my s code val
    have hlive : (s.holdTrap code val).my.frame = some f := by rw [hmy]; exact hframe
    refine ⟨by rw [hmy], hlive, by rw [hmy], ?_, ⟨rfl, rfl⟩, heldTrapNow_of_live hlive⟩
    rw [hmy]
    exact keeps_of_same
  · simp [State.heldTrapNow, hframe, hheld]
  · rw [State.heldTrapNow, hheld]
    split
    · rename_i h
      cases h
    · rfl

/-- Settles O31: the order by division with remainder, the strides field by field, the saved frame read back from its control
words, the held trap by what `raise` does beside a live frame. -/
theorem repeatFrames : Obligations.RepeatFrames := by
  unfold Obligations.RepeatFrames
  exact ⟨frame_runs_in_order, strides_stay_in_fields, interrupted_frame_resumes, held_traps⟩

end Sys2Proof.Proofs.Frames

/-! SUPPORT. RPT: the capture of its words from local memory, the checks of R53, the frame that starts (R50 to R53, R60). -/

namespace Sys2Proof.Proofs.Rpt

open Machine Contexts Fetching

/-! ### Code words of local memory -/

/-- The instruction word at a local offset of the current core. -/
def localWord (s : State) (v : Nat) : IWord := BitVec.ofNat 32 (s.readLE (localLoc s.cur.core v) 4)

/-- Whether that word is poisoned. -/
def localBad (s : State) (v : Nat) : Bool := s.readBad (localLoc s.cur.core v) 4

/-- Every word of the current fetch queue is the one that local memory holds at its address. -/
def QueueHoldsLocal (s : State) : Prop :=
  ∀ f ∈ s.my.fq, f.word = localWord s f.va.toNat ∧ f.pois = localBad s f.va.toNat

/-- Two states that differ in the fetch queue of the current context at most. -/
structure QueueOnly (s u : State) : Prop where
  only : OnlyMine s u
  my : ∃ q, u.my = { s.my with fq := q }

theorem QueueOnly.refl (s : State) : QueueOnly s s := ⟨onlyMine_refl s, s.my.fq, rfl⟩

theorem QueueOnly.trans {s t u : State} (h : QueueOnly s t) (k : QueueOnly t u) : QueueOnly s u := by
  obtain ⟨q, hq⟩ := h.my
  obtain ⟨r, hr⟩ := k.my
  exact ⟨h.only.trans k.only, r, by rw [hr, hq]⟩

theorem queueOnly_queueLocal (s : State) (va : Word) : QueueOnly s (queueLocal s va) :=
  ⟨onlyMine_setMy _ _, _, my_setMy _ _⟩

theorem localWord_of_onlyMine {s u : State} (h : OnlyMine s u) (v : Nat) : localWord u v = localWord s v := by
  rw [← h.1]
  rfl

theorem localBad_of_onlyMine {s u : State} (h : OnlyMine s u) (v : Nat) : localBad u v = localBad s v := by
  rw [← h.1]
  rfl

theorem toNat_add_four {va : Word} (h : va.toNat + 4 ≤ 0x40000) : (va + 4).toNat = va.toNat + 4 := by
  rw [BitVec.toNat_add]
  exact Nat.mod_eq_of_lt (by simp; omega)

/-- The words that fetch reads ahead are those of local memory at their addresses. -/
theorem mem_fetchedFrom_codeAt {s : State} {n : Nat} {va : Word} (hend : va.toNat + 4 * n ≤ 0x40000) :
    ∀ f ∈ fetchedFrom va (s.codeAt (localLoc s.cur.core va.toNat) n),
      f.word = localWord s f.va.toNat ∧ f.pois = localBad s f.va.toNat := by
  induction n generalizing va with
  | zero => intro f hf; cases hf
  | succ n ih =>
    have hva : (va + 4).toNat = va.toNat + 4 := toNat_add_four (by omega)
    have hloc : localLoc s.cur.core va.toNat + 4 = localLoc s.cur.core (va + 4).toNat := by
      rw [hva, localLoc, localLoc, Nat.add_assoc]
    intro f hf
    rw [State.codeAt, hloc, fetchedFrom, List.mem_cons] at hf
    rcases hf with rfl | hf
    · exact ⟨rfl, rfl⟩
    · exact ih (by omega) f hf

theorem codeAt_length (s : State) (loc n : Nat) : (s.codeAt loc n).length = n := by
  induction n generalizing loc with
  | zero => rfl
  | succ n ih => rw [State.codeAt, List.length_cons, ih]

theorem queueHoldsLocal_queueLocal {s : State} {va : Word} (hlocal : va.toNat < 0x40000) :
    QueueHoldsLocal (queueLocal s va) := by
  have htake : (s.codeAt (localLoc s.cur.core va.toNat) (min 8 ((0x40000 - va.toNat) / 4))).take 8
      = s.codeAt (localLoc s.cur.core va.toNat) (min 8 ((0x40000 - va.toNat) / 4)) :=
    List.take_of_length_le (by rw [codeAt_length]; exact min_le_left _ _)
  intro f hf
  rw [queueLocal, my_setMy, htake] at hf
  have hsame := (queueOnly_queueLocal s va).only
  rw [localWord_of_onlyMine hsame, localBad_of_onlyMine hsame]
  exact mem_fetchedFrom_codeAt (by omega) f hf

/-- A fetch of an unpoisoned local word gives that word, from the queue or from memory. -/
theorem fetch_local_word {s : State} {va : Word} (hqueue : QueueHoldsLocal s) (halign : va.toNat % 4 = 0)
    (hlocal : va.toNat < 0x40000) (hclean : localBad s va.toNat = false) :
    ∃ u, s.fetch va = (u, .word (localWord s va.toNat) false) ∧ QueueOnly s u ∧ QueueHoldsLocal u := by
  cases hfind : s.my.fq.find? (fun f => f.va == va) with
  | none =>
    exact ⟨_, fetch_of_local halign hfind hlocal hclean, queueOnly_queueLocal s va, queueHoldsLocal_queueLocal hlocal⟩
  | some f =>
    have hva : f.va = va := by simpa using List.find?_some hfind
    obtain ⟨hword, hpois⟩ := hqueue f (List.mem_of_find?_eq_some hfind)
    rw [hva] at hword hpois
    exact ⟨s, hword ▸ fetch_of_queued halign hfind (hpois.trans hclean), QueueOnly.refl s, hqueue⟩

/-- The words of n consecutive local addresses. -/
def localWords (s : State) (v n : Nat) : List IWord := (List.range n).map (fun j => localWord s (v + 4 * j))

theorem localWords_succ (s : State) (v n : Nat) :
    localWords s v (n + 1) = localWord s v :: localWords s (v + 4) n := by
  simp [localWords, List.range_succ_eq_map, Nat.mul_succ, Nat.add_assoc, Nat.add_comm 4]

/-- Captured words in unpoisoned local memory are fetched as they stand there (R52). -/
theorem fetchWords_local {s : State} {va : Word} {n : Nat} (hqueue : QueueHoldsLocal s) (halign : va.toNat % 4 = 0)
    (hend : va.toNat + 4 * n ≤ 0x40000) (hclean : ∀ j, j < n → localBad s (va.toNat + 4 * j) = false) :
    ∃ u, fetchWords s va n = (u, some (localWords s va.toNat n)) ∧ QueueOnly s u := by
  induction n generalizing s va with
  | zero => exact ⟨s, rfl, QueueOnly.refl s⟩
  | succ n ih =>
    obtain ⟨u, hfetch, hsu, hqu⟩ := fetch_local_word hqueue halign (by omega) (hclean 0 n.succ_pos)
    have hva : (va + 4).toNat = va.toNat + 4 := toNat_add_four (by omega)
    obtain ⟨t, hwords, hut⟩ := ih (s := u) (va := va + 4) hqu (by omega) (by omega) (fun j hj => by
      rw [localBad_of_onlyMine hsu.only, hva, Nat.add_assoc, Nat.add_comm 4, ← Nat.mul_succ]
      exact hclean (j + 1) (by omega))
    have hrest : localWords u (va + 4).toNat n = localWords s (va.toNat + 4) n := by
      simp only [localWords, hva, localWord_of_onlyMine hsu.only]
    refine ⟨t, ?_, hsu.trans hut⟩
    rw [localWords_succ, ← hrest]
    simp only [fetchWords, hfetch, hwords, Bool.false_eq_true, if_false]

/-! ### What RPT does with the words (R52, R53) -/

theorem opRpt_of_fault {s u : State} {i : Instr} {len : BitVec 4} {sd sa sb : BitVec 2} {count code j : Nat}
    {ws : List IWord} (hslot : s.InSlot) (hwords : fetchWords s (s.my.pc + 4) (len.toNat + 1) = (u, some ws))
    (hfault : frameFault ws sd.toNat sa.toNat sb.toNat count = some (code, j)) :
    opRpt s i len sd sa sb count = u.raise code (s.my.pc + 4 + word (4 * j)) := by
  simp only [opRpt, slotOnly_slot hslot, hwords, hfault]

/-- The context past RPT and its captured words, at the start of the frame where there is one. -/
def startFrame (x : Ctx) (pc : Word) (count : Nat) (f : Frame) : Ctx :=
  let y := { x.leave with pc := pc }
  if count = 0 then y else { y with heldTrap := none, frame := some f }

theorem opRpt_of_ok {s u : State} {i : Instr} {len : BitVec 4} {sd sa sb : BitVec 2} {count : Nat}
    {ws : List IWord} (hslot : s.InSlot) (hwords : fetchWords s (s.my.pc + 4) (len.toNat + 1) = (u, some ws))
    (hok : frameFault ws sd.toNat sa.toNat sb.toNat count = none) :
    opRpt s i len sd sa sb count = u.setMy (startFrame u.my (s.my.pc + word (4 * (len.toNat + 1 + 1))) count
      ⟨ws, sd.toNat, sa.toNat, sb.toNat, count, 0, 0⟩) := by
  simp only [opRpt, slotOnly_slot hslot, hwords, hok, startFrame]

theorem keeps_startFrame (x : Ctx) (pc : Word) (count : Nat) (f : Frame) :
    Keeps [] [] [] leftWords x (startFrame x pc count f) := by
  refine (keeps_leave x).trans ?_
  rw [startFrame]
  split <;> exact keeps_of_same

theorem startFrame_pc (x : Ctx) (pc : Word) (count : Nat) (f : Frame) : (startFrame x pc count f).pc = pc := by
  rw [startFrame]
  split <;> rfl

theorem startFrame_frame {x : Ctx} (h : x.frame = none) (pc : Word) (count : Nat) (f : Frame) :
    (startFrame x pc count f).frame = if count = 0 then none else some f := by
  rw [startFrame]
  split
  · exact h
  · rfl

/-! ### The two forms of RPT -/

theorem exec_rptImmediate (s : State) (len : BitVec 4) (sd sa sb : BitVec 2) (count : BitVec 15) :
    exec (.rptImmediate len sd sa sb count) s
      = .next (opRpt s (.rptImmediate len sd sa sb count) len sd sa sb count.toNat) := rfl

theorem exec_rptRegister_of_clean {s : State} {a : Reg} (hslot : s.InSlot) (hclean : s.Clean [a] []) (len : BitVec 4)
    (sd sa sb : BitVec 2) : exec (.rptRegister len sd sa sb a) s
      = .next (opRpt s (.rptRegister len sd sa sb a) len sd sa sb ((s.g a).toNat % 2 ^ 32)) := by
  have hcount : bits (s.g a) 31 0 = (s.g a).toNat % 2 ^ 32 := by simp [bits, bitsN]
  have hexec : exec (.rptRegister len sd sa sb a) s = execRptRegister len sd sa sb a s := rfl
  rw [hexec, execRptRegister, hslot, guardP_clean hclean, hcount]
  rfl

theorem isHandler_of_not_inSlot {s : State} (h : ¬ s.InSlot) : s.cur.isHandler = true := by
  simpa [State.InSlot] using h

theorem rpt_in_handler {s : State} (h : ¬ s.InSlot) (len : BitVec 4) (sd sa sb : BitVec 2) (count : BitVec 15) (a : Reg) :
    exec (.rptImmediate len sd sa sb count) s = .next (s.illegal (.rptImmediate len sd sa sb count))
    ∧ exec (.rptRegister len sd sa sb a) s = .next (s.illegal (.rptRegister len sd sa sb a)) := by
  have hhandler := isHandler_of_not_inSlot h
  have hexec : exec (.rptRegister len sd sa sb a) s = execRptRegister len sd sa sb a s := rfl
  constructor
  · rw [exec_rptImmediate, opRpt, State.slotOnly, if_pos hhandler]
  · rw [hexec, execRptRegister, if_pos hhandler]

/-- Settles O30: the captured words by induction on their number, through a fetch queue that holds what memory holds; then the
checks of R53 decide between the fault and the frame. -/
theorem rptEffect : Obligations.RptEffect := by
  unfold Obligations.RptEffect
  intro s len sd sa sb c15 a n pc ws imm reg
  refine ⟨fun hhandler => rpt_in_handler hhandler len sd sa sb c15 a, ?_⟩
  intro hslot halign hend hfq hframe hbad runs
  have hpc : (pc + 4).toNat = pc.toNat + 4 := toNat_add_four (by omega)
  obtain ⟨u, hfetch, hsu⟩ : ∃ u, fetchWords s (pc + 4) n = (u, some ws) ∧ QueueOnly s u := by
    have h := fetchWords_local (s := s) (va := pc + 4) (n := n) (by rw [QueueHoldsLocal, hfq]; simp) (by omega) (by omega)
      (by rw [hpc]; exact hbad)
    rw [hpc] at h
    exact h
  obtain ⟨q, hq⟩ := hsu.my
  have huframe : u.my.frame = none := by rw [hq]; exact hframe
  have hruns : ∀ i count, exec i s = .next (opRpt s i len sd sa sb count) → runs i count := by
    intro i count hexec
    refine ⟨fun code j hfault => ?_, fun hok => ?_⟩
    · refine ⟨u, hsu.only, by rw [hq]; exact keeps_of_same, by rw [hq], huframe, ?_⟩
      rw [hexec, opRpt_of_fault hslot hfetch hfault]
      rfl
    · refine ⟨_, by rw [hexec, opRpt_of_ok hslot hfetch hok], hsu.only.trans (onlyMine_setMy _ _), ?_, ?_, ?_⟩
      · rw [my_setMy]
        exact Keeps.trans (by rw [hq]; exact keeps_of_same) (keeps_startFrame _ _ _ _)
      · rw [my_setMy, startFrame_pc]
        rfl
      · rw [my_setMy, startFrame_frame huframe]
  exact ⟨hruns imm _ (exec_rptImmediate s len sd sa sb c15),
    fun hclean => hruns reg _ (exec_rptRegister_of_clean hslot hclean len sd sa sb)⟩

end Sys2Proof.Proofs.Rpt

/-! SUPPORT. Every instruction, event and step answers a next state (R73, R74). -/

namespace Sys2Proof.Proofs.Completion

open Machine

/-! ### Instructions and events -/

/-- The one meaning that looks at the context's wait before it answers (R181). -/
theorem execSpawnat_completes (gd ga gb : Reg) (s : State) : Completes (execSpawnat gd ga gb s) := by
  rw [execSpawnat]
  split <;> exact ⟨_, rfl⟩

theorem exec_completes : Claim.NoInstructionStops := by
  intro i s
  cases i with
  | spawnat gd ga gb => exact execSpawnat_completes gd ga gb s
  | _ => exact ⟨_, rfl⟩

/-! ### From an instruction to a step -/

theorem execFetched_completes (s : State) (w : IWord) (pois : Bool) : Completes (execFetched s w pois) := by
  rw [execFetched]
  split
  · exact ⟨_, rfl⟩
  · split <;> exact exec_completes _ _

theorem execOne_completes (s : State) : Completes (execOne s) := by
  rw [execOne]
  split
  · exact ⟨_, rfl⟩
  · split
    · exact ⟨_, rfl⟩
    · rw [execAtPc]
      split
      · exact ⟨_, rfl⟩
      · exact ⟨_, rfl⟩
      · exact execFetched_completes _ _ _

theorem execCaptured_completes (s : State) (f : Frame) : Completes (execCaptured s f) := by
  rw [execCaptured]
  obtain ⟨t, ht⟩ := execFetched_completes
    (s.setMy { s.my with onFrame := true, wait := .none, rbuf := [], rpois := [], skipNow := false }) f.current false
  simp only [ht]
  exact ⟨_, rfl⟩

theorem issueRun_completes (s : State) (c : CtxId) : Completes (issueRun s c) := by
  obtain ⟨t, ht⟩ := execOne_completes (s.ready1 c)
  rw [issueRun, ht]
  exact ⟨_, rfl⟩

/-- A captured word that faults is tried a second time only after a wait was withdrawn (R55). -/
theorem sequence_completes (s : State) (c : CtxId) : Completes (Machine.sequence s c) := by
  rw [Machine.sequence]
  split
  · exact ⟨_, rfl⟩
  · rename_i f _
    obtain ⟨t, ht⟩ := execCaptured_completes (s.ready1 c) f
    obtain ⟨u, hu⟩ := execCaptured_completes ((s.ready1 c).withdraw c) f
    simp only [ht, hu]
    repeat' split
    all_goals exact ⟨_, rfl⟩

theorem issueHeld_completes (s : State) (c : CtxId) : Completes (issueHeld s c) := by
  obtain ⟨t, ht⟩ := sequence_completes s c
  obtain ⟨u, hu⟩ := issueRun_completes s c
  simp only [issueHeld, ht, hu]
  repeat' split
  all_goals exact ⟨_, rfl⟩

theorem issue_completes (s : State) (c : CtxId) : Completes (issue s c) := by
  rw [issue]
  split
  · exact ⟨_, rfl⟩
  · split
    · exact issueHeld_completes s c
    · split
      · exact issueRun_completes s c
      · exact ⟨_, rfl⟩

theorem issuePair_completes (s : State) (c : CtxId) (pc : Word) (w : IWord) : Completes (issuePair s c pc w) := by
  rw [issuePair]
  split
  · exact ⟨_, rfl⟩
  · split
    · split
      · exact issueRun_completes s c
      · exact ⟨_, rfl⟩
    · exact ⟨_, rfl⟩

/-- One case for each kind of act that may head the agenda (log entry 1). -/
theorem step_completes : Claim.NoStepStops := by
  intro s
  rw [step]
  split
  · exact ⟨_, rfl⟩
  · exact exec_completes _ _
  · exact issue_completes _ _
  · exact sequence_completes _ _
  · exact issuePair_completes _ _ _ _
  · exact ⟨_, rfl⟩

/-- Settles O8: every meaning answers a next state, and a step is made of meanings. -/
theorem nothingStops : Obligations.NothingStops := by
  unfold Obligations.NothingStops
  exact ⟨exec_completes, step_completes⟩

end Sys2Proof.Proofs.Completion

/-! SUPPORT. Registers, and the instructions of registers alone: what they check, write and leave (R58, R60, R76, R78). -/

namespace Sys2Proof.Proofs.Registers

open Machine Contexts

/-! ### The register file (R58, R78) -/

theorem register_file : Claim.RegisterFile := fun x _ _ =>
  ⟨greg_zero x, qreg_zero x, setG_zero x _, setQ_zero x _, fun _ h => greg_setG_same x _ h,
    fun _ _ h => greg_setG_other x _ h, fun _ h => qreg_setQ_same x _ h, fun _ _ h => qreg_setQ_other x _ h,
    fun _ => vreg_setV_same x _ _, fun _ _ h => vreg_setV_other x _ h⟩

theorem gpois_setG_same (x : Ctx) {r : Reg} (w : Word) (h : r ≠ 0) : (x.setG r w).gpois.getLsbD r.toNat = false := by
  rw [Ctx.setG, if_neg h]
  simp

theorem gpois_advance (x : Ctx) (r : Reg) : x.advance.gpois.getLsbD r.toNat = x.gpois.getLsbD r.toNat :=
  ((keeps_advance x).g r (by simp)).2

theorem done_clears_poison (s : State) {gd : Reg} (w : Word) (h : gd ≠ 0) :
    (s.done gd w).my.gpois.getLsbD gd.toNat = false := by
  rw [my_done, gpois_advance, gpois_setG_same _ _ h]

/-- Moving on writes nothing. -/
theorem regFrame_advance (s : State) : RegFrame [] [] [] [] s s.advance := (Writes.refl _ _ _ _ s).advance

@[simp] theorem my_jump (s : State) (t : Word) : (s.jump t).my = { s.my.leave with pc := t } := my_setMy _ _

/-- Going to an address leaves every register and the frame. -/
theorem keeps_jump (s : State) (t : Word) : Keeps [] [] [] leftWords s.my (s.jump t).my := by
  rw [my_jump]
  exact (keeps_leave s.my).trans keeps_of_same

theorem frame_jump (s : State) (t : Word) : (s.jump t).my.frame = s.my.frame := by
  rw [my_jump]
  rfl

theorem done_effect : Claim.DoneEffect := fun s gd w =>
  ⟨⟨regFrame_done s gd w, g_done s gd w, done_clears_poison s w⟩, regFrame_advance s,
    onlyMine_setMy s _, keeps_jump s w, by rw [my_jump], frame_jump s w⟩

/-- Settles O9: the laws of the register file, and what `done`, `advance` and `jump` write and leave. -/
theorem registerAccess : Obligations.RegisterAccess := by
  unfold Obligations.RegisterAccess
  exact ⟨register_file, done_effect⟩

/-! ### One description for all instructions of registers alone -/

/-- The checks of such an instruction in the order of R60 and R76, before its effect `k`. -/
def checked (u : RegUse) (i : Instr) (s k : State) : State :=
  bif u.slot then s.slotOnly i (s.guardP u.srcG u.srcV k) else s.guardP u.srcG u.srcV k

/-- An outcome makes the checks of a use, then writes the destinations of the use alone. -/
def Describes (u : RegUse) (i : Instr) (s : State) (o : Out) : Prop :=
  ∃ k, o = .next (checked u i s k) ∧ RegFrame u.dstG u.dstQ u.dstV u.cws s k

theorem checked_clean {u : RegUse} {i : Instr} {s k : State} (hclean : s.Clean u.srcG u.srcV)
    (hslot : u.slot = true → s.InSlot) : checked u i s k = k := by
  rw [checked, guardP_clean hclean]
  cases h : u.slot with
  | false => rfl
  | true => exact slotOnly_slot (hslot h) i k

theorem checked_poisoned {u : RegUse} {i : Instr} {s k : State} {n : Nat} (hslot : u.slot = true → s.InSlot)
    (hpois : s.my.poisoned u.srcG u.srcV = some n) : checked u i s k = s.raise 0x0D (word n) := by
  have hguard : s.guardP u.srcG u.srcV k = s.raise 0x0D (word n) := by rw [State.guardP, hpois]
  rw [checked, hguard]
  cases h : u.slot with
  | false => rfl
  | true => exact slotOnly_slot (hslot h) i _

theorem checked_in_handler {u : RegUse} {i : Instr} {s k : State} (hslot : u.slot = true) (hbank : ¬ s.InSlot) :
    checked u i s k = s.raise 0x01 (insnWord i) := by
  have hhandler : s.cur.isHandler = true := by simpa [State.InSlot] using hbank
  rw [checked, hslot, State.slotOnly, hhandler]
  rfl

/-- Accrued flags may be added before gd is written. -/
theorem regFrame_done_of_writes {cws : List Nat} {s t : State} (h : Writes [] [] [] cws s t) (gd : Reg) (w : Word) :
    RegFrame [gd] [] [] cws s (t.done gd w) := by
  obtain ⟨honly, hkeeps, hpast⟩ := regFrame_done t gd w
  refine ⟨h.only.trans honly, ?_, h.spot.past hpast⟩
  exact (h.keeps.mono (by simp) (by simp) (by simp) (by simp)).trans (hkeeps.mono (by simp) (by simp) (by simp) (by simp))

/-! ### Each operand form meets its description -/

theorem describes_op2 {i : Instr} {s : State} {d a b : Reg} {f : Word → Word → Word} :
    Describes ⟨[a, b], [], [d], [], [], false, false⟩ i s (op2 s d a b f) := ⟨_, rfl, regFrame_done s d _⟩

theorem describes_op1 {i : Instr} {s : State} {d a : Reg} {f : Word → Word} :
    Describes ⟨[a], [], [d], [], [], false, false⟩ i s (op1 s d a f) := ⟨_, rfl, regFrame_done s d _⟩

theorem describes_vec2 {i : Instr} {s : State} {w : Nat} {d a b : Reg} {q : PReg} {f : Nat → Nat → Nat} :
    Describes ⟨[], [a, b], [], [], [d], false, true⟩ i s (opVec2 s i w d a b q f) :=
  ⟨_, rfl, (writes_setLanes s d w _ _).advance⟩

theorem describes_vec1 {i : Instr} {s : State} {w : Nat} {d a : Reg} {q : PReg} {f : Nat → Nat} :
    Describes ⟨[], [a], [], [], [d], false, true⟩ i s (opVec1 s i w d a q f) :=
  ⟨_, rfl, (writes_setLanes s d w _ _).advance⟩

/-- Lanes of vd written, then flags added (R107). -/
theorem writes_lanes_and_flags (s : State) (d : Reg) (w fl : Nat) (act : List Bool) (new : List Nat) :
    Writes [] [] [d] [cwFFLAGS] s ((s.setLanes d w act new).addFlags fl) :=
  ((writes_setLanes s d w act new).mono (by simp) (by simp) (by simp) (by simp)).trans
    ((writes_addFlags _ fl).mono (by simp) (by simp) (by simp) (by simp))

theorem describes_float {i : Instr} {s : State} {w : Nat} {d : Reg} {q : PReg} {srcs : List Reg} {r : List (Nat × Nat)} :
    Describes ⟨[], srcs, [], [], [d], true, true⟩ i s (opFloat s i w d q srcs r) :=
  ⟨_, rfl, (writes_lanes_and_flags s d w _ _ _).advance⟩

theorem describes_widen {i : Instr} {s : State} {d a : Reg} {q : PReg} {l : List Nat} {f : Nat → Nat × Nat} :
    Describes ⟨[], [a], [], [], [d], true, true⟩ i s (opWiden s i d a q l f) := describes_float

theorem describes_narrow {i : Instr} {s : State} {w hh : Nat} {d a : Reg} {q : PReg} {f : Nat → Nat × Nat} :
    Describes ⟨[], [a], [], [], [d], true, true⟩ i s (opNarrow s i w hh d a q f) :=
  ⟨_, rfl, (writes_lanes_and_flags s d w _ _ _).advance⟩

/-- A predicate written, then flags added (R107, R121). -/
theorem writes_pred_and_flags (s : State) (d : PReg) (w : Word) (fl : Nat) :
    Writes [] [d] [] [cwFFLAGS] s ((s.setQ d w).addFlags fl) :=
  ((writes_setQ s d w).mono (by simp) (by simp) (by simp) (by simp)).trans
    ((writes_addFlags _ fl).mono (by simp) (by simp) (by simp) (by simp))

theorem describes_cmp {i : Instr} {s : State} {w : Nat} {d : PReg} {a b : Reg} {q : PReg} {f : Nat → Nat → Bool × Nat} :
    Describes ⟨[], [a, b], [], [d], [], true, true⟩ i s (opCmp s i w d a b q f) :=
  ⟨_, rfl, (writes_pred_and_flags s d _ _).advance⟩

/-- A form that writes vd whole. -/
theorem describes_setAll {i : Instr} {s : State} {w : Nat} {d : Reg} {l : List Nat} {gs vs : List Reg} :
    Describes ⟨gs, vs, [], [], [d], false, true⟩ i s (.next (s.slotOnly i (s.guardP gs vs (s.setAll d w l).advance))) :=
  ⟨_, rfl, (writes_setAll s d w l).advance⟩

/-- A vector form that writes gd. -/
theorem describes_toG {i : Instr} {s : State} {d : Reg} {w : Word} {gs vs : List Reg} :
    Describes ⟨gs, vs, [d], [], [], false, true⟩ i s (.next (s.slotOnly i (s.guardP gs vs (s.done d w)))) :=
  ⟨_, rfl, regFrame_done s d w⟩

/-- A float reduction adds flags and writes gd. -/
theorem describes_reduceF {i : Instr} {s : State} {d a : Reg} {fl : Nat} {w : Word} :
    Describes ⟨[], [a], [d], [], [], true, true⟩ i s
      (.next (s.slotOnly i (s.guardP [] [a] ((s.addFlags fl).done d w)))) :=
  ⟨_, rfl, regFrame_done_of_writes (writes_addFlags s fl) d w⟩

/-- A form that writes qd alone. -/
theorem describes_toQ {i : Instr} {s : State} {d : PReg} {w : Word} {gs : List Reg} :
    Describes ⟨gs, [], [], [d], [], false, true⟩ i s (.next (s.slotOnly i (s.guardP gs [] (s.setQ d w).advance))) :=
  ⟨_, rfl, (writes_setQ s d w).advance⟩

theorem describes_vsel (s : State) (d a b : Reg) (q : PReg) :
    Describes ⟨[], [a, b], [], [], [d], false, true⟩ (.vsel d a b q) s (execVsel d a b q s) :=
  ⟨_, rfl, (writes_setLanes s d 8 _ _).advance⟩

theorem describes_vins (s : State) (w : Width) (d a b : Reg) :
    Describes ⟨[a, b], [], [], [], [d], false, true⟩ (.vins w d a b) s (execVins w d a b s) :=
  ⟨_, rfl, (writes_setV s d _).advance⟩

theorem describes_vcompress (s : State) (d a : Reg) :
    Describes ⟨[], [a], [], [], [d], false, true⟩ (.vcompress d a) s (execVcompress d a s) :=
  ⟨_, rfl, (writes_setMy s ((keeps_setV _ _ _).trans (keeps_cleanV _ _)) ⟨rfl, rfl, rfl⟩).advance⟩

/-- Every instruction of registers alone is as its use says, by the operand form it has. -/
theorem describes_of_regOnly {i : Instr} {u : RegUse} (s : State) (h : regOnly i = some u) : Describes u i s (exec i s) := by
  cases i with
  | add | sub | and | or | xor | andn | sll | srl | sra | clt | cltu | min | max | minu | maxu | mul | mulh | mulhu | div
  | divu | rem | remu | sel => cases h; dsimp only [exec]; exact describes_op2
  | clz | popc | addi | andi | ori | xori | clti | cltiu | insh0 | insh1 | insh2 | insh3 | slli | srli | srai =>
    cases h; dsimp only [exec]; exact describes_op1
  | vadd | vsub | vmul | vadds | vsubs | vmin | vmax | vminu | vmaxu | vsll | vsrl | vsra | vand | vor | vxor | vandn =>
    cases h; dsimp only [exec]; exact describes_vec2
  | vsel => cases h; exact describes_vsel s _ _ _ _
  | vperm | vbcast | vslide => cases h; dsimp only [exec]; exact describes_setAll
  | vabs | vfabs | vfneg => cases h; dsimp only [exec]; exact describes_vec1
  | vcompress => cases h; exact describes_vcompress s _ _
  | vfadd | vfsub | vfmul | vfmin | vfmax | vfma | vfnma | vexp2 | vrcp | vrsq =>
    cases h; dsimp only [exec]; exact describes_float
  | vcvtF32Bf16 | vcvtF32I32 | vcvtI32F32 | vcvtI32I8 => cases h; dsimp only [exec]; exact describes_widen
  | vcvtBf16F32 | vcvtI8I32 | vcvtUi8I32 => cases h; dsimp only [exec]; exact describes_narrow
  | vcmpEq | vcmpNe | vcmpLt | vcmpLe | vcmpLtu | vcmpLeu => cases h; dsimp only [exec]; exact describes_cmp
  | qand | qor | qxor | qandn | qnot | qfromg => cases h; dsimp only [exec]; exact describes_toQ
  | qcnt | qtog | vrsumI32 | vrmaxI32 | vextr => cases h; dsimp only [exec]; exact describes_toG
  | vrsumF32 | vrmaxF32 => cases h; dsimp only [exec]; exact describes_reduceF
  | vins => cases h; exact describes_vins s _ _ _ _
  | _ => cases h

theorem regOnly_frame : Claim.RegOnlyFrame := by
  intro i u s hu hclean hslot
  obtain ⟨k, hexec, hframe⟩ := describes_of_regOnly s hu
  exact ⟨k, by rw [hexec, checked_clean hclean hslot], hframe⟩

theorem regOnly_poison : Claim.RegOnlyPoison := by
  intro i u s n hu
  obtain ⟨k, hexec, _⟩ := describes_of_regOnly s hu
  refine ⟨fun hslot hpois => ?_, fun hslot hbank => ?_⟩
  · rw [hexec, checked_poisoned hslot hpois]
  · rw [hexec, checked_in_handler hslot hbank]
    rfl

/-- Settles O10: each instruction makes the checks of its use, then writes the destinations of its use alone. -/
theorem registerOnlyFrame : Obligations.RegisterOnlyFrame := by
  unfold Obligations.RegisterOnlyFrame
  exact ⟨regOnly_frame, regOnly_poison⟩

end Sys2Proof.Proofs.Registers

/-! SUPPORT. Scalar arithmetic: what each operation writes, as the tables of R81 to R84 give it (R28, R81 to R84). -/

namespace Sys2Proof.Proofs.Arithmetic

open Machine

/-! ### Clean sources -/

theorem op2_clean {s : State} {a b : Reg} (h : s.Clean [a, b] []) (d : Reg) (f : Word → Word → Word) :
    op2 s d a b f = .next (s.done d (f (s.g a) (s.g b))) := by rw [op2, guardP_clean h]

theorem op1_clean {s : State} {a : Reg} (h : s.Clean [a] []) (d : Reg) (f : Word → Word) :
    op1 s d a f = .next (s.done d (f (s.g a))) := by rw [op1, guardP_clean h]

/-- A form of two sources, by the value that its table gives. -/
theorem op2_writes {s : State} {a b : Reg} {f : Word → Word → Word} {w : Word} (h : s.Clean [a, b] []) (d : Reg)
    (hw : f (s.g a) (s.g b) = w) : op2 s d a b f = .next (s.done d w) := by rw [op2_clean h, hw]

/-! ### The values of the table of R81 -/

theorem sham_eq (b : Word) : sham b = b.toNat % 64 := by simp [sham, bits, bitsN]

theorem ofBool_lts (a b : Word) : ofBool (lts a b) = if a.toInt < b.toInt then 1 else 0 := by simp [ofBool, lts]

theorem ofBool_ltu (a b : Word) : ofBool (ltu a b) = if a.toNat < b.toNat then 1 else 0 := by simp [ofBool, ltu]

theorem lts_iff (a b : Word) : lts a b = true ↔ a.toInt < b.toInt := decide_eq_true_iff

theorem ltu_iff (a b : Word) : ltu a b = true ↔ a.toNat < b.toNat := decide_eq_true_iff

theorem min_signed (a b : Word) : (if lts b a then b else a) = BitVec.ofInt 64 (min a.toInt b.toInt) := by
  by_cases h : b.toInt < a.toInt
  · rw [if_pos ((lts_iff _ _).2 h), min_eq_right h.le, BitVec.ofInt_toInt]
  · rw [if_neg (mt (lts_iff _ _).1 h), min_eq_left (not_lt.1 h), BitVec.ofInt_toInt]

theorem max_signed (a b : Word) : (if lts a b then b else a) = BitVec.ofInt 64 (max a.toInt b.toInt) := by
  by_cases h : a.toInt < b.toInt
  · rw [if_pos ((lts_iff _ _).2 h), max_eq_right h.le, BitVec.ofInt_toInt]
  · rw [if_neg (mt (lts_iff _ _).1 h), max_eq_left (not_lt.1 h), BitVec.ofInt_toInt]

theorem min_unsigned (a b : Word) : (if ltu b a then b else a) = BitVec.ofNat 64 (min a.toNat b.toNat) := by
  by_cases h : b.toNat < a.toNat
  · rw [if_pos ((ltu_iff _ _).2 h), min_eq_right h.le, BitVec.ofNat_toNat, BitVec.setWidth_eq]
  · rw [if_neg (mt (ltu_iff _ _).1 h), min_eq_left (not_lt.1 h), BitVec.ofNat_toNat, BitVec.setWidth_eq]

theorem max_unsigned (a b : Word) : (if ltu a b then b else a) = BitVec.ofNat 64 (max a.toNat b.toNat) := by
  by_cases h : a.toNat < b.toNat
  · rw [if_pos ((ltu_iff _ _).2 h), max_eq_right h.le, BitVec.ofNat_toNat, BitVec.setWidth_eq]
  · rw [if_neg (mt (ltu_iff _ _).1 h), max_eq_left (not_lt.1 h), BitVec.ofNat_toNat, BitVec.setWidth_eq]

theorem mul_unsigned (a b : Word) : a * b = BitVec.ofNat 64 (a.toNat * b.toNat) := by
  rw [BitVec.ofNat_mul, BitVec.ofNat_toNat, BitVec.ofNat_toNat, BitVec.setWidth_eq, BitVec.setWidth_eq]

/-- Map A with two sources: most rows are the model's operation itself, the others one of the values above. -/
theorem mapA_results : Claim.MapAResults := by
  intro s d x y h a b n
  have hsham : sham b = n := sham_eq b
  dsimp only [exec]
  exact ⟨op2_clean h d _, op2_clean h d _, op2_clean h d _, op2_clean h d _, op2_clean h d _, op2_clean h d _,
    op2_writes h d (by exact congrArg (a <<< ·) hsham), op2_writes h d (by exact congrArg (a >>> ·) hsham),
    op2_writes h d (by exact congrArg a.sshiftRight hsham), op2_writes h d (ofBool_lts a b),
    op2_writes h d (ofBool_ltu a b), op2_writes h d (min_signed a b), op2_writes h d (max_signed a b),
    op2_writes h d (min_unsigned a b), op2_writes h d (max_unsigned a b), op2_writes h d (mul_unsigned a b),
    op2_clean h d _, op2_clean h d _, op2_clean h d divS, op2_clean h d divU, fun _ => op2_clean h d _⟩

/-! ### Remainders (R81) -/

theorem toInt_ne_zero {b : Word} (h : b ≠ 0) : b.toInt ≠ 0 := fun e => h (BitVec.eq_of_toInt_eq e)

theorem remS_eq_srem {a b : Word} (h : b ≠ 0) : remS a b = a.srem b := by
  rw [remS, if_neg h, ← BitVec.toInt_srem, BitVec.ofInt_toInt]

theorem remS_eq_sub {a b : Word} (h : b ≠ 0) : remS a b = a - b * BitVec.ofInt 64 (a.toInt.tdiv b.toInt) := by
  rw [remS, if_neg h, Int.tmod_def, Int.sub_eq_add_neg, BitVec.ofInt_add, BitVec.ofInt_neg, BitVec.ofInt_mul,
    BitVec.ofInt_toInt, BitVec.ofInt_toInt, BitVec.sub_eq_add_neg]

theorem natAbs_remS_lt {a b : Word} (h : b ≠ 0) : (remS a b).toInt.natAbs < b.toInt.natAbs := by
  rw [remS_eq_srem h, BitVec.toInt_srem, Int.natAbs_tmod]
  exact Nat.mod_lt _ (Int.natAbs_pos.2 (toInt_ne_zero h))

theorem remS_nonneg {a b : Word} (h : b ≠ 0) (ha : 0 ≤ a.toInt) : 0 ≤ (remS a b).toInt := by
  rw [remS_eq_srem h, BitVec.toInt_srem]
  exact Int.tmod_nonneg _ ha

theorem remS_nonpos {a b : Word} (h : b ≠ 0) (ha : a.toInt ≤ 0) : (remS a b).toInt ≤ 0 := by
  rw [remS_eq_srem h, BitVec.toInt_srem]
  have hneg := Int.tmod_nonneg b.toInt (Int.neg_nonneg.2 ha)
  rw [Int.neg_tmod] at hneg
  omega

theorem remU_eq_umod {a b : Word} (h : b ≠ 0) : remU a b = a % b := by
  rw [remU, if_neg h, word, ← BitVec.toNat_umod, BitVec.ofNat_toNat, BitVec.setWidth_eq]

theorem remU_eq_sub {a b : Word} (h : b ≠ 0) : remU a b = a - b * BitVec.ofNat 64 (a.toNat / b.toNat) := by
  have hsplit : a = b * BitVec.ofNat 64 (a.toNat / b.toNat) + remU a b := by
    rw [remU, if_neg h, word]
    have hdiv := congrArg (BitVec.ofNat 64) (Nat.div_add_mod a.toNat b.toNat)
    rw [BitVec.ofNat_add, BitVec.ofNat_mul] at hdiv
    simpa using hdiv.symm
  rw [eq_comm, sub_eq_iff_eq_add']
  exact hsplit

theorem remU_lt {a b : Word} (h : b ≠ 0) : (remU a b).toNat < b.toNat := by
  have hb : b.toNat ≠ 0 := fun e => h (BitVec.eq_of_toNat_eq e)
  rw [remU_eq_umod h, BitVec.toNat_umod]
  exact Nat.mod_lt _ (Nat.pos_of_ne_zero hb)

theorem remainder_results : Claim.RemainderResults := by
  intro s d x y h a b
  refine ⟨remS a b, remU a b, op2_clean h d remS, op2_clean h d remU, fun hb => ⟨if_pos hb, if_pos hb⟩, fun hb => ?_⟩
  exact ⟨remS_eq_sub hb, remU_eq_sub hb, remU_lt hb, natAbs_remS_lt hb, remS_nonneg hb, remS_nonpos hb⟩

/-! ### Leading zeros and set bits (R81) -/

theorem lenN_le (n x : Nat) : lenN n x ≤ n := by
  induction n generalizing x with
  | zero => exact Nat.le_refl 0
  | succ n ih =>
    rw [lenN]
    split
    · exact Nat.zero_le _
    · have := ih (x / 2)
      omega

/-- Every bit from the length on is clear. -/
theorem lt_two_pow_lenN {n x : Nat} (h : x < 2 ^ n) : x < 2 ^ lenN n x := by
  induction n generalizing x with
  | zero => exact h
  | succ n ih =>
    rw [lenN]
    split
    · omega
    · have := ih (x := x / 2) (by omega)
      rw [Nat.pow_add]
      omega

/-- The topmost bit of the length is set. -/
theorem testBit_lenN {n x : Nat} (h : x < 2 ^ n) (hlen : 0 < lenN n x) : x.testBit (lenN n x - 1) = true := by
  induction n generalizing x with
  | zero => exact absurd hlen (Nat.lt_irrefl 0)
  | succ n ih =>
    have hx : x ≠ 0 := fun e => by simp [lenN, e] at hlen
    have hhalf : x / 2 < 2 ^ n := by omega
    rw [lenN, if_neg hx]
    cases hk : lenN n (x / 2) with
    | zero =>
      have hone := lt_two_pow_lenN hhalf
      rw [hk] at hone
      have : x = 1 := by omega
      simp [this]
    | succ k =>
      have hbit := ih hhalf (by omega)
      rw [hk] at hbit
      simpa [Nat.testBit_succ, Nat.add_comm] using hbit

theorem popN_eq_countP (n x : Nat) : popN n x = (List.range n).countP x.testBit := by
  induction n generalizing x with
  | zero => rfl
  | succ n ih =>
    have hhalf : (x.testBit ∘ Nat.succ) = (x / 2).testBit := funext fun k => Nat.testBit_succ x k
    have hlow : (if x.testBit 0 = true then 1 else 0) = x % 2 := by
      rw [Nat.testBit_zero]
      rcases Nat.mod_two_eq_zero_or_one x with h | h <;> simp [h]
    rw [popN, ih, List.range_succ_eq_map, List.countP_cons, List.countP_map, hhalf, hlow, Nat.add_comm]

theorem clz_popc_results : Claim.ClzPopcResults := by
  intro s d x h a
  have hlt : a.toNat < 2 ^ 64 := a.isLt
  have hle := lenN_le 64 a.toNat
  dsimp only [exec]
  refine ⟨⟨64 - lenN 64 a.toNat, Nat.sub_le _ _, op1_clean h d clzW, fun k hk => ?_, fun hn => ?_⟩, ?_⟩
  · have hclear : 2 ^ lenN 64 a.toNat ≤ 2 ^ (63 - k) := Nat.pow_le_pow_right (by decide) (by omega)
    exact Nat.testBit_lt_two_pow (lt_of_lt_of_le (lt_two_pow_lenN hlt) hclear)
  · rw [show 63 - (64 - lenN 64 a.toNat) = lenN 64 a.toNat - 1 by omega]
    exact testBit_lenN hlt (by omega)
  · have hpop : word (popN 64 a.toNat) = BitVec.ofNat 64 ((List.range 64).countP (fun k => a.getLsbD k)) :=
      congrArg word (popN_eq_countP 64 a.toNat)
    rw [← hpop]
    exact op1_clean h d _

/-! ### Immediates (R28, R82 to R84) -/

theorem immediate_results : Claim.ImmediateResults := by
  intro s d x imm sh h a si zi
  dsimp only [exec]
  exact ⟨op1_clean h d _, op1_clean h d _, op1_clean h d _, op1_clean h d _,
    (op1_clean h d _).trans (by rw [ofBool_lts]; rfl), (op1_clean h d _).trans (by rw [ofBool_ltu]; rfl),
    op1_clean h d _, op1_clean h d _, op1_clean h d _⟩

/-- Settles O11: the rows of R81 by the values above, the immediate forms by the same operations. -/
theorem scalarResults : Obligations.ScalarResults := by
  unfold Obligations.ScalarResults
  exact ⟨mapA_results, remainder_results, clz_popc_results, immediate_results⟩

/-- With ga = g0 nothing of it is left beside the immediate. -/
theorem insHalf_zero (imm : BitVec 16) : insHalf 0 0 imm = imm.setWidth 64 := by
  simp [insHalf, zimm]

/-- Settles O12: INSH.k is the insertion of a halfword, its word the concatenation of its fields. -/
theorem inshResult : Obligations.InshResult := by
  unfold Obligations.InshResult
  intro s d x imm h r
  dsimp only [exec]
  refine ⟨op1_clean h d _, op1_clean h d _, op1_clean h d _, op1_clean h d _, fun hx => ?_, ?_⟩
  · have hzero : s.g x = 0 := by rw [hx]; rfl
    show insHalf 0 (s.g x) imm = _
    rw [hzero, insHalf_zero]
  · exact ⟨rfl, rfl, rfl, rfl⟩

/-! ### Branches and JALR (R29, R89, R91) -/

theorem opBranch_clean {s : State} {x y : Reg} (h : s.Clean [x, y] []) (disp : BitVec 16) {cond : Word → Word → Bool}
    {c : Bool} (hc : cond (s.g x) (s.g y) = c) :
    opBranch s x y disp cond = .next (if c then s.jump (s.my.pc + 4 * disp.signExtend 64) else s.advance) := by
  rw [opBranch, guardP_clean h, hc]
  rfl

theorem not_lts (a b : Word) : (!lts a b) = decide (b.toInt ≤ a.toInt) := by
  rw [lts, ← decide_not, decide_eq_decide, not_lt]

theorem not_ltu (a b : Word) : (!ltu a b) = decide (b.toNat ≤ a.toNat) := by
  rw [ltu, ← decide_not, decide_eq_decide, not_lt]

/-- Settles O13: the six branches differ in their conditions and majors alone. -/
theorem branchTargets : Obligations.BranchTargets := by
  unfold Obligations.BranchTargets
  intro s x y disp h a b go
  dsimp only [exec]
  exact ⟨opBranch_clean h disp rfl, opBranch_clean h disp (by simp [bne, beq_eq_decide, a, b]), opBranch_clean h disp rfl,
    opBranch_clean h disp (not_lts a b), opBranch_clean h disp rfl, opBranch_clean h disp (not_ltu a b),
    rfl, rfl, rfl, rfl, rfl, rfl⟩

theorem execJalr_clean {s : State} {x : Reg} (h : s.Clean [x] []) (d : Reg) : execJalr d x s = .next
    (if (s.g x).toNat % 4 = 0 then (s.setG d (s.my.pc + 4)).jump (s.g x) else s.raise 0x03 (s.g x)) := by
  have hlow : (bits (s.g x) 1 0 != 0) = !decide ((s.g x).toNat % 4 = 0) := by simp [bits, bitsN, bne, beq_eq_decide]
  rw [execJalr, guardP_clean h, hlow]
  by_cases halign : (s.g x).toNat % 4 = 0 <;> simp [halign]

/-- Settles O15: the target is tested before gd is written. -/
theorem jalrEffect : Obligations.JalrEffect := by
  unfold Obligations.JalrEffect
  intro s d x h
  have hexec : exec (.jalr d x) s = execJalr d x s := rfl
  rw [hexec, execJalr_clean h]
  refine ⟨fun halign => by rw [if_pos halign], fun halign => by rw [if_neg halign], ?_, by decide⟩
  show mkR 0x24 d x 0 0x000 = _
  rw [mkR, BitVec.append_assoc]
  rfl

end Sys2Proof.Proofs.Arithmetic

/-! SUPPORT. Traps: taking one, TRAP and BKPT, and the return by TRET (R73, R93 to R95). -/

namespace Sys2Proof.Proofs.Traps

open Machine Contexts Frames

/-! ### The mode bits of STATUS (R64) -/

theorem statusOf_bits (sv pm tb : Bool) :
    bit (statusOf sv pm tb) 0 = sv ∧ bit (statusOf sv pm tb) 1 = pm ∧ bit (statusOf sv pm tb) 2 = tb := by
  cases sv <;> cases pm <;> cases tb <;> decide

/-- A context whose STATUS is written: its mode and trap-busy bits, and every other word. -/
theorem mode_of_status {x : Ctx} {sv pm tb : Bool} (h : x.cwv cwSTATUS = statusOf sv pm tb) :
    x.sv = sv ∧ x.pm = pm ∧ x.tb = tb := by
  obtain ⟨hsv, hpm, htb⟩ := statusOf_bits sv pm tb
  simp only [Ctx.sv, Ctx.pm, Ctx.tb, h]
  exact ⟨hsv, hpm, htb⟩

theorem cwv_leave (x : Ctx) {n : Nat} (h : n ≠ cwDBGST) : x.leave.cwv n = x.cwv n := by
  cases hskip : x.skipNow with
  | false => simp [Ctx.leave, hskip, Ctx.cwv]
  | true => simpa [Ctx.leave, hskip, Ctx.cwv] using cwv_tput_other x _ h

/-! ### Taking a trap (R73) -/

/-- What a trap writes to TCAUSE, TVAL and TPC. -/
def trapWords (x : Ctx) (cause : Nat) (val tpc : Word) : Ctx :=
  ((x.setCw cwTCAUSE (word cause)).setCw cwTVAL val).setCw cwTPC tpc

/-- Those words, and STATUS with SV moved to PM. -/
def trapSaved (x : Ctx) (handler : Bool) (cause : Nat) (val tpc : Word) : Ctx :=
  (trapWords x cause val tpc).setCw cwSTATUS (statusOf true ((trapWords x cause val tpc).sv || handler) true)

/-- A context that has entered its trap handler. -/
def trapped (x : Ctx) (handler : Bool) (cause : Nat) (val tpc : Word) : Ctx :=
  { (trapSaved x handler cause val tpc).leave with pc := (trapSaved x handler cause val tpc).cwv cwTVEC }

theorem cwv_trapWords (x : Ctx) (cause : Nat) (val tpc : Word) (n : Nat) : (trapWords x cause val tpc).cwv n =
    if n = cwTPC then tpc else if n = cwTVAL then val else if n = cwTCAUSE then word cause else x.cwv n := by
  simp only [trapWords, cwv_setCw_eq_ite]

theorem sv_trapWords (x : Ctx) (cause : Nat) (val tpc : Word) : (trapWords x cause val tpc).sv = x.sv :=
  congrArg (bit · 0) (cwv_trapWords x cause val tpc cwSTATUS)

theorem cwv_trapSaved (x : Ctx) (handler : Bool) (cause : Nat) (val tpc : Word) (n : Nat) :
    (trapSaved x handler cause val tpc).cwv n = if n = cwSTATUS then statusOf true (x.sv || handler) true
      else if n = cwTPC then tpc else if n = cwTVAL then val else if n = cwTCAUSE then word cause else x.cwv n := by
  rw [trapSaved, cwv_setCw_eq_ite, cwv_trapWords, sv_trapWords]

theorem cwv_trapped (x : Ctx) (handler : Bool) (cause : Nat) (val tpc : Word) {n : Nat} (h : n ≠ cwDBGST) :
    (trapped x handler cause val tpc).cwv n = (trapSaved x handler cause val tpc).cwv n :=
  cwv_leave (trapSaved x handler cause val tpc) h

theorem keeps_trapped (x : Ctx) (handler : Bool) (cause : Nat) (val tpc : Word) :
    Keeps [] [] [] ([0x000, 0x001, 0x002, 0x003] ++ leftWords) x (trapped x handler cause val tpc) := by
  have hleft : Keeps [] [] [] leftWords (trapSaved x handler cause val tpc) (trapped x handler cause val tpc) :=
    (keeps_leave _).trans keeps_of_same
  have hsaved : Keeps [] [] [] [0x000, 0x001, 0x002, 0x003] x (trapSaved x handler cause val tpc) :=
    ⟨fun _ _ => ⟨rfl, rfl⟩, fun _ _ => rfl, fun _ _ => ⟨rfl, rfl⟩, fun n hn => by
      simp only [List.mem_cons, List.not_mem_nil, or_false, not_or] at hn
      obtain ⟨hstatus, htcause, htval, htpc⟩ := hn
      exact (cwv_trapSaved x handler cause val tpc n).trans (by simp [cwSTATUS, cwTPC, cwTVAL, cwTCAUSE, *]), rfl, rfl⟩
  exact (hsaved.mono (by simp) (by simp) (by simp) (List.subset_append_left _ _)).trans
    (hleft.mono (by simp) (by simp) (by simp) (List.subset_append_right _ _))

theorem trapped_words (x : Ctx) (handler : Bool) (cause : Nat) (val tpc : Word) :
    (trapped x handler cause val tpc).pc = x.cwv 0x004 ∧ (trapped x handler cause val tpc).cwv 0x001 = word cause
    ∧ (trapped x handler cause val tpc).cwv 0x002 = val ∧ (trapped x handler cause val tpc).cwv 0x003 = tpc := by
  refine ⟨cwv_trapSaved x handler cause val tpc 0x004, ?_, ?_, ?_⟩ <;>
  · rw [cwv_trapped x _ _ val tpc (by decide), cwv_trapSaved]
    rfl

theorem trapped_mode (x : Ctx) (handler : Bool) (cause : Nat) (val tpc : Word) :
    (trapped x handler cause val tpc).sv = true ∧ (trapped x handler cause val tpc).pm = (x.sv || handler)
    ∧ (trapped x handler cause val tpc).tb = true :=
  mode_of_status (by rw [cwv_trapped x _ _ val tpc (by decide), cwv_trapSaved, if_pos rfl])

/-- A state that has noted a fault, where the code is one. -/
def noted (s : State) (code : Nat) : State := if code < 0x20 then { s with faulted := true } else s

/-- Noting a fault changes the note alone. -/
theorem noted_rest (s : State) (code : Nat) : (noted s code).ctxs = s.ctxs ∧ (noted s code).cur = s.cur
    ∧ SameMem s (noted s code) ∧ (noted s code).cores = s.cores ∧ (noted s code).clusters = s.clusters := by
  rw [noted]
  split <;> exact ⟨rfl, rfl, ⟨rfl, rfl⟩, rfl, rfl⟩

theorem ctx_noted (s : State) (code : Nat) (c : CtxId) : (noted s code).ctx c = s.ctx c := by
  simp only [State.ctx, (noted_rest s code).1]

/-- What a trap writes to TCAUSE: its code, with 256 added in a handler context (R73). -/
def causeOf (c : CtxId) (code : Nat) : Nat := code + if c.isHandler then 256 else 0

theorem takeTrap_eq (s : State) (c : CtxId) (code : Nat) (val tpc : Word) : s.takeTrap c code val tpc =
    if code < 0x20 ∧ (s.ctx c).tb = true then (noted s code).fatal c (causeOf c code + 512) val tpc
    else if code < 0x20 ∧ ((s.ctx c).cwv 0x005).getLsbD code = false then (noted s code).fatal c (causeOf c code) val tpc
    else if (s.ctx c).cwv 0x004 = 0 then (noted s code).fatal c (causeOf c code) val tpc
    else (noted s code).setCtx c (trapped (s.ctx c) c.isHandler (causeOf c code) val tpc) := by
  rw [← ctx_noted s code c]
  rfl

theorem takeTrap_handled {s : State} {c : CtxId} {code : Nat} (val tpc : Word)
    (hmask : ¬ (code < 0x20 ∧ ((s.ctx c).tb = true ∨ ((s.ctx c).cwv 0x005).getLsbD code = false)))
    (hvec : (s.ctx c).cwv 0x004 ≠ 0) : s.takeTrap c code val tpc =
      (noted s code).setCtx c (trapped (s.ctx c) c.isHandler (causeOf c code) val tpc) := by
  rw [takeTrap_eq, if_neg (fun h => hmask ⟨h.1, .inl h.2⟩), if_neg (fun h => hmask ⟨h.1, .inr h.2⟩), if_neg hvec]

theorem takeTrap_no_vector {s : State} {c : CtxId} {code : Nat} (val tpc : Word)
    (hfree : ¬ (code < 0x20 ∧ (s.ctx c).tb = true)) (hvec : (s.ctx c).cwv 0x004 = 0) :
    s.takeTrap c code val tpc = (noted s code).fatal c (causeOf c code) val tpc := by
  rw [takeTrap_eq, if_neg hfree, if_pos hvec, ite_self]

/-- Settles O16: a fatal trap by its three conditions in their order, a handled one by `takeTrap_handled`. -/
theorem takeTrap : Obligations.TakeTrap := by
  unfold Obligations.TakeTrap
  intro s c code val tpc _
  refine ⟨fun hfault hbusy => ?_, fun hfault hfree hclear => ?_, fun hfree hvec => takeTrap_no_vector val tpc hfree hvec,
    fun hmask hvec => ?_⟩
  · exact (takeTrap_eq s c code val tpc).trans (if_pos ⟨hfault, hbusy⟩)
  · rw [takeTrap_eq, if_neg (fun h => by simp [hfree] at h), if_pos ⟨hfault, hclear⟩]
    rfl
  · obtain ⟨hpc, hcause, hval, htpc⟩ := trapped_words (s.ctx c) c.isHandler (causeOf c code) val tpc
    obtain ⟨hsv, hpm, htb⟩ := trapped_mode (s.ctx c) c.isHandler (causeOf c code) val tpc
    obtain ⟨_, _, hmem, hcores, hclusters⟩ := noted_rest s code
    rw [takeTrap_handled val tpc hmask hvec, ctx_setCtx_same]
    exact ⟨hpc, hcause, hval, htpc, hsv, htb, hpm, keeps_trapped _ _ _ _ _,
      fun d hd => (ctx_setCtx_other _ _ hd).trans (ctx_noted s code d), hmem, hcores, hclusters⟩

/-! ### TRAP and BKPT (R93, R95) -/

theorem my_takeTrap_handled {s : State} {code : Nat} (val tpc : Word)
    (hmask : ¬ (code < 0x20 ∧ (s.my.tb = true ∨ (s.my.cwv 0x005).getLsbD code = false))) (hvec : s.my.cwv 0x004 ≠ 0) :
    (s.takeTrap s.cur code val tpc).my = trapped s.my s.cur.isHandler (causeOf s.cur code) val tpc := by
  obtain ⟨_, hcur, _⟩ := noted_rest s code
  have hset := my_setMy (noted s code) (trapped s.my s.cur.isHandler (causeOf s.cur code) val tpc)
  rw [State.setMy, hcur] at hset
  rw [takeTrap_handled val tpc hmask hvec]
  exact hset

/-- With no frame a fault is a trap at the instruction's own address (R73). -/
theorem raise_without_frame {s : State} (h : s.my.frame = none) (code : Nat) (val : Word) :
    s.raise code val = (s.setMy s.my).takeTrap s.cur code val s.my.pc := by
  have hsame : s.my.interruptFrame = s.my := by simp [Ctx.interruptFrame, h]
  have hbeside : ¬ ((s.my.frame.isSome && !s.my.onFrame) = true) := by simp [h]
  rw [State.raise, if_neg hbeside, hsame]
  simp only [my_setMy]
  rfl

theorem encode_trap (n : BitVec 5) : encode (.trap n) = (0x24#6 ++ 0#10 ++ n ++ 1#11) := by
  revert n
  decide

/-- Settles O17: TRAP takes the trap whatever TMASK and TB hold, since its code is no fault's; BKPT raises 0x0E. -/
theorem trapAndBkpt : Obligations.TrapAndBkpt := by
  unfold Obligations.TrapAndBkpt
  intro s n
  refine ⟨rfl, fun hvec => ⟨_, rfl, ?_⟩, encode_trap n, by decide, by decide, rfl,
    fun hframe hfree hset hvec => ⟨_, rfl, ?_⟩⟩
  · have hno : ¬ 0x20 + n.toNat < 0x20 := by omega
    obtain ⟨hpc, hcause, hval, htpc⟩ := trapped_words s.my s.cur.isHandler (causeOf s.cur (0x20 + n.toNat)) 0 (s.my.pc + 4)
    rw [my_takeTrap_handled 0 (s.my.pc + 4) (fun h => hno h.1) hvec]
    exact ⟨hpc, htpc, hval, hcause⟩
  · have hmy : (s.setMy s.my).my = s.my := my_setMy _ _
    obtain ⟨hpc, hcause, hval, htpc⟩ := trapped_words s.my s.cur.isHandler (causeOf s.cur 0x0E) 0 s.my.pc
    have htrap : ((s.setMy s.my).takeTrap s.cur 0x0E 0 s.my.pc).my
        = trapped s.my s.cur.isHandler (causeOf s.cur 0x0E) 0 s.my.pc := by
      have h := my_takeTrap_handled (s := s.setMy s.my) (code := 0x0E) 0 s.my.pc
        (by rw [hmy]; simp [hfree, hset]) (by rw [hmy]; exact hvec)
      rw [hmy] at h
      exact h
    rw [raise_without_frame hframe, htrap]
    exact ⟨hpc, htpc, hval⟩

/-! ### TRET (R94) -/

theorem cwv_trapReturn (x : Ctx) (handler : Bool) {n : Nat} (h : n ≠ cwDBGST) :
    (x.trapReturn handler).cwv n = if n = cwSTATUS then statusOf (x.pm || handler) x.pm false else x.cwv n := by
  have hpm : x.leave.pm = x.pm := by rw [Ctx.pm, cwv_leave x (by decide), Ctx.pm]
  rw [← cwv_leave x h, ← hpm]
  exact cwv_setCw_eq_ite _ _ _ _

theorem trapReturn_mode (x : Ctx) (handler : Bool) :
    (x.trapReturn handler).sv = (x.pm || handler) ∧ (x.trapReturn handler).pm = x.pm ∧ (x.trapReturn handler).tb = false :=
  mode_of_status (by rw [cwv_trapReturn x handler (by decide), if_pos rfl])

theorem pc_trapReturn (x : Ctx) (handler : Bool) : (x.trapReturn handler).pc = x.cwv 0x003 :=
  cwv_leave x (by decide)

theorem keeps_trapReturn (x : Ctx) (handler : Bool) : Keeps [] [] [] ([0x000] ++ leftWords) x (x.trapReturn handler) :=
  ((keeps_leave x).mono (by simp) (by simp) (by simp) (by simp)).trans
    (((keeps_setCw x.leave cwSTATUS (statusOf (x.leave.pm || handler) x.leave.pm false)).mono (by simp) (by simp) (by simp)
      (by simp [cwSTATUS])).trans keeps_of_same)

/-- The saved frame is read from RPTST, RPTCNT and the RPTW words alone. -/
theorem savedFrame_congr {x y : Ctx} (h : ∀ n, 0x020 ≤ n → n < 0x030 → y.cwv n = x.cwv n) : y.savedFrame = x.savedFrame := by
  have hst : y.cwv cwRPTST = x.cwv cwRPTST := h _ (by decide) (by decide)
  have hcnt : y.cwv cwRPTCNT = x.cwv cwRPTCNT := h _ (by decide) (by decide)
  simp only [Ctx.savedFrame, hst, hcnt]
  congr 1
  refine List.map_congr_left fun j hj => ?_
  have hlt : j < 16 := by
    rw [upto_eq_range', List.mem_range'] at hj
    obtain ⟨i, hi, rfl⟩ := hj
    simp only [bits, bitsN] at hi
    omega
  rw [h (cwRPTW + j / 2) (by simp only [cwRPTW]; omega) (by simp only [cwRPTW]; omega)]

theorem savedFrame_trapReturn (x : Ctx) (handler : Bool) : (x.trapReturn handler).savedFrame = x.savedFrame :=
  savedFrame_congr fun n hlow hhigh => by
    rw [cwv_trapReturn x handler (by simp only [cwDBGST]; omega), if_neg (by simp only [cwSTATUS]; omega)]

theorem valid_trapReturn (x : Ctx) (handler : Bool) :
    bit ((x.trapReturn handler).cwv cwRPTST) 63 = bit (x.cwv cwRPTST) 63 := by
  rw [cwv_trapReturn x handler (by decide), if_neg (by decide)]

/-- The context after a TRET that passes its checks. -/
def tretCtx (s : State) : Ctx :=
  if s.cur.isHandler then s.my.trapReturn s.cur.isHandler else (s.my.trapReturn s.cur.isHandler).resumeFrame

theorem execTret_of_task {s : State} (h : s.sup s.cur = false) :
    exec .tret s = .next (s.raise 0x02 ((encode .tret).setWidth 64)) := by
  show Host.Outcome.next _ = _
  rw [State.supOnly, h]
  rfl

theorem execTret_of_sup {s : State} (h : s.sup s.cur = true)
    (hok : (bit (s.my.cwv cwRPTST) 63 && !s.cur.isHandler) = true → s.my.savedFrame.resumeFault = none) :
    exec .tret s = .next (s.setMy (tretCtx s)) := by
  have hnone : (if bit (s.my.cwv cwRPTST) 63 && !s.cur.isHandler then s.my.savedFrame.resumeFault else none) = none := by
    split
    · exact hok ‹_›
    · rfl
  show Host.Outcome.next _ = _
  rw [State.supOnly, if_pos h]
  simp only [hnone, tretCtx]

theorem execTret_bad_frame {s : State} (h : s.sup s.cur = true) (hslot : s.InSlot) (hv : bit (s.my.cwv cwRPTST) 63 = true)
    {n : Nat} (hbad : s.my.savedFrame.resumeFault = some n) : exec .tret s = .next (s.raise 0x09 (BitVec.ofNat 64 n)) := by
  have hhandler : s.cur.isHandler = false := hslot
  show Host.Outcome.next _ = _
  rw [State.supOnly, if_pos h]
  simp only [hv, hhandler, hbad, Bool.not_false, Bool.and_self, if_true]
  rfl

theorem tretCtx_no_frame {s : State} (hv : bit (s.my.cwv cwRPTST) 63 = false) :
    tretCtx s = s.my.trapReturn s.cur.isHandler := by
  rw [tretCtx, Ctx.resumeFrame, valid_trapReturn, hv]
  split <;> rfl

theorem tretCtx_frame {s : State} (hslot : s.InSlot) (hv : bit (s.my.cwv cwRPTST) 63 = true) :
    tretCtx s = { s.my.trapReturn false with frame := some s.my.savedFrame, heldTrap := none } := by
  have hhandler : s.cur.isHandler = false := hslot
  rw [tretCtx, Ctx.resumeFrame, valid_trapReturn, hhandler, if_pos hv, savedFrame_trapReturn]
  rfl

theorem tret_no_frame {s : State} (hsup : s.sup s.cur = true) (hv : (s.my.cwv 0x020).getLsbD 63 = false) :
    ∃ t, exec .tret s = .next t
      ∧ t.my.pc = s.my.cwv 0x003 ∧ t.my.sv = (s.my.pm || s.cur.isHandler) ∧ t.my.tb = false ∧ t.my.pm = s.my.pm
      ∧ OnlyMine s t ∧ Keeps [] [] [] ([0x000] ++ leftWords) s.my t.my ∧ t.my.frame = s.my.frame := by
  have hno : ¬ (bit (s.my.cwv cwRPTST) 63 && !s.cur.isHandler) = true := by
    rw [show bit (s.my.cwv cwRPTST) 63 = false from hv]
    exact Bool.false_ne_true
  obtain ⟨hsv, hpm, htb⟩ := trapReturn_mode s.my s.cur.isHandler
  refine ⟨_, execTret_of_sup hsup (fun h => absurd h hno), ?_⟩
  rw [tretCtx_no_frame hv, my_setMy]
  exact ⟨pc_trapReturn _ _, hsv, htb, hpm, onlyMine_setMy s _, keeps_trapReturn _ _, rfl⟩

theorem tret_frame {s : State} (hsup : s.sup s.cur = true) (hslot : s.InSlot) (hv : (s.my.cwv 0x020).getLsbD 63 = true)
    (hok : s.my.savedFrame.resumeFault = none) : ∃ t, exec .tret s = .next t
      ∧ t.my.pc = s.my.cwv 0x003 ∧ t.my.sv = s.my.pm ∧ t.my.tb = false ∧ t.my.frame = some s.my.savedFrame := by
  obtain ⟨hsv, _, htb⟩ := trapReturn_mode s.my false
  refine ⟨_, execTret_of_sup hsup (fun _ => hok), ?_⟩
  rw [tretCtx_frame hslot hv, my_setMy]
  exact ⟨pc_trapReturn s.my false, hsv.trans (Bool.or_false _), htb, rfl⟩

/-- Settles O18: privilege, then the saved frame's checks, then mode, frame and pc. -/
theorem tretEffect : Obligations.TretEffect := by
  unfold Obligations.TretEffect
  intro s
  exact ⟨by decide, execTret_of_task, tret_no_frame, fun hsup hslot hv =>
    ⟨fun _ hbad => execTret_bad_frame hsup hslot hv hbad, tret_frame hsup hslot hv⟩⟩

end Sys2Proof.Proofs.Traps

/-! SUPPORT. Control words: CWRD and CWWR, and the trap words' rules (R62 to R64, R92, R106). -/

namespace Sys2Proof.Proofs.ControlAccess

open Machine Contexts Frames

/-! ### CWRD and CWWR over every index (R62, R63, R92) -/

/-- CWRD of an assigned word, as its access and its wait decide. -/
theorem exec_cwrd {s : State} {idx : BitVec 12} {m : CwInfo} (h : cwInfo idx.toNat = some m) (gd : Reg) :
    exec (.cwrd gd idx) s = .next (
      if s.cwDenied s.cur m idx.toNat false then s.raise 0x02 ((encode (.cwrd gd idx)).setWidth 64)
      else if s.cwWaits idx.toNat then s.stall else s.done gd (s.cwRead s.cur idx.toNat)) := by
  show execCwrd gd idx s = _
  simp only [execCwrd, h]
  rfl

/-- CWWR of an assigned word. -/
theorem exec_cwwr {s : State} {idx : BitVec 12} {m : CwInfo} (h : cwInfo idx.toNat = some m) (ga : Reg) :
    exec (.cwwr idx ga) s = .next (
      if s.cwDenied s.cur m idx.toNat true then s.raise 0x02 ((encode (.cwwr idx ga)).setWidth 64)
      else s.guardP [ga] [] (s.cwWrite s.cur idx.toNat (s.g ga)).advance) := by
  show execCwwr idx ga s = _
  simp only [execCwwr, h]
  rfl

theorem exec_unassigned {s : State} {idx : BitVec 12} (h : cwInfo idx.toNat = none) (r : Reg) :
    exec (.cwrd r idx) s = .next (s.raise 0x01 ((encode (.cwrd r idx)).setWidth 64))
    ∧ exec (.cwwr idx r) s = .next (s.raise 0x01 ((encode (.cwwr idx r)).setWidth 64)) := by
  constructor
  · show execCwrd r idx s = _
    simp only [execCwrd, h]
    rfl
  · show execCwwr idx r s = _
    simp only [execCwwr, h]
    rfl

theorem cwDenied_of_sup {s : State} {c : CtxId} (h : s.sup c = true) (m : CwInfo) (i : Nat) (write : Bool) :
    s.cwDenied c m i write = false := by
  rw [State.cwDenied, if_pos h]

theorem controlWordAccess : Claim.ControlWordAccess := by
  intro s r idx
  refine ⟨fun h => exec_unassigned h r, fun m h => ?_⟩
  rw [exec_cwrd h, exec_cwwr h]
  refine ⟨fun hden => ?_, fun hok hgo => ?_, fun hok hwait => ?_, fun hden => ?_, fun hok hclean => ?_,
    fun hsup => ⟨cwDenied_of_sup hsup m _ _, cwDenied_of_sup hsup m _ _⟩⟩
  · rw [if_pos hden]
  · simp only [hok, hgo, Bool.false_eq_true, if_false]
  · simp only [hok, hwait, Bool.false_eq_true, if_false, if_true]
  · rw [if_pos hden]
  · simp only [hok, Bool.false_eq_true, if_false, guardP_clean hclean]

/-! ### The trap words in a task slot (R63, R64, R106) -/

/-- The map's rows of TVEC, FRM, FFLAGS and GPOIS. -/
theorem cwInfo_rows : cwInfo 0x004 = some (cwS .both 0xFFFFFFFFFFFFFFFC 0) ∧ cwInfo 0x030 = some (cwRW .slot 0x3 0)
    ∧ cwInfo 0x031 = some (cwRW .slot 0x1F 0) ∧ cwInfo 0x007 = some ⟨.both, true, .no, true, true, 0, 0xFFFFFFFE, 0⟩ := by
  decide

theorem not_denied_of_task_write {s : State} {c : CtxId} {m : CwInfo} (h : m.tw = .yes) (i : Nat) :
    s.cwDenied c m i true = false := by
  rw [State.cwDenied, if_pos rfl, h]
  exact ite_self _

theorem tvec_access {s : State} {m : CwInfo} (h : cwInfo 0x004 = some m) :
    s.cwDenied s.cur m 0x004 false = false ∧ (s.sup s.cur = false → s.cwDenied s.cur m 0x004 true = true) := by
  cases cwInfo_rows.1.symm.trans h
  constructor
  · cases hsup : s.sup s.cur <;> rw [State.cwDenied, hsup] <;> rfl
  · intro hsup
    rw [State.cwDenied, hsup]
    rfl

/-- A write of a word that a task slot holds as such stores what the map's row leaves of it. -/
theorem cwWrite_slot {s : State} {i : Nat} {m : CwInfo} (hrow : cwInfo i = some m) (hhere : (m.here s.cur && m.sw) = true)
    (hscope : m.scope = .slot ∨ m.scope = .both) (hfatal : i ≠ 0x006) (hpois : i ≠ 0x007) (v : Word) :
    s.cwWrite s.cur i v = s.setMy (s.my.setCw i (m.after (s.my.cwv i) v)) := by
  rw [State.cwWrite, hrow]
  simp only [if_pos hhere]
  rcases hscope with hscope | hscope <;>
  · simp only [hscope, if_neg hfatal, if_neg hpois]
    rfl

/-- Where the kept bits are zero, a write leaves the written bits alone. -/
theorem after_of_masked {m : CwInfo} {old : Word} (hclear : m.w1c = 0) (h : old &&& ~~~(word m.rw) = 0) (v : Word) :
    m.after old v = v &&& word m.rw := by
  rw [CwInfo.after, h, hclear, show v &&& word 0 = 0 from BitVec.and_zero]
  exact BitVec.and_allOnes.trans BitVec.zero_or

theorem after_aligned {old : Word} (h : old.toNat % 4 = 0) (v : Word) :
    (cwS .both 0xFFFFFFFFFFFFFFFC 0).after old v = v &&& 0xFFFFFFFFFFFFFFFC :=
  after_of_masked rfl (BitVec.eq_of_toNat_eq ((BitVec.toNat_and _ _).trans
    ((Nat.and_two_pow_sub_one_eq_mod old.toNat 2).trans h))) v

theorem after_two_bits {old : Word} (h : old.toNat < 4) (v : Word) : (cwRW .slot 0x3 0).after old v = v &&& 3 := by
  have hsmall : old = 0#64 ∨ old = 1#64 ∨ old = 2#64 ∨ old = 3#64 := by bv_omega
  refine after_of_masked rfl ?_ v
  rcases hsmall with rfl | rfl | rfl | rfl <;> rfl

theorem tvec_written {s : State} (h : (s.my.cwv 0x004).toNat % 4 = 0) (v : Word) :
    (s.cwWrite s.cur 0x004 v).cwRead s.cur 0x004 = v &&& 0xFFFFFFFFFFFFFFFC := by
  rw [cwWrite_slot cwInfo_rows.1 rfl (.inr rfl) (by decide) (by decide), after_aligned h]
  show ((s.setMy _).ctx s.cur).cwv 0x004 = _
  rw [State.setMy, ctx_setCtx_same, cwv_setCw]

theorem frm_written {s : State} (hslot : s.InSlot) (h : (s.my.cwv 0x030).toNat < 4) (v : Word) :
    (s.cwWrite s.cur 0x030 v).cwRead s.cur 0x030 = v &&& 3 := by
  have hhere : (CwInfo.here (cwRW .slot 0x3 0) s.cur) = true := by
    show (!s.cur.isHandler) = true
    rw [show s.cur.isHandler = false from hslot]
    rfl
  rw [cwWrite_slot cwInfo_rows.2.1 (by rw [hhere]; rfl) (.inl rfl) (by decide) (by decide), after_two_bits h]
  rw [State.cwRead, cwInfo_rows.2.1]
  simp only [hhere]
  show ((s.setMy _).ctx s.cur).cwv 0x030 = _
  rw [State.setMy, ctx_setCtx_same, cwv_setCw]

theorem gpois_written (s : State) (v : Word) :
    (s.cwWrite s.cur 0x007 v).my.gpois = s.my.gpois &&& ~~~(v.setWidth 32 &&& 0xFFFFFFFE) := by
  have hwrite : s.cwWrite s.cur 0x007 v = s.setMy { s.my with gpois := s.my.gpois &&& ~~~(v.setWidth 32 &&& 0xFFFFFFFE) } := by
    rw [State.cwWrite, cwInfo_rows.2.2.2]
    rfl
  rw [hwrite, my_setMy]

theorem trapWordRules : Claim.TrapWordRules := by
  intro s v m hslot
  refine ⟨tvec_access, fun h => ?_, fun h => ?_, fun h => tvec_written h v, fun h => frm_written hslot h v, gpois_written s v⟩
  · cases cwInfo_rows.2.1.symm.trans h
    exact not_denied_of_task_write rfl _
  · cases cwInfo_rows.2.2.1.symm.trans h
    exact not_denied_of_task_write rfl _

/-- Settles O19: the two instructions over every index and mode, and the rules of the trap words. -/
theorem controlWords : Obligations.ControlWords := by
  unfold Obligations.ControlWords
  exact ⟨controlWordAccess, trapWordRules⟩

end Sys2Proof.Proofs.ControlAccess

/-! SUPPORT. Scalar loads and stores: the eleven forms as one, local memory, and every other place (R76, R85 to R88). -/

namespace Sys2Proof.Proofs.LoadsAndStores

open Machine Contexts Frames

/-! ### The eleven forms as two -/

/-- What a load makes of its checked access. -/
def loadEnd (f : MemForm) : State × Option Where → State
  | (u, none) => u
  | (u, some (.own off)) =>
    let w := u.localRecord u.cur.core off (u.bankRead u.cur.core off f.size).2
    w.setMy (w.my.load f.data (extend (u.bankRead u.cur.core off f.size).1 f.size f.signed)
      (u.bankRead u.cur.core off f.size).2).advance
  | (u, some w) => u.issueLoad w f.size (.g f.data f.size f.signed)

/-- What a store makes of its checked access. -/
def storeEnd (f : MemForm) : State × Option Where → State
  | (u, none) => u
  | (u, some (.own off)) => (u.bankWrite u.cur.core off (leBytes f.size (u.g f.data).toNat) false).advance
  | (u, some w) => u.issueStore w (.write (leBytes f.size (u.g f.data).toNat) 0)

/-- What an access of a form asks. -/
def MemForm.asked (f : MemForm) : Asked := ⟨f.size, !f.store, f.store, true, true, false⟩

/-- Every form: its sources' poison first, then the access, then the load or the store. -/
theorem exec_form {i : Instr} {f : MemForm} (h : memForm i = some f) (s : State) : exec i s = .next
    (s.guardP f.sources [] ((if f.store then storeEnd f else loadEnd f) (s.access i (f.ea s) (MemForm.asked f)))) := by
  unfold memForm at h
  split at h
  case h_12 => cases h
  all_goals
    cases h
    dsimp only [exec]
    rfl

theorem exec_clean {i : Instr} {f : MemForm} (h : memForm i = some f) {s : State} (hclean : s.Clean f.sources []) :
    exec i s = .next ((if f.store then storeEnd f else loadEnd f) (s.access i (f.ea s) (MemForm.asked f))) := by
  rw [exec_form h, guardP_clean hclean]

theorem exec_load {i : Instr} {f : MemForm} (h : memForm i = some f) (hload : f.store = false) {s : State}
    (hclean : s.Clean [f.base] []) : exec i s = .next (loadEnd f (s.access i (f.ea s) (MemForm.asked f))) := by
  have hsrc : f.sources = [f.base] := by simp [MemForm.sources, hload]
  rw [exec_clean h (hsrc ▸ hclean), hload]
  rfl

theorem exec_store {i : Instr} {f : MemForm} (h : memForm i = some f) (hstore : f.store = true) {s : State}
    (hclean : s.Clean [f.base, f.data] []) : exec i s = .next (storeEnd f (s.access i (f.ea s) (MemForm.asked f))) := by
  have hsrc : f.sources = [f.base, f.data] := by simp [MemForm.sources, hstore]
  rw [exec_clean h (hsrc ▸ hclean), hstore]
  rfl

/-- A form moves 1 to 8 bytes, and one that sign-extends fewer than 8. -/
theorem form_size {i : Instr} {f : MemForm} (h : memForm i = some f) :
    0 < f.size ∧ f.size ≤ 8 ∧ (f.signed = true → f.size < 8) := by
  unfold memForm at h
  split at h
  case h_12 => cases h
  all_goals
    cases h
    simp

/-! ### Values: little-endian bytes as a number (R86) -/

theorem getElem_leBytes (n x i : Nat) (h : i < (leBytes n x).length) :
    (leBytes n x)[i] = BitVec.ofNat 8 (x / 256 ^ i) := by
  induction n generalizing x i with
  | zero => simp at h
  | succ n ih =>
    cases i with
    | zero => simp [leBytes]
    | succ i =>
      rw [leBytes_length] at h
      have htail := ih (x / 256) i (by rw [leBytes_length]; omega)
      simpa only [leBytes, List.getElem_cons_succ, pow_succ', Nat.div_div_eq_div_mul] using htail

theorem byte_of_word (w : Word) (i : Nat) : BitVec.ofNat 8 (w.toNat / 256 ^ i) = (w >>> (8 * i)).setWidth 8 := by
  apply BitVec.eq_of_toNat_eq
  rw [BitVec.toNat_ofNat, BitVec.toNat_setWidth, BitVec.toNat_ushiftRight, Nat.shiftRight_eq_div_pow, pow_mul]
  rfl

theorem readLE_lt (s : State) (a n : Nat) : s.readLE a n < 2 ^ (8 * n) := by
  have h := leNat_lt (s.bytes a n)
  rwa [bytes_length, show (256 : Nat) = 2 ^ 8 from rfl, ← pow_mul] at h

/-- The model's extension of n bytes is that of their bit vector. -/
theorem extend_eq {bs : List Byte} {n : Nat} {signed : Bool} (hlt : leNat bs < 2 ^ (8 * n)) (hpos : 0 < n) (hle : n ≤ 8)
    (hsigned : signed = true → n < 8) : extend bs n signed =
      if signed then (BitVec.ofNat (8 * n) (leNat bs)).signExtend 64 else (BitVec.ofNat (8 * n) (leNat bs)).setWidth 64 := by
  have hword : 2 ^ (8 * n) ≤ 2 ^ 64 := Nat.pow_le_pow_right (by decide) (by omega)
  have hnat : (BitVec.ofNat (8 * n) (leNat bs)).toNat = leNat bs := by rw [BitVec.toNat_ofNat, Nat.mod_eq_of_lt hlt]
  have hzero : ((BitVec.ofNat (8 * n) (leNat bs)).setWidth 64).toNat = leNat bs := by
    rw [BitVec.toNat_setWidth, hnat, Nat.mod_eq_of_lt (by omega)]
  cases signed with
  | false =>
    apply BitVec.eq_of_toNat_eq
    rw [if_neg Bool.false_ne_true, hzero]
    exact (BitVec.toNat_ofNat _ _).trans (Nat.mod_eq_of_lt (by omega))
  | true =>
    have hmsb : (BitVec.ofNat (8 * n) (leNat bs)).msb = (leNat bs).testBit (8 * n - 1) := by
      rw [BitVec.msb_eq_getLsbD_last, BitVec.getLsbD, hnat]
    apply BitVec.eq_of_toNat_eq
    rw [if_pos rfl, BitVec.toNat_signExtend, hzero, hmsb, extend, Bool.true_and]
    cases hbit : (leNat bs).testBit (8 * n - 1) with
    | false =>
      rw [if_neg Bool.false_ne_true, if_neg Bool.false_ne_true]
      exact (BitVec.toNat_ofNat _ _).trans (Nat.mod_eq_of_lt (by omega))
    | true =>
      rw [if_pos rfl, if_pos rfl]
      exact (BitVec.toNat_ofNat _ _).trans ((Nat.mod_eq_of_lt (by omega)).trans (by omega))

/-! ### Plain local memory (R85, R86, R88) -/

theorem areaOf_inside {a n : Nat} (h : a + n ≤ 0x40000) (hn : 0 < n) : areaOf a = .mem := by
  rw [areaOf, if_pos (by omega)]

theorem bankRead_mem {s : State} {k : CoreId} {off : Nat} (h : areaOf off = .mem) (n : Nat) :
    s.bankRead k off n = (s.bytes (localLoc k off) n, s.poisAt (localLoc k off) n) := by
  rw [State.bankRead, h]

theorem bankWrite_mem {s : State} {k : CoreId} {off : Nat} (h : areaOf off = .mem) (bs : List Byte) (bad : Bool) :
    s.bankWrite k off bs bad = s.poke (localLoc k off) bs bad := by
  rw [State.bankWrite, h]

theorem setMy_load_advance (s : State) (r : Reg) (w : Word) :
    s.setMy (s.my.load r w false).advance = s.done r w := rfl

theorem greg_load (x : Ctx) (r : Reg) (w : Word) (bad : Bool) : (x.load r w bad).greg r = if r = 0 then 0 else w := by
  by_cases hr : r = 0
  · simp [Ctx.greg, hr]
  · have hset : (x.load r w bad).greg r = (x.setG r w).greg r := by
      cases bad with
      | false => rfl
      | true => simp only [Ctx.load, Ctx.poisG, if_true, if_neg hr, Ctx.greg]
    rw [hset, greg_setG_same _ _ hr, if_neg hr]

theorem gpois_load_bad (x : Ctx) {r : Reg} (w : Word) (h : r ≠ 0) : (x.load r w true).gpois.getLsbD r.toNat = true := by
  rw [Ctx.load, if_pos rfl, Ctx.poisG, if_neg h]
  simp [r.isLt]

theorem localLoads : Claim.LocalLoads := by
  intro i f s hform hload hclean hplain x v
  obtain ⟨hpos, hle, hsigned⟩ := form_size hform
  have harea := areaOf_inside hplain.inside hpos
  have hvalue : extend (s.bytes (s.myLoc (f.ea s)) f.size) f.size f.signed = v :=
    extend_eq (readLE_lt s _ _) hpos hle hsigned
  have hexec : exec i s = .next (loadEnd f (s, some (.own (f.ea s).toNat))) := by
    rw [exec_load hform hload hclean, access_plain hplain rfl hpos]
  rw [hexec, loadEnd, bankRead_mem harea]
  refine ⟨fun hgood => ?_, fun hbad => ⟨_, rfl, ?_, fun hd => ?_⟩⟩
  · have hgood' : s.poisAt (localLoc s.cur.core (f.ea s).toNat) f.size = false := hgood
    simp only [hgood', State.localRecord, Bool.false_eq_true, if_false, setMy_load_advance]
    exact congrArg (fun w => Host.Outcome.next (s.done f.data w)) hvalue
  · rw [State.g, my_setMy, ((keeps_advance _).g f.data (by simp)).1, greg_load]
    exact congrArg (fun w => if f.data = 0 then (0 : Word) else w) hvalue
  · have hbad' : s.poisAt (localLoc s.cur.core (f.ea s).toNat) f.size = true := hbad
    rw [my_setMy, ((keeps_advance _).g f.data (by simp)).2]
    simp only [hbad']
    exact gpois_load_bad _ _ hd

theorem bytes_congr {s t : State} (h : t.mem = s.mem) (a n : Nat) : t.bytes a n = s.bytes a n := by
  induction n generalizing a with
  | zero => rfl
  | succ n ih => simp only [State.bytes, State.byte, h, ih]

theorem readLE_advance (s : State) (a n : Nat) : s.advance.readLE a n = s.readLE a n :=
  congrArg leNat (bytes_congr (s := s) (t := s.advance) rfl a n)

theorem localStores : Claim.LocalStores := by
  intro i f s hform hstore hclean hplain a
  obtain ⟨hpos, _, _⟩ := form_size hform
  have harea := areaOf_inside hplain.inside hpos
  have hexec : exec i s = .next (s.poke a (leBytes f.size (s.g f.data).toNat) false).advance := by
    rw [exec_store hform hstore hclean, access_plain hplain rfl hpos, storeEnd, bankWrite_mem harea]
    rfl
  refine ⟨_, hexec, ⟨rfl, fun c hc => ctx_setCtx_other _ _ hc⟩, ?_, ?_, fun n hn => ?_, fun b hb => ?_, ?_⟩
  · rw [my_advance]
    exact keeps_advance s.my
  · rw [my_advance]
    exact past_advance s.my
  · have hlen : n < (leBytes f.size (s.g f.data).toNat).length := by rwa [leBytes_length]
    exact (byte_poke_inside s a _ false hlen).trans ((getElem_leBytes _ _ _ hlen).trans (byte_of_word _ _))
  · exact byte_poke_outside s a _ false (by rwa [leBytes_length])
  · rw [readLE_advance, readLE_poke]

/-- Settles O20: the eleven forms as one, on a place that `access_plain` finds at once. -/
theorem localLoadsAndStores : Obligations.LocalLoadsAndStores := by
  unfold Obligations.LocalLoadsAndStores
  exact ⟨localLoads, localStores⟩

end Sys2Proof.Proofs.LoadsAndStores

/-! SUPPORT. Scalar loads and stores at every place: their faults in order, and the requests that leave the core (R68 to R70,
R76, R87, R329). -/

namespace Sys2Proof.Proofs.Places

open Machine Contexts Frames LoadsAndStores

/-! ### Faults in the order of R87 -/

theorem formEnd_none (f : MemForm) (u : State) : (if f.store then storeEnd f else loadEnd f) (u, none) = u := by
  cases f.store <;> rfl

theorem access_misaligned {s : State} {i : Instr} {va : Word} {a : Asked} (h : va.toNat % a.size ≠ 0) :
    s.access i va a = (s.raise 0x03 va, none) := by
  rw [State.access, if_pos h]

/-- What the resolution ends, the access ends. -/
theorem access_of_resolve_none {s u : State} {i : Instr} {va : Word} {a : Asked} (halign : va.toNat % a.size = 0)
    (h : s.resolve i va a = (u, none)) : s.access i va a = (u, none) := by
  rw [State.access, if_neg (fun hne => hne halign), h]

/-- A form whose access ends in a state has that as its next state. -/
theorem exec_of_access_none {i : Instr} {f : MemForm} (hform : memForm i = some f) {s u : State}
    (hclean : s.Clean f.sources []) (h : s.access i (f.ea s) (MemForm.asked f) = (u, none)) : exec i s = .next u := by
  rw [exec_clean hform hclean, h, formEnd_none]

theorem place_of_no_kind {s : State} {va : Word} (h : va.toNat < 2 ^ 21 ∧ areaOf va.toNat = .none
    ∨ 2 ^ 57 ≤ va.toNat ∧ va.toNat < 255 * 2 ^ 56) : s.place va = .bad := by
  simp only [State.place]
  rcases h with ⟨hlow, harea⟩ | ⟨hge, hlt⟩
  · rw [if_pos (by omega), if_pos harea]
  · rw [if_neg (by omega), if_neg (by omega), if_neg (by omega)]

theorem areaOf_control {a : Nat} (hge : 0x100000 ≤ a) (hlt : a < 0x110000) : areaOf a = .ctl := by
  rw [areaOf, if_neg (by omega), if_neg (by omega), if_neg (by omega), if_neg (by omega), if_pos ⟨hge, hlt⟩]

theorem place_control {s : State} {va : Word} (hge : 0x100000 ≤ va.toNat) (hlt : va.toNat < 0x110000) :
    s.place va = .loc va.toNat := by
  simp only [State.place]
  rw [if_pos (by omega), if_neg (by rw [areaOf_control hge hlt]; decide)]

/-- A doubleword of the control window in task mode (R66). -/
theorem resolve_control {s : State} {i : Instr} {va : Word} {a : Asked} (hge : 0x100000 ≤ va.toNat)
    (hlt : va.toNat < 0x110000) (hok : a.areaOk .ctl = true) (htask : s.sup s.cur = false) :
    s.resolve i va a = (s.raise 0x02 (insnWord i), none) := by
  have hno : ¬ a.areaOk .ctl = false := by rw [hok]; decide
  simp only [State.resolve, place_control hge hlt, areaOf_control hge hlt]
  rw [if_neg hno, if_pos ⟨trivial, htask⟩]

theorem loadStoreFaults : Claim.LoadStoreFaults := by
  intro i f s hform
  refine ⟨fun n hpois => ?_, fun hclean hodd => ?_, fun hclean halign hnone => ?_,
    fun hclean hsize halign hge hlt htask => ?_⟩
  · rw [exec_form hform, State.guardP, hpois]
    rfl
  · exact exec_of_access_none hform hclean (access_misaligned hodd)
  · refine exec_of_access_none hform hclean (access_of_resolve_none halign ?_)
    simp only [State.resolve, place_of_no_kind hnone]
  · have hok : (MemForm.asked f).areaOk .ctl = true := by simp [Asked.areaOk, MemForm.asked, hsize]
    exact exec_of_access_none hform hclean (access_of_resolve_none (by rw [MemForm.asked, hsize]; exact halign)
      (resolve_control hge hlt hok htask))

/-! ### Window addresses (R209; log entry 13) -/

theorem resolve_window_bad {s : State} {i : Instr} {va : Word} {a : Asked} {pa : Nat} (hplace : s.place va = .win pa)
    (hbad : s.windowOk s.cur pa = false) : s.resolve i va a = (s.raise 0x05 va, none) := by
  simp only [State.resolve, hplace, hbad, or_true, if_true]

theorem resolve_window_unknown {s : State} {i : Instr} {va : Word} {a : Asked} {pa : Nat} (hplace : s.place va = .win pa)
    (hmem : areaOf (paOff pa) = .mem) (hok : s.windowOk s.cur pa = true) (hask : s.colourKnown pa = false) :
    s.resolve i va a = (s.askColour pa, none) := by
  simp [State.resolve, hplace, hok, hask, hmem, Asked.areaOk]

/-! ### The request's entry and its sending (R68, R69, R228, R327) -/

/-- A state that has taken a number, with an entry added on the core of its context. -/
def entered (u : State) (o : Outstanding) : State :=
  u.fresh.setCore u.cur.core { u.myCore with outs := u.myCore.outs ++ [o] }

theorem core_entered (u : State) (o : Outstanding) (k : CoreId) :
    (entered u o).core k = if k = u.cur.core then { u.myCore with outs := u.myCore.outs ++ [o] } else u.core k := by
  by_cases h : k = u.cur.core
  · rw [if_pos h, h]
    exact core_setCore_same _ _ _
  · rw [if_neg h]
    exact core_setCore_other _ _ h

/-- An entry leaves the region, the colour and the number of its context. -/
theorem names_entered (u : State) (o : Outstanding) : (entered u o).regionOf u.cur = u.regionOf u.cur
    ∧ (entered u o).colourOf u.cur = u.colourOf u.cur ∧ (entered u o).catOf u.cur = u.catOf u.cur := by
  refine ⟨?_, rfl, rfl⟩
  have hsvc : ((entered u o).core u.cur.core).svc = (u.core u.cur.core).svc := by
    rw [core_entered, if_pos rfl]
    rfl
  simp only [State.regionOf, hsvc]
  rfl

/-- A request of the current context with the entry's number, as the state before it names it. -/
def requestOf (u : State) (id pa : Nat) (kind : ReqKind) : Request :=
  ⟨u.cur, id, pa, kind, u.colourOf u.cur, u.regionOf u.cur, u.catOf u.cur⟩

theorem requestOf_entered (u : State) (o : Outstanding) (id pa : Nat) (kind : ReqKind) :
    requestOf (entered u o) id pa kind = requestOf u id pa kind := by
  obtain ⟨hregion, hcolour, hcat⟩ := names_entered u o
  show (⟨u.cur, id, pa, kind, _, _, _⟩ : Request) = _
  rw [show (entered u o).cur = u.cur from rfl, hregion, hcolour, hcat]
  rfl

/-- What sending leaves: contexts, cores, memory, and the numbers given. -/
structure SentFrom (s t : State) : Prop where
  ctxs : t.ctxs = s.ctxs
  cores : t.cores = s.cores
  cur : t.cur = s.cur
  nextId : t.nextId = s.nextId
  mem : SameMem s t

theorem request_load_sent (s : State) (w : Where) (id : Nat) (kind : ReqKind) :
    SentFrom s (s.request w id kind true) := by
  cases w <;> exact ⟨rfl, rfl, rfl, rfl, rfl, rfl⟩

/-- A plain write to another device where MCHSEL selects no channel (R333). -/
theorem request_far_write {s : State} (h : (s.my.cwv cwMCHSEL).getLsbD 63 = false) (id pa : Nat) (bs : List Byte) (bad : Nat) :
    s.request (.far pa) id (.write bs bad) false
      = (s.fabric (.request s.dev (paDev pa) (requestOf s 0 pa (.write bs bad)))).post (.storeAcknowledgement s.cur id) := by
  have hfar : s.farStore (s.my.cwv cwMCHSEL) s.cur id pa (.write bs bad)
      = s.fabric (.request s.dev (paDev pa) (requestOf s 0 pa (.write bs bad))) := by
    simp only [State.farStore, State.farWrite]
    exact if_pos h
  simp only [State.request, hfar]
  rfl

theorem request_store_sent {s : State} {w : Where} (h : ∀ pa, w = .far pa → (s.my.cwv cwMCHSEL).getLsbD 63 = false)
    (id : Nat) (bs : List Byte) (bad : Nat) : SentFrom s (s.request w id (.write bs bad) false) := by
  cases w with
  | far pa =>
    rw [request_far_write (h pa rfl)]
    exact ⟨rfl, rfl, rfl, rfl, rfl, rfl⟩
  | own _ => exact ⟨rfl, rfl, rfl, rfl, rfl, rfl⟩
  | core _ => exact ⟨rfl, rfl, rfl, rfl, rfl, rfl⟩
  | dram _ => exact ⟨rfl, rfl, rfl, rfl, rfl, rfl⟩

/-- An instruction whose request was sent has moved on, with its entry the last of the core's. -/
theorem moved_on {u t : State} {o : Outstanding} (h : SentFrom (entered u o) t) :
    t.advance.nextId = u.nextId + 1 ∧ SameMem u t.advance ∧ Keeps [] [] [] leftWords u.my t.advance.my
    ∧ t.advance.myCore.outs = u.myCore.outs ++ [o] := by
  have hmy : t.my = u.my := by
    show tget {} t.ctxs t.cur.key = _
    rw [h.ctxs, h.cur]
    rfl
  have hcore : t.advance.myCore = (entered u o).core u.cur.core := by
    show tget {} t.cores t.cur.core.key = _
    rw [h.cores, h.cur]
    rfl
  refine ⟨h.nextId, h.mem, ?_, ?_⟩
  · rw [my_advance, hmy]
    exact keeps_advance u.my
  · rw [hcore, core_entered, if_pos rfl]

/-! ### Every place -/

/-- The entry of a load at a place, and that of a store (R68, R69). -/
def loadEntry (u : State) (w : Where) (n : Nat) (dest : Dest) : Outstanding :=
  ⟨u.nextId + 1, u.cur.ctx.val, true, dest, true, false, false, u.wherePa w, n, u.regionOf u.cur, u.colourOf u.cur⟩
def storeEntry (u : State) : Outstanding :=
  ⟨u.nextId + 1, u.cur.ctx.val, false, .none, true, false, false, 0, 0, u.regionOf u.cur, u.colourOf u.cur⟩

theorem issueLoad_eq {u : State} (h : u.mayIssue u.cur 1 = true) (w : Where) (n : Nat) (dest : Dest) :
    u.issueLoad w n dest = ((entered u (loadEntry u w n dest)).request w (u.nextId + 1) (.read n) true).advance := by
  rw [State.issueLoad, State.issueLoadAs, if_neg (by rw [h]; decide)]
  cases w <;> rfl

theorem issueStore_eq {u : State} (h : u.mayIssue u.cur 1 = true) (w : Where) (kind : ReqKind) :
    u.issueStore w kind = ((entered u (storeEntry u)).request w (u.nextId + 1) kind false).advance := by
  rw [State.issueStore, if_neg (by rw [h]; decide)]
  rfl

theorem loadEnd_away {f : MemForm} {u : State} {w : Where} (h : ∀ off, w ≠ .own off) :
    loadEnd f (u, some w) = u.issueLoad w f.size (.g f.data f.size f.signed) := by
  cases w with
  | own off => exact absurd rfl (h off)
  | core _ => rfl
  | dram _ => rfl
  | far _ => rfl

theorem storeEnd_away {f : MemForm} {u : State} {w : Where} (h : ∀ off, w ≠ .own off) :
    storeEnd f (u, some w) = u.issueStore w (.write (leBytes f.size (u.g f.data).toNat) 0) := by
  cases w with
  | own off => exact absurd rfl (h off)
  | core _ => rfl
  | dram _ => rfl
  | far _ => rfl

theorem waits_for_entry {f : MemForm} {u : State} {w : Where} (haway : ∀ off, w ≠ .own off)
    (h : u.mayIssue u.cur 1 = false) : (if f.store then storeEnd f else loadEnd f) (u, some w) = u.stallOreq 1 := by
  cases hstore : f.store with
  | false => exact (loadEnd_away haway).trans (if_pos h)
  | true => exact (storeEnd_away haway).trans (if_pos h)

/-- A request to a home slice arrives there in the next cycle (log entry 1). -/
theorem timers_dram (u : State) (o : Outstanding) (id pa : Nat) (kind : ReqKind) (reply : Bool) :
    ((entered u o).request (.dram pa) id kind reply).advance.timers
      = u.timers ++ [(u.time + 1, .homeSliceRequest (requestOf u id pa kind))] :=
  congrArg (fun q => u.timers ++ [(u.time + 1, Event.homeSliceRequest q)]) (requestOf_entered u o id pa kind)

theorem agenda_core (u : State) (o : Outstanding) (id pa : Nat) (kind : ReqKind) (reply : Bool) :
    ((entered u o).request (.core pa) id kind reply).advance.agenda
      = u.agenda ++ [.ev (.memoryPortRequest (requestOf u id pa kind))] :=
  congrArg (fun q => u.agenda ++ [.ev (Event.memoryPortRequest q)]) (requestOf_entered u o id pa kind)

/-- A load from another device falls due (R329). -/
theorem far_load (u : State) (o : Outstanding) (id pa : Nat) (kind : ReqKind) :
    ((entered u o).request (.far pa) id kind true).advance.plat.fabric
      = u.plat.fabric ++ [.request u.dev (paDev pa) (requestOf u id pa kind)]
    ∧ ((entered u o).request (.far pa) id kind true).advance.timers
      = u.timers ++ [(u.time + u.ftime u.cur.core.cluster, .replyTimeout u.cur id)] :=
  ⟨congrArg (fun q => u.plat.fabric ++ [Packet.request u.dev (paDev pa) q]) (requestOf_entered u o id pa kind), rfl⟩

theorem far_write (u : State) (o : Outstanding) (h : (u.my.cwv cwMCHSEL).getLsbD 63 = false) (id pa : Nat) (bs : List Byte) :
    ((entered u o).request (.far pa) id (.write bs 0) false).advance.agenda
      = u.agenda ++ [.ev (.storeAcknowledgement u.cur id)]
    ∧ ((entered u o).request (.far pa) id (.write bs 0) false).advance.plat.fabric
      = u.plat.fabric ++ [.request u.dev (paDev pa) (requestOf u 0 pa (.write bs 0))] := by
  rw [request_far_write (s := entered u o) h, requestOf_entered]
  exact ⟨rfl, rfl⟩

theorem load_away {f : MemForm} {u : State} {w : Where} (hload : f.store = false) (haway : ∀ off, w ≠ .own off)
    (hroom : u.mayIssue u.cur 1 = true) : (if f.store then storeEnd f else loadEnd f) (u, some w)
      = ((entered u (loadEntry u w f.size (.g f.data f.size f.signed))).request w (u.nextId + 1) (.read f.size) true).advance := by
  rw [hload]
  exact (loadEnd_away haway).trans (issueLoad_eq hroom w _ _)

theorem store_away {f : MemForm} {u : State} {w : Where} (hstore : f.store = true) (haway : ∀ off, w ≠ .own off)
    (hroom : u.mayIssue u.cur 1 = true) : (if f.store then storeEnd f else loadEnd f) (u, some w)
      = ((entered u (storeEntry u)).request w (u.nextId + 1) (.write (leBytes f.size (u.g f.data).toNat) 0) false).advance := by
  rw [hstore]
  exact (storeEnd_away haway).trans (issueStore_eq hroom w _)

theorem load_own {f : MemForm} {u : State} {off : Nat} (hload : f.store = false)
    (hgood : (u.bankRead u.cur.core off f.size).2 = false) : (if f.store then storeEnd f else loadEnd f) (u, some (.own off))
      = u.done f.data (extend (u.bankRead u.cur.core off f.size).1 f.size f.signed) := by
  rw [hload]
  show loadEnd f (u, some (.own off)) = _
  simp only [loadEnd, hgood, State.localRecord, Bool.false_eq_true, if_false, setMy_load_advance]

theorem loadStoreByPlace : Claim.LoadStoreByPlace := by
  intro i f s hform hclean r u data
  have hexec : exec i s = .next ((if f.store then storeEnd f else loadEnd f) (u, r.2)) := exec_clean hform hclean
  clear_value u r
  refine ⟨fun hnone => ?_, fun pa hplace hmem halign => ⟨fun hbad => ?_, fun hok hask => ?_⟩,
    fun off hown => ⟨fun hload hgood => ?_, fun hstore => ?_⟩, fun w hw haway hfull => ?_,
    fun w hw haway hroom hload => ?_, fun w hw haway hroom hstore hplain => ?_⟩
  · rw [hexec, hnone, formEnd_none]
  · exact exec_of_access_none hform hclean (access_of_resolve_none halign (resolve_window_bad hplace hbad))
  · exact exec_of_access_none hform hclean (access_of_resolve_none halign (resolve_window_unknown hplace hmem hok hask))
  · rw [hexec, hown, load_own hload hgood]
  · rw [hexec, hown, hstore]
    rfl
  · rw [hexec, hw, waits_for_entry haway hfull]
  · rw [hw, load_away hload haway hroom] at hexec
    obtain ⟨hid, hmem, hkeeps, houts⟩ := moved_on (request_load_sent (entered u (loadEntry u w f.size
      (.g f.data f.size f.signed))) w (u.nextId + 1) (.read f.size))
    refine ⟨_, hexec, hid, hmem, hkeeps, houts, ?_, ?_, ?_⟩ <;> rintro pa rfl
    · exact timers_dram u _ _ pa _ _
    · exact far_load u _ _ pa _
    · exact agenda_core u _ _ pa _ _
  · rw [hw, store_away hstore haway hroom] at hexec
    obtain ⟨hid, hmem, hkeeps, houts⟩ := moved_on (request_store_sent (s := entered u (storeEntry u)) hplain
      (u.nextId + 1) data 0)
    refine ⟨_, hexec, hid, hmem, hkeeps, houts, ?_, ?_, ?_⟩ <;> rintro pa rfl
    · exact timers_dram u _ _ pa _ _
    · exact agenda_core u _ _ pa _ _
    · exact far_write u _ (hplain pa rfl) _ pa _

/-- Settles O21: the faults in their order, and each form by the place of its access. -/
theorem loadsAndStoresByPlace : Obligations.LoadsAndStoresByPlace := by
  unfold Obligations.LoadsAndStoresByPlace
  exact ⟨loadStoreFaults, loadStoreByPlace⟩

end Sys2Proof.Proofs.Places

/-! SUPPORT. Debug stops, resumes, and writes to the core control window (R66, R79, R376, R377). -/

namespace Sys2Proof.Proofs.Debugger

open Machine Contexts Frames Registers

/-! ### The notice of a debug stop (R392; log entry 20) -/

theorem leBytes_mod (n x : Nat) : leBytes n (x % 256 ^ n) = leBytes n x := by
  induction n generalizing x with
  | zero => rfl
  | succ n ih =>
    have hlow : BitVec.ofNat 8 (x % 256 ^ (n + 1)) = BitVec.ofNat 8 x := by
      apply BitVec.eq_of_toNat_eq
      rw [BitVec.toNat_ofNat, BitVec.toNat_ofNat, pow_succ']
      exact Nat.mod_mul_right_mod x 256 (256 ^ n)
    rw [leBytes, leBytes, hlow, pow_succ', Nat.mod_mul_right_div_self, ih]

theorem leBytes_word (n : Nat) : leBytes 8 (word n).toNat = leBytes 8 n :=
  (congrArg (leBytes 8) (BitVec.toNat_ofNat n 64)).trans (leBytes_mod 8 n)

theorem noticed_notice (s : State) (code : Nat) {payload : List Byte} (h : payload.length = 32) :
    Noticed s (s.notice code payload) code payload := by
  have hpad : padTo 32 payload = payload := by
    rw [padTo, List.take_append_of_le_length (by omega), ← h, List.take_length]
  constructor
  · intro hup
    rw [State.notice, hpad, if_pos hup]
    exact ⟨rfl, rfl⟩
  · intro hdown hroom
    rw [State.notice, hpad, if_neg (by rw [hdown]; decide), if_pos hroom]
    exact ⟨rfl, rfl⟩

/-- A notice touches the port alone. -/
theorem notice_rest (s : State) (code : Nat) (payload : List Byte) :
    (s.notice code payload).ctxs = s.ctxs ∧ SameMem s (s.notice code payload) := by
  rw [State.notice]
  split
  · exact ⟨rfl, rfl, rfl⟩
  · split <;> exact ⟨rfl, rfl, rfl⟩

theorem stopNotice_rest (s : State) (c : CtxId) : (s.stopNotice c).ctxs = s.ctxs ∧ SameMem s (s.stopNotice c) :=
  notice_rest s _ _

/-! ### Stops (R376, R377) -/

/-- A context whose wait is withdrawn. -/
def waitless (x : Ctx) : Ctx := { x with wait := .none, rbuf := [], rpois := [] }

/-- The context of a debug stop: bit 63 of DBGST set, and nothing waited for or asked. -/
def stopCtx (x : Ctx) : Ctx :=
  { (waitless x).setCw cwDBGST ((waitless x).cwv cwDBGST ||| 0x8000000000000000) with stopReq := false }

theorem keeps_stopCtx (x : Ctx) : Keeps [] [] [] [cwDBGST] x (stopCtx x) :=
  (keeps_of_same (y := waitless x)).trans ((keeps_setCw (waitless x) cwDBGST _).trans keeps_of_same)

theorem suspendFrame_waitless {x : Ctx} (h : x.frame = none) : (waitless x).suspendFrame = waitless x := by
  rw [Ctx.suspendFrame, show (waitless x).frame = x.frame from rfl, h]
  rfl

theorem dbgst_stopCtx (x : Ctx) : (stopCtx x).cwv cwDBGST = (x.cwv cwDBGST ||| 0x8000000000000000) := cwv_setCw _ _ _

theorem running_iff (x : Ctx) : x.running = true ↔ x.live = true ∧ x.stopped = false := by
  simp [Ctx.running]

theorem not_bound_of_no_wait {s : State} {c : CtxId} (h : (s.ctx c).wait = .none) :
    s.recalls c = false ∧ (s.bound c || s.waitMet c) = false := by
  simp only [State.recalls, State.bound, State.waitMet, h, Bool.or_self, and_self]

theorem withdraw_of_no_wait {s : State} {c : CtxId} (h : (s.ctx c).wait = .none) :
    s.withdraw c = s.setCtx c (waitless (s.ctx c)) := by
  simp only [State.withdraw, h]
  rfl

/-- A state whose stopped context is stored, before its notice. -/
def stopped (s : State) (c : CtxId) : State :=
  (s.setCtx c (waitless (s.ctx c))).setCtx c (stopCtx (s.ctx c))

theorem ctx_stopped (s : State) (c : CtxId) : (stopped s c).ctx c = stopCtx (s.ctx c) := ctx_setCtx_same _ _ _

theorem catOf_stopped (s : State) (c : CtxId) : (stopped s c).catOf c = s.catOf c := by
  simp only [State.catOf, ctx_stopped]
  rfl

theorem exec_debugStop_runs {s : State} {c : CtxId} (hev : s.event = .debugStop c) (hrun : (s.ctx c).running = true)
    (hframe : (s.ctx c).frame = none) (hwait : (s.ctx c).wait = .none) :
    exec .debugStop s = .next ((stopped s c).stopNotice c) := by
  obtain ⟨hrecall, hbound⟩ := not_bound_of_no_wait (s := s) hwait
  have hnot : ¬ (s.ctx c).running = false := by rw [hrun]; decide
  show execDebugStop s = _
  simp only [execDebugStop, hev, if_neg hnot, hrecall, hbound, Bool.false_eq_true, if_false, withdraw_of_no_wait hwait,
    ctx_setCtx_same, suspendFrame_waitless hframe, ite_self]
  rfl

/-- The 32 bytes that tell of a debug stop. -/
theorem stop_payload (a b : Nat) (n : Nat) (x : Word) :
    wordBytes [word a, word b, word n, x ||| 0x8000000000000000]
      = leBytes 8 a ++ leBytes 8 b ++ leBytes 8 n ++ leBytes 8 (x.toNat ||| 2 ^ 63) := by
  simp only [wordBytes, List.flatMap_cons, List.flatMap_nil, leBytes_word, BitVec.toNat_or, List.append_assoc,
    List.append_nil]
  rfl

theorem debugStop_runs {s : State} {c : CtxId} (hev : s.event = .debugStop c) (hlive : (s.ctx c).live = true)
    (hfree : (s.ctx c).stopped = false) (hframe : (s.ctx c).frame = none) (hwait : (s.ctx c).wait = .none) :
    CompletesWith (exec .debugStop s) (fun t =>
      (t.ctx c).cwv cwDBGST = ((s.ctx c).cwv cwDBGST ||| 0x8000000000000000) ∧ (t.ctx c).pc = (s.ctx c).pc
      ∧ Keeps [] [] [] [cwDBGST] (s.ctx c) (t.ctx c) ∧ SameMem s t ∧ (∀ d, d ≠ c → t.ctx d = s.ctx d)
      ∧ Noticed s t 0x03 (leBytes 8 (s.catOf c) ++ leBytes 8 (s.corePa c.core 0) ++ leBytes 8 c.ctx.val
          ++ leBytes 8 (((s.ctx c).cwv cwDBGST).toNat ||| 2 ^ 63))) := by
  refine ⟨_, exec_debugStop_runs hev ((running_iff _).mpr ⟨hlive, hfree⟩) hframe hwait, ?_⟩
  obtain ⟨hctxs, hmem⟩ := stopNotice_rest (stopped s c) c
  have hctx : ∀ d, ((stopped s c).stopNotice c).ctx d = (stopped s c).ctx d :=
    fun d => by rw [State.ctx, hctxs, State.ctx]
  rw [hctx c, ctx_stopped]
  refine ⟨dbgst_stopCtx _, rfl, keeps_stopCtx _, hmem, fun d hd => ?_, ?_⟩
  · rw [hctx d, stopped, ctx_setCtx_other _ _ hd, ctx_setCtx_other _ _ hd]
  · rw [State.stopNotice, catOf_stopped, ctx_stopped, dbgst_stopCtx, stop_payload]
    exact noticed_notice (stopped s c) 0x03 (by simp only [List.length_append, leBytes_length])

theorem stop_ignored {s : State} {c : CtxId} (h : ¬ ((s.ctx c).live = true ∧ (s.ctx c).stopped = false)) :
    (s.event = .debugStop c → exec .debugStop s = .next s) ∧ (s.event = .dbgctlStop c → exec .dbgctlStop s = .next s) := by
  have hnot : (s.ctx c).running = false := Bool.eq_false_iff.mpr (fun hrun => h ((running_iff _).mp hrun))
  refine ⟨fun hev => ?_, fun hev => ?_⟩
  · show execDebugStop s = _
    simp only [execDebugStop, hev, if_pos hnot]
  · show execDbgctlStop s = _
    simp only [execDbgctlStop, hev, hnot, Bool.false_eq_true, if_false]

/-! ### Resumes (R66, R377) -/

theorem tget_map {α : Type} {d : α} {f : α → α} (hd : f d = d) (l : Table α) (n : Nat) :
    tget d (l.map (fun e => (e.1, f e.2))) n = f (tget d l n) := by
  induction l with
  | nil => exact hd.symm
  | cons e l ih =>
    simp only [List.map_cons, tget]
    split
    · rfl
    · exact ih

/-- A port whose completions of a context all show. -/
def shown (c : CtxId) (p : Port) : Port :=
  { p with done := p.done.map (fun d => if d.ctx = c.ctx.val then { d with hidden := false } else d) }

theorem shown_done {c : CtxId} {p : Port} {e : Completion} (h : e ∈ (shown c p).done) (hctx : e.ctx = c.ctx.val) :
    e.hidden = false := by
  obtain ⟨d, _, rfl⟩ := List.mem_map.mp h
  by_cases hd : d.ctx = c.ctx.val
  · rw [if_pos hd]
  · rw [if_neg hd] at hctx
    exact absurd hctx hd

theorem port_unhide (s : State) (c : CtxId) (p : Nat) : ((s.unhide c).core c.core).port p = shown c ((s.core c.core).port p) := by
  rw [State.unhide, core_setCore_same]
  exact tget_map (f := shown c) rfl (s.core c.core).ports p

/-- The context of a resume that suspended no frame. -/
def resumeCtx (x : Ctx) (skip : Bool) : Ctx :=
  { x.setCw cwDBGST (if skip then x.cwv cwDBGST &&& 0x7FFFFFFFFFFFFFFF ||| 0x4000000000000000
      else x.cwv cwDBGST &&& 0x7FFFFFFFFFFFFFFF) with skipNow := x.skipNow || skip }

theorem keeps_resumeCtx (x : Ctx) (skip : Bool) : Keeps [] [] [] [cwDBGST] x (resumeCtx x skip) :=
  (keeps_setCw x cwDBGST _).trans keeps_of_same

theorem dbgst_resumeCtx (x : Ctx) (skip : Bool) : (resumeCtx x skip).cwv cwDBGST
    = (x.cwv cwDBGST &&& 0x7FFFFFFFFFFFFFFF ||| if skip then 0x4000000000000000 else 0) := by
  cases skip with
  | true => exact cwv_setCw _ _ _
  | false => exact (cwv_setCw _ _ _).trans BitVec.or_zero.symm

theorem exec_resume {s : State} {c : CtxId} {skip : Bool} (hev : s.event = .dbgctlResume c skip)
    (hstop : (s.ctx c).stopped = true) (hlive : (s.ctx c).live = true) (hframe : (s.ctx c).suspended = false) :
    exec .dbgctlResume s = .next ((s.unhide c).setCtx c (resumeCtx (s.ctx c) skip)) := by
  have hctx : (s.unhide c).ctx c = s.ctx c := rfl
  show execDbgctlResume s = _
  simp only [execDbgctlResume, hev, hstop, hlive, Bool.and_self, if_true, hctx]
  have hframe' : (resumeCtx (s.ctx c) skip).suspended = false := hframe
  have hsame : (resumeCtx (s.ctx c) skip).resumeStopped = resumeCtx (s.ctx c) skip := by
    rw [Ctx.resumeStopped, hframe']
    rfl
  exact congrArg (fun y => Host.Outcome.next ((s.unhide c).setCtx c y))
    ((congrArg (fun y => if c.isHandler then resumeCtx (s.ctx c) skip else y) hsame).trans (ite_self _))

theorem resume_shows {s : State} {c : CtxId} {skip : Bool} (hev : s.event = .dbgctlResume c skip)
    (hstop : (s.ctx c).stopped = true) (hlive : (s.ctx c).live = true) (hframe : (s.ctx c).suspended = false) :
    CompletesWith (exec .dbgctlResume s) (fun t =>
      (t.ctx c).cwv cwDBGST = (((s.ctx c).cwv cwDBGST &&& 0x7FFFFFFFFFFFFFFF) ||| (if skip then 0x4000000000000000 else 0))
      ∧ (t.ctx c).pc = (s.ctx c).pc ∧ Keeps [] [] [] [cwDBGST] (s.ctx c) (t.ctx c) ∧ SameMem s t
      ∧ (∀ d, d ≠ c → t.ctx d = s.ctx d)
      ∧ ∀ p, ∀ e ∈ ((t.core c.core).port p).done, e.ctx = c.ctx.val → e.hidden = false) := by
  refine ⟨_, exec_resume hev hstop hlive hframe, ?_⟩
  dsimp only
  rw [ctx_setCtx_same]
  refine ⟨dbgst_resumeCtx _ _, rfl, keeps_resumeCtx _ _, ⟨rfl, rfl⟩, fun d hd => ctx_setCtx_other _ _ hd,
    fun p e he hctx => ?_⟩
  have hport : (((s.unhide c).setCtx c (resumeCtx (s.ctx c) skip)).core c.core).port p = shown c ((s.core c.core).port p) :=
    port_unhide s c p
  rw [hport] at he
  exact shown_done he hctx

theorem resume_ignored {s : State} {c : CtxId} {skip : Bool} (hev : s.event = .dbgctlResume c skip)
    (h : (s.ctx c).stopped = false ∨ (s.ctx c).live = false) : exec .dbgctlResume s = .next s := by
  have hnot : ¬ ((s.ctx c).stopped && (s.ctx c).live) = true := by
    rcases h with h | h <;> simp [h]
  show execDbgctlResume s = _
  simp only [execDbgctlResume, hev, if_neg hnot]

theorem debugStops : Claim.DebugStops := by
  intro s c x runs
  refine ⟨fun e i hmem hev hnot => ?_, fun hev hruns hframe hwait => debugStop_runs hev hruns.1 hruns.2 hframe hwait,
    fun hev hruns => ?_, fun skip hev => ⟨resume_ignored hev, resume_shows hev⟩⟩
  · obtain ⟨hstop, hask⟩ := stop_ignored (s := s) (c := c) hnot
    simp only [List.mem_cons, List.not_mem_nil, or_false, Prod.mk.injEq] at hmem
    rcases hmem with ⟨rfl, rfl⟩ | ⟨rfl, rfl⟩
    · exact hstop hev
    · exact hask hev
  · have hrun : (s.ctx c).running = true := (running_iff _).mpr hruns
    show execDbgctlStop s = _
    simp only [execDbgctlStop, hev, hrun, if_true]
    rfl

/-! ### Writes to the control window (R66) -/

theorem exec_window {s : State} {k : CoreId} {off : BitVec 16} {w : Word} (hev : s.event = .controlWindowWrite k off w) :
    exec .controlWindowWrite s = .next (
      if off.toNat < 0x6000 then
        if s.midInstruction (ctxAt k (off.toNat / 0x1000)) (off.toNat % 0x1000 / 8) then s.after 1 (.controlWindowWrite k off w)
        else if off.toNat % 0x1000 / 8 < 0x1C0 ∧ s.deadSlotWord (ctxAt k (off.toNat / 0x1000)) (off.toNat % 0x1000 / 8) = false
          then s.cwWrite (ctxAt k (off.toNat / 0x1000)) (off.toNat % 0x1000 / 8) w else s
      else if off.toNat < 0x6030 then s.dbgctl (ctxAt k ((off.toNat - 0x6000) / 8)) w
      else if 0x8000 ≤ off.toNat ∧ off.toNat < 0xE000 then
        s.first [.debuggerWrite (ctxAt k ((off.toNat - 0x8000) / 0x1000)) (BitVec.ofNat 12 (off.toNat % 0x1000)) w]
      else s) := by
  show execControlWindowWrite s = _
  simp only [execControlWindowWrite, hev]

/-! ### A debugger's write to a register file (R66, R79) -/

theorem exec_debuggerWrite {s : State} {c : CtxId} {off : BitVec 12} {w : Word} (hev : s.event = .debuggerWrite c off w) :
    exec .debuggerWrite s
      = .next (if (s.ctx c).stopped && (s.ctx c).live then s.regFileWrite c off.toNat w else s) := by
  show execDebuggerWrite s = _
  simp only [execDebuggerWrite, hev]

/-- The context after a debugger's write, at each kind of offset of the register file. -/
def filed (x : Ctx) (handler : Bool) (p : Nat) (w : Word) : Ctx :=
  if p < 0x100 then x.setG (BitVec.ofNat 5 (p / 8)) w
  else if p < 0x140 then x.setQ (BitVec.ofNat 3 (p / 8)) w
  else if p = 0x140 then { x with pc := w }
  else if p = 0x148 then
    { x with gpois := w.setWidth 32 &&& 0xFFFFFFFE, vpois := if handler then x.vpois else (w >>> 32).setWidth 32 }
  else if 0x400 ≤ p ∧ p < 0xC00 ∧ handler = false then
    (x.setV (BitVec.ofNat 5 ((p - 0x400) / 64)) (putLane (x.vreg (BitVec.ofNat 5 ((p - 0x400) / 64))) (p / 8 % 8) w)).cleanV
      (BitVec.ofNat 5 ((p - 0x400) / 64))
  else x

/-- A write to a register file touches that context and its core's outstanding loads alone. -/
theorem regFileWrite_effect (s : State) (c : CtxId) (p : Nat) (w : Word) :
    (s.regFileWrite c p w).ctx c = filed (s.ctx c) c.isHandler p w ∧ SameMem s (s.regFileWrite c p w)
    ∧ ∀ d, d ≠ c → (s.regFileWrite c p w).ctx d = s.ctx d := by
  have hset : ∀ x : Ctx, (s.setCtx c x).ctx c = x ∧ SameMem s (s.setCtx c x) ∧ ∀ d, d ≠ c → (s.setCtx c x).ctx d = s.ctx d :=
    fun x => ⟨ctx_setCtx_same _ _ _, ⟨rfl, rfl⟩, fun d hd => ctx_setCtx_other _ _ hd⟩
  simp only [State.regFileWrite, filed]
  split
  · exact hset _
  · split
    · exact hset _
    · split
      · exact hset _
      · split
        · exact hset _
        · split
          · exact hset _
          · exact ⟨rfl, ⟨rfl, rfl⟩, fun _ _ => rfl⟩

theorem filed_g (x : Ctx) (handler : Bool) (r : Reg) (w : Word) : filed x handler (8 * r.toNat) w = x.setG r w := by
  have hlt : r.toNat < 32 := r.isLt
  rw [filed, if_pos (by omega), Nat.mul_div_cancel_left _ (by decide), BitVec.ofNat_toNat, BitVec.setWidth_eq]

theorem filed_q (x : Ctx) (handler : Bool) (r : PReg) (w : Word) : filed x handler (0x100 + 8 * r.toNat) w = x.setQ r w := by
  have hlt : r.toNat < 8 := r.isLt
  have hreg : BitVec.ofNat 3 ((0x100 + 8 * r.toNat) / 8) = r := by
    apply BitVec.eq_of_toNat_eq
    rw [BitVec.toNat_ofNat]
    omega
  rw [filed, if_neg (by omega), if_pos (by omega), hreg]

theorem filed_pc (x : Ctx) (handler : Bool) (w : Word) : filed x handler 0x140 w = { x with pc := w } := rfl

theorem filed_poison (x : Ctx) (w : Word) : filed x false 0x148 w
    = { x with gpois := w.setWidth 32 &&& 0xFFFFFFFE, vpois := (w >>> 32).setWidth 32 } := rfl

theorem filed_v (x : Ctx) (r : Reg) {j : Nat} (hj : j < 8) (w : Word) :
    filed x false (0x400 + 64 * r.toNat + 8 * j) w = (x.setV r (putLane (x.vreg r) j w)).cleanV r := by
  have hlt : r.toNat < 32 := r.isLt
  have hreg : BitVec.ofNat 5 ((0x400 + 64 * r.toNat + 8 * j - 0x400) / 64) = r := by
    apply BitVec.eq_of_toNat_eq
    rw [BitVec.toNat_ofNat]
    omega
  have hlane : (0x400 + 64 * r.toNat + 8 * j) / 8 % 8 = j := by omega
  rw [filed, if_neg (by omega), if_neg (by omega), if_neg (by omega), if_neg (by omega),
    if_pos ⟨by omega, by omega, rfl⟩, hreg, hlane]

theorem gpois_bit (w : Word) {j : Nat} (hpos : 0 < j) (hlt : j < 32) :
    (w.setWidth 32 &&& 0xFFFFFFFE : BitVec 32).getLsbD j = w.getLsbD j := by
  have hmask : (0xFFFFFFFE : BitVec 32).getLsbD j = true := by
    have hall : ∀ i : Fin 32, 0 < i.val → (0xFFFFFFFE : BitVec 32).getLsbD i.val = true := by decide
    exact hall ⟨j, hlt⟩ hpos
  rw [BitVec.getLsbD_and, hmask, Bool.and_true, BitVec.getLsbD_setWidth, decide_eq_true hlt, Bool.true_and]

theorem vpois_bit (w : Word) {j : Nat} (hlt : j < 32) : ((w >>> 32).setWidth 32 : BitVec 32).getLsbD j = w.getLsbD (32 + j) := by
  rw [BitVec.getLsbD_setWidth, decide_eq_true hlt, Bool.true_and, BitVec.getLsbD_ushiftRight]

/-- A 64-bit lane as a bit field. -/
theorem laneAt_eq (v : VWord) (n : Nat) : laneAt 64 v n = (v.extractLsb' (64 * n) 64).toNat := by
  rw [BitVec.extractLsb'_toNat, Nat.shiftRight_eq_div_pow]
  rfl

theorem extract_putLane (v : VWord) {j n : Nat} (hn : n < 8) (w : Word) :
    (putLane v j w).extractLsb' (64 * n) 64 = if n = j then w else v.extractLsb' (64 * n) 64 := by
  have hones : ∀ i, (0xFFFFFFFFFFFFFFFF : VWord).getLsbD i = decide (i < 64) := fun i => by
    rw [show (0xFFFFFFFFFFFFFFFF : VWord) = BitVec.ofNat 512 (2 ^ 64 - 1) from rfl, BitVec.getLsbD_ofNat,
      Nat.testBit_two_pow_sub_one]
    by_cases hi : i < 64
    · simp [hi, show i < 512 by omega]
    · simp [hi]
  apply BitVec.eq_of_getLsbD_eq
  intro i hi
  have hin : 64 * n + i < 512 := by omega
  simp only [putLane, BitVec.getLsbD_extractLsb', hi, decide_true, Bool.true_and, BitVec.getLsbD_or, BitVec.getLsbD_and,
    BitVec.getLsbD_not, hin, BitVec.getLsbD_shiftLeft, hones, BitVec.getLsbD_setWidth]
  by_cases hj : n = j
  · subst hj
    simp [hi, show i < 512 by omega]
  · rw [if_neg hj, BitVec.getLsbD_extractLsb', decide_eq_true hi, Bool.true_and]
    by_cases hlow : 64 * n + i < 64 * j
    · simp [hlow]
    · have hout : ¬ 64 * n + i - 64 * j < 64 := by omega
      have hzero : w.getLsbD (64 * n + i - 64 * j) = false := BitVec.getLsbD_of_ge _ _ (by omega)
      simp [hout, hzero]

theorem laneAt_putLane (v : VWord) {j n : Nat} (hn : n < 8) (w : Word) :
    laneAt 64 (putLane v j w) n = if n = j then w.toNat else laneAt 64 v n := by
  rw [laneAt_eq, laneAt_eq, extract_putLane v hn]
  split <;> rfl

theorem vpois_cleanV (x : Ctx) (r : Reg) : (x.cleanV r).vpois.getLsbD r.toNat = false := by
  rw [Ctx.cleanV]
  simp

theorem debugger_write_runs {s : State} {c : CtxId} {off : BitVec 12} {w : Word} (hev : s.event = .debuggerWrite c off w)
    (hstop : (s.ctx c).stopped = true) (hlive : (s.ctx c).live = true) :
    ∃ t, exec .debuggerWrite s = .next t ∧ t.ctx c = filed (s.ctx c) c.isHandler off.toNat w ∧ SameMem s t
      ∧ ∀ d, d ≠ c → t.ctx d = s.ctx d := by
  refine ⟨_, (exec_debuggerWrite hev).trans ?_, regFileWrite_effect s c off.toNat w⟩
  rw [hstop, hlive]
  rfl

theorem controlWindow : Claim.ControlWindow := by
  refine ⟨fun s k off w hev => ?_, fun s c off w hev => ⟨fun hnot => ?_, fun hstop hlive => ?_⟩⟩
  · rw [exec_window hev]
    generalize off.toNat = o
    refine ⟨fun hlow hmid => ?_, fun hlow hmid hword halive => ?_, fun hlow hmid hnone => ?_, fun hge hlt => ?_,
      fun hge hlt => ?_, fun hge hout => ?_⟩
    · rw [if_pos hlow]
      exact congrArg Host.Outcome.next (if_pos hmid)
    · rw [if_pos hlow]
      exact congrArg Host.Outcome.next ((if_neg (Bool.eq_false_iff.mp hmid)).trans (if_pos ⟨hword, halive⟩))
    · rw [if_pos hlow]
      refine congrArg Host.Outcome.next ((if_neg (Bool.eq_false_iff.mp hmid)).trans (if_neg ?_))
      rintro ⟨hword, halive⟩
      exact hnone.elim (fun h => absurd hword (by omega)) (fun h => Bool.false_ne_true (halive.symm.trans h))
    · rw [if_neg (by omega), if_pos hlt]
      rfl
    · rw [if_neg (by omega), if_neg (by omega), if_pos ⟨hge, hlt⟩]
      rfl
    · rw [if_neg (by omega), if_neg (by omega), if_neg (by omega)]
  · have hno : ¬ ((s.ctx c).stopped && (s.ctx c).live) = true := by
      rcases hnot with h | h <;> simp [h]
    rw [exec_debuggerWrite hev, if_neg hno]
  · obtain ⟨t, hexec, hctx, hmem, hother⟩ := debugger_write_runs hev hstop hlive
    refine ⟨t, hexec, hmem, hother, fun r hp hr => ?_, fun r hp hr => ?_, fun hp => ?_, fun hp hslot => ?_,
      fun r j hp hj hslot => ?_⟩
    · rw [hctx, hp, filed_g]
      exact ⟨greg_setG_same _ _ hr, gpois_setG_same _ _ hr, setG_pc _ _ _, keeps_setG _ _ _⟩
    · rw [hctx, hp, filed_q]
      exact ⟨qreg_setQ_same _ _ hr, setQ_pc _ _ _, keeps_setQ _ _ _⟩
    · rw [hctx, hp, filed_pc]
    · rw [hctx, hp, hslot, filed_poison]
      exact ⟨fun j hpos hlt => gpois_bit w hpos hlt, fun j hlt => vpois_bit w hlt, rfl, rfl, rfl, rfl⟩
    · rw [hctx, hp, hslot, filed_v _ _ hj]
      refine ⟨fun n hn => ?_, vpois_cleanV _ _, rfl, ?_⟩
      · rw [vreg_cleanV, vreg_setV_same]
        exact laneAt_putLane _ hn w
      · exact (keeps_setV _ _ _).trans (keeps_cleanV _ _)

/-- Settles O58: stops and resumes, and what a write to the control window does at each offset. -/
theorem debugging : Obligations.Debugging := by
  unfold Obligations.Debugging
  exact ⟨debugStops, controlWindow⟩

end Sys2Proof.Proofs.Debugger

/-! SUPPORT. Region control blocks and PRD: RGRD, RGWR and what they check (R168, R169, R186, R207). -/

namespace Sys2Proof.Proofs.RegionBlocks

open Machine Contexts

/-! ### A doubleword of a block written (R169) -/

theorem regOwn_regPut_same (s : State) (r k v : Nat) : (s.regPut r k v).regOwn r k = word v := tget_tset_same _ _ _ _

theorem byte_regPut (s : State) (r k v : Nat) {c : Nat} (h : c < s.regLoc r k ∨ s.regLoc r k + 8 ≤ c) :
    (s.regPut r k v).byte c = s.byte c :=
  byte_poke_outside s (s.regLoc r k) (leBytes 8 v) false (by rwa [leBytes_length])

/-- A write of the current context's instruction that leaves the contexts, then moves on. -/
theorem moved_past {s t : State} (hctxs : t.ctxs = s.ctxs) (hcur : t.cur = s.cur) :
    Keeps [] [] [] leftWords s.my t.advance.my ∧ Past s.my t.advance.my := by
  have hmy : t.my = s.my := by simp only [State.my, State.ctx, hctxs, hcur]
  rw [my_advance, hmy]
  exact ⟨keeps_advance s.my, past_advance s.my⟩

/-! ### The checks that RGRD and RGWR share (R186) -/

theorem regionOp_outside {s : State} {i : Instr} {gs : List Reg} {ga gb : Reg} {k : Nat → Nat → State}
    (hr : (s.g ga).toNat ≤ 4095) (hown : s.inSubtree (s.regionOf s.cur) (s.g ga).toNat = false) :
    s.regionOp i gs ga gb k = s.raise 0x02 (insnWord i) := by
  rw [State.regionOp]
  exact if_pos ⟨hr, hown⟩

theorem regionOp_bad {s : State} {i : Instr} {gs : List Reg} {ga gb : Reg} {k : Nat → Nat → State} (hclean : s.Clean gs [])
    (hbad : 4095 < (s.g ga).toNat ∨ (s.inSubtree (s.regionOf s.cur) (s.g ga).toNat = true
      ∧ (31 < (s.g gb).toNat ∨ ((s.g gb).toNat ≠ 0 ∧ s.regValid (s.g ga).toNat = false)))) :
    s.regionOp i gs ga gb k = s.raise 0x06 (s.g gb) := by
  have hin : ¬ ((s.g ga).toNat ≤ 4095 ∧ s.inSubtree (s.regionOf s.cur) (s.g ga).toNat = false) := by
    rintro ⟨hr, hown⟩
    rcases hbad with h | ⟨h, _⟩
    · omega
    · exact Bool.false_ne_true (hown.symm.trans h)
  rw [State.regionOp]
  refine (if_neg hin).trans ((guardP_clean hclean _).trans ?_)
  by_cases hnum : 4095 < (s.g ga).toNat ∨ 31 < (s.g gb).toNat
  · exact if_pos hnum
  · rcases hbad with h | ⟨_, h | h⟩
    · exact absurd (.inl h) hnum
    · exact absurd (.inr h) hnum
    · exact (if_neg hnum).trans (if_pos h)

theorem regionOp_goes {s : State} {i : Instr} {gs : List Reg} {ga gb : Reg} {k : Nat → Nat → State} (hclean : s.Clean gs [])
    (hr : (s.g ga).toNat ≤ 4095) (hown : s.inSubtree (s.regionOf s.cur) (s.g ga).toNat = true) (hk : (s.g gb).toNat ≤ 31)
    (hvalid : (s.g gb).toNat = 0 ∨ s.regValid (s.g ga).toNat = true) :
    s.regionOp i gs ga gb k = k (s.g ga).toNat (s.g gb).toNat := by
  have hin : ¬ ((s.g ga).toNat ≤ 4095 ∧ s.inSubtree (s.regionOf s.cur) (s.g ga).toNat = false) :=
    fun h => Bool.false_ne_true (h.2.symm.trans hown)
  have hok : ¬ ((s.g gb).toNat ≠ 0 ∧ s.regValid (s.g ga).toNat = false) := by
    rintro ⟨hne, hfalse⟩
    exact hvalid.elim hne (fun h => Bool.false_ne_true (hfalse.symm.trans h))
  rw [State.regionOp]
  exact (if_neg hin).trans ((guardP_clean hclean _).trans ((if_neg (by omega)).trans (if_neg hok)))

/-! ### RGRD, RGWR and PRD -/

/-- What RGWR does of a region and index that pass the shared checks. -/
def rgwrEnd (s : State) (v tval : Word) (r k : Nat) : State :=
  if v &&& ~~~(word (regionBits k)) ≠ 0 then s.raise 0x06 tval
  else if k = 0 then
    match s.headerAfter r v with
    | none => s.raise 0x06 tval
    | some h =>
      State.advance (State.regPut (if bit (s.regOwn r 0) 63 = false ∧ bit (word h) 63 then s.newRegion r else s) r 0 h)
  else (s.regPut r k (s.regionAfter r k v)).advance

theorem exec_rgrd (s : State) (d a b : Reg) : exec (.rgrd d a b) s
    = .next (s.regionOp (.rgrd d a b) [a, b] a b (fun r k => s.done d (s.regRead r k))) := rfl

theorem exec_rgwr_sup {s : State} (h : s.sup s.cur = true) (g a b : Reg) : exec (.rgwr g a b) s
    = .next (s.regionOp (.rgwr g a b) [g, a, b] a b (rgwrEnd s (s.g g) (s.g b))) :=
  congrArg Host.Outcome.next (supOnly_sup h _ _)

theorem exec_rgwr_task {s : State} (h : s.sup s.cur = false) (g a b : Reg) :
    exec (.rgwr g a b) s = .next (s.raise 0x02 ((encode (.rgwr g a b)).setWidth 64)) := by
  show Host.Outcome.next (s.supOnly (.rgwr g a b) _) = _
  rw [State.supOnly, h]
  rfl

theorem word_toNat (w : Word) : word w.toNat = w := by
  rw [word, BitVec.ofNat_toNat, BitVec.setWidth_eq]

/-- Where no field of a doubleword ignores writes, the write stands. -/
theorem regionAfter_plain {k : Nat} (h2 : k ≠ 2) (h9 : k ≠ 9) (h14 : k ≠ 14) (s : State) (r : Nat) (v : Word) :
    s.regionAfter r k v = ((s.regOwn r k &&& 0) ||| (v &&& ~~~(0 : Word))).toNat := by
  unfold State.regionAfter
  split
  · exact absurd rfl h2
  · exact absurd rfl h9
  · exact absurd rfl h14
  · rfl

theorem regionAfter_word (s : State) (r k : Nat) (v : Word) : word (s.regionAfter r k v) = (if k = 14 then s.regOwn r k
    else if k = 9 then (s.regOwn r k &&& 0xFFFFFFFF00000000) ||| (v &&& 0x00000000FFFFFFFF)
    else if k = 2 then (s.regOwn r k &&& 0x3F00) ||| (v &&& 0xFFFFFFFFFFFFC0FF) else v) := by
  by_cases h14 : k = 14
  · subst h14
    exact (word_toNat _).trans ((congrArg (s.regOwn r 14 &&& 0xFFFFFFFFFFFFFFFF ||| ·) (BitVec.and_zero (x := v))).trans
      (BitVec.or_zero.trans BitVec.and_allOnes))
  · by_cases h9 : k = 9
    · subst h9
      exact word_toNat _
    · by_cases h2 : k = 2
      · subst h2
        exact word_toNat _
      · rw [if_neg h14, if_neg h9, if_neg h2, regionAfter_plain h2 h9 h14, word_toNat]
        exact (congrArg (· ||| (v &&& ~~~(0 : Word))) BitVec.and_zero).trans (BitVec.zero_or.trans BitVec.and_allOnes)

theorem rgwrEnd_bits {s : State} {v : Word} {k : Nat} (h : v &&& ~~~(BitVec.ofNat 64 (regionBits k)) ≠ 0) (tval : Word) (r : Nat) :
    rgwrEnd s v tval r k = s.raise 0x06 tval := if_pos h

theorem rgwrEnd_field {s : State} {v : Word} {k : Nat} (h : v &&& ~~~(BitVec.ofNat 64 (regionBits k)) = 0) (hk : k ≠ 0)
    (tval : Word) (r : Nat) : rgwrEnd s v tval r k = (s.regPut r k (s.regionAfter r k v)).advance :=
  (if_neg (fun hne => hne h)).trans (if_neg hk)

/-- HDR of a region that becomes valid: its depth and number come from the parent and the region (R186). -/
theorem headerAfter_new {s : State} {r : Nat} {v : Word} (hr : r ≠ 0) (hold : s.regValid r = false) (hnew : v.getLsbD 63 = true) :
    s.headerAfter r v = if s.regValid (v.toNat / 2 ^ 12 % 2 ^ 12) = true ∧ s.regDepth (v.toNat / 2 ^ 12 % 2 ^ 12) ≤ 6 then
      some (2 ^ 63 + (s.regDepth (v.toNat / 2 ^ 12 % 2 ^ 12) + 1) * 2 ^ 24 + v.toNat / 2 ^ 12 % 2 ^ 12 * 2 ^ 12 + r) else none := by
  have hbit : bit (s.regOwn r 0) 63 = false := hold
  have hset : bit v 63 = true := hnew
  simp only [State.headerAfter, if_neg hr, hbit, hset]
  rfl

theorem rgwrEnd_header {s : State} {v : Word} {r : Nat} (hfields : v &&& ~~~(0x8000000007FFFFFF : Word) = 0) (tval : Word) :
    rgwrEnd s v tval r 0 = match s.headerAfter r v with
      | none => s.raise 0x06 tval
      | some h =>
        State.advance (State.regPut (if bit (s.regOwn r 0) 63 = false ∧ bit (word h) 63 then s.newRegion r else s) r 0 h) :=
  if_neg (fun hne => hne hfields)

theorem clean_tail {s : State} {g a b : Reg} (h : s.Clean [g, a, b] []) : s.Clean [a, b] [] := by
  rw [clean_iff] at h ⊢
  exact ⟨fun r hr => h.1 r (List.mem_cons_of_mem _ hr), h.2⟩

theorem exec_prd {s : State} {a b : Reg} (h : s.Clean [a, b] []) (d : Reg) : exec (.prd d a b) s = .next (
    if 191 < (s.g a).toNat then s.raise 0x06 (s.g a)
    else if 4 < (s.g b).toNat then s.raise 0x06 (s.g b)
    else s.done d (s.prdItem (clusterAt s.cur.core.die (s.g a).toNat) (s.g b).toNat)) :=
  congrArg Host.Outcome.next (guardP_clean h _)

theorem regOwn_advance (s : State) (r k : Nat) : s.advance.regOwn r k = s.regOwn r k := rfl

/-- A header that becomes valid stands in the block, and its instruction has moved on. -/
theorem header_written {s : State} {r h : Nat} {p : Prop} [Decidable p] :
    ((if p then s.newRegion r else s).regPut r 0 h).advance.regOwn r 0 = word h
    ∧ Past s.my ((if p then s.newRegion r else s).regPut r 0 h).advance.my := by
  refine ⟨?_, (moved_past (s := s) ?_ ?_).2⟩
  · rw [regOwn_advance, regOwn_regPut_same]
  · split <;> rfl
  · split <;> rfl

theorem rgwr_header {s : State} {g a b : Reg} (hclean : s.Clean [g, a, b] []) (hsup : s.sup s.cur = true)
    (hr : (s.g a).toNat ≤ 4095) (hown : s.inSubtree (s.regionOf s.cur) (s.g a).toNat = true) (hk : (s.g b).toNat = 0)
    (hne : (s.g a).toNat ≠ 0) (hold : s.regValid (s.g a).toNat = false) (hnew : (s.g g).getLsbD 63 = true)
    (hfields : s.g g &&& ~~~(0x8000000007FFFFFF : Word) = 0) :
    (s.regValid ((s.g g).toNat / 2 ^ 12 % 2 ^ 12) = false ∨ 6 < s.regDepth ((s.g g).toNat / 2 ^ 12 % 2 ^ 12) →
      exec (.rgwr g a b) s = .next (s.raise 0x06 (s.g b)))
    ∧ (s.regValid ((s.g g).toNat / 2 ^ 12 % 2 ^ 12) = true → s.regDepth ((s.g g).toNat / 2 ^ 12 % 2 ^ 12) ≤ 6 →
      ∃ t, exec (.rgwr g a b) s = .next t ∧ t.regOwn (s.g a).toNat 0
        = BitVec.ofNat 64 (2 ^ 63 + (s.regDepth ((s.g g).toNat / 2 ^ 12 % 2 ^ 12) + 1) * 2 ^ 24
          + (s.g g).toNat / 2 ^ 12 % 2 ^ 12 * 2 ^ 12 + (s.g a).toNat) ∧ Past s.my t.my) := by
  have hexec := exec_rgwr_sup hsup g a b
  rw [regionOp_goes hclean hr hown (by omega) (.inl hk), hk, rgwrEnd_header hfields, headerAfter_new hne hold hnew] at hexec
  refine ⟨fun hbad => ?_, fun hparent hdepth => ?_⟩
  · rw [if_neg] at hexec
    · exact hexec
    · rintro ⟨hvalid, hdepth⟩
      rcases hbad with h | h
      · exact Bool.false_ne_true (h.symm.trans hvalid)
      · omega
  · rw [if_pos ⟨hparent, hdepth⟩] at hexec
    exact ⟨_, hexec, header_written⟩

theorem regionInstructions : Claim.RegionInstructions := by
  intro s d g a b hclean r k own
  have hpair := clean_tail hclean
  refine ⟨fun hr hown => ?_, fun hbad => ⟨?_, fun hsup => ?_⟩, fun hr hown hk hvalid => ⟨?_, fun hsup hne hfields => ?_,
    fun hsup hne hfields => ?_⟩, fun hsup => rgwr_header hclean hsup,
    fun htask => exec_rgwr_task htask g a b, fun hr => ?_, fun hr hk => ?_, fun hr hk => ?_⟩
  · rw [exec_rgrd, regionOp_outside hr hown]
    rfl
  · rw [exec_rgrd, regionOp_bad hpair hbad]
  · rw [exec_rgwr_sup hsup, regionOp_bad hclean hbad]
  · rw [exec_rgrd, regionOp_goes hpair hr hown hk hvalid]
  · have hexec : exec (.rgwr g a b) s = .next (s.regPut r k (s.regionAfter r k (s.g g))).advance := by
      rw [exec_rgwr_sup hsup, regionOp_goes hclean hr hown hk hvalid, rgwrEnd_field hfields hne]
    obtain ⟨hkeeps, hpast⟩ := moved_past (s := s) (t := s.regPut r k (s.regionAfter r k (s.g g))) rfl rfl
    refine ⟨_, hexec, hkeeps, hpast, ?_, fun c hc => byte_regPut s r k _ hc⟩
    rw [regOwn_advance, regOwn_regPut_same, regionAfter_word]
  · rw [exec_rgwr_sup hsup, regionOp_goes hclean hr hown hk hvalid, rgwrEnd_bits hfields]
  · exact (exec_prd hpair d).trans (congrArg Host.Outcome.next (if_pos hr))
  · exact (exec_prd hpair d).trans (congrArg Host.Outcome.next ((if_neg (by omega)).trans (if_pos hk)))
  · exact (exec_prd hpair d).trans (congrArg Host.Outcome.next ((if_neg (by omega)).trans (if_neg (by omega))))

end Sys2Proof.Proofs.RegionBlocks

/-! SUPPORT. What bookkeeping leaves: home slices, stash copies, the Annals, counts and engine ports change no context, no
region block, no slice and no pressure; and where nothing is poisoned, most of it changes no memory. -/

namespace Sys2Proof.Proofs.Bookkeeping

open Machine

/-! ### Two frames -/

/-- Contexts, region blocks, the platform, the matrix slices and the clusters' pressures are as before. -/
structure Tended (s t : State) : Prop where
  ctxs : t.ctxs = s.ctxs
  cur : t.cur = s.cur
  time : t.time = s.time
  regs : t.regs = s.regs
  plat : t.plat = s.plat
  slices : ∀ k, (t.core k).slice = (s.core k).slice
  sums : ∀ cl, (t.cluster cl).sum = (s.cluster cl).sum

/-- So are memory and the stash lines where nothing is poisoned. -/
structure Served (s t : State) : Prop where
  tended : Tended s t
  quiet : s.pois = [] → SameMem s t
  stash : s.pois = [] → ∀ k, (t.core k).stash = (s.core k).stash

theorem Tended.refl (s : State) : Tended s s := ⟨rfl, rfl, rfl, rfl, rfl, fun _ => rfl, fun _ => rfl⟩

theorem Tended.trans {s t u : State} (h : Tended s t) (h' : Tended t u) : Tended s u :=
  ⟨h'.ctxs.trans h.ctxs, h'.cur.trans h.cur, h'.time.trans h.time, h'.regs.trans h.regs, h'.plat.trans h.plat,
    fun k => (h'.slices k).trans (h.slices k), fun cl => (h'.sums cl).trans (h.sums cl)⟩

theorem Served.refl (s : State) : Served s s := ⟨.refl s, fun _ => ⟨rfl, rfl⟩, fun _ _ => rfl⟩

theorem Served.trans {s t u : State} (h : Served s t) (h' : Served t u) : Served s u :=
  ⟨h.tended.trans h'.tended, fun hp => by
    obtain ⟨hmem, hpois⟩ := h.quiet hp
    obtain ⟨hmem', hpois'⟩ := h'.quiet (hpois.trans hp)
    exact ⟨hmem'.trans hmem, hpois'.trans hpois⟩, fun hp k => (h'.stash ((h.quiet hp).2.trans hp) k).trans (h.stash hp k)⟩

theorem Tended.foldl {β : Type} {f : State → β → State} (hf : ∀ s e, Tended s (f s e)) (l : List β) (s : State) :
    Tended s (l.foldl f s) := by
  induction l generalizing s with
  | nil => exact .refl s
  | cons e l ih => exact (hf s e).trans (ih _)

theorem Served.foldl {β : Type} {f : State → β → State} (hf : ∀ s e, Served s (f s e)) (l : List β) (s : State) :
    Served s (l.foldl f s) := by
  induction l generalizing s with
  | nil => exact .refl s
  | cons e l ih => exact (hf s e).trans (ih _)

theorem Tended.ctx {s t : State} (h : Tended s t) (c : CtxId) : t.ctx c = s.ctx c := by rw [State.ctx, h.ctxs, State.ctx]

theorem Tended.regLoc {s t : State} (h : Tended s t) (r k : Nat) : t.regLoc r k = s.regLoc r k := by
  rw [State.regLoc, h.plat, State.regLoc]

/-! ### The parts of the state -/

theorem served_setCore {s : State} {k : CoreId} {x : Core} (hslice : x.slice = (s.core k).slice)
    (hstash : x.stash = (s.core k).stash) : Served s (s.setCore k x) := by
  have hcore : ∀ d, ((s.setCore k x).core d).slice = (s.core d).slice ∧ ((s.setCore k x).core d).stash = (s.core d).stash := by
    intro d
    by_cases hd : d = k
    · rw [hd, core_setCore_same]
      exact ⟨hslice, hstash⟩
    · rw [core_setCore_other _ _ hd]
      exact ⟨rfl, rfl⟩
  exact ⟨⟨rfl, rfl, rfl, rfl, rfl, fun d => (hcore d).1, fun _ => rfl⟩, fun _ => ⟨rfl, rfl⟩, fun _ d => (hcore d).2⟩

theorem tended_setCore {s : State} {k : CoreId} {x : Core} (hslice : x.slice = (s.core k).slice) :
    Tended s (s.setCore k x) := by
  refine ⟨rfl, rfl, rfl, rfl, rfl, fun d => ?_, fun _ => rfl⟩
  by_cases hd : d = k
  · rw [hd, core_setCore_same, hslice]
  · rw [core_setCore_other _ _ hd]

theorem served_setCluster {s : State} {cl : ClusterId} {x : Cluster} (hsum : x.sum = (s.cluster cl).sum) :
    Served s (s.setCluster cl x) := by
  refine ⟨⟨rfl, rfl, rfl, rfl, rfl, fun _ => rfl, fun d => ?_⟩, fun _ => ⟨rfl, rfl⟩, fun _ _ => rfl⟩
  by_cases hd : d = cl
  · rw [hd, cluster_setCluster_same, hsum]
  · rw [cluster_setCluster_other _ _ hd]

theorem served_post (s : State) (e : Event) : Served s (s.post e) :=
  ⟨⟨rfl, rfl, rfl, rfl, rfl, fun _ => rfl, fun _ => rfl⟩, fun _ => ⟨rfl, rfl⟩, fun _ _ => rfl⟩

theorem served_after (s : State) (n : Nat) (e : Event) : Served s (s.after n e) :=
  ⟨⟨rfl, rfl, rfl, rfl, rfl, fun _ => rfl, fun _ => rfl⟩, fun _ => ⟨rfl, rfl⟩, fun _ _ => rfl⟩

theorem served_fresh (s : State) : Served s s.fresh :=
  ⟨⟨rfl, rfl, rfl, rfl, rfl, fun _ => rfl, fun _ => rfl⟩, fun _ => ⟨rfl, rfl⟩, fun _ _ => rfl⟩

theorem tended_poke (s : State) (a : Nat) (bs : List Byte) (bad : Bool) : Tended s (s.poke a bs bad) :=
  ⟨rfl, rfl, rfl, rfl, rfl, fun _ => rfl, fun _ => rfl⟩

theorem tended_mark (s : State) (p : List Nat) : Tended s { s with pois := p } :=
  ⟨rfl, rfl, rfl, rfl, rfl, fun _ => rfl, fun _ => rfl⟩

theorem poisAt_of_clean {s : State} (h : s.pois = []) (a n : Nat) : s.poisAt a n = false := by
  simp [State.poisAt, h, smem]

/-! ### Counters and home slices -/

theorem pcAdd_rest (x : Core) (ev : Nat) (r : Option Nat) (n k : Nat) :
    (pcAdd x ev r n k).slice = x.slice ∧ (pcAdd x ev r n k).stash = x.stash := by
  induction k with
  | zero => exact ⟨rfl, rfl⟩
  | succ k ih =>
    simp only [pcAdd]
    split
    · exact ih
    · exact ih

theorem served_count (s : State) (k : CoreId) (ev : Nat) (r : Option Nat) (n : Nat) : Served s (s.count k ev r n) :=
  served_setCore (pcAdd_rest _ _ _ _ _).1 (pcAdd_rest _ _ _ _ _).2

theorem served_countFor (s : State) (k : Option CoreId) (ev r : Nat) : Served s (s.countFor k ev r) := by
  cases k with
  | none => exact .refl s
  | some k => exact served_count s k ev _ _

theorem served_putLine (s : State) (c : ClusterId) (n : Nat) (l : Line) : Served s (s.putLine c n l) := served_setCluster rfl

theorem served_dropLine (s : State) (c : ClusterId) (n : Nat) : Served s (s.dropLine c n) := served_setCluster rfl

theorem served_writeBack (s : State) (c : ClusterId) (n : Nat) (l : Line) : Served s (s.writeBack c n l) := by
  rw [State.writeBack]
  split
  · rename_i hbad
    refine ⟨(tended_mark s _).trans (served_post _ _).tended, fun hclean => ?_, fun _ _ => rfl⟩
    rw [poisAt_of_clean hclean, Bool.and_false] at hbad
    exact absurd hbad Bool.false_ne_true
  · exact .refl s

theorem served_evict (s : State) (c : ClusterId) (n : Nat) : Served s (s.evict c n) := by
  rw [State.evict]
  split
  · exact .refl s
  · exact (served_writeBack s c n _).trans (served_dropLine _ c n)

theorem served_makeRoom (s : State) (c : ClusterId) (out : Option Nat) (k : Option CoreId) (r : Nat) :
    Served s (s.makeRoom c out k r) := by
  cases out with
  | none => exact .refl s
  | some m =>
    simp only [State.makeRoom]
    split
    · split
      · exact (served_countFor s k _ r).trans (served_evict _ c m)
      · exact served_evict s c m
    · exact served_evict s c m

theorem served_missLine (s : State) (c : ClusterId) (n r : Nat) (write : Bool) (k : Option CoreId) :
    Served s (s.missLine c n r write k) := by
  rw [State.missLine]
  split
  · exact .refl s
  · exact (served_makeRoom s c _ k r).trans (served_putLine _ c n _)

theorem served_touch (s : State) (loc r : Nat) (write : Bool) (k : Option CoreId) : Served s (s.touch loc r write k) := by
  rw [State.touch]
  split
  · exact .refl s
  · refine (served_fresh s).trans ?_
    dsimp only
    split
    · exact served_putLine _ _ _ _
    · exact (served_countFor _ k _ r).trans (served_missLine _ _ _ _ _ _)

/-! ### Stash copies taken back (R223) -/

theorem tended_spoil (s : State) (loc r : Nat) : Tended s (s.spoil loc r) := by
  rw [State.spoil]
  split
  · exact (tended_mark s _).trans (served_post _ _).tended
  · exact .refl s

theorem tended_stashCopy (s : State) (k : CoreId) (key : Nat) (l : StashLine) : Tended s (s.stashCopy k key l) :=
  (served_touch s _ _ _ _).tended.trans (tended_poke _ _ _ _)

theorem tended_stashWriteBack (s : State) (k : CoreId) (key : Nat) (l : StashLine) : Tended s (s.stashWriteBack k key l) := by
  rw [State.stashWriteBack]
  split
  · split
    · exact (tended_stashCopy s k key l).trans (tended_spoil _ _ _)
    · exact tended_stashCopy s k key l
  · exact .refl s

theorem tended_setStash (s : State) (k : CoreId) (key : Nat) (l : Option StashLine) : Tended s (s.setStash k key l) :=
  tended_setCore rfl

theorem tended_recallOne (s : State) (k : CoreId) (key : Nat) (invalidate : Bool) : Tended s (s.recallOne k key invalidate) := by
  rw [State.recallOne]
  split
  · exact .refl s
  · exact (tended_stashWriteBack s k key _).trans ((served_count _ k _ _ _).tended.trans (tended_setStash _ k key _))

theorem tended_recall (s : State) (loc : Nat) (write : Bool) (except : Option CoreId) : Tended s (s.recall loc write except) := by
  refine Tended.foldl (fun u e => ?_) _ s
  dsimp only
  split
  · exact .refl u
  · split
    · split
      · exact tended_recallOne u _ _ _
      · exact .refl u
    · exact .refl u

theorem served_fillNote (s : State) (loc n r : Nat) (write : Bool) (k : Option CoreId) (l : Nat) :
    Served s (s.fillNote loc n r write k l) := by
  rw [State.fillNote]
  split
  · exact served_post s _
  · exact .refl s

theorem tended_homeAccess (s : State) (loc n r : Nat) (write : Bool) (k : Option CoreId) :
    Tended s (s.homeAccess loc n r write k) :=
  Tended.foldl (fun u _ => (tended_recall u _ _ _).trans
    ((served_fillNote _ _ _ _ _ _ _).tended.trans (served_touch _ _ _ _ _).tended)) _ s

/-! ### The Annals (R374) -/

theorem tended_homeD (s : State) (loc r x : Nat) : Tended s (s.homeD loc r x) :=
  (tended_homeAccess s loc 8 r true none).trans (tended_poke _ _ _ _)

theorem tended_annWrite (r a w : Nat) (l : List Nat) (s : State) : Tended s (annWrite s r a w l) := by
  induction l generalizing s w with
  | nil => exact .refl s
  | cons x l ih => exact (tended_homeD s _ r x).trans (ih (w + 1) _)

theorem Tended.ite {s u v : State} {p : Prop} [Decidable p] (hu : Tended s u) (hv : Tended s v) :
    Tended s (if p then u else v) := by
  split
  · exact hu
  · exact hv

theorem tended_annAppend (s : State) (r a n typ : Nat) (data : List Nat) : Tended s (annAppend s r a n typ data) := by
  refine (tended_homeAccess s a 24 r false none).trans ?_
  rw [annAppend]
  generalize s.homeAccess a 24 r false none = u
  refine .ite (tended_homeD u _ _ _) (Tended.trans ?_ (tended_homeD _ _ _ _))
  refine Tended.trans ?_ (tended_annWrite _ _ _ _ _)
  have hpad : ∀ (p : Prop) [Decidable p] (v : State) (w : Nat) (l : List Nat),
      Tended v (if p then annWrite v r a w l else v) := fun p _ v w l => .ite (tended_annWrite _ _ _ _ v) (.refl v)
  refine Tended.trans ?_ (hpad _ _ _ _)
  refine Tended.trans (hpad _ _ _ _) (.ite ((tended_annWrite _ _ _ _ _).trans (tended_homeD _ _ _ _)) (.refl _))

theorem tended_annals (s : State) (d : Fin 4) (r typ : Nat) (data : List Nat) : Tended s (s.annals d r typ data) := by
  rw [State.annals]
  exact .ite (tended_annAppend s _ _ _ _ _) (.refl s)

theorem tended_poisonRecord (s : State) (d : Fin 4) (r pa source : Nat) : Tended s (s.poisonRecord d r pa source) :=
  tended_annals s d r 5 _

/-! ### Engine ports (R259 to R265) -/

theorem served_setPort (s : State) (k : CoreId) (p : Nat) (x : Port) : Served s (s.setPort k p x) := served_setCore rfl rfl

theorem served_launch (s : State) (k : CoreId) (p : Nat) (c : Command) : Served s (s.launch k p c) := by
  rw [State.launch]
  split
  · exact served_after s 1 _
  · exact served_post s _

/-- A local key lies in the on-die space. -/
theorem localLoc_onDie (k : CoreId) {off : Nat} (h : off < 2 ^ 30) : (localLoc k off).testBit 42 = true := by
  have hcl : k.cl.val < 192 := k.cl.isLt
  have hcore : k.core.val < 16 := k.core.isLt
  have hdiv : localLoc k off / 2 ^ 42 = 2 * k.die.val + 1 := by
    rw [localLoc]
    omega
  rw [Nat.testBit_eq_decide_div_mod_eq, hdiv]
  exact decide_eq_true (by omega)

theorem badByte_of_clean {s : State} (hclean : s.pois = []) (k : CoreId) {off : Nat} (h : off < 2 ^ 30) (n : Nat) :
    s.badByte (localLoc k off) n = none := by
  simp [State.badByte, hclean, smem, localLoc_onDie k h]

theorem bits_lt (w : Word) (hi lo : Nat) : bits w hi lo < 2 ^ (hi + 1 - lo) := Nat.mod_lt _ (Nat.two_pow_pos _)

/-- What a command reads at its start are local offsets. -/
theorem xRanges_lt {c : Command} {p : Nat} {e : Nat × Nat} (h : e ∈ c.xRanges p) : e.1 < 2 ^ 30 := by
  have hone := bits_lt c.w1 17 0
  have htwo := bits_lt c.w1 49 32
  rw [Command.xRanges] at h
  split at h
  · rw [List.mem_singleton] at h
    rw [h]
    exact lt_of_lt_of_le hone (by decide)
  · split at h
    · simp only [List.mem_cons, List.not_mem_nil, or_false] at h
      rcases h with rfl | rfl
      · exact lt_of_lt_of_le hone (by decide)
      · exact lt_of_lt_of_le htwo (by decide)
    · exact absurd h (List.not_mem_nil)
  · exact absurd h (List.not_mem_nil)

/-- The record of poison in one operand of a command. -/
def operandRecord (k : CoreId) (region : Nat) (s : State) (e : Nat × Nat) : State :=
  match s.badByte (localLoc k e.1) e.2 with
  | some a => s.poisonRecord k.die region (s.dev * 2 ^ 45 + a) 2
  | none => s

theorem tended_operandRecord (k : CoreId) (region : Nat) (s : State) (e : Nat × Nat) :
    Tended s (operandRecord k region s e) := by
  rw [operandRecord]
  split
  · exact tended_poisonRecord s _ _ _ _
  · exact .refl s

theorem operandRecords_of_clean {s : State} (hclean : s.pois = []) (k : CoreId) (region : Nat) {l : List (Nat × Nat)}
    (h : ∀ e ∈ l, e.1 < 2 ^ 30) : l.foldl (operandRecord k region) s = s := by
  induction l with
  | nil => rfl
  | cons e l ih =>
    have hnone : operandRecord k region s e = s := by
      rw [operandRecord, badByte_of_clean hclean k (h e (List.mem_cons_self ..))]
    rw [List.foldl_cons, hnone]
    exact ih (fun f hf => h f (List.mem_cons_of_mem _ hf))

theorem served_operandRecords (s : State) (k : CoreId) (region : Nat) {l : List (Nat × Nat)} (h : ∀ e ∈ l, e.1 < 2 ^ 30) :
    Served s (l.foldl (operandRecord k region) s) :=
  ⟨Tended.foldl (tended_operandRecord k region) l s,
    fun hclean => by rw [operandRecords_of_clean hclean k region h]; exact ⟨rfl, rfl⟩,
    fun hclean _ => by rw [operandRecords_of_clean hclean k region h]⟩

theorem served_pump (s : State) (k : CoreId) (p fuel : Nat) : Served s (s.pump k p fuel) := by
  induction fuel generalizing s with
  | zero => exact .refl s
  | succ fuel ih =>
    simp only [State.pump]
    split
    · split
      · exact .refl s
      · rename_i c _
        have hrecords := served_operandRecords s k c.region (l := c.xRanges p) (fun e he => xRanges_lt he)
        exact hrecords.trans ((served_setPort _ k p _).trans ((served_launch _ k p _).trans (ih _)))
    · exact .refl s

theorem served_complete (s : State) (k : CoreId) (p : Nat) (c : Command) (status aux : Nat) :
    Served s (s.complete k p c status aux) := by
  rw [State.complete]
  refine Served.trans ?_ (served_pump _ k p 4)
  split
  · exact (served_setPort s k p _).trans ((served_count _ k _ _ _).trans (served_post _ _))
  · exact (served_setPort s k p _).trans (served_count _ k _ _ _)

theorem served_cancelArmed (s : State) (c : CtxId) : Served s (s.cancelArmed c) :=
  Served.foldl (fun _ _ => Served.foldl (fun u _ => served_complete u _ _ _ _ _) _ _) _ s

theorem served_orphan (s : State) (c : CtxId) : Served s (s.orphan c) := served_setCore rfl rfl

theorem served_discardOuts (s : State) (c : CtxId) : Served s (s.discardOuts c) := served_setCore rfl rfl

end Sys2Proof.Proofs.Bookkeeping

/-! SUPPORT. Ending and naming tasks: EXIT, TFATAL, TID, RGID and TCANCEL (R60, R74, R141, R183 to R185). -/

namespace Sys2Proof.Proofs.TaskEnds

open Machine Contexts Frames Bookkeeping

/-! ### One live task less (R168, R170) -/

theorem liveTasks_lt (s : State) (r : Nat) : s.liveTasks r < 2 ^ 32 := bits_lt _ 31 0

theorem liveTasks_setLive (s : State) (r : Nat) {tasks : Nat} (h : tasks < 2 ^ 32) (armed : Nat) :
    (s.setLive r tasks armed).liveTasks r = tasks := by
  rw [State.liveTasks, State.setLive, RegionBlocks.regOwn_regPut_same, bits, bitsN, word, BitVec.toNat_ofNat]
  omega

theorem liveTasks_liveDown (s : State) (r : Nat) : (s.liveDown r).liveTasks r = s.liveTasks r - 1 :=
  liveTasks_setLive s r (lt_of_le_of_lt (Nat.sub_le _ _) (liveTasks_lt s r)) _

/-! ### The parts of a task's end (R74, R141, R183, R265) -/

/-- What a context held is given back: what it waits for, its slice, its commands and their completions. -/
def freed (s : State) (c : CtxId) : State := ((((s.withdraw c).discardOuts c).releaseSlice c).cancelArmed c).orphan c

/-- Of a task that leaves: its place among the live tasks or the fault handlers. -/
def uncounted (s : State) (t : Task) : State :=
  if smem t.msg.cat s.plat.faultHandlers then
    { s with plat := { s.plat with faultHandlers := sdel t.msg.cat s.plat.faultHandlers } }
  else s.liveDown t.msg.region

/-- The charge of a task is returned: its cost, and its place among the live tasks or the fault handlers. -/
def returned (s : State) (cl : ClusterId) (t : Task) : State := uncounted (s.unpress cl t.msg.cost) t

/-- A slot that holds no task. -/
def emptyCtx (x : Ctx) : Ctx :=
  { x with task := none, frame := none, wait := .none, rbuf := [], rpois := [], fq := [], stopReq := false, saveReq := false,
           late := 0 }

/-- A save of a slot is given up. -/
def unsaved (s : State) (c : CtxId) : State :=
  if (s.cluster c.core.cluster).saving = some c then
    s.setCluster c.core.cluster { s.cluster c.core.cluster with saving := none } else s

/-- The slot is emptied, and the cluster looks for the next task. -/
def emptied (s : State) (c : CtxId) : State :=
  (unsaved (s.setCtx c (emptyCtx (s.ctx c))) c).post (.dispatch c.core.cluster)

theorem endTask_eq {s : State} {c : CtxId} {t : Task} (h : (s.ctx c).task = some t) :
    s.endTask c = emptied (returned (freed s c) c.core.cluster t) c := by
  rw [State.endTask, h]
  rfl

theorem served_unsaved (s : State) (c : CtxId) : Served s (unsaved s c) := by
  rw [unsaved]
  split
  · exact served_setCluster rfl
  · exact .refl s

theorem emptied_effect (s : State) (c : CtxId) :
    ((emptied s c).ctx c).task = none ∧ ((emptied s c).ctx c).frame = none ∧ (∀ d, d ≠ c → (emptied s c).ctx d = s.ctx d)
    ∧ .ev (.dispatch c.core.cluster) ∈ (emptied s c).agenda := by
  have hctx : ∀ d, (emptied s c).ctx d = (s.setCtx c (emptyCtx (s.ctx c))).ctx d := (served_unsaved _ c).tended.ctx
  rw [hctx c, ctx_setCtx_same]
  exact ⟨rfl, rfl, fun d hd => (hctx d).trans (ctx_setCtx_other _ _ hd), List.mem_append_right _ (List.mem_singleton.mpr rfl)⟩

theorem unsaved_rest (s : State) (c : CtxId) : SameMem s (unsaved s c) ∧ (unsaved s c).cores = s.cores := by
  rw [unsaved]
  split <;> exact ⟨⟨rfl, rfl⟩, rfl⟩

theorem emptied_rest (s : State) (c : CtxId) : (emptied s c).cur = s.cur ∧ (emptied s c).regs = s.regs
    ∧ SameMem s (emptied s c) ∧ (emptied s c).cores = s.cores
    ∧ ∀ cl, ((emptied s c).cluster cl).sum = (s.cluster cl).sum := by
  have hsaved := (served_unsaved (s.setCtx c (emptyCtx (s.ctx c))) c).tended
  obtain ⟨hmem, hcores⟩ := unsaved_rest (s.setCtx c (emptyCtx (s.ctx c))) c
  exact ⟨hsaved.cur, hsaved.regs, hmem, hcores, hsaved.sums⟩

theorem uncounted_rest (s : State) (t : Task) : (uncounted s t).cur = s.cur ∧ (uncounted s t).ctxs = s.ctxs
    ∧ (uncounted s t).cores = s.cores := by
  rw [uncounted]
  split <;> exact ⟨rfl, rfl, rfl⟩

theorem returned_rest (s : State) (cl : ClusterId) (t : Task) : (returned s cl t).cur = s.cur
    ∧ (returned s cl t).ctxs = s.ctxs ∧ (returned s cl t).cores = s.cores := uncounted_rest (s.unpress cl t.msg.cost) t

/-- The counts of LIVE are the only bytes a returned charge touches. -/
theorem byte_returned (s : State) (cl : ClusterId) (t : Task) {a : Nat}
    (h : a < s.regLoc t.msg.region 14 ∨ s.regLoc t.msg.region 14 + 8 ≤ a) : (returned s cl t).byte a = s.byte a := by
  rw [returned, uncounted]
  split
  · rfl
  · exact RegionBlocks.byte_regPut (s.unpress cl t.msg.cost) t.msg.region 14 _ h

/-- A write to a region's block touches the lines of a slice alone. -/
theorem regMark_cluster (s : State) (loc r : Nat) (cl : ClusterId) :
    ∃ lines, tget {} (s.regMark loc r) cl.key = { s.cluster cl with lines := lines } := by
  rw [State.regMark]
  split
  · exact ⟨_, rfl⟩
  · rename_i c _
    split
    · exact ⟨_, rfl⟩
    · by_cases hc : cl = c
      · subst hc
        exact ⟨_, cluster_setCluster_same s cl _⟩
      · exact ⟨_, cluster_setCluster_other s _ hc⟩

theorem cluster_regPut (s : State) (r k v : Nat) (cl : ClusterId) :
    ∃ lines, (s.regPut r k v).cluster cl = { s.cluster cl with lines := lines } := regMark_cluster s _ r cl

theorem cluster_setLive (s : State) (r a b : Nat) (cl : ClusterId) :
    ∃ lines, (s.setLive r a b).cluster cl = { s.cluster cl with lines := lines } := cluster_regPut s r 14 _ cl

theorem sum_uncounted (s : State) (t : Task) (cl : ClusterId) : ((uncounted s t).cluster cl).sum = (s.cluster cl).sum := by
  rw [uncounted]
  split
  · rfl
  · obtain ⟨lines, hlines⟩ := cluster_setLive s t.msg.region (s.liveTasks t.msg.region - 1) (s.liveArmed t.msg.region) cl
    rw [State.liveDown, hlines]

theorem sum_returned (s : State) (cl : ClusterId) (t : Task) :
    ((returned s cl t).cluster cl).sum = (s.cluster cl).sum - t.msg.cost := by
  rw [returned, sum_uncounted, State.unpress, cluster_setCluster_same]

theorem liveTasks_uncounted {s : State} {t : Task} (h : smem t.msg.cat s.plat.faultHandlers = false) :
    (uncounted s t).liveTasks t.msg.region = s.liveTasks t.msg.region - 1 := by
  rw [uncounted, if_neg (by rw [h]; decide), liveTasks_liveDown]

theorem releaseSlice_owner (s : State) (c : CtxId) : ((s.releaseSlice c).core c.core).slice.owner ≠ some c.ctx.val := by
  rw [State.releaseSlice]
  split
  · rw [core_setCore_same]
    exact (Option.some_ne_none _).symm
  · rename_i h
    exact h

theorem releaseSlice_rest (s : State) (c : CtxId) : (s.releaseSlice c).ctxs = s.ctxs ∧ (s.releaseSlice c).cur = s.cur
    ∧ (s.releaseSlice c).regs = s.regs ∧ (s.releaseSlice c).plat = s.plat ∧ (s.releaseSlice c).clusters = s.clusters
    ∧ SameMem s (s.releaseSlice c) := by
  rw [State.releaseSlice]
  split <;> exact ⟨rfl, rfl, rfl, rfl, rfl, rfl, rfl⟩

/-- What a context that waits for nothing gives back leaves all but its wait. -/
structure Freed (s t : State) (c : CtxId) : Prop where
  others : ∀ d, d ≠ c → t.ctx d = s.ctx d
  cur : t.cur = s.cur
  regs : t.regs = s.regs
  plat : t.plat = s.plat
  sums : ∀ cl, (t.cluster cl).sum = (s.cluster cl).sum
  owner : (t.core c.core).slice.owner ≠ some c.ctx.val
  quiet : s.pois = [] → SameMem s t

theorem freed_frame {s : State} {c : CtxId} (h : (s.ctx c).wait = .none) : Freed s (freed s c) c := by
  have hheld := served_discardOuts (s.setCtx c (Debugger.waitless (s.ctx c))) c
  obtain ⟨hctxs, hcur, hregs, hplat, hclusters, hmem⟩ :=
    releaseSlice_rest ((s.setCtx c (Debugger.waitless (s.ctx c))).discardOuts c) c
  have howner := releaseSlice_owner ((s.setCtx c (Debugger.waitless (s.ctx c))).discardOuts c) c
  rw [freed, Debugger.withdraw_of_no_wait h]
  generalize ((s.setCtx c (Debugger.waitless (s.ctx c))).discardOuts c).releaseSlice c = u
    at hctxs hcur hregs hplat hclusters hmem howner ⊢
  have hcancel := (served_cancelArmed u c).trans (served_orphan _ c)
  generalize (u.cancelArmed c).orphan c = t at hcancel ⊢
  refine ⟨fun d hd => ?_, hcancel.tended.cur.trans hcur, hcancel.tended.regs.trans hregs, hcancel.tended.plat.trans hplat,
    fun cl => (hcancel.tended.sums cl).trans ?_, ?_, fun hclean => ?_⟩
  · rw [hcancel.tended.ctx, State.ctx, hctxs]
    exact ctx_setCtx_other s _ hd
  · rw [State.cluster, hclusters]
    rfl
  · rw [hcancel.tended.slices]
    exact howner
  · obtain ⟨hm, hp⟩ := hmem
    obtain ⟨hm', hp'⟩ := hcancel.quiet (hp.trans hclean)
    exact ⟨hm'.trans hm, hp'.trans hp⟩

/-! ### A task's end whole -/

/-- What the end of the task of a slot that waits for nothing leaves. -/
structure Ended (s t : State) (c : CtxId) (tk : Task) : Prop where
  task : (t.ctx c).task = none
  frame : (t.ctx c).frame = none
  others : ∀ d, d ≠ c → t.ctx d = s.ctx d
  cur : t.cur = s.cur
  owner : (t.core c.core).slice.owner ≠ some c.ctx.val
  sum : (t.cluster c.core.cluster).sum = (s.cluster c.core.cluster).sum - tk.msg.cost
  live : smem tk.msg.cat s.plat.faultHandlers = false → t.liveTasks tk.msg.region = s.liveTasks tk.msg.region - 1
  byte : s.pois = [] → ∀ a, a < s.regLoc tk.msg.region 14 ∨ s.regLoc tk.msg.region 14 + 8 ≤ a → t.byte a = s.byte a
  dispatch : .ev (.dispatch c.core.cluster) ∈ t.agenda

theorem byte_congr {s t : State} (h : t.mem = s.mem) (a : Nat) : t.byte a = s.byte a := by rw [State.byte, h, State.byte]

theorem endTask_ended {s : State} {c : CtxId} {tk : Task} (htask : (s.ctx c).task = some tk) (hwait : (s.ctx c).wait = .none) :
    Ended s (s.endTask c) c tk := by
  have hfree := freed_frame hwait
  rw [endTask_eq htask]
  generalize freed s c = u at hfree ⊢
  obtain ⟨hcur, hctxs, hcores⟩ := returned_rest u c.core.cluster tk
  obtain ⟨hnone, hframe, hothers, hpost⟩ := emptied_effect (returned u c.core.cluster tk) c
  obtain ⟨hcur', hregs', hmem', hcores', hsum'⟩ := emptied_rest (returned u c.core.cluster tk) c
  refine ⟨hnone, hframe, fun d hd => ?_, hcur'.trans (hcur.trans hfree.cur), ?_, ?_, fun hplain => ?_, fun hclean a ha => ?_,
    hpost⟩
  · rw [hothers d hd, State.ctx, hctxs]
    exact hfree.others d hd
  · rw [State.core, hcores', hcores]
    exact hfree.owner
  · rw [hsum', sum_returned, hfree.sums]
  · have hdown : (returned u c.core.cluster tk).liveTasks tk.msg.region = u.liveTasks tk.msg.region - 1 :=
      liveTasks_uncounted (s := u.unpress c.core.cluster tk.msg.cost) (by rw [← hplain, ← hfree.plat]; rfl)
    have hu : u.liveTasks tk.msg.region = s.liveTasks tk.msg.region := by
      simp only [State.liveTasks, State.regOwn, hfree.regs]
    rw [← hu, ← hdown]
    simp only [State.liveTasks, State.regOwn, hregs']
  · have hloc : u.regLoc tk.msg.region 14 = s.regLoc tk.msg.region 14 := by simp only [State.regLoc, hfree.plat]
    rw [byte_congr hmem'.1, byte_returned u c.core.cluster tk (hloc ▸ ha), byte_congr (hfree.quiet hclean).1]

/-! ### EXIT (R60, R183) -/

theorem exec_exit_handler {s : State} (h : ¬ s.InSlot) : exec .exit s = .next (s.raise 0x01 ((encode .exit).setWidth 64)) := by
  have hhandler : s.cur.isHandler = true := by simpa [State.InSlot] using h
  show execExit s = _
  rw [execExit, if_pos hhandler]
  rfl

theorem exec_exit_inline {s : State} (hslot : s.InSlot) (h : (s.my.cwv cwTSTAT).getLsbD 2 = true) : exec .exit s
    = .next ((s.setMy (s.my.setCw cwTSTAT (s.my.cwv cwTSTAT &&& 3))).jump (s.my.cwv cwTINRET)) := by
  have hhandler : ¬ s.cur.isHandler = true := by rw [show s.cur.isHandler = false from hslot]; decide
  show execExit s = _
  rw [execExit, if_neg hhandler]
  exact congrArg Host.Outcome.next (if_pos h)

theorem exec_exit_task {s : State} (hslot : s.InSlot) (h : (s.my.cwv cwTSTAT).getLsbD 2 = false) {tk : Task}
    (htask : s.my.task = some tk) : exec .exit s
    = .next (((s.endRecord s.cur tk).count s.cur.core 0x17 (some tk.msg.region) 1).endTask s.cur) := by
  have hhandler : ¬ s.cur.isHandler = true := by rw [show s.cur.isHandler = false from hslot]; decide
  have hinl : ¬ bit (s.my.cwv cwTSTAT) 2 = true := by rw [show bit (s.my.cwv cwTSTAT) 2 = false from h]; decide
  show execExit s = _
  rw [execExit, if_neg hhandler, if_neg hinl, htask]

theorem endRecord_off {s : State} {c : CtxId} {t : Task} (h : (s.regEff t.msg.region 20).getLsbD 63 = false) :
    s.endRecord c t = s := by
  have hoff : bit (s.regEff t.msg.region 20) 63 = false := h
  rw [State.endRecord, State.annals]
  simp only [hoff, Bool.false_and, Bool.false_eq_true, if_false]

theorem exit_inline {s : State} (hslot : s.InSlot) (h : (s.my.cwv cwTSTAT).getLsbD 2 = true) : ∃ t, exec .exit s = .next t
    ∧ t.my.pc = s.my.cwv cwTINRET ∧ t.my.cwv cwTSTAT = (s.my.cwv cwTSTAT &&& 3) ∧ OnlyMine s t
    ∧ Keeps [] [] [] (leftWords ++ [cwTSTAT]) s.my t.my := by
  have hleft := Registers.keeps_jump (s.setMy (s.my.setCw cwTSTAT (s.my.cwv cwTSTAT &&& 3))) (s.my.cwv cwTINRET)
  rw [my_setMy] at hleft
  refine ⟨_, exec_exit_inline hslot h, ?_, ?_, (onlyMine_setMy s _).trans (onlyMine_setMy _ _), ?_⟩
  · rw [Registers.my_jump]
  · rw [hleft.cw cwTSTAT (by decide), cwv_setCw]
  · exact ((keeps_setCw s.my cwTSTAT _).mono (by simp) (by simp) (by simp) (List.subset_append_right _ _)).trans
      (hleft.mono (by simp) (by simp) (by simp) (List.subset_append_left _ _))

theorem exit_ends {s : State} {tk : Task} (hslot : s.InSlot) (htask : s.my.task = some tk) (hwait : s.my.wait = .none)
    (h : (s.my.cwv cwTSTAT).getLsbD 2 = false) (hoff : (s.regEff tk.msg.region 20).getLsbD 63 = false) :
    ∃ t, exec .exit s = .next t ∧ Ended (s.count s.cur.core 0x17 (some tk.msg.region) 1) t s.cur tk := by
  refine ⟨_, exec_exit_task hslot h htask, ?_⟩
  rw [endRecord_off hoff]
  have hcount := (served_count s s.cur.core 0x17 (some tk.msg.region) 1).tended
  exact endTask_ended ((congrArg Ctx.task (hcount.ctx s.cur)).trans htask) ((congrArg Ctx.wait (hcount.ctx s.cur)).trans hwait)

/-! ### TFATAL (R65, R74) -/

theorem endTask_empties {s : State} {c : CtxId} {t : Task} (h : (s.ctx c).task = some t) :
    ((s.endTask c).ctx c).task = none ∧ .ev (.dispatch c.core.cluster) ∈ (s.endTask c).agenda := by
  rw [endTask_eq h]
  obtain ⟨hnone, _, _, hpost⟩ := emptied_effect (returned (freed s c) c.core.cluster t) c
  exact ⟨hnone, hpost⟩

theorem ctxs_hwWrite (s : State) (pa : Nat) (bs : List Byte) (bad : Bool) (r : Nat) : (s.hwWrite pa bs bad r).ctxs = s.ctxs := by
  rw [State.hwWrite]
  split
  · rfl
  · split
    · exact (tended_homeAccess s _ _ r true none).ctxs
    · rfl

theorem ctxs_faultRecord (s : State) (r typ a b c : Nat) (body : List Byte) :
    (s.faultRecord r typ a b c body).1.ctxs = s.ctxs := by
  simp only [State.faultRecord]
  split
  · rfl
  · exact ctxs_hwWrite s _ _ _ r

theorem ctxs_spawnHandler (s : State) (r : Nat) (cl : ClusterId) (a b : Word) : (s.spawnHandler r cl a b).ctxs = s.ctxs := by
  simp only [State.spawnHandler]
  split <;> rfl

theorem ctxs_recordFault (s : State) (r typ a b c : Nat) (body : List Byte) (cl : ClusterId) (w : Word) :
    (s.recordFault r typ a b c body cl w).ctxs = s.ctxs := by
  have hrecord := ctxs_faultRecord s r typ a b c body
  rw [State.recordFault]
  split
  · rename_i h
    rw [h] at hrecord
    exact (ctxs_spawnHandler _ _ _ _ _).trans hrecord
  · rename_i h
    rw [h] at hrecord
    exact (ctxs_spawnHandler _ _ _ _ _).trans hrecord

theorem ctxs_taskRecord (s : State) (m : TaskMsg) (typ a b c : Nat) (cl : ClusterId) :
    (s.taskRecord m typ a b c cl).ctxs = s.ctxs := by
  rw [State.taskRecord]
  split
  · split
    · exact (Debugger.notice_rest s _ _).1
    · exact ctxs_recordFault s _ _ _ _ _ _ _ _
  · exact ctxs_recordFault s _ _ _ _ _ _ _ _

theorem fatal_empties {s : State} {c : CtxId} (hslot : c.isHandler = false) (htask : (s.ctx c).task ≠ none) (tcause : Nat)
    (tval tpc : Word) : ((s.fatal c tcause tval tpc).ctx c).task = none
      ∧ .ev (.dispatch c.core.cluster) ∈ (s.fatal c tcause tval tpc).agenda := by
  obtain ⟨t, ht⟩ := Option.ne_none_iff_exists'.mp htask
  rw [State.fatal, if_neg (by rw [hslot]; decide), ht]
  refine endTask_empties (t := t) ?_
  have hfault := tended_annals (s.taskRecord (TaskMsg.asSpawned t.msg) 1 tcause tval.toNat tpc.toNat c.core.cluster)
    c.core.die t.msg.region 4 [t.msg.cat, tcause, tval.toNat, tpc.toNat, tval.toNat / 2 ^ 63 + 2 * (tpc.toNat / 2 ^ 63)]
  rw [State.annFault, hfault.ctx, State.ctx, ctxs_taskRecord]
  exact ht

/-! ### TCANCEL (R185) -/

/-- Some entries by rising catalogue number are the same entries. -/
theorem byCat_perm (l : List QEntry) : (byCat l).Perm l := by
  induction l with
  | nil => exact .nil
  | cons e l ih =>
    have hsplit : byCat (e :: l) = (byCat l).takeWhile (fun f => decide (f.msg.cat < e.msg.cat))
        ++ e :: (byCat l).dropWhile (fun f => decide (f.msg.cat < e.msg.cat)) := rfl
    rw [hsplit]
    refine List.perm_middle.trans (.cons e ?_)
    rw [List.takeWhile_append_dropWhile]
    exact ih

/-- Taking some entries out one by one, in any order, leaves the others. -/
theorem erase_hits {q es : List QEntry} {hit : QEntry → Bool} (h : es.Perm (q.filter hit)) :
    es.foldl (fun l e => l.erase e) q = q.filter (fun e => !hit e) := by
  have hdiff : es.foldl (fun l e => l.erase e) q = q.diff es := (List.diff_eq_foldl q es).symm
  rw [hdiff, h.diff_left]
  clear h hdiff
  induction q with
  | nil => exact List.nil_diff _
  | cons e q ih =>
    cases hit' : hit e with
    | true => rw [List.filter_cons_of_pos hit', List.diff_cons, List.erase_cons_head, ih, List.filter_cons_of_neg (by simp [hit'])]
    | false =>
      have hnot : e ∉ q.filter hit := fun hmem => by simp [hit'] at hmem
      rw [List.filter_cons_of_neg (by simp [hit']), List.cons_diff_of_not_mem hnot, ih, List.filter_cons_of_pos (by simp [hit'])]

/-- The entries that a TCANCEL names in a cluster (R185). -/
def named (s : State) (pa cat region : Nat) (e : QEntry) : Bool :=
  e.msg.trig == pa && (cat == 0 || e.msg.cat == cat) && s.inSubtree region e.msg.region

/-- One entry leaves the queue of a cluster, and the counts of its region. -/
def cancelOne (cl : ClusterId) (s : State) (e : QEntry) : State :=
  ((s.unqueue cl e).armDown e.msg.region).liveDown e.msg.region

theorem refill_of_no_ring {s : State} {cl : ClusterId} (h : (s.cluster cl).rings = []) : s.refill cl = s := by
  rw [State.refill, State.ringHeads, h]
  exact ite_self s

theorem cancelOne_effect {s : State} {cl : ClusterId} (h : (s.cluster cl).rings = []) (e : QEntry) :
    ((cancelOne cl s e).cluster cl).queue = (s.cluster cl).queue.erase e ∧ ((cancelOne cl s e).cluster cl).rings = []
    ∧ (cancelOne cl s e).ctxs = s.ctxs ∧ (cancelOne cl s e).cur = s.cur := by
  have hunqueue : s.unqueue cl e = s.setCluster cl { s.cluster cl with queue := (s.cluster cl).queue.erase e } :=
    refill_of_no_ring (by rw [cluster_setCluster_same]; exact h)
  rw [cancelOne, hunqueue]
  generalize hu : s.setCluster cl { s.cluster cl with queue := (s.cluster cl).queue.erase e } = u
  have hcluster : u.cluster cl = { s.cluster cl with queue := (s.cluster cl).queue.erase e } := by
    rw [← hu, cluster_setCluster_same]
  obtain ⟨lines, hlines⟩ := cluster_setLive u e.msg.region (u.liveTasks e.msg.region) (u.liveArmed e.msg.region - 1) cl
  have harm : (u.armDown e.msg.region).cluster cl = { u.cluster cl with lines := lines } := hlines
  obtain ⟨lines', hlines'⟩ := cluster_setLive (u.armDown e.msg.region) e.msg.region
    ((u.armDown e.msg.region).liveTasks e.msg.region - 1) ((u.armDown e.msg.region).liveArmed e.msg.region) cl
  have hlive : ((u.armDown e.msg.region).liveDown e.msg.region).cluster cl
      = { (u.armDown e.msg.region).cluster cl with lines := lines' } := hlines'
  rw [hlive, harm, hcluster]
  refine ⟨rfl, h, ?_, ?_⟩ <;>
  · rw [← hu]
    rfl

theorem cancel_fold {cl : ClusterId} (es : List QEntry) {s : State} (h : (s.cluster cl).rings = []) :
    ((es.foldl (cancelOne cl) s).cluster cl).queue = es.foldl (fun l e => l.erase e) (s.cluster cl).queue
    ∧ (es.foldl (cancelOne cl) s).ctxs = s.ctxs ∧ (es.foldl (cancelOne cl) s).cur = s.cur := by
  induction es generalizing s with
  | nil => exact ⟨rfl, rfl, rfl⟩
  | cons e es ih =>
    obtain ⟨hqueue, hrings, hctxs, hcur⟩ := cancelOne_effect h e
    obtain ⟨hqueue', hctxs', hcur'⟩ := ih hrings
    simp only [List.foldl_cons]
    exact ⟨hqueue'.trans (congrArg (es.foldl (fun l e => l.erase e)) hqueue), hctxs'.trans hctxs, hcur'.trans hcur⟩

/-- The entries that a TCANCEL takes out, in its order. -/
def cancelled (s : State) (pa cat region : Nat) : List QEntry :=
  byCat ((s.cluster (paCluster pa)).armed.filter (named s pa cat region))

theorem cancelled_perm (s : State) (pa cat region : Nat) : (cancelled s pa cat region).Perm
    ((s.cluster (paCluster pa)).queue.filter (fun e => e.msg.typ == 1 && named s pa cat region e)) := by
  refine (byCat_perm _).trans (.of_eq ?_)
  rw [Cluster.armed, List.filter_filter]
  exact List.filter_congr (fun e _ => Bool.and_comm _ _)

theorem cancelArms_eq (s : State) (pa cat region : Nat) : s.cancelArms pa cat region
    = (if cancelled s pa cat region = [] then (cancelled s pa cat region).foldl (cancelOne (paCluster pa)) s
        else ((cancelled s pa cat region).foldl (cancelOne (paCluster pa)) s).post (.dispatch (paCluster pa)),
      (cancelled s pa cat region).length) := rfl

theorem cancelArms_effect {s : State} {pa : Nat} (hrings : (s.cluster (paCluster pa)).rings = []) (cat region : Nat) :
    ((s.cancelArms pa cat region).1.cluster (paCluster pa)).queue
      = (s.cluster (paCluster pa)).queue.filter (fun e => !(e.msg.typ == 1 && named s pa cat region e))
    ∧ (s.cancelArms pa cat region).2
      = ((s.cluster (paCluster pa)).queue.filter (fun e => e.msg.typ == 1 && named s pa cat region e)).length
    ∧ (s.cancelArms pa cat region).1.ctxs = s.ctxs ∧ (s.cancelArms pa cat region).1.cur = s.cur := by
  have hperm := cancelled_perm s pa cat region
  obtain ⟨hqueue, hctxs, hcur⟩ := cancel_fold (cancelled s pa cat region) hrings
  rw [erase_hits hperm] at hqueue
  rw [cancelArms_eq]
  generalize (cancelled s pa cat region).foldl (cancelOne (paCluster pa)) s = u at hqueue hctxs hcur ⊢
  refine ⟨?_, hperm.length_eq, ?_, ?_⟩ <;> dsimp only <;> split
  · exact hqueue
  · exact hqueue
  · exact hctxs
  · exact hctxs
  · exact hcur
  · exact hcur

/-- What TCANCEL does of an address that is a counter's (R185; log entry 15). -/
def tcancelEnd (s : State) (d : Reg) (cat pa : Nat) : State :=
  if paDev pa = s.dev then
    (s.cancelArms pa cat (s.regionOf s.cur)).1.done d (word (s.cancelArms pa cat (s.regionOf s.cur)).2)
  else
    (((s.tell d pa none).fabric (.request s.dev (paDev pa) ⟨s.cur, (s.tell d pa none).nextId, pa, .cancel cat,
      s.colourOf s.cur, s.regionOf s.cur, s.catOf s.cur⟩))).after (s.ftime s.cur.core.cluster)
      (.replyTimeout s.cur (s.tell d pa none).nextId)

theorem exec_tcancel_task {s : State} (h : s.sup s.cur = false) (d a b : Reg) :
    exec (.tcancel d a b) s = .next (s.raise 0x02 ((encode (.tcancel d a b)).setWidth 64)) := by
  show Host.Outcome.next (s.supOnly (.tcancel d a b) _) = _
  rw [State.supOnly, h]
  rfl

theorem exec_tcancel {s : State} (hsup : s.sup s.cur = true) {a b : Reg} (hclean : s.Clean [a, b] []) (d : Reg) :
    exec (.tcancel d a b) s = .next (match s.counterPa (s.g b) with
      | none => s.raise 0x05 (s.g b)
      | some pa => tcancelEnd s d (s.g a).toNat pa) := by
  show execTcancel d a b s = _
  rw [execTcancel, supOnly_sup hsup, guardP_clean hclean]
  dsimp only
  cases s.counterPa (s.g b) with
  | none => rfl
  | some pa => rfl

theorem tcancel_here {s : State} {pa : Nat} (hdev : paDev pa = s.dev) (hrings : (s.cluster (paCluster pa)).rings = [])
    (d : Reg) (cat : Nat) :
    ((tcancelEnd s d cat pa).cluster (paCluster pa)).queue = (s.cluster (paCluster pa)).queue.filter
      (fun e => !(e.msg.typ == 1 && named s pa cat (s.regionOf s.cur) e))
    ∧ (d ≠ 0 → (tcancelEnd s d cat pa).g d = BitVec.ofNat 64 ((s.cluster (paCluster pa)).queue.filter
        (fun e => e.msg.typ == 1 && named s pa cat (s.regionOf s.cur) e)).length)
    ∧ Keeps [d] [] [] leftWords s.my (tcancelEnd s d cat pa).my ∧ Past s.my (tcancelEnd s d cat pa).my := by
  obtain ⟨hqueue, hcount, hctxs, hcur⟩ := cancelArms_effect hrings cat (s.regionOf s.cur)
  rw [tcancelEnd, if_pos hdev]
  generalize s.cancelArms pa cat (s.regionOf s.cur) = u at hqueue hcount hctxs hcur ⊢
  obtain ⟨_, hkeeps, hpast⟩ := regFrame_done u.1 d (word u.2)
  have hmy : u.1.my = s.my := by simp only [State.my, State.ctx, hctxs, hcur]
  rw [hmy] at hkeeps hpast
  refine ⟨hqueue, fun hd => ?_, hkeeps, hpast⟩
  rw [g_done, if_neg hd, hcount]
  rfl

theorem tcancel_far {s : State} {pa : Nat} (hdev : paDev pa ≠ s.dev) (d : Reg) (cat : Nat) :
    SameMem s (tcancelEnd s d cat pa)
    ∧ (tcancelEnd s d cat pa).my = { s.my with wait := .told (tcancelEnd s d cat pa).nextId d none }
    ∧ (tcancelEnd s d cat pa).plat.fabric = s.plat.fabric ++ [.request s.dev (paDev pa) ⟨s.cur,
        (tcancelEnd s d cat pa).nextId, pa, .cancel cat, s.colourOf s.cur, s.regionOf s.cur, s.catOf s.cur⟩] := by
  rw [tcancelEnd, if_neg hdev]
  exact ⟨⟨rfl, rfl⟩, my_setMy _ _, rfl⟩

theorem named_eq (s : State) (a : Word) (pa region : Nat) (e : QEntry) : named s pa a.toNat region e
    = (e.msg.trig == pa && (a == 0 || e.msg.cat == a.toNat) && s.inSubtree region e.msg.region) := by
  have hzero : (a.toNat == 0) = (a == 0) := by
    rw [Bool.eq_iff_iff, beq_iff_eq, beq_iff_eq, ← BitVec.toNat_inj]
    rfl
  rw [named, hzero]

theorem taskEnds : Claim.TaskEnds := by
  refine ⟨fun s tk hslot htask hwait => ⟨exit_inline hslot, fun hinl hoff hplain => ?_⟩, fun s => exec_exit_handler,
    fun s c hev hslot htask => ?_, fun s d => ⟨rfl, rfl⟩, fun s d a b => ⟨fun htask => exec_tcancel_task htask d a b,
      fun hsup hclean => ⟨fun hnone => ?_, fun pa hpa hdev hrings => ?_, fun pa hpa hdev => ?_⟩⟩⟩
  · obtain ⟨t, hexec, hend⟩ := exit_ends hslot htask hwait hinl hoff
    have hcount := served_count s s.cur.core 0x17 (some tk.msg.region) 1
    have hmy : t.my = t.ctx s.cur := congrArg t.ctx hend.cur
    have hslice : t.slice = (t.core s.cur.core).slice := congrArg (fun c : CtxId => (t.core c.core).slice) hend.cur
    refine ⟨t, hexec, ?_, ?_, ?_, ?_, ?_, fun hclean a ha => ?_, hend.dispatch, fun c hc => ?_⟩
    · rw [hmy, hend.task]
    · rw [hmy, hend.frame]
    · rw [hslice]
      exact hend.owner
    · rw [hend.sum, hcount.tended.sums]
      rfl
    · rw [hend.live (by rw [hcount.tended.plat]; exact hplain)]
      rfl
    · exact hend.byte hclean a ha
    · exact hend.others c hc
  · refine ⟨_, ?_, fatal_empties hslot htask ((s.ctx c).cwv cwTCAUSE).toNat ((s.ctx c).cwv cwTVAL) ((s.ctx c).cwv cwTPC)⟩
    show execTfatal s = _
    simp only [execTfatal, hev]
  · rw [exec_tcancel hsup hclean, hnone]
  · have hexec := exec_tcancel hsup hclean d
    obtain ⟨hqueue, hcount, hkeeps, hpast⟩ := tcancel_here hdev hrings d (s.g a).toNat
    rw [hpa] at hexec
    simp only [named_eq, ← Bool.and_assoc] at hqueue hcount
    exact ⟨_, hexec, hqueue, hcount, hkeeps, hpast⟩
  · have hexec := exec_tcancel hsup hclean d
    rw [hpa] at hexec
    exact ⟨_, hexec, tcancel_far hdev d _⟩

end Sys2Proof.Proofs.TaskEnds

/-! SUPPORT. The Annals record of a task's end, on quiet memory (R183, R372 to R374). -/

namespace Sys2Proof.Proofs.Annals

open Machine Contexts Frames Bookkeeping TaskEnds

/-! ### Quiet memory -/

/-- Nothing is poisoned, and no stash line holds a copy: what a home access does then touches no byte. -/
structure Calm (s : State) : Prop where
  pois : s.pois = []
  stash : ∀ k, (s.core k).stash = []

theorem tget_of_all {α : Type} {d : α} {p : α → Prop} {t : Table α} (hd : p d) (h : ∀ e ∈ t, p e.2) (n : Nat) :
    p (tget d t n) := by
  induction t with
  | nil => exact hd
  | cons e t ih =>
    rw [tget]
    split
    · exact h e (List.mem_cons_self ..)
    · exact ih (fun f hf => h f (List.mem_cons_of_mem _ hf))

theorem calm_of_quiet {s : State} (h : s.Quiet) : Calm s :=
  ⟨h.pois, fun k => tget_of_all (p := fun x : Core => x.stash = []) rfl h.stash k.key⟩

theorem Calm.served {s t : State} (h : Calm s) (hs : Served s t) : Calm t :=
  ⟨(hs.quiet h.pois).2.trans h.pois, fun k => (hs.stash h.pois k).trans (h.stash k)⟩

theorem recall_calm {s : State} (h : Calm s) (loc : Nat) (write : Bool) (except : Option CoreId) :
    s.recall loc write except = s := by
  refine List.foldl_fixed' (fun e => ?_) _
  dsimp only
  rw [h.stash]
  exact ite_self s

theorem served_homeAccess {s : State} (h : Calm s) (loc n r : Nat) (write : Bool) (k : Option CoreId) :
    Served s (s.homeAccess loc n r write k) := by
  rw [State.homeAccess]
  generalize linesAt loc n = l
  induction l generalizing s with
  | nil => exact .refl s
  | cons e l ih =>
    have hone : Served s (((s.recall (64 * e) write none).fillNote loc n r write k e).touch (64 * e) r write k) := by
      rw [recall_calm h]
      exact (served_fillNote s loc n r write k e).trans (served_touch _ _ _ _ _)
    exact hone.trans (ih (h.served hone))

/-! ### Doublewords -/

theorem bytes_eq {s t : State} {a n : Nat} (h : ∀ i, i < n → t.byte (a + i) = s.byte (a + i)) : t.bytes a n = s.bytes a n := by
  apply List.ext_getElem
  · rw [bytes_length, bytes_length]
  · intro i hi _
    rw [bytes_length] at hi
    rw [bytes_get _ _ _ hi, bytes_get _ _ _ hi, h i hi]

theorem dword_eq {s t : State} {a : Nat} (h : ∀ i, i < 8 → t.byte (a + i) = s.byte (a + i)) : t.dword a = s.dword a := by
  rw [State.dword, State.readLE, bytes_eq h, State.dword, State.readLE]

theorem word_mod (x : Nat) : word (x % 2 ^ 64) = word x := by
  apply BitVec.eq_of_toNat_eq
  rw [word, word, BitVec.toNat_ofNat, BitVec.toNat_ofNat, Nat.mod_mod]

theorem dword_pokeD (s : State) (a x : Nat) : (s.pokeD a x).dword a = word x := by
  rw [State.dword, State.pokeD, readLE_poke]
  exact word_mod x

theorem poisAfter_clean (a n : Nat) : poisAfter [] a n false = [] := by
  refine List.foldl_fixed' (fun w => ?_) _
  rw [if_neg Bool.false_ne_true]
  exact ite_self _

/-- A doubleword written at its home slice: that doubleword, and no other byte. -/
theorem homeD_calm {s : State} (h : Calm s) (loc r x : Nat) : Calm (s.homeD loc r x)
    ∧ (s.homeD loc r x).dword loc = word x
    ∧ ∀ c, c < loc ∨ loc + 8 ≤ c → (s.homeD loc r x).byte c = s.byte c := by
  have hs := served_homeAccess h loc 8 r true none
  have hcalm := h.served hs
  refine ⟨⟨?_, hcalm.stash⟩, dword_pokeD _ loc x, fun c hc => ?_⟩
  · show poisAfter (s.homeAccess loc 8 r true none).pois loc _ false = []
    rw [hcalm.pois, poisAfter_clean]
  · refine (byte_poke_outside _ loc _ false ?_).trans (byte_congr (hs.quiet h.pois).1 c)
    rwa [leBytes_length]

/-! ### Ring words (R373, R374) -/

/-- Ring words written from index w on stand there, and no other byte is touched. -/
theorem annWrite_calm (r a : Nat) (l : List Nat) {s : State} (h : Calm s) (w : Nat) : Calm (annWrite s r a w l)
    ∧ (∀ c, c < a + 64 + 8 * w ∨ a + 64 + 8 * (w + l.length) ≤ c → (annWrite s r a w l).byte c = s.byte c)
    ∧ ∀ i (hi : i < l.length), (annWrite s r a w l).dword (a + 64 + 8 * (w + i)) = word l[i] := by
  induction l generalizing s w with
  | nil => exact ⟨h, fun _ _ => rfl, fun i hi => absurd hi (Nat.not_lt_zero i)⟩
  | cons x l ih =>
    obtain ⟨hcalm, hfirst, hbyte⟩ := homeD_calm h (a + 64 + 8 * w) r x
    obtain ⟨hcalm', hbyte', hwords⟩ := ih hcalm (w + 1)
    have hlen : (x :: l).length = l.length + 1 := rfl
    refine ⟨hcalm', fun c hc => ?_, fun i hi => ?_⟩
    · rw [hlen] at hc
      exact (hbyte' c (by omega)).trans (hbyte c (by omega))
    · cases i with
      | zero =>
        refine Eq.trans (dword_eq fun j hj => ?_) hfirst
        exact hbyte' _ (.inl (by omega))
      | succ i =>
        have hnext := hwords i (by simpa using hi)
        rw [show w + 1 + i = w + (i + 1) by omega] at hnext
        exact hnext

/-- An append to a ring that is empty with no loss, away from its end: the record at WR, and WR past it. -/
theorem annAppend_empty {s u : State} {r a n typ wr : Nat} {data : List Nat} (hu : s.homeAccess a 24 r false none = u)
    (hwr : (u.dword a).toNat = wr) (hrd : (u.dword (a + 8)).toNat = wr) (hlost : (u.dword (a + 16)).toNat = 0)
    (hroom : wr + (data.length + 1) < n) : annAppend s r a n typ data
      = (annWrite u r a wr (annRec u typ data)).homeD a r (wr + (data.length + 1)) := by
  have hlt : wr % n = wr := Nat.mod_eq_of_lt (by omega)
  have hfree : n - 1 - (wr + n - wr) % n = n - 1 := by rw [Nat.add_sub_cancel_left, Nat.mod_self, Nat.sub_zero]
  have hlost0 : ¬ 0 > 0 := by omega
  have hpad : ¬ n - wr < data.length + 1 := by omega
  have hfull : ¬ n - 1 < 0 + 0 + (data.length + 1) := by omega
  simp only [annAppend, hu, hwr, hrd, hlost, hlt, hfree, hlost0, hpad, hfull, false_and, if_false, Nat.mod_eq_of_lt hroom]

/-- What such an append leaves: WR, the record, and every byte elsewhere. -/
theorem annAppend_calm {s : State} (h : Calm s) {r a n typ wr : Nat} {data : List Nat} (hwr : (s.dword a).toNat = wr)
    (hrd : s.dword (a + 8) = s.dword a) (hlost : s.dword (a + 16) = 0) (hroom : wr + (data.length + 1) < n) :
    Calm (annAppend s r a n typ data) ∧ (annAppend s r a n typ data).dword a = word (wr + (data.length + 1))
    ∧ ∀ i (hi : i < (annRec s typ data).length),
      (annAppend s r a n typ data).dword (a + 64 + 8 * (wr + i)) = word (annRec s typ data)[i] := by
  have hs := served_homeAccess h a 24 r false none
  generalize hu : s.homeAccess a 24 r false none = u at hs
  have hdword : ∀ b, u.dword b = s.dword b := fun b => dword_eq (fun i _ => byte_congr (hs.quiet h.pois).1 _)
  have hrec : annRec u typ data = annRec s typ data := by rw [annRec, annHdr, hs.tended.time, annRec, annHdr]
  rw [annAppend_empty hu (by rw [hdword, hwr]) (by rw [hdword, hrd, hwr]) (by rw [hdword, hlost]; rfl) hroom, hrec]
  obtain ⟨hcalm, _, hwords⟩ := annWrite_calm r a (annRec s typ data) (h.served hs) wr
  obtain ⟨hcalm', hfirst, hbyte⟩ := homeD_calm hcalm a r (wr + (data.length + 1))
  exact ⟨hcalm', hfirst, fun i hi => (dword_eq fun j _ => hbyte _ (.inr (by omega))).trans (hwords i hi)⟩

/-- The Annals of a region whose ANNL enables a record's class and whose ring is backed (R372). -/
theorem annals_enabled {s : State} {d : Fin 4} {r typ : Nat} (hon : (s.regEff r 20).getLsbD 63 = true)
    (hclass : (s.regEff r 20).getLsbD (56 + annClass typ) = true)
    (hback : s.areaBacked (dramLoc d ((s.regEff r 20).toNat % 2 ^ 20 * 65536))
      (64 + 8 * 2 ^ ((s.regEff r 20).toNat / 2 ^ 52 % 16 + 9)) = true) (data : List Nat) :
    s.annals d r typ data = annAppend s r (dramLoc d ((s.regEff r 20).toNat % 2 ^ 20 * 65536))
      (2 ^ ((s.regEff r 20).toNat / 2 ^ 52 % 16 + 9)) typ data := by
  have hbase : bits (s.regEff r 20) 19 0 = (s.regEff r 20).toNat % 2 ^ 20 := by
    rw [bits, bitsN, pow_zero, Nat.div_one]
  have hsize : bits (s.regEff r 20) 55 52 = (s.regEff r 20).toNat / 2 ^ 52 % 16 := rfl
  simp only [State.annals, bit, hbase, hsize, hon, hclass, hback, Bool.and_self, if_true]

/-! ### The record of a task's end -/

theorem annRec_lt (s : State) {data : List Nat} (hlen : data.length ≤ 4) :
    ∀ x ∈ annRec s 2 data, x < 2 ^ 64 := by
  intro x hx
  rw [annRec, List.mem_cons] at hx
  rcases hx with rfl | hx
  · have htime : s.time % 2 ^ 52 < 2 ^ 52 := Nat.mod_lt _ (by decide)
    rw [annHdr]
    omega
  · obtain ⟨y, _, rfl⟩ := List.mem_map.mp hx
    exact lt_of_lt_of_le (Nat.mod_lt _ (by decide)) (by decide)

/-- The words of a record as they stand in a ring. -/
theorem record_words {t : State} {b : Nat} {l : List Nat} (hlt : ∀ x ∈ l, x < 2 ^ 64)
    (h : ∀ i (hi : i < l.length), t.dword (b + 8 * i) = word l[i]) :
    (List.range l.length).map (fun k => (t.dword (b + 8 * k)).toNat) = l := by
  apply List.ext_getElem
  · simp
  · intro i hi hi'
    rw [List.getElem_map, List.getElem_range, h i hi']
    exact (BitVec.toNat_ofNat _ _).trans (Nat.mod_eq_of_lt (hlt _ (List.getElem_mem hi')))

theorem annalsAtExit : Claim.AnnalsAtExit := by
  intro s tk hslot hquiet htask hwait hinl r w a n wr hon hclass hback hroom hrd hlost hapart
  obtain ⟨data, hdata⟩ : ∃ data, data = [tk.msg.cat, (s.my.cwv cwTENQ).toNat, (s.my.cwv cwTDISP).toNat, s.my.tacct] :=
    ⟨_, rfl⟩
  have hlen : data.length = 4 := by rw [hdata]; rfl
  have hrecord : s.endRecord s.cur tk = annAppend s r a n 2 data := by
    rw [hdata]
    exact annals_enabled (typ := 2) hon hclass hback _
  obtain ⟨hcalm, hfirst, hwords⟩ := annAppend_calm (calm_of_quiet hquiet) (r := r) (typ := 2) (data := data) rfl hrd hlost
    (by rw [hlen]; exact hroom)
  have htended : Tended s (annAppend s r a n 2 data) := tended_annAppend s r a n 2 data
  refine ⟨_, exec_exit_task hslot hinl htask, ?_⟩
  rw [hrecord]
  generalize annAppend s r a n 2 data = u at hcalm hfirst hwords htended ⊢
  have hcount := served_count u s.cur.core 0x17 (some tk.msg.region) 1
  have hall := htended.trans hcount.tended
  have hend := endTask_ended ((congrArg Ctx.task (hall.ctx s.cur)).trans htask) ((congrArg Ctx.wait (hall.ctx s.cur)).trans hwait)
  have hkept : ∀ k, k + 8 ≤ 64 + 8 * n → ((u.count s.cur.core 0x17 (some tk.msg.region) 1).endTask s.cur).dword (a + k)
      = u.dword (a + k) := fun k hk => dword_eq fun i hi => by
    have hloc : (u.count s.cur.core 0x17 (some tk.msg.region) 1).regLoc tk.msg.region 14 = s.regLoc r 14 := hall.regLoc _ _
    have hout := hapart (k + i) (by omega)
    rw [hend.byte (hcalm.served hcount).pois (a + k + i) (by rw [hloc]; omega)]
    exact byte_congr (hcount.quiet hcalm.pois).1 _
  generalize (u.count s.cur.core 0x17 (some tk.msg.region) 1).endTask s.cur = t at hkept ⊢
  have hrec : (annRec s 2 data).length = 5 := by rw [annRec, List.length_cons, List.length_map, hlen]
  constructor
  · have hzero := hkept 0 (by omega)
    rw [Nat.add_zero] at hzero
    rw [hzero, hfirst, hlen]
    rfl
  · have hring := record_words (t := t) (b := a + 64 + 8 * wr) (annRec_lt s (data := data) (by omega)) (fun i hi => by
      rw [show a + 64 + 8 * wr + 8 * i = a + (64 + 8 * (wr + i)) by omega, hkept _ (by omega),
        show a + (64 + 8 * (wr + i)) = a + 64 + 8 * (wr + i) by omega]
      exact hwords i hi)
    rw [hrec] at hring
    refine Eq.trans (List.map_congr_left fun k _ => ?_) (hring.trans ?_)
    · rw [show a + 64 + 8 * (wr + k) = a + 64 + 8 * wr + 8 * k by omega]
    · rw [hdata]
      rfl

/-- Settles O48: the tasks' ends, the Annals record of one on quiet memory, and the region blocks. -/
theorem taskEndsAndRegions : Obligations.TaskEndsAndRegions := by
  unfold Obligations.TaskEndsAndRegions
  exact ⟨taskEnds, annalsAtExit, RegionBlocks.regionInstructions⟩

end Sys2Proof.Proofs.Annals

/-! SUPPORT. Lanes of vector registers: what the shared vector forms write and the flags they add (R102, R107, R120, R121). -/

namespace Sys2Proof.Proofs.Lanes

open Machine

/-! ### Lists of lanes -/

theorem upto_zero (n : Nat) : upto 0 n = List.range n := by
  rw [Frames.upto_eq_range', List.range_eq_range']

theorem lanes_eq (w : Nat) (v : VWord) : lanes w v = (List.range (512 / w)).map (laneAt w v) := by
  rw [lanes, upto_zero]
  rfl

theorem actives_eq (w : Nat) (q : Word) : actives w q = (List.range (512 / w)).map (laneOn w q) := by
  rw [actives, upto_zero]
  rfl

@[simp] theorem length_lanes (w : Nat) (v : VWord) : (lanes w v).length = 512 / w := by simp [lanes_eq]

@[simp] theorem length_actives (w : Nat) (q : Word) : (actives w q).length = 512 / w := by simp [actives_eq]

theorem getD_map_range {α : Type} (f : Nat → α) (d : α) {n k : Nat} (h : n < k) : ((List.range k).map f).getD n d = f n := by
  simp [List.getD_eq_getElem?_getD, h]

theorem getD_lanes {w n : Nat} (v : VWord) (d : Nat) (h : n < 512 / w) : (lanes w v).getD n d = laneAt w v n := by
  rw [lanes_eq, getD_map_range _ _ h]

theorem getD_lanes_out {w n : Nat} (v : VWord) (d : Nat) (h : 512 / w ≤ n) : (lanes w v).getD n d = d := by
  simp [List.getD_eq_getElem?_getD, h]

theorem getD_actives {w n : Nat} (q : Word) (d : Bool) (h : n < 512 / w) : (actives w q).getD n d = laneOn w q n := by
  rw [actives_eq, getD_map_range _ _ h]

theorem map_lanes {α : Type} (w : Nat) (v : VWord) (f : Nat → α) :
    (lanes w v).map f = (List.range (512 / w)).map (fun n => f (laneAt w v n)) := by
  rw [lanes_eq, List.map_map]
  rfl

theorem zip_lanes (w : Nat) (u v : VWord) :
    (lanes w u).zip (lanes w v) = (List.range (512 / w)).map (fun n => (laneAt w u n, laneAt w v n)) := by
  rw [lanes_eq, lanes_eq, List.zip_map', List.map_congr_left fun _ _ => rfl]

theorem zipWith_lanes {α : Type} (w : Nat) (u v : VWord) (f : Nat → Nat → α) :
    List.zipWith f (lanes w u) (lanes w v) = (List.range (512 / w)).map (fun n => f (laneAt w u n) (laneAt w v n)) := by
  rw [← List.map_uncurry_zip_eq_zipWith, zip_lanes, List.map_map]
  rfl

/-! ### A register put together from its lanes -/

theorem laneAt_lt (w : Nat) (v : VWord) (n : Nat) : laneAt w v n < 2 ^ w := Nat.mod_lt _ (Nat.two_pow_pos w)

@[simp] theorem laneAt_mod (w : Nat) (v : VWord) (n : Nat) : laneAt w v n % 2 ^ w = laneAt w v n :=
  Nat.mod_eq_of_lt (laneAt_lt w v n)

/-- The digits of a number put together in base 2^w. -/
theorem digit_foldr (w : Nat) (l : List Nat) (n : Nat) :
    l.foldr (fun x a => x % 2 ^ w + 2 ^ w * a) 0 / 2 ^ (w * n) % 2 ^ w = l.getD n 0 % 2 ^ w := by
  induction l generalizing n with
  | nil => simp
  | cons x l ih =>
    have hx : x % 2 ^ w < 2 ^ w := Nat.mod_lt _ (Nat.two_pow_pos w)
    rw [List.foldr_cons]
    cases n with
    | zero => simp
    | succ n =>
      rw [show w * (n + 1) = w + w * n by ring, pow_add, ← Nat.div_div_eq_div_mul, Nat.add_mul_div_left _ _ (Nat.two_pow_pos w),
        Nat.div_eq_of_lt hx, zero_add, ih, List.getD_cons_succ]

/-- A bit field of a number, of which higher bits are cut off. -/
theorem field_of_mod (x : Nat) {a b c : Nat} (h : a + b ≤ c) : x % 2 ^ c / 2 ^ a % 2 ^ b = x / 2 ^ a % 2 ^ b := by
  apply Nat.eq_of_testBit_eq
  intro i
  simp only [Nat.testBit_mod_two_pow, Nat.testBit_div_two_pow]
  by_cases hi : i < b
  · have hlt : i + a < c := by omega
    simp [hi, hlt]
  · simp [hi]

/-- A lane of a register given by a number. -/
theorem laneAt_ofNat {w n : Nat} (x : Nat) (h : w * (n + 1) ≤ 512) :
    laneAt w (BitVec.ofNat 512 x) n = x / 2 ^ (w * n) % 2 ^ w := by
  rw [laneAt, BitVec.toNat_ofNat, field_of_mod x (by rwa [mul_add, mul_one] at h)]

theorem lane_inside {w n : Nat} (h : n < 512 / w) : w * (n + 1) ≤ 512 :=
  (Nat.mul_le_mul_left w h).trans (Nat.mul_div_le 512 w)

theorem laneAt_ofLanes {w n : Nat} (l : List Nat) (h : n < 512 / w) : laneAt w (ofLanes w l) n = l.getD n 0 % 2 ^ w := by
  rw [ofLanes, laneAt_ofNat _ (lane_inside h), digit_foldr]

/-! ### Writing lanes (R117, R121) -/

theorem v_setLanes (s : State) (vd : Reg) (w : Nat) (act : List Bool) (new : List Nat) :
    (s.setLanes vd w act new).v vd
      = ofLanes w ((act.zip (new.zip (lanes w (s.v vd)))).map (fun e => if e.1 then e.2.1 else e.2.2)) := by
  unfold State.setLanes State.v
  rw [my_setMy]
  split
  · rw [vreg_cleanV, vreg_setV_same]
  · rw [vreg_setV_same]

/-- The active lanes hold the new values, the others what they held. -/
theorem laneAt_setLanes (s : State) (vd : Reg) {w : Nat} {act : List Bool} {new : List Nat} (hact : act.length = 512 / w)
    (hnew : new.length = 512 / w) {n : Nat} (h : n < 512 / w) :
    laneAt w ((s.setLanes vd w act new).v vd) n
      = if act.getD n false then new.getD n 0 % 2 ^ w else laneAt w (s.v vd) n := by
  rw [v_setLanes, laneAt_ofLanes _ h, lanes_eq]
  simp only [List.getD_eq_getElem?_getD, List.getElem?_eq_getElem, hact, hnew, h, List.length_zip, List.length_map,
    List.length_range, min_self, List.getElem_zip, List.getElem_map, List.getElem_range, Option.getD_some]
  split
  · rfl
  · exact laneAt_mod _ _ _

theorem vecResult_setLanes (s : State) (vd : Reg) (w : Nat) (q : Word) (f : Nat → Nat) :
    VecResult w q (s.v vd) ((s.setLanes vd w (actives w q) ((List.range (512 / w)).map f)).v vd) f := by
  intro n h
  rw [laneAt_setLanes s vd (length_actives w q) (by simp) h, getD_actives _ _ h, getD_map_range _ _ h]

/-- Every lane written. -/
theorem laneAt_setAll (s : State) (vd : Reg) {w : Nat} {l : List Nat} (hl : l.length = 512 / w) {n : Nat} (h : n < 512 / w) :
    laneAt w ((s.setAll vd w l).v vd) n = l.getD n 0 % 2 ^ w := by
  rw [State.setAll, laneAt_setLanes s vd List.length_replicate hl h]
  simp [List.getD_eq_getElem?_getD, h]

theorem v_setLanes_other (s : State) {vd r : Reg} (w : Nat) (act : List Bool) (new : List Nat) (h : r ≠ vd) :
    (s.setLanes vd w act new).v r = s.v r := ((writes_setLanes s vd w act new).keeps.v r (by simpa using h)).1

theorem v_setAll_other (s : State) {vd r : Reg} (w : Nat) (l : List Nat) (h : r ≠ vd) : (s.setAll vd w l).v r = s.v r :=
  v_setLanes_other s w _ l h

@[simp] theorem v_advance (s : State) (r : Reg) : s.advance.v r = s.v r := by rw [State.v, my_advance, vreg_advance, State.v]

/-! ### Accrued flags (R107, R108) -/

theorem testBit_laneFlags (act : List Bool) (r : List (Nat × Nat)) (k : Nat) :
    (laneFlags act r).testBit k = (act.zip r).any (fun e => e.1 && e.2.2.testBit k) := by
  have hfold : ∀ (l : List (Bool × Nat × Nat)) (a : Nat), (l.foldl (fun fl e => if e.1 then fl ||| e.2.2 else fl) a).testBit k
      = (a.testBit k || l.any (fun e => e.1 && e.2.2.testBit k)) := by
    intro l
    induction l with
    | nil => simp
    | cons e l ih =>
      intro a
      rw [List.foldl_cons, ih, List.any_cons]
      cases e.1 with
      | false => simp
      | true => simp [Bool.or_assoc]
  rw [laneFlags, hfold, Nat.zero_testBit, Bool.false_or]

theorem testBit_laneFlags_map (w : Nat) (q : Word) (r : Nat → Nat × Nat) (k : Nat) :
    (laneFlags (actives w q) ((List.range (512 / w)).map r)).testBit k
      = (List.range (512 / w)).any (fun n => laneOn w q n && (r n).2.testBit k) := by
  rw [testBit_laneFlags, actives_eq, List.zip_map', List.any_map]
  rfl

/-- FFLAGS is none of the words that moving on may touch. -/
theorem fflags_advance (x : Ctx) : x.advance.cwv cwFFLAGS = x.cwv cwFFLAGS := (keeps_advance x).cw _ (by decide)

theorem fflags_setLanes (s : State) (vd : Reg) (w : Nat) (act : List Bool) (new : List Nat) :
    (s.setLanes vd w act new).my.cwv cwFFLAGS = s.my.cwv cwFFLAGS := (writes_setLanes s vd w act new).keeps.cw _ (by simp)

theorem fflags_addFlags (s : State) (fl : Nat) :
    (s.addFlags fl).my.cwv cwFFLAGS = s.my.cwv cwFFLAGS ||| word (fl % 32) := by
  rw [State.addFlags, my_setMy, cwv_setCw]

theorem getLsbD_or_flags (old : Word) (fl : Nat) {k : Nat} (h : k < 5) :
    (old ||| word (fl % 32)).getLsbD k = (old.getLsbD k || fl.testBit k) := by
  have h64 : k < 64 := by omega
  rw [BitVec.getLsbD_or, word, BitVec.getLsbD_ofNat, show 32 = 2 ^ 5 from rfl, Nat.testBit_mod_two_pow]
  simp [h, h64]

theorem v_addFlags (s : State) (fl : Nat) (r : Reg) : (s.addFlags fl).v r = s.v r :=
  ((writes_addFlags s fl).keeps.v r (by simp)).1

theorem flagsAdded_none (w : Nat) (q : Word) (count : Nat) (x : Word) : FlagsAdded w q count x x (fun _ => 0) := by
  intro k _
  simp

/-! ### The forms -/

/-- A float form whose lanes are given by r: results in the active lanes, the flags of the active lanes added. -/
theorem float_lanes {s : State} {i : Instr} {w : Nat} {vd : Reg} {q : PReg} {srcs : List Reg} {l : List (Nat × Nat)}
    (hslot : s.InSlot) (hclean : s.Clean [] srcs) (r : Nat → Nat × Nat) (hl : l = (List.range (512 / w)).map r) :
    CompletesWith (opFloat s i w vd q srcs l) (fun t => VecResult w (s.q q) (s.v vd) (t.v vd) (fun n => (r n).1)
      ∧ FlagsAdded w (s.q q) (512 / w) (s.my.cwv cwFFLAGS) (t.my.cwv cwFFLAGS) (fun n => (r n).2)) := by
  subst hl
  refine ⟨_, rfl, ?_⟩
  rw [slotOnly_slot hslot, guardP_clean hclean]
  constructor
  · rw [v_advance, v_addFlags, List.map_map]
    exact vecResult_setLanes s vd w (s.q q) _
  · intro k hk
    rw [my_advance, fflags_advance, fflags_addFlags, fflags_setLanes, getLsbD_or_flags _ _ hk, testBit_laneFlags_map]

/-- A form of one vector: the same, with no flag. -/
theorem vec1_lanes {s : State} {i : Instr} {w : Nat} {vd va : Reg} {q : PReg} {f : Nat → Nat}
    (hslot : s.InSlot) (hclean : s.Clean [] [va]) :
    CompletesWith (opVec1 s i w vd va q f) (fun t => VecResult w (s.q q) (s.v vd) (t.v vd) (fun n => f (laneAt w (s.v va) n))
      ∧ t.my.cwv cwFFLAGS = s.my.cwv cwFFLAGS) := by
  refine ⟨_, rfl, ?_⟩
  rw [slotOnly_slot hslot, guardP_clean hclean]
  constructor
  · rw [v_advance, map_lanes]
    exact vecResult_setLanes s vd w (s.q q) _
  · rw [my_advance, fflags_advance, fflags_setLanes]

end Sys2Proof.Proofs.Lanes

/-! SUPPORT. Dyadic numbers as rationals: what the exact sum, product and order of the float model mean (R98, R110). -/

namespace Sys2Proof.Proofs.ExactNumbers

open Machine

/-- The rational a dyadic number stands for. -/
def dyVal (x : Dy) : ℚ := x.m * 2 ^ x.e

theorem shift_val (m : Int) {e f : Int} (h : f ≤ e) : ((m * 2 ^ (e - f).toNat : Int) : ℚ) * 2 ^ f = m * 2 ^ e := by
  push_cast
  rw [← zpow_natCast, Int.toNat_of_nonneg (by omega), mul_assoc, ← zpow_add₀ (by norm_num)]
  congr 2
  omega

@[simp] theorem dyVal_add (x y : Dy) : dyVal (x.add y) = dyVal x + dyVal y := by
  simp only [dyVal, Dy.add]
  rw [Int.cast_add, add_mul, shift_val _ (min_le_left _ _), shift_val _ (min_le_right _ _)]

@[simp] theorem dyVal_mul (x y : Dy) : dyVal (x.mul y) = dyVal x * dyVal y := by
  simp only [dyVal, Dy.mul]
  rw [zpow_add₀ (by norm_num)]
  push_cast
  ring

@[simp] theorem dyVal_zero : dyVal ⟨0, 0⟩ = 0 := by simp [dyVal]

@[simp] theorem dyVal_neg (m e : Int) : dyVal ⟨-m, e⟩ = -dyVal ⟨m, e⟩ := by simp [dyVal]

theorem dyVal_nonpos_iff (x : Dy) : dyVal x ≤ 0 ↔ x.m ≤ 0 := by
  have hpos : (0 : ℚ) < 2 ^ x.e := by positivity
  rw [dyVal, ← not_lt, mul_pos_iff_of_pos_right hpos, Int.cast_pos, not_lt]

theorem dyVal_eq_zero_iff (x : Dy) : dyVal x = 0 ↔ x.m = 0 := by
  have hpos : (2 : ℚ) ^ x.e ≠ 0 := by positivity
  rw [dyVal, mul_eq_zero_iff_right hpos, Int.cast_eq_zero]

theorem le_iff (x y : Dy) : x.le y = true ↔ dyVal x ≤ dyVal y := by
  rw [Dy.le, decide_eq_true_eq, ← dyVal_nonpos_iff, dyVal_add, dyVal_neg]
  change dyVal x + -dyVal y ≤ 0 ↔ _
  rw [← sub_eq_add_neg, sub_nonpos]

/-- Numbers over the same power of two are alike when their values are. -/
theorem eq_of_dyVal {x y : Dy} (he : x.e = y.e) (h : dyVal x = dyVal y) : x = y := by
  obtain ⟨m, e⟩ := x
  obtain ⟨n, f⟩ := y
  obtain rfl : e = f := he
  have hpos : (2 : ℚ) ^ e ≠ 0 := by positivity
  rw [dyVal, dyVal, mul_left_inj' hpos, Int.cast_inj] at h
  exact congrArg (Dy.mk · e) h

theorem dyVal_dyOf_not (neg : Bool) (m : Nat) (e : Int) : dyVal (dyOf (!neg) m e) = -dyVal (dyOf neg m e) := by
  cases neg <;> simp [dyOf, dyVal]

end Sys2Proof.Proofs.ExactNumbers

/-! SUPPORT. Rounding: the exact value cut at a place and rounded there, the bits and flags that come of it, and the number those
bits stand for (R98, R99, R108, R110). -/

namespace Sys2Proof.Proofs.Rounding

open Machine

/-! ### An exact value cut at a place -/

/-- The integer part of m × 2^(-s). -/
def cut (m : Nat) (s : Int) : Nat := if s ≤ 0 then m * 2 ^ (-s).toNat else m / 2 ^ s.toNat
/-- What is cut off, in units of 2^(-s). -/
def rest (m : Nat) (s : Int) : Nat := if s ≤ 0 then 0 else m % 2 ^ s.toNat
/-- m × 2^(-s) rounded to an integer in mode rm. -/
def rounded (rm : Nat) (neg : Bool) (m : Nat) (s : Int) : Nat :=
  if rest m s != 0 && roundUp rm neg (cut m s) (rest m s) s.toNat then cut m s + 1 else cut m s

theorem rest_lt (m : Nat) (s : Int) : rest m s < 2 ^ s.toNat := by
  unfold rest
  split
  · exact Nat.two_pow_pos _
  · exact Nat.mod_lt _ (Nat.two_pow_pos _)

theorem cut_pos {m : Nat} {s : Int} (h : 0 < s) : cut m s = m / 2 ^ s.toNat := if_neg (by omega)
theorem rest_pos {m : Nat} {s : Int} (h : 0 < s) : rest m s = m % 2 ^ s.toNat := if_neg (by omega)

theorem pow_toNat {s : Int} (h : 0 ≤ s) : (2 : ℚ) ^ s.toNat = (2 : ℚ) ^ s := by
  rw [← zpow_natCast, Int.toNat_of_nonneg h]

/-- The value is its integer part and the part cut off. -/
theorem scaled_eq (m : Nat) (s : Int) : (m : ℚ) * 2 ^ (-s) = cut m s + (rest m s : ℚ) / 2 ^ s.toNat := by
  by_cases h : s ≤ 0
  · simp only [cut, rest, if_pos h, Nat.cast_mul, Nat.cast_pow, Nat.cast_ofNat, Nat.cast_zero, zero_div, add_zero]
    rw [pow_toNat (by omega)]
  · have hpos : (0 : ℚ) < 2 ^ s.toNat := by positivity
    rw [cut_pos (by omega), rest_pos (by omega), zpow_neg, ← pow_toNat (by omega), ← div_eq_mul_inv, div_eq_iff hpos.ne',
      add_mul, div_mul_cancel₀ _ hpos.ne', mul_comm]
    exact_mod_cast (Nat.div_add_mod m (2 ^ s.toNat)).symm

theorem cut_le_rounded (rm : Nat) (neg : Bool) (m : Nat) (s : Int) : cut m s ≤ rounded rm neg m s := by
  unfold rounded; split <;> omega
theorem rounded_le (rm : Nat) (neg : Bool) (m : Nat) (s : Int) : rounded rm neg m s ≤ cut m s + 1 := by
  unfold rounded; split <;> omega

theorem rounded_exact {rm : Nat} {neg : Bool} {m : Nat} {s : Int} (h : rest m s = 0) : rounded rm neg m s = cut m s := by
  simp [rounded, h]

/-- The part cut off is less than one. -/
theorem frac_lt (m : Nat) (s : Int) : (rest m s : ℚ) / 2 ^ s.toNat < 1 := by
  rw [div_lt_one (by positivity)]
  exact_mod_cast rest_lt m s

/-- Rounding gives the exact value only where nothing is cut off. -/
theorem rounded_eq_iff (rm : Nat) (neg : Bool) (m : Nat) (s : Int) :
    (rounded rm neg m s : ℚ) = m * 2 ^ (-s) ↔ rest m s = 0 := by
  rw [scaled_eq]
  constructor
  · intro h
    by_contra hne
    have hpos : (0 : ℚ) < (rest m s : ℚ) / 2 ^ s.toNat := by
      have : 0 < rest m s := by omega
      positivity
    have hlt := frac_lt m s
    rcases Nat.eq_or_lt_of_le (cut_le_rounded rm neg m s) with heq | hgt
    · rw [← heq] at h
      linarith
    · have : rounded rm neg m s = cut m s + 1 := le_antisymm (rounded_le rm neg m s) hgt
      rw [this] at h
      push_cast at h
      linarith
  · intro h
    rw [rounded_exact h, h]
    simp

theorem roundUp_nearest (neg : Bool) (k r d : Nat) :
    roundUp 0 neg k r d = (decide (2 ^ d < 2 * r) || (2 * r == 2 ^ d && k % 2 == 1)) := rfl
theorem roundUp_zero (neg : Bool) (k r d : Nat) : roundUp 1 neg k r d = false := rfl
theorem roundUp_up (neg : Bool) (k r d : Nat) : roundUp 2 neg k r d = (r != 0 && !neg) := rfl
theorem roundUp_down (neg : Bool) (k r d : Nat) : roundUp 3 neg k r d = (r != 0 && neg) := rfl

/-- To nearest: half a unit of the place at most is lost, as whole numbers. -/
theorem rounded_nearest (neg : Bool) (m : Nat) {s : Int} (hs : 0 < s) :
    2 * (2 ^ s.toNat * rounded 0 neg m s) ≤ 2 * m + 2 ^ s.toNat ∧ 2 * m ≤ 2 * (2 ^ s.toNat * rounded 0 neg m s) + 2 ^ s.toNat := by
  have hdiv := Nat.div_add_mod m (2 ^ s.toNat)
  have hlt := rest_lt m s
  rw [← cut_pos hs, ← rest_pos hs] at hdiv
  rw [rounded, roundUp_nearest]
  generalize 2 ^ s.toNat = d at *
  generalize rest m s = r at *
  generalize cut m s = k at *
  split
  · rename_i h
    simp only [Bool.and_eq_true, Bool.or_eq_true, decide_eq_true_eq, beq_iff_eq] at h
    rw [Nat.mul_add, Nat.mul_one]
    omega
  · rename_i h
    simp only [Bool.and_eq_true, Bool.or_eq_true, decide_eq_true_eq, beq_iff_eq, not_and, not_or, bne_iff_ne] at h
    by_cases hr : r = 0
    · omega
    · have := h hr
      omega

/-! ### Bits and flags -/

/-- The place of the last bit kept (R108). -/
def lastPlace (p m : Nat) (e : Int) : Int := max (e + (Nat.log2 m : Int) - p) (-126 - (p : Int))

/-- Exponent and fraction fields of k × 2^q, where k has p + 1 bits or q is least: a carry out of k falls into the exponent. -/
def magnitude (p : Nat) (q : Int) (k : Nat) : Nat := (q + p + 126).toNat * 2 ^ p + k

/-- The bits and flags of k × 2^q, unless it overflows. -/
def packed (p rm : Nat) (neg : Bool) (q : Int) (k : Nat) (inexact : Bool) : Nat × Nat :=
  if 255 * 2 ^ p ≤ magnitude p q k then (fOver p rm neg, 18)
  else (neg.toNat * 2 ^ (p + 8) + magnitude p q k,
    (if inexact then 16 else 0) + (if inexact && decide (magnitude p q k < 2 ^ p) then 4 else 0))

theorem cut_lt {p m : Nat} {e : Int} : cut m (lastPlace p m e - e) < 2 ^ (p + 1) := by
  rcases Nat.eq_zero_or_pos m with rfl | hm
  · simp [cut]
  have hlog := (Nat.lt_log2_self (n := m))
  have hle : (Nat.log2 m : Int) - p ≤ lastPlace p m e - e := by unfold lastPlace; omega
  generalize lastPlace p m e - e = s at hle
  unfold cut
  split
  · rename_i hs
    calc m * 2 ^ (-s).toNat < 2 ^ (m.log2 + 1) * 2 ^ (-s).toNat := by gcongr
      _ = 2 ^ (m.log2 + 1 + (-s).toNat) := (pow_add _ _ _).symm
      _ ≤ 2 ^ (p + 1) := Nat.pow_le_pow_right (by omega) (by omega)
  · rename_i hs
    rw [Nat.div_lt_iff_lt_mul (Nat.two_pow_pos _), ← pow_add]
    exact hlog.trans_le (Nat.pow_le_pow_right (by omega) (by omega))

theorem le_cut {p m : Nat} {e : Int} (hm : 0 < m) (h : -126 ≤ e + (Nat.log2 m : Int)) :
    2 ^ p ≤ cut m (lastPlace p m e - e) := by
  have hlog := Nat.log2_self_le hm.ne'
  have heq : lastPlace p m e - e = (Nat.log2 m : Int) - p := by unfold lastPlace at *; omega
  rw [heq]
  unfold cut
  split
  · calc 2 ^ p ≤ 2 ^ (m.log2 + (-((m.log2 : Int) - p)).toNat) := Nat.pow_le_pow_right (by omega) (by omega)
      _ = 2 ^ m.log2 * 2 ^ (-((m.log2 : Int) - p)).toNat := pow_add _ _ _
      _ ≤ _ := by gcongr
  · rw [Nat.le_div_iff_mul_le (Nat.two_pow_pos _), ← pow_add]
    exact (Nat.pow_le_pow_right (by omega) (by omega)).trans hlog

/-- The bits and flags of k × 2^q as `fround` puts them together: a carry out of k moves on to the next place. -/
def carried (p rm : Nat) (neg : Bool) (q : Int) (k : Nat) (inexact : Bool) : Nat × Nat :=
  let q' := if k = 2 ^ (p + 1) then q + 1 else q
  let k' := if k = 2 ^ (p + 1) then 2 ^ p else k
  if 2 ^ p ≤ k' ∧ 128 - (p : Int) ≤ q' then (fOver p rm neg, flOF + flNX)
  else if k' < 2 ^ p then
    (neg.toNat * 2 ^ (p + 8) + k', (if inexact then flNX else 0) + (if inexact then flUF else 0))
  else (neg.toNat * 2 ^ (p + 8) + (q' + p + 127).toNat * 2 ^ p + (k' - 2 ^ p), if inexact then flNX else 0)

/-- A carry out of k. -/
theorem carried_carry (p rm : Nat) (neg : Bool) (j : Nat) (inexact : Bool) :
    carried p rm neg ((j : Int) - p - 126) (2 ^ (p + 1)) inexact = packed p rm neg ((j : Int) - p - 126) (2 ^ (p + 1)) inexact := by
  have hpow : 2 ^ (p + 1) = 2 * 2 ^ p := by ring
  have hpp : 0 < 2 ^ p := Nat.two_pow_pos p
  have hj : ((j : Int) - p - 126 + p + 126).toNat = j := by omega
  have hexp : ((j : Int) - p - 126 + 1 + p + 127).toNat = j + 2 := by omega
  unfold carried packed magnitude
  rw [hj, hpow]
  generalize 2 ^ p = P at *
  have hover : (P ≤ P ∧ 128 - (p : Int) ≤ (j : Int) - p - 126 + 1) ↔ 255 * P ≤ j * P + 2 * P := by
    rw [← add_mul, Nat.mul_le_mul_right_iff hpp]
    omega
  have hnormal : ¬ j * P + 2 * P < P := by omega
  simp only [if_true, hover, hexp]
  split
  · rfl
  · simp [hnormal, flNX, add_mul]

theorem carried_eq {p : Nat} (rm : Nat) (neg : Bool) {q : Int} {k : Nat} {inexact : Bool} (hq : -126 - (p : Int) ≤ q)
    (hk : k ≤ 2 ^ (p + 1)) (hn : -126 - (p : Int) < q → 2 ^ p ≤ k) :
    carried p rm neg q k inexact = packed p rm neg q k inexact := by
  have hpow : 2 ^ (p + 1) = 2 * 2 ^ p := by ring
  have hpp : 0 < 2 ^ p := Nat.two_pow_pos p
  obtain ⟨j, rfl⟩ : ∃ j : Nat, q = (j : Int) - p - 126 := ⟨(q + p + 126).toNat, by omega⟩
  have hj : ((j : Int) - p - 126 + p + 126).toNat = j := by omega
  have hj0 : j ≠ 0 → 2 ^ p ≤ k := fun h => hn (by omega)
  by_cases hcarry : k = 2 ^ (p + 1)
  · rw [hcarry]
    exact carried_carry p rm neg j inexact
  · unfold carried packed magnitude
    rw [hj, hpow]
    rw [hpow] at hk hcarry
    generalize 2 ^ p = P at *
    have hlt : k < 2 * P := by omega
    have hexp : ((j : Int) - p - 126 + p + 127).toNat = j + 1 := by omega
    have hover : (P ≤ k ∧ 128 - (p : Int) ≤ (j : Int) - p - 126) ↔ 255 * P ≤ j * P + k := by
      constructor
      · rintro ⟨hle, h⟩
        have := Nat.mul_le_mul_right P (show 254 ≤ j by omega)
        omega
      · intro h
        by_contra hno
        have hsmall : j ≤ 253 := by
          by_contra hbig
          exact hno ⟨hj0 (by omega), by omega⟩
        have := Nat.mul_le_mul_right P hsmall
        omega
    simp only [if_neg hcarry, hover, hexp]
    split
    · rfl
    · split
      · have : j = 0 := by
          by_contra h
          have := hj0 h
          omega
        subst this
        simp [flNX, flUF, *]
      · rename_i hge
        have hbits : (j + 1) * P + (k - P) = j * P + k := by
          rw [add_mul]
          omega
        have hnot : ¬ j * P + k < P := by omega
        simp [flNX, hnot, add_assoc, hbits]

/-- Rounding once is rounding at the last place, and packing. -/
theorem fround_eq (p rm : Nat) (neg : Bool) {m : Nat} (hm : 0 < m) (e : Int) :
    fround p rm neg m e = packed p rm neg (lastPlace p m e) (rounded rm neg m (lastPlace p m e - e))
      (rest m (lastPlace p m e - e) != 0) := by
  have hk : rounded rm neg m (lastPlace p m e - e) ≤ 2 ^ (p + 1) := (rounded_le _ _ _ _).trans cut_lt
  have hn : -126 - (p : Int) < lastPlace p m e → 2 ^ p ≤ rounded rm neg m (lastPlace p m e - e) :=
    fun h => (le_cut hm (by unfold lastPlace at h; omega)).trans (cut_le_rounded _ _ _ _)
  have hq : -126 - (p : Int) ≤ lastPlace p m e := le_max_right _ _
  have hstep : fround p rm neg m e = carried p rm neg (lastPlace p m e) (rounded rm neg m (lastPlace p m e - e))
      (rest m (lastPlace p m e - e) != 0) := by
    simp only [fround, carried, rounded, cut, rest, lastPlace, sub_nonpos, neg_sub]
  rw [hstep]
  exact carried_eq rm neg hq hk hn

/-! ### The number a pattern stands for -/

/-- A sign as a factor. -/
def signOf (neg : Bool) : ℚ := if neg then -1 else 1

@[simp] theorem abs_signOf (neg : Bool) : |signOf neg| = 1 := by cases neg <;> simp [signOf]

theorem fval_magnitude {p : Nat} (neg : Bool) {q : Int} {k : Nat} (hq : -126 - (p : Int) ≤ q) (hk : k < 2 ^ (p + 1))
    (hn : -126 - (p : Int) < q → 2 ^ p ≤ k) (hmag : magnitude p q k < 255 * 2 ^ p) :
    fval p (neg.toNat * 2 ^ (p + 8) + magnitude p q k) = .fin neg k q := by
  have hpp : 0 < 2 ^ p := Nat.two_pow_pos p
  have hwide : 2 ^ (p + 8) = 2 ^ p * 256 := by rw [pow_add]; rfl
  have hlt : magnitude p q k < 2 ^ (p + 8) := by omega
  have hsign : (neg.toNat * 2 ^ (p + 8) + magnitude p q k).testBit (p + 8) = neg := by
    rw [Nat.testBit_eq_decide_div_mod_eq, add_comm, Nat.add_mul_div_right _ _ (Nat.two_pow_pos _), Nat.div_eq_of_lt hlt]
    cases neg <;> rfl
  have hexp : (neg.toNat * 2 ^ (p + 8) + magnitude p q k) / 2 ^ p % 256 = magnitude p q k / 2 ^ p := by
    have hsmall : magnitude p q k / 2 ^ p < 256 := by
      rw [Nat.div_lt_iff_lt_mul hpp]
      omega
    rw [hwide, show neg.toNat * (2 ^ p * 256) + magnitude p q k = magnitude p q k + 2 ^ p * (256 * neg.toNat) by ring,
      Nat.add_mul_div_left _ _ hpp, Nat.add_mul_mod_self_left, Nat.mod_eq_of_lt hsmall]
  have hfrac : (neg.toNat * 2 ^ (p + 8) + magnitude p q k) % 2 ^ p = magnitude p q k % 2 ^ p := by
    rw [hwide, show neg.toNat * (2 ^ p * 256) + magnitude p q k = magnitude p q k + 2 ^ p * (256 * neg.toNat) by ring,
      Nat.add_mul_mod_self_left]
  have hne : magnitude p q k / 2 ^ p ≠ 255 := by
    have : magnitude p q k / 2 ^ p < 255 := by rwa [Nat.div_lt_iff_lt_mul hpp]
    omega
  simp only [fval, hsign, hexp, hfrac, if_neg hne]
  obtain ⟨j, rfl⟩ : ∃ j : Nat, q = (j : Int) - p - 126 := ⟨(q + p + 126).toNat, by omega⟩
  have hj : ((j : Int) - p - 126 + p + 126).toNat = j := by omega
  have hdiv : magnitude p ((j : Int) - p - 126) k / 2 ^ p = j + k / 2 ^ p := by
    rw [magnitude, hj, add_comm, Nat.add_mul_div_right _ _ hpp, add_comm]
  have hmod : magnitude p ((j : Int) - p - 126) k % 2 ^ p = k % 2 ^ p := by
    rw [magnitude, hj, add_comm, Nat.add_mul_mod_self_right]
  rw [hdiv, hmod]
  rw [pow_succ] at hk
  by_cases hsub : k < 2 ^ p
  · have hj0 : j = 0 := by
      by_contra h
      have := hn (by omega)
      omega
    subst hj0
    rw [Nat.div_eq_of_lt hsub, Nat.mod_eq_of_lt hsub, if_pos rfl]
    congr 1
    omega
  · have hone : k / 2 ^ p = 1 := Nat.div_eq_of_lt_le (by omega) (by omega)
    have hrest : k % 2 ^ p = k - 2 ^ p := by
      rw [Nat.mod_eq_sub_mod (by omega), Nat.mod_eq_of_lt (by omega)]
    rw [hone, hrest, if_neg (by omega)]
    congr 1 <;> omega

theorem magnitude_carry (p : Nat) {q : Int} (hq : -126 - (p : Int) ≤ q) :
    magnitude p q (2 ^ (p + 1)) = magnitude p (q + 1) (2 ^ p) := by
  unfold magnitude
  rw [show (q + 1 + p + 126).toNat = (q + p + 126).toNat + 1 by omega]
  ring

theorem f32Val_fin {x : Nat} {neg : Bool} {m : Nat} {e : Int} (h : fval 23 x = .fin neg m e) :
    f32Val x = signOf neg * m * 2 ^ e := by
  unfold f32Val
  rw [h]
  rfl

/-- k × 2^q is the number of its bits, a carry out of k included. -/
theorem f32Val_magnitude (neg : Bool) {q : Int} {k : Nat} (hq : -149 ≤ q) (hk : k ≤ 2 ^ 24) (hn : -149 < q → 2 ^ 23 ≤ k)
    (hmag : magnitude 23 q k < 255 * 2 ^ 23) : f32Val (neg.toNat * 2 ^ 31 + magnitude 23 q k) = signOf neg * k * 2 ^ q := by
  rcases Nat.eq_or_lt_of_le hk with rfl | hlt
  · have hcarry := magnitude_carry 23 (q := q) (by omega)
    rw [hcarry] at hmag ⊢
    rw [f32Val_fin (fval_magnitude neg (by omega) (by norm_num) (fun _ => le_refl _) hmag), zpow_add_one₀ (by norm_num)]
    push_cast
    ring
  · exact f32Val_fin (fval_magnitude neg (by omega) hlt (fun h => hn (by omega)) hmag)

/-- What the fields of a finite FP32 pattern hold (R98, R99). -/
structure Fields (a : Nat) (neg : Bool) (m : Nat) (e : Int) : Prop where
  bits : a = neg.toNat * 2 ^ 31 + magnitude 23 e m
  low : -149 ≤ e
  high : e ≤ 104
  lt : m < 2 ^ 24
  normal : -149 < e → 2 ^ 23 ≤ m

theorem fields_exist {a : Nat} (ha : a < 2 ^ 32) (hfin : a % 2 ^ 31 < 255 * 2 ^ 23) :
    ∃ m e, Fields a (decide (2 ^ 31 ≤ a)) m e := by
  have hsign : a = (decide (2 ^ 31 ≤ a)).toNat * 2 ^ 31 + a % 2 ^ 31 := by
    by_cases h : 2 ^ 31 ≤ a
    · simp only [h, decide_true, Bool.toNat_true]
      omega
    · simp only [h, decide_false, Bool.toNat_false]
      omega
  by_cases hsub : a % 2 ^ 31 < 2 ^ 23
  · refine ⟨a % 2 ^ 31, -149, ?_, le_refl _, by omega, by omega, by omega⟩
    rw [magnitude, show ((-149 : Int) + (23 : Nat) + 126).toNat = 0 by decide]
    omega
  · refine ⟨2 ^ 23 + a % 2 ^ 23, (a % 2 ^ 31 / 2 ^ 23 : Nat) - 150, ?_, by omega, by omega, by omega, by omega⟩
    rw [magnitude, show (((a % 2 ^ 31 / 2 ^ 23 : Nat) : Int) - 150 + (23 : Nat) + 126).toNat = a % 2 ^ 31 / 2 ^ 23 - 1 by omega]
    omega

section
variable {a m : Nat} {neg : Bool} {e : Int}

theorem Fields.small (h : Fields a neg m e) : magnitude 23 e m < 255 * 2 ^ 23 := by
  have hlt := h.lt
  have hhigh := h.high
  have hlow := h.low
  unfold magnitude
  omega

theorem Fields.fval_eq (h : Fields a neg m e) : fval 23 a = .fin neg m e := by
  rw [h.bits]
  exact fval_magnitude neg h.low h.lt h.normal h.small

theorem Fields.val (h : Fields a neg m e) : f32Val a = signOf neg * m * 2 ^ e := f32Val_fin h.fval_eq

theorem Fields.val_pos (h : Fields a false m e) : f32Val a = m * 2 ^ e := by
  rw [h.val, signOf, if_neg (by decide), one_mul]

theorem Fields.abs_val (h : Fields a neg m e) : |f32Val a| = m * 2 ^ e := by
  rw [h.val, abs_mul, abs_mul, abs_signOf, one_mul, Nat.abs_cast, abs_of_pos (by positivity)]

theorem Fields.ulp (h : Fields a neg m e) (hm : 2 ^ 23 ≤ m) : f32Ulp a = 2 ^ e := by
  have hlt := h.lt
  have hlow := h.low
  have hsmall := h.small
  unfold f32Ulp
  have hexp : ((a / 2 ^ 23 % 256 : Nat) : Int) = e + 150 := by
    rw [h.bits]
    unfold magnitude at hsmall ⊢
    cases neg
    · simp only [Bool.toNat_false]
      omega
    · simp only [Bool.toNat_true]
      omega
  rw [hexp]
  congr 1
  ring

theorem Fields.isNormal (h : Fields a neg m e) (hm : 2 ^ 23 ≤ m) : F32Normal neg a := by
  have hlt := h.lt
  have hlow := h.low
  have hhigh := h.high
  have hbits := h.bits
  have hsmall := h.small
  refine ⟨?_, ?_, ?_, ?_⟩
  · cases neg <;> simp only [Bool.toNat_false, Bool.toNat_true] at hbits <;> omega
  · unfold magnitude at hbits
    cases neg <;> simp only [Bool.toNat_false, Bool.toNat_true] at hbits <;> omega
  · unfold magnitude at hbits
    cases neg <;> simp only [Bool.toNat_false, Bool.toNat_true] at hbits <;> omega
  · rw [Nat.testBit_eq_decide_div_mod_eq]
    cases neg <;> simp only [Bool.toNat_false, Bool.toNat_true] at hbits <;> simp <;> omega

end

theorem F32Normal.fields {neg : Bool} {a : Nat} (h : F32Normal neg a) : ∃ m e, Fields a neg m e ∧ 2 ^ 23 ≤ m := by
  obtain ⟨hlt, hlow, hhigh, hsign⟩ := h
  have hneg : decide (2 ^ 31 ≤ a) = neg := by
    rw [← hsign, Nat.testBit_eq_decide_div_mod_eq]
    apply decide_eq_decide.mpr
    omega
  obtain ⟨m, e, hf⟩ := fields_exist hlt (by omega)
  rw [hneg] at hf
  refine ⟨m, e, hf, ?_⟩
  by_contra hsub
  have he : e = -149 := by
    have := hf.normal
    have := hf.low
    omega
  have hbits := hf.bits
  subst he
  rw [magnitude, show ((-149 : Int) + (23 : Nat) + 126).toNat = 0 by decide] at hbits
  cases neg <;> simp only [Bool.toNat_false, Bool.toNat_true] at hbits <;> omega

/-- Bits put together from a rounded significand of full length: a normal number, k × 2^q, whose last place is no finer than q. -/
theorem normal_of_magnitude (neg : Bool) {q : Int} {k : Nat} (hq : -149 ≤ q) (hlow : 2 ^ 23 ≤ k) (hk : k ≤ 2 ^ 24)
    (hmag : magnitude 23 q k < 255 * 2 ^ 23) :
    F32Normal neg (neg.toNat * 2 ^ 31 + magnitude 23 q k) ∧ (2 : ℚ) ^ q ≤ f32Ulp (neg.toNat * 2 ^ 31 + magnitude 23 q k) := by
  rcases Nat.eq_or_lt_of_le hk with rfl | hlt
  · have hcarry := magnitude_carry 23 (q := q) (by omega)
    rw [hcarry] at hmag ⊢
    have hf : Fields (neg.toNat * 2 ^ 31 + magnitude 23 (q + 1) (2 ^ 23)) neg (2 ^ 23) (q + 1) :=
      ⟨rfl, by omega, by unfold magnitude at hmag; omega, by norm_num, fun _ => le_refl _⟩
    rw [hf.ulp (le_refl _)]
    exact ⟨hf.isNormal (le_refl _), zpow_le_zpow_right₀ (by norm_num) (by omega)⟩
  · have hf : Fields (neg.toNat * 2 ^ 31 + magnitude 23 q k) neg k q :=
      ⟨rfl, hq, by unfold magnitude at hmag; omega, hlt, fun _ => hlow⟩
    rw [hf.ulp hlow]
    exact ⟨hf.isNormal hlow, le_refl _⟩

end Sys2Proof.Proofs.Rounding

/-! SUPPORT. The vector float forms lane by lane, and the special values of the float operations (R100, R107, R108, R110, R114,
R129). -/

namespace Sys2Proof.Proofs.VectorFloat

open Machine Lanes ExactNumbers

/-! ### The forms of map D (R129) -/

/-- VFABS and VFNEG change one bit of a lane and raise no flag. -/
theorem signBit_lanes {s : State} {i : Instr} {w : Nat} {vd va : Reg} {q : PReg} {g : Nat → Nat} (count : Nat)
    (hslot : s.InSlot) (hclean : s.Clean [] [va]) :
    CompletesWith (opVec1 s i w vd va q g) (fun t => VecResult w (s.q q) (s.v vd) (t.v vd) (fun n => g (laneAt w (s.v va) n))
      ∧ FlagsAdded w (s.q q) count (s.my.cwv cwFFLAGS) (t.my.cwv cwFFLAGS) (fun _ => 0)) := by
  obtain ⟨t, hexec, hres, hflags⟩ := vec1_lanes (s := s) (i := i) (w := w) (vd := vd) (q := q) (f := g) hslot hclean
  refine ⟨t, hexec, hres, ?_⟩
  rw [hflags]
  exact flagsAdded_none _ _ _ _

/-- The sign bit of a format is its highest bit. -/
theorem sign_place (f : FFmt) : ffrac f + 8 = fbits f - 1 := by cases f <;> rfl

/-- The three sources of VFMA, lane by lane. -/
theorem fma_lanes (s : State) (w p rm : Nat) (neg : Bool) (x y d : Reg) :
    List.zipWith (fun (e : Nat × Nat) c => ffma p rm neg e.1 e.2 c) ((lanes w (s.v x)).zip (lanes w (s.v y))) (lanes w (s.v d))
      = (List.range (512 / w)).map
        (fun n => ffma p rm neg (laneAt w (s.v x) n) (laneAt w (s.v y) n) (laneAt w (s.v d) n)) := by
  rw [zip_lanes, lanes_eq w (s.v d), List.zipWith_map, List.zipWith_self]

theorem clean_of_subset {s : State} {gs gs' vs vs' : List Reg} (h : s.Clean gs vs) (hg : gs' ⊆ gs) (hv : vs' ⊆ vs) :
    s.Clean gs' vs' := by
  rw [clean_iff] at h ⊢
  exact ⟨fun r hr => h.1 r (hg hr), fun r hr => h.2 r (hv hr)⟩

theorem floatLanes : Claim.VectorFloatResults := by
  intro s f d x y q hslot hclean W p a b c rm gives
  have hx : s.Clean [] [x] := clean_of_subset hclean (by simp) (by simp)
  have hxy : s.Clean [] [x, y] := clean_of_subset hclean (by simp) (by simp)
  refine ⟨?_, ?_, ?_, ?_, ?_, ?_, ?_, ?_, ?_, ?_, ?_, ?_⟩
  · exact float_lanes hslot hxy _ (zipWith_lanes _ _ _ _)
  · exact float_lanes hslot hxy _ (zipWith_lanes _ _ _ _)
  · exact float_lanes hslot hxy _ (zipWith_lanes _ _ _ _)
  · exact float_lanes hslot hclean _ (fma_lanes s _ _ _ _ _ _ _)
  · exact float_lanes hslot hclean _ (fma_lanes s _ _ _ _ _ _ _)
  · exact float_lanes hslot hxy _ (zipWith_lanes _ _ _ _)
  · exact float_lanes hslot hxy _ (zipWith_lanes _ _ _ _)
  · exact signBit_lanes _ hslot hx
  · have hneg := signBit_lanes (i := .vfneg f d x q) (w := W) (vd := d) (q := q) (g := fneg p) (512 / W) hslot hx
    simp only [fneg, p, sign_place] at hneg
    exact hneg
  · exact float_lanes hslot hx _ (map_lanes _ _ _)
  · exact float_lanes hslot hx _ (map_lanes _ _ _)
  · exact float_lanes hslot hx _ (map_lanes _ _ _)

/-! ### Sums and products in either order -/

theorem sum_comm (x y : Dy) : x.add (y.add ⟨0, 0⟩) = y.add (x.add ⟨0, 0⟩) := by
  apply eq_of_dyVal
  · simp only [Dy.add]
    omega
  · simp only [dyVal_add]
    ring

theorem dySum_comm (u v : FV) : dySum [u, v] = dySum [v, u] := by
  cases u <;> cases v <;> simp only [dySum]
  exact sum_comm _ _

theorem fadd_comm (p rm a b : Nat) : fadd p rm a b = fadd p rm b a := by
  have hperm : [fval p a, fval p b].Perm [fval p b, fval p a] := List.Perm.swap _ _ _
  simp only [fadd, fsum, allZero, dySum_comm (fval p a), hperm.any_eq, hperm.all_eq, hperm.contains_eq]

theorem fterm_comm (neg : Bool) (u v : FV) : fterm neg u v = fterm neg v u := by
  cases u <;> cases v <;>
    simp only [fterm, Bool.or_comm, bne_comm, mul_comm, add_comm]

theorem fmul_comm (p rm a b : Nat) : fmul p rm a b = fmul p rm b a := by
  rw [fmul, fterm_comm, ← fmul]

/-! ### NaN operands -/

/-- A NaN among the terms of a sum. -/
theorem fadd_nan {p a : Nat} (rm b : Nat) (h : (fval p a).isNaN = true) :
    fadd p rm a b = (fNaN p, if (fval p a).isSig || (fval p b).isSig then 1 else 0) := by
  simp [fadd, fsum, h, flNV]

theorem fmul_nan {p a : Nat} (rm b : Nat) (h : (fval p a).isNaN = true) : (fmul p rm a b).1 = fNaN p := by
  unfold fmul
  cases ha : fval p a with
  | nan _ => cases fval p b <;> rfl
  | inf _ => rw [ha] at h; cases h
  | fin _ _ _ => rw [ha] at h; cases h

/-! ### Infinities and zeros -/

theorem fval_inf (f : FFmt) : fval (ffrac f) (255 * 2 ^ ffrac f) = .inf false := by cases f <;> decide
theorem fval_neg_inf (f : FFmt) : fval (ffrac f) (255 * 2 ^ ffrac f + 2 ^ (ffrac f + 8)) = .inf true := by cases f <;> decide
theorem fval_zero (f : FFmt) : fval (ffrac f) 0 = .fin false 0 (-126 - (ffrac f : Int)) := by cases f <;> decide
theorem fval_neg_zero (f : FFmt) : fval (ffrac f) (2 ^ (ffrac f + 8)) = .fin true 0 (-126 - (ffrac f : Int)) := by
  cases f <;> decide

/-- Infinities of opposite signs have no sum. -/
theorem fadd_opposite_inf {p a b : Nat} (rm : Nat) {neg : Bool} (ha : fval p a = .inf neg) (hb : fval p b = .inf (!neg)) :
    fadd p rm a b = (fNaN p, 1) := by
  unfold fadd fsum
  rw [ha, hb]
  cases neg <;> rfl

/-- Infinity times zero is no number. -/
theorem fmul_inf_zero {p a b : Nat} (rm : Nat) {neg neg' : Bool} {e : Int} (ha : fval p a = .inf neg)
    (hb : fval p b = .fin neg' 0 e) : fmul p rm a b = (fNaN p, 1) := by
  unfold fmul
  rw [ha, hb]
  rfl

/-- Exponent and fraction fields stand below the sign bit. -/
theorem exponent_eq (p x : Nat) : x / 2 ^ p % 256 = x % 2 ^ (p + 8) / 2 ^ p := by
  rw [pow_add, Nat.mod_mul_right_div_self, show 2 ^ 8 = 256 from rfl]

theorem fraction_eq (p x : Nat) : x % 2 ^ p = x % 2 ^ (p + 8) % 2 ^ p :=
  (Nat.mod_mod_of_dvd x (pow_dvd_pow 2 (by omega))).symm

/-- The opposite pattern has the opposite sign, and the same exponent and fraction. -/
theorem fval_fneg {p a : Nat} {neg : Bool} {m : Nat} {e : Int} (h : fval p a = .fin neg m e) :
    fval p (fneg p a) = .fin (!neg) m e := by
  have hlow : fneg p a % 2 ^ (p + 8) = a % 2 ^ (p + 8) := by simp [fneg, Nat.xor_mod_two_pow]
  have hexp : fneg p a / 2 ^ p % 256 = a / 2 ^ p % 256 := by rw [exponent_eq, hlow, ← exponent_eq]
  have hfrac : fneg p a % 2 ^ p = a % 2 ^ p := by rw [fraction_eq, hlow, ← fraction_eq]
  have hsign : (fneg p a).testBit (p + 8) = !a.testBit (p + 8) := by simp [fneg]
  simp only [fval, hexp, hfrac, hsign] at h ⊢
  by_cases hff : a / 2 ^ p % 256 = 255
  · rw [if_pos hff] at h
    split at h <;> cases h
  · rw [if_neg hff] at h ⊢
    by_cases hsub : a / 2 ^ p % 256 = 0
    · rw [if_pos hsub] at h ⊢
      cases h
      rfl
    · rw [if_neg hsub] at h ⊢
      cases h
      rfl

/-- A number and its negation add to +0, or −0 in mode down. -/
theorem fadd_fneg {p a : Nat} (rm : Nat) {neg : Bool} {m : Nat} {e : Int} (h : fval p a = .fin neg m e) :
    fadd p rm a (fneg p a) = (fZero p (rm == 3), 0) := by
  have hsum : (dySum [.fin neg m e, .fin (!neg) m e]).m = 0 := by
    rw [← dyVal_eq_zero_iff]
    simp [dySum, dyVal_dyOf_not]
  unfold fadd fsum
  rw [h, fval_fneg h]
  dsimp only
  rw [if_pos hsum]
  cases neg <;> simp [FV.isNaN, allZero]

theorem fval_finite {p a : Nat} (h : a % 2 ^ (p + 8) < 255 * 2 ^ p) : ∃ neg m e, fval p a = .fin neg m e := by
  have hexp : a / 2 ^ p % 256 ≠ 255 := by
    have hlt : a % 2 ^ (p + 8) / 2 ^ p < 255 := by rwa [Nat.div_lt_iff_lt_mul (Nat.two_pow_pos p)]
    rw [exponent_eq]
    omega
  simp only [fval, if_neg hexp]
  split
  · exact ⟨_, _, _, rfl⟩
  · exact ⟨_, _, _, rfl⟩

theorem floatSpecialValues : Claim.FloatSpecialValues := by
  intro f rm a b _ ha _ p nan inf sgn
  refine ⟨fun hnan => ?_, ?_, ?_, ?_, ?_, ?_, fun _ hfin => ?_, fadd_comm _ _ _ _, fmul_comm _ _ _ _⟩
  · rw [fadd_nan rm b hnan]
    exact ⟨rfl, fmul_nan rm b hnan, rfl⟩
  · exact fadd_opposite_inf rm (fval_inf f) (fval_neg_inf f)
  · exact fadd_opposite_inf rm (fval_neg_inf f) (fval_inf f)
  · exact fmul_inf_zero rm (fval_inf f) (fval_zero f)
  · rw [fmul_comm]
    exact fmul_inf_zero rm (fval_inf f) (fval_zero f)
  · exact fmul_inf_zero rm (fval_neg_inf f) (fval_neg_zero f)
  · obtain ⟨neg, m, e, h⟩ := fval_finite hfin
    rw [fadd_fneg rm h, fZero]
    by_cases hdown : rm = 3
    · simp [hdown, sgn]
    · simp [hdown]

/-- Settles O23: the forms lane by lane, and the special values by what kind of value each pattern stands for. -/
theorem vectorFloatResults : Obligations.VectorFloatResults := by
  unfold Obligations.VectorFloatResults
  exact ⟨floatLanes, floatSpecialValues⟩

end Sys2Proof.Proofs.VectorFloat

/-! SUPPORT. Reductions over the tree of R113, moves and permutes, and the selection of VCOMPRESS (R113, R132, R133, R138). -/

namespace Sys2Proof.Proofs.VectorMoves

open Machine Lanes

/-! ### Reductions (R113, R132) -/

theorem maskedLanes_eq (s : State) (va : Reg) (q : PReg) (z : Nat) :
    s.maskedLanes va q z = (List.range 16).map (fun n => if laneOn 32 (s.q q) n then laneAt 32 (s.v va) n else z) := by
  rw [State.maskedLanes, actives_eq, lanes_eq, List.zip_map', List.map_map]
  rfl

/-- Four levels of neighbours are the balanced tree over sixteen leaves. -/
theorem tree16_value (f : Nat → Nat → Nat × Nat) (leaf : Nat → Nat) :
    (tree16 f ((List.range 16).map leaf)).1 = treeOf (fun u v => (f u v).1) leaf 4 0 := rfl

theorem tree16_flags (f : Nat → Nat → Nat × Nat) (leaf : Nat → Nat) :
    (tree16 f ((List.range 16).map leaf)).2 = treeFlags f leaf 4 0 := by
  simp only [tree16, List.range, List.range.loop, List.map_cons, List.map_nil, treeLevel, treeFlags, treeOf, Nat.reduceMul,
    Nat.reduceAdd, Nat.or_zero, Nat.zero_or]
  ac_rfl

theorem fflags_done (s : State) (gd : Reg) (w : Word) : (s.done gd w).my.cwv cwFFLAGS = s.my.cwv cwFFLAGS := by
  rw [my_done, fflags_advance]
  exact (keeps_setG s.my gd w).cw _ (by simp)

/-- A float reduction writes the root and adds the flags of the nodes. -/
theorem reduce_tree {s : State} {i : Instr} {d x : Reg} {q : PReg} {z : Nat} {f : Nat → Nat → Nat × Nat}
    (hslot : s.InSlot) (hclean : s.Clean [] [x])
    (hexec : exec i s = .next (s.slotOnly i (s.guardP [] [x]
      ((s.addFlags (tree16 f (s.maskedLanes x q z)).2).done d (word (tree16 f (s.maskedLanes x q z)).1))))) :
    let leaf := fun n => if laneOn 32 (s.q q) n then laneAt 32 (s.v x) n else z
    ∃ t, exec i s = .next t ∧ (d ≠ 0 → t.g d = BitVec.ofNat 64 (treeOf (fun u v => (f u v).1) leaf 4 0))
      ∧ t.my.cwv 0x031 = s.my.cwv 0x031 ||| BitVec.ofNat 64 (treeFlags f leaf 4 0 % 32) := by
  rw [slotOnly_slot hslot, guardP_clean hclean, maskedLanes_eq, tree16_value, tree16_flags] at hexec
  refine ⟨_, hexec, fun hd => ?_, ?_⟩
  · rw [g_done, if_neg hd]
    rfl
  · exact (fflags_done _ d _).trans (fflags_addFlags s _)

/-- A running maximum bounds all it has met, and is one of them. -/
theorem foldl_max_spec (g : Nat → Int) (l : List Nat) (z : Int) :
    let m := l.foldl (fun a x => max a (g x)) z
    z ≤ m ∧ (∀ x ∈ l, g x ≤ m) ∧ (m = z ∨ ∃ x ∈ l, g x = m) := by
  induction l generalizing z with
  | nil => simp
  | cons y l ih =>
    obtain ⟨hz, hall, hfrom⟩ := ih (max z (g y))
    rw [List.foldl_cons]
    refine ⟨(le_max_left _ _).trans hz, ?_, ?_⟩
    · rintro x (_ | ⟨_, hx⟩)
      · exact (le_max_right _ _).trans hz
      · exact hall x hx
    · rcases hfrom with h | ⟨x, hx, h⟩
      · rcases max_choice z (g y) with hm | hm
        · exact Or.inl (h.trans hm)
        · exact Or.inr ⟨y, by simp, hm.symm.trans h.symm⟩
      · exact Or.inr ⟨x, List.mem_cons_of_mem _ hx, h⟩

theorem vrsumI32_result {s : State} (hslot : s.InSlot) {d x : Reg} (hclean : s.Clean [] [x]) (q : PReg) :
    exec (.vrsumI32 d x q) s = .next (s.done d ((BitVec.ofNat 32
      ((List.range 16).map (fun n => if laneOn 32 (s.q q) n then laneAt 32 (s.v x) n else 0)).sum).signExtend 64)) := by
  change Host.Outcome.next _ = _
  rw [slotOnly_slot hslot, guardP_clean hclean, maskedLanes_eq, ← List.sum_eq_foldl]
  rfl

theorem vrmaxI32_result {s : State} (hslot : s.InSlot) {d x : Reg} (hclean : s.Clean [] [x]) (q : PReg) :
    ∃ m : Int, exec (.vrmaxI32 d x q) s = .next (s.done d (BitVec.ofInt 64 m))
      ∧ (∀ n, n < 16 → laneOn 32 (s.q q) n = true → slaneAt 32 (s.v x) n ≤ m)
      ∧ ((∃ n, n < 16 ∧ laneOn 32 (s.q q) n = true ∧ slaneAt 32 (s.v x) n = m) ∨ m = -(2 ^ 31)) := by
  obtain ⟨-, hall, hfrom⟩ := foldl_max_spec (slane 32) (s.maskedLanes x q 0x80000000) (-(2 ^ 31))
  refine ⟨(s.maskedLanes x q 0x80000000).foldl (fun a x => max a (slane 32 x)) (-(2 ^ 31)), ?_, fun n hn hon => ?_, ?_⟩
  · change Host.Outcome.next _ = _
    rw [slotOnly_slot hslot, guardP_clean hclean]
  · refine hall _ ?_
    rw [maskedLanes_eq]
    exact List.mem_map.mpr ⟨n, List.mem_range.mpr hn, if_pos hon⟩
  · rcases hfrom with h | ⟨y, hy, h⟩
    · exact Or.inr h
    · rw [maskedLanes_eq] at hy
      obtain ⟨n, hn, rfl⟩ := List.mem_map.mp hy
      cases hon : laneOn 32 (s.q q) n with
      | true =>
        rw [if_pos hon] at h
        exact Or.inl ⟨n, List.mem_range.mp hn, hon, h⟩
      | false =>
        rw [if_neg (by simp [hon])] at h
        exact Or.inr h.symm

theorem reductionResults : Claim.ReductionResults := fun _ _ _ q hslot hclean =>
  ⟨reduce_tree hslot hclean rfl, reduce_tree hslot hclean rfl, vrsumI32_result hslot hclean q, vrmaxI32_result hslot hclean q⟩

/-! ### Moves and permutes (R133) -/

/-- A form that writes every lane of vd. -/
theorem setAll_lanes {s : State} {i : Instr} {w : Nat} {d : Reg} {gs vs : List Reg} {l : List Nat} {f : Nat → Nat}
    (hslot : s.InSlot) (hclean : s.Clean gs vs) (hl : l.length = 512 / w) (hf : ∀ n, n < 512 / w → l.getD n 0 = f n) :
    CompletesWith (.next (s.slotOnly i (s.guardP gs vs (s.setAll d w l).advance))) (fun t => AllLanes w (t.v d) f) := by
  refine ⟨_, rfl, fun n hn => ?_⟩
  rw [slotOnly_slot hslot, guardP_clean hclean, v_advance, laneAt_setAll s d hl hn, hf n hn]

theorem vbcast_result {s : State} (hslot : s.InSlot) (w : Width) (d : Reg) {x : Reg} (hclean : s.Clean [x] []) :
    CompletesWith (exec (.vbcast w d x) s) (fun t => AllLanes (wbits w) (t.v d) (fun _ => (s.g x).toNat)) :=
  setAll_lanes hslot hclean List.length_replicate (fun n hn => by simp [List.getD_eq_getElem?_getD, hn])

theorem lanes_per_register_pos (w : Width) : 0 < 512 / wbits w := by cases w <;> decide

theorem vextr_result {s : State} (hslot : s.InSlot) (w : Width) (d : Reg) {x y : Reg} (hclean : s.Clean [y] [x]) :
    exec (.vextr w d x y) s
      = .next (s.done d (BitVec.ofNat 64 (laneAt (wbits w) (s.v x) ((s.g y).toNat % (512 / wbits w))))) := by
  change Host.Outcome.next _ = _
  rw [slotOnly_slot hslot, guardP_clean hclean, getD_lanes _ _ (Nat.mod_lt _ (lanes_per_register_pos w))]
  rfl

theorem vins_result {s : State} (hslot : s.InSlot) (w : Width) (d : Reg) {x y : Reg} (hclean : s.Clean [x, y] []) :
    CompletesWith (exec (.vins w d x y) s) (fun t => ∀ n, n < 512 / wbits w →
      laneAt (wbits w) (t.v d) n = if n = (s.g y).toNat % (512 / wbits w) then (s.g x).toNat % 2 ^ wbits w
        else laneAt (wbits w) (s.v d) n) := by
  refine ⟨_, rfl, fun n hn => ?_⟩
  rw [slotOnly_slot hslot, guardP_clean hclean, v_advance]
  have hv : ∀ r : VWord, (s.setV d r).v d = r := fun r => by rw [State.v, State.setV, my_setMy, vreg_setV_same]
  rw [hv, laneAt_ofLanes _ hn, List.getD_eq_getElem?_getD, List.getElem?_set]
  by_cases h : (s.g y).toNat % (512 / wbits w) = n
  · simp [h, hn]
  · rw [if_neg h, if_neg (Ne.symm h), ← List.getD_eq_getElem?_getD, getD_lanes _ _ hn, laneAt_mod]

theorem vperm_result {s : State} (hslot : s.InSlot) (w : Width) (d : Reg) {x y : Reg} (hclean : s.Clean [] [x, y]) :
    CompletesWith (exec (.vperm w d x y) s) (fun t => AllLanes (wbits w) (t.v d)
      (fun n => laneAt (wbits w) (s.v x) (laneAt (wbits w) (s.v y) n % (512 / wbits w)))) :=
  setAll_lanes hslot hclean (by simp) (fun n hn => by
    rw [map_lanes, getD_map_range _ _ hn, getD_lanes _ _ (Nat.mod_lt _ (lanes_per_register_pos w))])

theorem vslide_result {s : State} (hslot : s.InSlot) (w : Width) (d : Reg) {x y : Reg} (hclean : s.Clean [y] [x]) :
    CompletesWith (exec (.vslide w d x y) s) (fun t => AllLanes (wbits w) (t.v d) (fun n =>
      let m : Int := (n : Int) + (s.g y).toInt
      if 0 ≤ m ∧ m < ↑(512 / wbits w) then laneAt (wbits w) (s.v x) m.toNat else 0)) := by
  refine setAll_lanes hslot hclean (by simp [upto_zero]) (fun n hn => ?_)
  rw [upto_zero, getD_map_range _ _ hn]
  have hmany : 512 / wbits w ≤ 512 := Nat.div_le_self _ _
  dsimp only
  generalize (n : Int) + (s.g y).toInt = m
  by_cases hneg : 0 ≤ m
  · by_cases hin : m < ↑(512 / wbits w)
    · rw [if_pos hneg, if_pos ⟨hneg, hin⟩, Nat.min_eq_left (by omega), getD_lanes _ _ (by omega)]
    · rw [if_pos hneg, if_neg (fun h => hin h.2), getD_lanes_out _ _ (by omega)]
  · rw [if_neg hneg, if_neg (fun h => hneg h.1)]

theorem permuteResults : Claim.PermuteResults := fun _ w d _ _ hslot =>
  ⟨vbcast_result hslot w d, vextr_result hslot w d, vins_result hslot w d, vperm_result hslot w d, vslide_result hslot w d⟩

/-! ### VCOMPRESS (R138) -/

theorem countP_range (n : Nat) (p : Nat → Bool) : (List.range n).countP p = ((Finset.range n).filter (p · = true)).card := by
  rw [List.countP_eq_length_filter, Finset.card_def, Finset.filter_val, Finset.range_val, Multiset.range, Multiset.filter_coe,
    Multiset.coe_card]
  simp only [Bool.decide_eq_true]

/-- In a strict total order on the numbers below n, exactly k of them have fewer than k before them. -/
theorem countP_rank_lt {n k : Nat} (before : Nat → Nat → Bool) (hk : k ≤ n) (hirr : ∀ i, before i i = false)
    (htrans : ∀ i j l, before i j = true → before j l = true → before i l = true)
    (htotal : ∀ i j, i ≠ j → before i j = true ∨ before j i = true) :
    (List.range n).countP (fun i => decide ((List.range n).countP (fun j => before j i) < k)) = k := by
  have hrank : ∀ i, (List.range n).countP (fun j => before j i) = ((Finset.range n).filter (before · i = true)).card :=
    fun i => countP_range n _
  have hmono : ∀ i ∈ Finset.range n, ∀ j, before i j = true →
      ((Finset.range n).filter (before · i = true)).card < ((Finset.range n).filter (before · j = true)).card := by
    intro i hi j hij
    apply Finset.card_lt_card
    rw [Finset.ssubset_iff_of_subset]
    · exact ⟨i, Finset.mem_filter.mpr ⟨hi, hij⟩, fun h => by simpa [hirr] using (Finset.mem_filter.mp h).2⟩
    · intro l hl
      rw [Finset.mem_filter] at hl ⊢
      exact ⟨hl.1, htrans _ _ _ hl.2 hij⟩
  have hlt : ∀ i ∈ Finset.range n, ((Finset.range n).filter (before · i = true)).card < n := by
    intro i hi
    calc _ < (Finset.range n).card := Finset.card_lt_card (by
          rw [Finset.ssubset_iff_of_subset (Finset.filter_subset _ _)]
          exact ⟨i, hi, fun h => by simpa [hirr] using (Finset.mem_filter.mp h).2⟩)
      _ = n := Finset.card_range n
  have hinj : Set.InjOn (fun i => ((Finset.range n).filter (before · i = true)).card) (Finset.range n) := by
    intro i hi j hj heq
    by_contra hne
    rcases htotal i j hne with h | h
    · exact (hmono i hi j h).ne heq
    · exact (hmono j hj i h).ne' heq
  have himage : (Finset.range n).image (fun i => ((Finset.range n).filter (before · i = true)).card) = Finset.range n :=
    Finset.eq_of_subset_of_card_le
      (fun r hr => by
        obtain ⟨i, hi, rfl⟩ := Finset.mem_image.mp hr
        exact Finset.mem_range.mpr (hlt i hi))
      (by rw [Finset.card_image_of_injOn hinj])
  simp only [hrank]
  rw [countP_range]
  simp only [decide_eq_true_eq]
  rw [← Finset.card_image_of_injOn (hinj.mono (Finset.filter_subset _ _)), ← Finset.filter_image (p := (· < k)), himage]
  have : (Finset.range n).filter (· < k) = Finset.range k := by
    ext r
    simp only [Finset.mem_filter, Finset.mem_range]
    omega
  rw [this, Finset.card_range]

/-- Lane j of a group stands before lane i: larger in magnitude, or equal and lower (R138). -/
def ahead (mag : Nat → Nat) (j i : Nat) : Bool := decide (mag i < mag j) || (mag j == mag i && decide (j < i))

theorem ahead_iff (mag : Nat → Nat) (j i : Nat) : ahead mag j i = true ↔ mag i < mag j ∨ mag j = mag i ∧ j < i := by
  simp [ahead]

/-- The lanes of a group that are kept. -/
def keptLanes (mag : Nat → Nat) : List Nat :=
  (List.range 8).filter (fun i => decide ((List.range 8).countP (fun j => ahead mag j i) < 4))

/-- Four lanes of each group are kept. -/
theorem length_keptLanes (mag : Nat → Nat) : (keptLanes mag).length = 4 := by
  rw [keptLanes, ← List.countP_eq_length_filter]
  refine countP_rank_lt (ahead mag) (by decide) (fun i => ?_) (fun i j l => ?_) (fun i j hne => ?_)
  · simp [ahead]
  · simp only [ahead_iff]
    omega
  · simp only [ahead_iff]
    omega

theorem mem_keptLanes (mag : Nat → Nat) (i : Nat) :
    i ∈ keptLanes mag ↔ i < 8 ∧ (List.range 8).countP (fun j => ahead mag j i) < 4 := by
  rw [keptLanes, List.mem_filter, List.mem_range, decide_eq_true_eq]

theorem keptLanes_congr {mag mag' : Nat → Nat} (h : ∀ i, i < 8 → mag i = mag' i) : keptLanes mag = keptLanes mag' := by
  have hahead : ∀ i ∈ List.range 8, (List.range 8).countP (fun j => ahead mag j i) = (List.range 8).countP (fun j => ahead mag' j i) :=
    fun i hi => List.countP_congr fun j hj => by
      rw [ahead_iff, ahead_iff, h i (List.mem_range.mp hi), h j (List.mem_range.mp hj)]
  exact List.filter_congr fun i hi => by rw [hahead i hi]

theorem kept_eq (grp : List Nat) (i : Nat) :
    kept grp i = decide ((List.range 8).countP (fun j => ahead (fun l => grp.getD l 0 % 2 ^ 15) j i) < 4) := by
  rw [List.countP_eq_length_filter, kept, upto_zero]
  rfl

theorem compressGroup_values (grp : List Nat) :
    (compressGroup grp).1 = (keptLanes (fun l => grp.getD l 0 % 2 ^ 15)).map (fun n => grp.getD n 0) := by
  rw [compressGroup, upto_zero, keptLanes]
  simp only [funext (kept_eq grp)]

/-- A number put together from its bits. -/
theorem bitSum_spec (b : Nat → Bool) (n : Nat) :
    (List.range n).foldl (fun a i => a + (b i).toNat * 2 ^ i) 0 < 2 ^ n
      ∧ ∀ i, i < n → ((List.range n).foldl (fun a i => a + (b i).toNat * 2 ^ i) 0).testBit i = b i := by
  induction n with
  | zero => simp
  | succ n ih =>
    obtain ⟨hlt, hbits⟩ := ih
    rw [List.range_succ, List.foldl_append, List.foldl_cons, List.foldl_nil, add_comm, mul_comm]
    constructor
    · rw [pow_succ]
      cases b n <;> simp <;> omega
    · intro i hi
      rw [Nat.testBit_two_pow_mul_add _ hlt]
      split
      · exact hbits i ‹_›
      · obtain rfl : i = n := by omega
        rw [Nat.sub_self]
        cases b i <;> rfl

theorem compressGroup_mask (grp : List Nat) :
    (compressGroup grp).2 < 2 ^ 8 ∧ ∀ i, i < 8 → (compressGroup grp).2.testBit i = kept grp i := by
  rw [compressGroup, upto_zero]
  exact bitSum_spec (kept grp) 8

/-- Digits that are small need no cutting. -/
theorem foldr_digits {w : Nat} {l : List Nat} (h : ∀ x ∈ l, x < 2 ^ w) :
    l.foldr (fun x a => x + 2 ^ w * a) 0 = l.foldr (fun x a => x % 2 ^ w + 2 ^ w * a) 0 := by
  induction l with
  | nil => rfl
  | cons x l ih =>
    rw [List.foldr_cons, List.foldr_cons, ih fun y hy => h y (List.mem_cons_of_mem _ hy), Nat.mod_eq_of_lt (h x (by simp))]

theorem foldr_digits_lt (w : Nat) (l : List Nat) : l.foldr (fun x a => x % 2 ^ w + 2 ^ w * a) 0 < 2 ^ (w * l.length) := by
  induction l with
  | nil => simp
  | cons x l ih =>
    have hx : x % 2 ^ w < 2 ^ w := Nat.mod_lt _ (Nat.two_pow_pos w)
    rw [List.foldr_cons, List.length_cons, mul_add, mul_one, add_comm (w * _), pow_add]
    calc x % 2 ^ w + 2 ^ w * _ < 2 ^ w * (l.foldr (fun x a => x % 2 ^ w + 2 ^ w * a) 0 + 1) := by rw [mul_add]; omega
      _ ≤ _ := Nat.mul_le_mul_left _ ih

/-- A list put together from pieces of one length. -/
theorem getD_flatMap {α : Type} {c : Nat} (f : α → List Nat) {l : List α} (h : ∀ x ∈ l, (f x).length = c) {i j : Nat}
    (hi : i < l.length) (hj : j < c) : (l.flatMap f).getD (c * i + j) 0 = (f l[i]).getD j 0 := by
  induction l generalizing i with
  | nil => cases hi
  | cons x l ih =>
    have hx : (f x).length = c := h x (by simp)
    rw [List.flatMap_cons]
    cases i with
    | zero => rw [mul_zero, zero_add, List.getD_append _ _ _ _ (by omega), List.getElem_cons_zero]
    | succ i =>
      rw [List.getD_append_right _ _ _ _ (by rw [hx, mul_add]; omega), hx, show c * (i + 1) + j - c = c * i + j by rw [mul_add]; omega,
        ih (fun y hy => h y (List.mem_cons_of_mem _ hy)) (by simpa using hi), List.getElem_cons_succ]

/-- Lanes 8g to 8g + 7. -/
def groupOf (v : VWord) (g : Nat) : List Nat := ((lanes 16 v).drop (8 * g)).take 8

theorem getD_groupOf (v : VWord) {g i : Nat} (hg : g < 4) (hi : i < 8) : (groupOf v g).getD i 0 = laneAt 16 v (8 * g + i) := by
  rw [groupOf, List.getD_eq_getElem?_getD, List.getElem?_take_of_lt hi, List.getElem?_drop, ← List.getD_eq_getElem?_getD,
    getD_lanes _ _ (by omega)]

theorem groupOf_lt (v : VWord) (g n : Nat) : (groupOf v g).getD n 0 < 2 ^ 16 := by
  rw [List.getD_eq_getElem?_getD]
  cases h : (groupOf v g)[n]? with
  | none => simp
  | some y =>
    have hmem : y ∈ lanes 16 v := List.mem_of_mem_drop (List.mem_of_mem_take (List.mem_of_getElem? h))
    rw [lanes_eq] at hmem
    obtain ⟨m, -, rfl⟩ := List.mem_map.mp hmem
    exact laneAt_lt 16 v m

/-- The kept values of all groups, and their masks. -/
def packedValues (v : VWord) : List Nat := (List.range 4).flatMap (fun g => (compressGroup (groupOf v g)).1)
def packedMasks (v : VWord) : List Nat := (List.range 4).map (fun g => (compressGroup (groupOf v g)).2)

theorem length_values (v : VWord) (g : Nat) : (compressGroup (groupOf v g)).1.length = 4 := by
  rw [compressGroup_values, List.length_map, length_keptLanes]

theorem packedValues_lt (v : VWord) : ∀ x ∈ packedValues v, x < 2 ^ 16 := by
  intro x hx
  obtain ⟨g, -, hx⟩ := List.mem_flatMap.mp hx
  rw [compressGroup_values] at hx
  obtain ⟨n, -, rfl⟩ := List.mem_map.mp hx
  exact groupOf_lt v g n

theorem packedMasks_lt (v : VWord) : ∀ x ∈ packedMasks v, x < 2 ^ 8 := by
  intro x hx
  obtain ⟨g, -, rfl⟩ := List.mem_map.mp hx
  exact (compressGroup_mask _).1

/-- The register VCOMPRESS writes: sixteen words, then four masks. -/
def compressed (v : VWord) : VWord :=
  BitVec.ofNat 512 ((packedValues v).foldr (fun x a => x % 2 ^ 16 + 2 ^ 16 * a) 0
    + 2 ^ 256 * (packedMasks v).foldr (fun x a => x % 2 ^ 8 + 2 ^ 8 * a) 0)

theorem packedValues_fit (v : VWord) : (packedValues v).foldr (fun x a => x % 2 ^ 16 + 2 ^ 16 * a) 0 < 2 ^ 256 := by
  refine (foldr_digits_lt 16 (packedValues v)).trans_le (Nat.pow_le_pow_right (by decide) ?_)
  rw [packedValues, List.length_flatMap]
  simp [length_values]

theorem compressed_word (v : VWord) {n : Nat} (h : n < 16) : laneAt 16 (compressed v) n = (packedValues v).getD n 0 % 2 ^ 16 := by
  rw [compressed, laneAt_ofNat _ (by omega), ← field_of_mod _ (show 16 * n + 16 ≤ 256 by omega), Nat.add_mul_mod_self_left,
    Nat.mod_eq_of_lt (packedValues_fit v), digit_foldr]

theorem compressed_mask (v : VWord) {n : Nat} (h : n < 32) : laneAt 8 (compressed v) (32 + n) = (packedMasks v).getD n 0 % 2 ^ 8 := by
  rw [compressed, laneAt_ofNat _ (by omega), show 8 * (32 + n) = 256 + 8 * n by ring, pow_add, ← Nat.div_div_eq_div_mul,
    Nat.add_mul_div_left _ _ (Nat.two_pow_pos _), Nat.div_eq_of_lt (packedValues_fit v), zero_add, digit_foldr]

/-- The magnitudes of a group of lanes (R138). -/
def groupMag (v : VWord) (g i : Nat) : Nat := laneAt 16 v (8 * g + i) % 2 ^ 15

theorem keptLanes_groupOf (v : VWord) {g : Nat} (hg : g < 4) :
    keptLanes (fun l => (groupOf v g).getD l 0 % 2 ^ 15) = keptLanes (groupMag v g) :=
  keptLanes_congr fun i hi => by rw [getD_groupOf v hg hi, groupMag]

theorem keptLanes_lt (mag : Nat → Nat) : ∀ i ∈ keptLanes mag, i < 8 := fun _ hi => List.mem_range.mp (List.mem_of_mem_filter hi)

theorem packedValues_getD (v : VWord) {g j : Nat} (hg : g < 4) (hj : j < 4) :
    (packedValues v).getD (4 * g + j) 0 = laneAt 16 v (8 * g + (keptLanes (groupMag v g)).getD j 0) := by
  have hlen : j < (keptLanes (groupMag v g)).length := by rw [length_keptLanes]; exact hj
  rw [packedValues, getD_flatMap _ (fun g _ => length_values v g) (by simpa using hg) hj, List.getElem_range,
    compressGroup_values, keptLanes_groupOf v hg, List.getD_eq_getElem _ _ (by simpa using hlen), List.getElem_map,
    List.getD_eq_getElem _ _ hlen]
  exact getD_groupOf v hg (keptLanes_lt _ _ (List.getElem_mem hlen))

theorem packedMasks_testBit (v : VWord) {g i : Nat} (hg : g < 4) (hi : i < 8) :
    ((packedMasks v).getD g 0).testBit i = decide (i ∈ keptLanes (groupMag v g)) := by
  rw [packedMasks, getD_map_range _ _ hg, (compressGroup_mask _).2 i hi, ← keptLanes_groupOf v hg, kept_eq]
  simp only [mem_keptLanes, hi, true_and]

theorem compressed_group (v : VWord) {t : VWord} {g : Nat} (hg : g < 4) (ht : t = compressed v) :
    (keptLanes (groupMag v g)).length = 4
      ∧ (∀ j, j < 4 → laneAt 16 t (4 * g + j) = laneAt 16 v (8 * g + (keptLanes (groupMag v g)).getD j 0))
      ∧ ∀ i, i < 8 → (laneAt 8 t (32 + g)).testBit i = decide (i ∈ keptLanes (groupMag v g)) := by
  subst ht
  refine ⟨length_keptLanes _, fun j hj => ?_, fun i hi => ?_⟩
  · rw [compressed_word v (by omega), packedValues_getD v hg hj, laneAt_mod]
  · rw [compressed_mask v (by omega), Nat.testBit_mod_two_pow, decide_eq_true hi, Bool.true_and, packedMasks_testBit v hg hi]

theorem exec_vcompress {s : State} (hslot : s.InSlot) {d x : Reg} (hclean : s.Clean [] [x]) :
    ∃ t, exec (.vcompress d x) s = .next t ∧ t.v d = compressed (s.v x) := by
  refine ⟨_, rfl, ?_⟩
  rw [slotOnly_slot hslot, guardP_clean hclean, v_advance, State.v, my_setMy, vreg_cleanV, vreg_setV_same, compressed,
    ← foldr_digits (packedValues_lt _), ← foldr_digits (packedMasks_lt _), upto_zero, List.flatMap_map, List.map_map]
  rfl

theorem compressResult : Claim.CompressResult := by
  intro s d x hslot hclean
  obtain ⟨t, hexec, hv⟩ := exec_vcompress (d := d) hslot hclean
  refine ⟨t, hexec, fun g hg => ?_, fun n hlow hhigh => ?_⟩
  · exact compressed_group (s.v x) hg hv
  · rw [hv]
    obtain ⟨m, rfl⟩ : ∃ m, n = 32 + m := ⟨n - 32, by omega⟩
    rw [compressed_mask _ (by omega), List.getD_eq_default]
    · rfl
    · simp only [packedMasks, List.length_map, List.length_range]
      omega

/-- Settles O25: the tree by its levels, the moves lane by lane, and VCOMPRESS by the rank of each lane in its group. -/
theorem vectorMovesAndReductions : Obligations.VectorMovesAndReductions := by
  unfold Obligations.VectorMovesAndReductions
  exact ⟨reductionResults, permuteResults, compressResult⟩

end Sys2Proof.Proofs.VectorMoves

/-! SUPPORT. The conversions position by position, with the flags they add (R107, R115, R134). -/

namespace Sys2Proof.Proofs.Conversions

open Machine Lanes

/-! ### Sixteen positions on the wide and on the narrow side (R134) -/

theorem sixteen_lanes {w h : Nat} (v : VWord) (hfit : 16 * h + 16 ≤ 512 / w) :
    sixteen (lanes w v) h = (List.range 16).map (fun n => laneAt w v (16 * h + n)) := by
  apply List.ext_getElem
  · simp [sixteen]
    omega
  · intro n hn hn'
    simp [sixteen, lanes_eq]

/-- Sixteen entries among fillers. -/
theorem getD_padded {α : Type} (z : α) {l : List α} (hl : l.length = 16) (a b n : Nat) :
    (List.replicate a z ++ l ++ List.replicate b z).getD n z = if a ≤ n ∧ n < a + 16 then l.getD (n - a) z else z := by
  simp only [List.getD_eq_getElem?_getD]
  by_cases hlow : n < a
  · rw [if_neg (by omega), List.append_assoc, List.getElem?_append_left (by simpa using hlow)]
    simp [hlow]
  · by_cases hhigh : n < a + 16
    · rw [if_pos (by omega), List.getElem?_append_left (by simp; omega), List.getElem?_append_right (by simp; omega),
        List.length_replicate]
    · rw [if_neg (by omega), List.getElem?_append_right (by simp; omega), List.getElem?_replicate]
      split <;> rfl

/-- A conversion to 32-bit lanes. -/
theorem widen_lanes {s : State} {i : Instr} {d x : Reg} {q : PReg} {src : List Nat} {f : Nat → Nat × Nat}
    (hslot : s.InSlot) (hclean : s.Clean [] [x]) (a : Nat → Nat) (hsrc : src = (List.range 16).map a) :
    CompletesWith (opWiden s i d x q src f) (fun t => VecResult 32 (s.q q) (s.v d) (t.v d) (fun n => (f (a n)).1)
      ∧ FlagsAdded 32 (s.q q) 16 (s.my.cwv cwFFLAGS) (t.my.cwv cwFFLAGS) (fun n => (f (a n)).2)) :=
  float_lanes (w := 32) hslot hclean (fun n => f (a n)) (by rw [hsrc, List.map_map]; rfl)

/-- The lanes of vd after a conversion to lanes 16h to 16h + 15 of width w. -/
def NarrowResult (w h : Nat) (q : Word) (old new : VWord) (f : Nat → Nat) : Prop :=
  ∀ n, n < 512 / w → laneAt w new n
    = if 16 * h ≤ n ∧ n < 16 * h + 16 ∧ laneOn 32 q (n - 16 * h) = true then f (n - 16 * h) % 2 ^ w else laneAt w old n

/-- A conversion to narrow lanes. -/
theorem narrow_lanes {s : State} {i : Instr} {w h : Nat} {d x : Reg} {q : PReg} {f : Nat → Nat × Nat}
    (hslot : s.InSlot) (hclean : s.Clean [] [x]) (hfit : 16 * h + 16 ≤ 512 / w) :
    CompletesWith (opNarrow s i w h d x q f) (fun t =>
      NarrowResult w h (s.q q) (s.v d) (t.v d) (fun n => (f (laneAt 32 (s.v x) n)).1)
      ∧ FlagsAdded 32 (s.q q) 16 (s.my.cwv cwFFLAGS) (t.my.cwv cwFFLAGS) (fun n => (f (laneAt 32 (s.v x) n)).2)) := by
  refine ⟨_, rfl, ?_⟩
  rw [slotOnly_slot hslot, guardP_clean hclean]
  constructor
  · intro n hn
    rw [v_advance, v_addFlags, laneAt_setLanes s d (by simp [narrowAct]; omega) (by simp [narrowNew]; omega) hn, narrowAct,
      narrowNew, getD_padded false (length_actives 32 _), getD_padded 0 (by simp)]
    by_cases hin : 16 * h ≤ n ∧ n < 16 * h + 16
    · have hpos : n - 16 * h < 512 / 32 := by omega
      rw [if_pos hin, if_pos hin, getD_actives _ _ hpos, map_lanes, List.map_map, getD_map_range _ _ hpos]
      simp only [hin, true_and, Function.comp]
    · rw [if_neg hin, if_neg (by simp), if_neg (fun hall => hin ⟨hall.1, hall.2.1⟩)]
  · intro k hk
    rw [my_advance, fflags_advance, fflags_addFlags, fflags_setLanes, getLsbD_or_flags _ _ hk, map_lanes,
      testBit_laneFlags_map]

/-- Of a form's results and flags, the results or the flags alone. -/
theorem completes_lanes {o : Out} {p r : State → Prop} (h : CompletesWith o (fun t => p t ∧ r t)) : CompletesWith o p := by
  obtain ⟨t, hexec, hp, -⟩ := h
  exact ⟨t, hexec, hp⟩

theorem completes_flags {o : Out} {p r : State → Prop} (h : CompletesWith o (fun t => p t ∧ r t)) : CompletesWith o r := by
  obtain ⟨t, hexec, -, hr⟩ := h
  exact ⟨t, hexec, hr⟩

theorem half_fits (h : BitVec 1) : 16 * h.toNat + 16 ≤ 512 / 16 := by have := h.isLt; omega
theorem quarter_fits (h : BitVec 2) : 16 * h.toNat + 16 ≤ 512 / 8 := by have := h.isLt; omega

theorem conversionResults : Claim.ConversionResults := by
  intro s d x q h1 h2 hslot hclean
  refine ⟨?_, ?_, ?_, ?_, ?_, ?_, ?_⟩
  · exact completes_lanes (widen_lanes hslot hclean _ (sixteen_lanes _ (half_fits h1)))
  · exact completes_lanes (narrow_lanes hslot hclean (half_fits h1))
  · exact completes_lanes (widen_lanes hslot hclean _ (lanes_eq _ _))
  · exact completes_lanes (widen_lanes hslot hclean _ (lanes_eq _ _))
  · exact completes_lanes (narrow_lanes hslot hclean (quarter_fits h2))
  · exact completes_lanes (narrow_lanes hslot hclean (quarter_fits h2))
  · exact completes_lanes (widen_lanes hslot hclean _ (sixteen_lanes _ (quarter_fits h2)))

end Sys2Proof.Proofs.Conversions

/-! SUPPORT. VTOPK: candidates sorted by insertion, and the registers that take them (R136, R137). -/

namespace Sys2Proof.Proofs.Topk

open Machine Lanes

/-! ### The order of candidates (R137) -/

theorem candLt_iff (a b : Cand) : candLt a b = true ↔ candKey b.val < candKey a.val
    ∨ candKey a.val = candKey b.val ∧ (a.idx < b.idx ∨ a.idx = b.idx ∧ a.fresh.toNat < b.fresh.toNat) := by
  cases ha : a.fresh <;> cases hb : b.fresh <;> simp [candLt, ha, hb]

/-- a stands before b or may. -/
def NotAfter (a b : Cand) : Prop := candLt b a = false

theorem notAfter_iff (a b : Cand) : NotAfter a b ↔ ¬ candLt b a = true := by simp [NotAfter]

theorem NotAfter.trans {a b c : Cand} (hab : NotAfter a b) (hbc : NotAfter b c) : NotAfter a c := by
  rw [notAfter_iff, candLt_iff] at *
  omega

theorem notAfter_of_candLt {a b : Cand} (h : candLt a b = true) : NotAfter a b := by
  rw [notAfter_iff, candLt_iff]
  rw [candLt_iff] at h
  omega

/-! ### Insertion -/

theorem candIns_perm (c : Cand) (l : List Cand) : (candIns c l).Perm (c :: l) := by
  induction l with
  | nil => exact List.Perm.refl _
  | cons d t ih =>
    rw [candIns]
    split
    · exact (ih.cons d).trans (List.Perm.swap c d t)
    · exact List.Perm.refl _

theorem candIns_sorted (c : Cand) {l : List Cand} (h : l.Pairwise NotAfter) : (candIns c l).Pairwise NotAfter := by
  induction l with
  | nil => exact List.pairwise_singleton _ _
  | cons d t ih =>
    obtain ⟨hd, ht⟩ := List.pairwise_cons.mp h
    rw [candIns]
    split
    · rename_i hbefore
      have hdc : NotAfter d c := by
        rcases Bool.or_eq_true _ _ |>.mp hbefore with hlt | hnot
        · exact notAfter_of_candLt hlt
        · simpa [NotAfter] using hnot
      refine List.pairwise_cons.mpr ⟨fun e he => ?_, ih ht⟩
      rcases List.mem_cons.mp ((candIns_perm c t).mem_iff.mp he) with rfl | he
      · exact hdc
      · exact hd e he
    · rename_i hafter
      have hcd : NotAfter c d := by
        rw [NotAfter]
        simp only [Bool.or_eq_true, not_or, Bool.not_eq_true] at hafter
        exact hafter.1
      refine List.pairwise_cons.mpr ⟨fun e he => ?_, h⟩
      rcases List.mem_cons.mp he with rfl | he
      · exact hcd
      · exact hcd.trans (hd e he)

theorem candSort_spec (l : List Cand) : (candSort l).Perm l ∧ (candSort l).Pairwise NotAfter := by
  have hfold : ∀ (l acc : List Cand), acc.Pairwise NotAfter → (l.foldl (fun a c => candIns c a) acc).Perm (acc ++ l)
      ∧ (l.foldl (fun a c => candIns c a) acc).Pairwise NotAfter := by
    intro l
    induction l with
    | nil => exact fun acc hacc => ⟨by simp, hacc⟩
    | cons c l ih =>
      intro acc hacc
      obtain ⟨hperm, hsorted⟩ := ih (candIns c acc) (candIns_sorted c hacc)
      refine ⟨hperm.trans ?_, hsorted⟩
      exact ((candIns_perm c acc).append_right l).trans List.perm_middle.symm
  exact hfold l [] List.Pairwise.nil

/-! ### The descriptor and the registers (R136) -/

theorem descriptor_k (w : Word) : bits w 7 0 = w.toNat % 256 := by
  rw [bits, bitsN, pow_zero, Nat.div_one]
  rfl
theorem descriptor_cnt (w : Word) : bits w 15 8 = w.toNat / 256 % 256 := rfl
theorem descriptor_base (w : Word) : bits w 63 32 = w.toNat / 2 ^ 32 := by
  have := w.isLt
  rw [bits, bitsN]
  exact Nat.mod_eq_of_lt (by omega)

/-- Entries, then fillers up to sixteen. -/
theorem getD_filled (f : Cand → Nat) (z : Nat) {l : List Cand} (hl : l.length ≤ 16) {j : Nat} (hj : j < 16) :
    (l.map f ++ List.replicate (16 - l.length) z).getD j 0 = (l[j]?.map f).getD z := by
  rw [List.getD_eq_getElem?_getD]
  by_cases h : j < l.length
  · rw [List.getElem?_append_left (by simpa using h), List.getElem?_map, List.getElem?_eq_getElem h]
    rfl
  · rw [List.getElem?_append_right (by simpa using h), List.getElem?_eq_none (l := l) (by omega), List.length_map,
      List.getElem?_replicate_of_lt (by omega)]
    rfl

theorem v_done (s : State) (gd : Reg) (w : Word) (r : Reg) : (s.done gd w).v r = s.v r := by
  rw [State.v, my_done, vreg_advance, vreg_setG, State.v]

/-- Vector registers written before gd. -/
theorem regFrame_done_of_vectors {vs : List Reg} {s t : State} (h : Writes [] [] vs [] s t) (gd : Reg) (w : Word) :
    RegFrame [gd] [] vs [] s (t.done gd w) := by
  obtain ⟨honly, hkeeps, hpast⟩ := regFrame_done t gd w
  exact ⟨h.only.trans honly, (h.keeps.mono (by simp) (by simp) (by simp) (by simp)).trans
    (hkeeps.mono (by simp) (by simp) (by simp) (by simp)), h.spot.past hpast⟩

theorem pair_ne (d : Reg) : d ≠ d + 1 := by
  intro h
  have := congrArg BitVec.toNat h
  have hlt := d.isLt
  rw [BitVec.toNat_add] at this
  simp at this
  omega

/-- What VTOPK leaves once its candidates are in order. -/
def topkState (s : State) (d g : Reg) (l : List Cand) (base k : Nat) : State :=
  ((s.setAll d 32 (l.map (fun c => c.val) ++ List.replicate (16 - l.length) 0xFF800000)).setAll (pairOf d) 32
    (l.map (fun c => c.idx) ++ List.replicate (16 - l.length) 0xFFFFFFFF)).done g
    (word ((base + 16) % 2 ^ 32 * 2 ^ 32 + l.length * 2 ^ 8 + k))

theorem topkState_lanes (s : State) (d g : Reg) {l : List Cand} (base k : Nat) (hl : l.length ≤ 16) {j : Nat} (hj : j < 16) :
    laneAt 32 ((topkState s d g l base k).v d) j = (l[j]?.map (fun c => c.val)).getD 0xFF800000 % 2 ^ 32
      ∧ laneAt 32 ((topkState s d g l base k).v (d + 1)) j = (l[j]?.map (fun c => c.idx)).getD 0xFFFFFFFF % 2 ^ 32 := by
  have hfill : ∀ (f : Cand → Nat) (z : Nat), (l.map f ++ List.replicate (16 - l.length) z).length = 512 / 32 := by
    intro f z
    simp
    omega
  rw [topkState, v_done, v_done]
  constructor
  · rw [v_setAll_other _ (vd := pairOf d) _ _ (pair_ne d), laneAt_setAll s d (hfill _ _) hj, getD_filled _ _ hl hj]
  · exact (laneAt_setAll _ (pairOf d) (hfill _ _) hj).trans (by rw [getD_filled _ _ hl hj])

theorem topkState_frame (s : State) (d g : Reg) (l : List Cand) (base k : Nat) :
    RegFrame [g] [] [d, d + 1] [] s (topkState s d g l base k) :=
  regFrame_done_of_vectors (((writes_setAll s d 32 _).mono (by simp) (by simp) (by simp) (by simp)).trans
    ((writes_setAll _ (pairOf d) 32 _).mono (by simp) (by simp) (by simp [pairOf]) (by simp))) g _

theorem opTopk_fault {s : State} {i : Instr} {d x g : Reg} {q : PReg} {nz : Bool} (hslot : s.InSlot)
    (hclean : s.Clean [g] [x, d, pairOf d]) (h : 16 < (s.g g).toNat % 256 ∨ (s.g g).toNat % 256 < (s.g g).toNat / 256 % 256) :
    opTopk s i d x g q nz = .next (s.raise 0x06 (s.g g)) := by
  unfold opTopk
  dsimp only
  rw [slotOnly_slot hslot, guardP_clean hclean, descriptor_k, descriptor_cnt, if_pos h]

theorem opTopk_runs {s : State} {i : Instr} {d x g : Reg} {q : PReg} {nz : Bool} (hslot : s.InSlot)
    (hclean : s.Clean [g] [x, d, pairOf d])
    (h : ¬ (16 < (s.g g).toNat % 256 ∨ (s.g g).toNat % 256 < (s.g g).toNat / 256 % 256)) :
    opTopk s i d x g q nz = .next (topkState s d g
      ((candSort (s.cands d x q nz ((s.g g).toNat / 2 ^ 32) ((s.g g).toNat / 256 % 256))).take ((s.g g).toNat % 256))
      ((s.g g).toNat / 2 ^ 32) ((s.g g).toNat % 256)) := by
  unfold opTopk
  dsimp only
  rw [slotOnly_slot hslot, guardP_clean hclean, descriptor_k, descriptor_cnt, descriptor_base, if_neg h]
  rfl

theorem exec_topk (s : State) (d x g : Reg) (q : PReg) (nz : Bool) :
    ∃ i, exec (if nz then .vtopkNz d x g q else .vtopk d x g q) s = opTopk s i d x g q nz := by
  cases nz <;> exact ⟨_, rfl⟩

theorem topkResults : Claim.TopkResults := by
  intro s d x g q nz hslot hclean _ i k cnt base
  obtain ⟨j, hexec⟩ := exec_topk s d x g q nz
  refine ⟨fun hbad => hexec.trans (opTopk_fault hslot hclean hbad), fun hk hcnt => ?_⟩
  obtain ⟨hperm, hsorted⟩ := candSort_spec (s.cands d x q nz base cnt)
  have hparts := List.take_append_drop k (candSort (s.cands d x q nz base cnt))
  have hlen : ((candSort (s.cands d x q nz base cnt)).take k).length = min k (s.cands d x q nz base cnt).length := by
    rw [List.length_take, hperm.length_eq]
  have hrun : exec i s = .next (topkState s d g ((candSort (s.cands d x q nz base cnt)).take k) base k) :=
    hexec.trans (opTopk_runs hslot hclean (by omega))
  rw [← hparts] at hperm hsorted
  generalize (candSort (s.cands d x q nz base cnt)).take k = l at *
  generalize (candSort (s.cands d x q nz base cnt)).drop k = r at *
  obtain ⟨hl, -, hlr⟩ := List.pairwise_append.mp hsorted
  refine ⟨_, l, r, hrun, hperm, hlen, hl, hlr, fun j hj => ?_, fun hg => ?_, topkState_frame s d g l base k⟩
  · obtain ⟨hval, hidx⟩ := topkState_lanes s d g base k (l := l) (by omega) hj
    rw [hval, hidx]
    cases l[j]? <;> exact ⟨rfl, rfl⟩
  · rw [topkState, g_done, if_neg hg]
    rfl

/-- Settles O26: the conversions by their sixteen positions, VTOPK by insertion into a sorted list. -/
theorem vectorConversionsAndTopk : Obligations.VectorConversionsAndTopk := by
  unfold Obligations.VectorConversionsAndTopk
  exact ⟨Conversions.conversionResults, topkResults⟩

end Sys2Proof.Proofs.Topk

/-! SUPPORT. The results and flags of the rounding conversions as numbers (R107, R108, R115). -/

namespace Sys2Proof.Proofs.ConversionFlags

open Machine Lanes Rounding Conversions

/-! ### Which conversions add flags (R107) -/

theorem flags_of_forms {s : State} (d : Reg) {x : Reg} (q : PReg) (h1 : BitVec 1) (h2 : BitVec 2) (hslot : s.InSlot)
    (hclean : s.Clean [] [x]) :
    let flags : Instr → (Nat → Nat) → Prop := fun i f => CompletesWith (exec i s) (fun t =>
      FlagsAdded 32 (s.q q) 16 (s.my.cwv cwFFLAGS) (t.my.cwv cwFFLAGS) f)
    flags (.vcvtBf16F32 d x h1 q) (fun n => (cvtBf16 s.frm (laneAt 32 (s.v x) n)).2)
    ∧ flags (.vcvtF32I32 d x q) (fun n => (cvtF32 s.frm (slaneAt 32 (s.v x) n)).2)
    ∧ flags (.vcvtI32F32 d x q) (fun n => (cvtI32 s.frm (laneAt 32 (s.v x) n)).2)
    ∧ ∀ i ∈ [Instr.vcvtF32Bf16 d x h1 q, .vcvtI8I32 d x h2 q, .vcvtUi8I32 d x h2 q, .vcvtI32I8 d x h2 q],
      flags i (fun _ => 0) := by
  refine ⟨?_, ?_, ?_, fun i hi => ?_⟩
  · exact completes_flags (narrow_lanes hslot hclean (half_fits h1))
  · exact completes_flags (widen_lanes hslot hclean _ (lanes_eq _ _))
  · exact completes_flags (widen_lanes hslot hclean _ (lanes_eq _ _))
  · simp only [List.mem_cons, List.not_mem_nil, or_false] at hi
    rcases hi with rfl | rfl | rfl | rfl
    · exact completes_flags (widen_lanes hslot hclean _ (sixteen_lanes _ (half_fits h1)))
    · exact completes_flags (narrow_lanes hslot hclean (quarter_fits h2))
    · exact completes_flags (narrow_lanes hslot hclean (quarter_fits h2))
    · exact completes_flags (widen_lanes hslot hclean _ (sixteen_lanes _ (quarter_fits h2)))

/-! ### NaN operands -/

theorem fval_nan {a : Nat} (h : 0x7F800000 < a % 2 ^ 31) : fval 23 a = .nan (decide (a % 2 ^ 31 < 0x7FC00000)) := by
  have hexp : a / 2 ^ 23 % 256 = 255 := by omega
  have hfrac : a % 2 ^ 23 ≠ 0 := by omega
  simp only [fval, if_pos hexp, if_neg hfrac, FV.nan.injEq, decide_eq_decide]
  omega

theorem cvtBf16_nan {a : Nat} (rm : Nat) (h : 0x7F800000 < a % 2 ^ 31) :
    cvtBf16 rm a = (0x7FC0, if a % 2 ^ 31 < 0x7FC00000 then 1 else 0) := by
  simp [cvtBf16, fval_nan h, fNaN, flNV]

theorem cvtI32_nan {a : Nat} (rm : Nat) (h : 0x7F800000 < a % 2 ^ 31) : cvtI32 rm a = (0, 1) := by
  simp [cvtI32, fval_nan h, flNV]

/-! ### FP32 to BF16 -/

/-- An overflow that comes of rounding up is an infinity. -/
theorem fOver_of_roundUp {p rm k r d : Nat} {neg : Bool} (h : roundUp rm neg k r d = true) : fOver p rm neg = fInf p neg := by
  match rm with
  | 0 => rfl
  | 1 => cases h
  | 2 => cases neg with
    | false => rfl
    | true => rw [roundUp_up] at h; simp at h
  | n + 3 => cases neg with
    | true => rfl
    | false =>
      have hdown : (r != 0 && false) = true := h
      simp at hdown

section
variable {a m : Nat} {neg : Bool} {e : Int}

/-- BF16 keeps sixteen places fewer than FP32, subnormals too. -/
theorem lastPlace_bf16 (h : Fields a neg m e) (hm : 0 < m) : lastPlace 7 m e = e + 16 := by
  have hlog : Nat.log2 m < 24 := (Nat.log2_lt hm.ne').mpr h.lt
  have hlow := h.low
  unfold lastPlace
  by_cases hsub : e = -149
  · omega
  · have hfull : 23 ≤ Nat.log2 m := (Nat.le_log2 hm.ne').mpr (h.normal (by omega))
    omega

/-- The upper half of the pattern holds sign, exponent and the upper part of the significand. -/
theorem upper_half (h : Fields a neg m e) (k : Nat) :
    neg.toNat * 2 ^ 15 + magnitude 7 (e + 16) (m / 2 ^ 16 + k) = a / 2 ^ 16 + k := by
  have hbits := h.bits
  have hlow := h.low
  unfold magnitude at *
  omega

theorem upper_half_parity (h : Fields a neg m e) : m / 2 ^ 16 % 2 = a / 2 ^ 16 % 2 := by
  have hbits := h.bits
  unfold magnitude at *
  omega

theorem lower_half (h : Fields a neg m e) : rest m 16 = a % 2 ^ 16 := by
  have hbits := h.bits
  change m % 2 ^ 16 = _
  unfold magnitude at *
  omega

theorem magnitude_bound (h : Fields a neg m e) : magnitude 7 (e + 16) (m / 2 ^ 16) < 255 * 2 ^ 7 := by
  have hsmall := h.small
  have hlow := h.low
  unfold magnitude at *
  omega

theorem cvtBf16_fin (h : Fields a neg m e) (hm : 0 < m) (rm : Nat) :
    cvtBf16 rm a = packed 7 rm neg (e + 16) (rounded rm neg m 16) (a % 2 ^ 16 != 0) := by
  rw [cvtBf16, h.fval_eq]
  dsimp only
  rw [if_neg hm.ne', fround_eq 7 rm neg hm, lastPlace_bf16 h hm, show e + 16 - e = 16 by ring, lower_half h]

/-- Where the lower half is zero, the upper half is the result. -/
theorem cvtBf16_exact (h : Fields a neg m e) (rm : Nat) (hlow : a % 2 ^ 16 = 0) : cvtBf16 rm a = (a / 2 ^ 16, 0) := by
  have hmag := upper_half h 0
  rcases Nat.eq_zero_or_pos m with rfl | hm
  · have he : e = -149 := by
      have := h.low
      have := h.normal
      omega
    subst he
    rw [cvtBf16, h.fval_eq, ← hmag.trans (Nat.add_zero _)]
    simp [fZero, magnitude]
  · rw [cvtBf16_fin h hm, rounded_exact ((lower_half h).trans hlow), packed, show cut m 16 = m / 2 ^ 16 from rfl,
      if_neg (not_le.mpr (magnitude_bound h)), hlow]
    simpa using hmag

/-- Packing an inexact BF16 result: its flags follow from its bits. -/
theorem packed_bf16 {rm : Nat} {neg : Bool} {q : Int} {k : Nat} (hle : magnitude 7 q k ≤ 0x7F80)
    (hover : magnitude 7 q k = 0x7F80 → fOver 7 rm neg = fInf 7 neg) :
    packed 7 rm neg q k true = (neg.toNat * 2 ^ 15 + magnitude 7 q k,
      roundFlags true ((neg.toNat * 2 ^ 15 + magnitude 7 q k) % 2 ^ 15 == 0x7F80)
        (decide ((neg.toNat * 2 ^ 15 + magnitude 7 q k) % 2 ^ 15 < 2 ^ 7))) := by
  have hmod : (neg.toNat * 2 ^ 15 + magnitude 7 q k) % 2 ^ 15 = magnitude 7 q k := by omega
  rw [hmod, packed]
  generalize magnitude 7 q k = M at *
  by_cases hinf : M = 0x7F80
  · subst hinf
    rw [hover rfl]
    cases neg <;> rfl
  · have hfin : ¬ 255 * 2 ^ 7 ≤ M := by omega
    rw [if_neg hfin]
    simp [roundFlags, hinf]

/-- Elsewhere it is rounded, and a carry moves on into the exponent. -/
theorem cvtBf16_inexact (h : Fields a neg m e) (rm : Nat) (hlow : a % 2 ^ 16 ≠ 0) {up : Bool}
    (hup : roundUp rm neg (m / 2 ^ 16) (a % 2 ^ 16) 16 = up) :
    let r := a / 2 ^ 16 + (if up then 1 else 0)
    cvtBf16 rm a = (r, roundFlags true (r % 2 ^ 15 == 0x7F80) (decide (r % 2 ^ 15 < 2 ^ 7))) := by
  have hbound := magnitude_bound h
  have hmag := upper_half h (if up then 1 else 0)
  have hrest := lower_half h
  have hm : 0 < m := by
    rcases Nat.eq_zero_or_pos m with rfl | hm
    · exact absurd hrest.symm hlow
    · exact hm
  have hround : rounded rm neg m 16 = m / 2 ^ 16 + (if up then 1 else 0) := by
    rw [rounded, hrest, show cut m 16 = m / 2 ^ 16 from rfl, show (16 : Int).toNat = 16 from rfl, hup, bne_iff_ne.mpr hlow,
      Bool.true_and]
    split <;> rfl
  dsimp only
  rw [← hmag, cvtBf16_fin h hm, hround, bne_iff_ne.mpr hlow]
  cases up with
  | false =>
    simp only [Bool.false_eq_true, if_false, Nat.add_zero] at *
    exact packed_bf16 (by omega) (fun _ => by omega)
  | true =>
    simp only [if_true] at *
    exact packed_bf16 (by unfold magnitude at *; omega) (fun _ => fOver_of_roundUp hup)

end

/-! ### FP32 to integer -/

/-- The value cut at the binary point. -/
theorem cut_bounds (m : Nat) (e : Int) : (m : ℚ) * 2 ^ e = cut m (-e) + (rest m (-e) : ℚ) / 2 ^ (-e).toNat
    ∧ 0 ≤ (rest m (-e) : ℚ) / 2 ^ (-e).toNat ∧ (rest m (-e) : ℚ) / 2 ^ (-e).toNat < 1 := by
  refine ⟨?_, by positivity, frac_lt m (-e)⟩
  rw [← scaled_eq, neg_neg]

theorem nat_eq_of_bounds {x : ℚ} {c : Nat} {n : Int} (hx : (c : ℚ) ≤ x) (hx' : x < c + 1) (h : (n : ℚ) ≤ x) (h' : x < n + 1) :
    n = c := by
  have h1 : (n : ℚ) < c + 1 := by linarith
  have h2 : (c : ℚ) < n + 1 := by linarith
  have h1' : n < (c : Int) + 1 := by exact_mod_cast h1
  have h2' : (c : Int) < n + 1 := by exact_mod_cast h2
  omega

theorem frac_eq_zero_iff (m : Nat) (s : Int) : (rest m s : ℚ) / 2 ^ s.toNat = 0 ↔ rest m s = 0 := by
  have : (2 : ℚ) ^ s.toNat ≠ 0 := by positivity
  simp [div_eq_zero_iff, this]

/-- The integer below. -/
theorem rounded_down {rm : Nat} {neg : Bool} {m : Nat} {e n : Int} (hmode : ∀ k r d, roundUp rm neg k r d = false)
    (h : (n : ℚ) ≤ m * 2 ^ e) (h' : (m : ℚ) * 2 ^ e < n + 1) : n = rounded rm neg m (-e) := by
  obtain ⟨heq, hpos, hlt⟩ := cut_bounds m e
  rw [rounded, hmode, Bool.and_false, if_neg (by simp)]
  exact nat_eq_of_bounds (by linarith) (by linarith) h h'

/-- The integer above. -/
theorem rounded_up {rm : Nat} {neg : Bool} {m : Nat} {e n : Int} (hmode : ∀ k r d, roundUp rm neg k r d = (r != 0))
    (h : (m : ℚ) * 2 ^ e ≤ n) (h' : (n : ℚ) < m * 2 ^ e + 1) : n = rounded rm neg m (-e) := by
  obtain ⟨heq, hpos, hlt⟩ := cut_bounds m e
  have hzero := frac_eq_zero_iff m (-e)
  rw [rounded, hmode, Bool.and_self]
  by_cases hr : rest m (-e) = 0
  · rw [if_neg (by simp [hr])]
    rw [hzero.mpr hr] at heq
    exact nat_eq_of_bounds (x := n) (by linarith) (by linarith) le_rfl (by linarith)
  · have hne : (rest m (-e) : ℚ) / 2 ^ (-e).toNat ≠ 0 := fun h0 => hr (hzero.mp h0)
    have hpos' := lt_of_le_of_ne hpos hne.symm
    rw [if_pos (by simpa using hr)]
    have h1 : (cut m (-e) : ℚ) < n := by linarith
    have h2 : (n : ℚ) < cut m (-e) + 2 := by linarith
    have h1' : (cut m (-e) : Int) < n := by exact_mod_cast h1
    have h2' : n < (cut m (-e) : Int) + 2 := by exact_mod_cast h2
    push_cast
    omega

/-- Above a half, and a half, as whole numbers and as fractions. -/
theorem half_iff (m : Nat) (s : Int) :
    (2 ^ s.toNat < 2 * rest m s ↔ 1 / 2 < (rest m s : ℚ) / 2 ^ s.toNat)
      ∧ (2 * rest m s = 2 ^ s.toNat ↔ (rest m s : ℚ) / 2 ^ s.toNat = 1 / 2) := by
  have hd : (0 : ℚ) < 2 ^ s.toNat := by positivity
  constructor
  · rw [lt_div_iff₀ hd, ← @Nat.cast_lt ℚ]
    push_cast
    constructor <;> intro h <;> linarith
  · rw [div_eq_iff hd.ne', ← @Nat.cast_inj ℚ]
    push_cast
    constructor <;> intro h <;> linarith

/-- The nearest integer, the even one of two. -/
theorem rounded_near {neg : Bool} {m : Nat} {e n : Int}
    (h : |(m : ℚ) * 2 ^ e - n| < 1 / 2 ∨ |(m : ℚ) * 2 ^ e - n| = 1 / 2 ∧ n % 2 = 0) : n = rounded 0 neg m (-e) := by
  obtain ⟨heq, hpos, hlt⟩ := cut_bounds m e
  obtain ⟨hgt, htie⟩ := half_iff m (-e)
  have hzero := frac_eq_zero_iff m (-e)
  rw [rounded, roundUp_nearest]
  rw [heq] at h
  generalize (rest m (-e) : ℚ) / 2 ^ (-e).toNat = ρ at *
  have hnear : |(cut m (-e) : ℚ) + ρ - n| ≤ 1 / 2 := by
    rcases h with h | h
    · exact h.le
    · exact h.1.le
  obtain ⟨hlo, hhi⟩ := abs_le.mp hnear
  have h1 : (cut m (-e) : ℚ) - 1 < n := by linarith
  have h2 : (n : ℚ) < cut m (-e) + 2 := by linarith
  have h1' : (cut m (-e) : Int) - 1 < n := by exact_mod_cast h1
  have h2' : n < (cut m (-e) : Int) + 2 := by exact_mod_cast h2
  obtain hn | hn : n = cut m (-e) ∨ n = cut m (-e) + 1 := by omega
  · subst hn
    have hcast : (cut m (-e) : ℚ) + ρ - ((cut m (-e) : Int) : ℚ) = ρ := by push_cast; ring
    rw [hcast, abs_of_nonneg hpos] at h
    rw [if_neg]
    simp only [Bool.and_eq_true, Bool.or_eq_true, decide_eq_true_eq, beq_iff_eq, hgt, htie, not_and, not_or]
    intro _
    rcases h with h | ⟨h, heven⟩
    · exact ⟨by linarith, fun h0 => by linarith⟩
    · exact ⟨by linarith, fun _ => by omega⟩
  · subst hn
    have hcast : (cut m (-e) : ℚ) + ρ - (((cut m (-e) : Int) + 1 : Int) : ℚ) = ρ - 1 := by push_cast; ring
    rw [hcast, abs_of_neg (by linarith)] at h
    have hne : rest m (-e) ≠ 0 := fun h0 => by
      rw [hzero.mpr h0] at h hlo
      push_cast at hlo
      linarith
    rw [if_pos]
    · push_cast
      rfl
    simp only [Bool.and_eq_true, Bool.or_eq_true, decide_eq_true_eq, beq_iff_eq, bne_iff_ne, hgt, htie]
    refine ⟨hne, ?_⟩
    rcases h with h | ⟨h, heven⟩
    · exact Or.inl (by linarith)
    · exact Or.inr ⟨by linarith, by omega⟩

/-- v rounded to an integer n in a mode (R115). -/
def RoundsTo (rm : Nat) (v : ℚ) (n : Int) : Prop :=
  match rm with
  | 0 => |v - n| < 1 / 2 ∨ (|v - n| = 1 / 2 ∧ n % 2 = 0)
  | 1 => |(n : ℚ)| ≤ |v| ∧ |v| < |(n : ℚ)| + 1 ∧ 0 ≤ v * n
  | 2 => v ≤ n ∧ (n : ℚ) < v + 1
  | _ => (n : ℚ) ≤ v ∧ v < n + 1

/-- A number with the sign of another one's magnitude. -/
def withSign (neg : Bool) (n : Int) : Int := if neg then -n else n

theorem roundsTo_unique {rm m : Nat} {neg : Bool} {e n : Int} (hrm : rm < 4)
    (h : RoundsTo rm (signOf neg * m * 2 ^ e) n) : n = withSign neg (rounded rm neg m (-e)) := by
  have hx : (0 : ℚ) ≤ (m : ℚ) * 2 ^ e := by positivity
  rw [mul_assoc] at h
  interval_cases rm
  · have hmag : withSign neg n = rounded 0 neg m (-e) := by
      apply rounded_near
      cases neg with
      | false => simpa [RoundsTo, signOf, withSign] using h
      | true =>
        have hflip : |(m : ℚ) * 2 ^ e - ((-n : Int) : ℚ)| = |-1 * ((m : ℚ) * 2 ^ e) - n| := by
          rw [← abs_neg]
          congr 1
          push_cast
          ring
        rcases h with h | ⟨h, heven⟩
        · exact Or.inl (hflip.trans_lt h)
        · exact Or.inr ⟨hflip.trans h, by simp only [withSign, if_true]; omega⟩
    rw [← hmag]
    cases neg <;> simp [withSign]
  · obtain ⟨hle, hlt, hsame⟩ := h
    have habs : |signOf neg * ((m : ℚ) * 2 ^ e)| = m * 2 ^ e := by
      rw [abs_mul, abs_signOf, one_mul, abs_of_nonneg hx]
    rw [habs] at hle hlt
    have hmag : |n| = rounded 1 neg m (-e) :=
      rounded_down (roundUp_zero neg) (by push_cast; exact hle) (by push_cast; exact hlt)
    rw [← hmag, withSign]
    cases neg with
    | false =>
      have hn : 0 ≤ n := by
        by_contra hneg
        have hq : (n : ℚ) < 0 := by exact_mod_cast not_le.mp hneg
        rw [abs_of_neg hq] at hle
        simp only [signOf, Bool.false_eq_true, if_false, one_mul] at hsame
        nlinarith
      simp [abs_of_nonneg hn]
    | true =>
      have hn : n ≤ 0 := by
        by_contra hpos
        have hq : (0 : ℚ) < n := by exact_mod_cast not_le.mp hpos
        rw [abs_of_pos hq] at hle
        simp only [signOf, if_true] at hsame
        nlinarith
      simp [abs_of_nonpos hn]
  · obtain ⟨hle, hlt⟩ := h
    cases neg with
    | false =>
      rw [signOf] at hle hlt
      exact rounded_up (fun _ r _ => by simp [roundUp_up]) (by simpa using hle) (by simpa using hlt)
    | true =>
      have := rounded_down (rm := 2) (neg := true) (m := m) (e := e) (n := -n) (fun _ r _ => by simp [roundUp_up])
        (by simp only [signOf, if_true] at hle; push_cast; linarith) (by simp only [signOf, if_true] at hlt; push_cast; linarith)
      simp only [withSign, if_true]
      omega
  · obtain ⟨hle, hlt⟩ := h
    cases neg with
    | false =>
      exact rounded_down (fun _ r _ => by simp [roundUp_down]) (by simpa [signOf] using hle) (by simpa [signOf] using hlt)
    | true =>
      have := rounded_up (rm := 3) (neg := true) (m := m) (e := e) (n := -n) (fun _ r _ => by simp [roundUp_down])
        (by simp only [signOf, if_true] at hlt hle; push_cast; linarith) (by simp only [signOf, if_true] at hle hlt; push_cast; linarith)
      simp only [withSign, if_true]
      omega

/-- Rounding leaves a number alone only where nothing is cut off. -/
theorem val_eq_iff {a m : Nat} {neg : Bool} {e : Int} (h : Fields a neg m e) (rm : Nat) :
    f32Val a = (withSign neg (rounded rm neg m (-e)) : Int) ↔ rest m (-e) = 0 := by
  rw [← rounded_eq_iff rm neg, neg_neg, h.val]
  cases neg with
  | false => simp [signOf, withSign, eq_comm]
  | true => simp [signOf, withSign, eq_comm]

theorem cvtI32_fin {a m : Nat} {neg : Bool} {e : Int} (h : Fields a neg m e) (rm : Nat) :
    let n := withSign neg (rounded rm neg m (-e))
    cvtI32 rm a = (if 2 ^ 31 ≤ n then (0x7FFFFFFF, 1) else if n < -2 ^ 31 then (0x80000000, 1)
      else (ulane 32 n, if f32Val a = n then 0 else 16)) := by
  have hval := val_eq_iff h rm
  have hstep : cvtI32 rm a = (if neg then (if 2 ^ 31 < rounded rm neg m (-e) then (0x80000000, flNV)
      else ((2 ^ 32 - rounded rm neg m (-e)) % 2 ^ 32, if rest m (-e) != 0 then flNX else 0))
      else if 2 ^ 31 ≤ rounded rm neg m (-e) then (0x7FFFFFFF, flNV)
      else (rounded rm neg m (-e), if rest m (-e) != 0 then flNX else 0)) := by
    simp only [cvtI32, h.fval_eq, rounded, cut, rest, Left.neg_nonpos_iff, neg_neg]
  rw [hstep]
  simp only [hval, bne_iff_ne, ne_eq, ite_not]
  generalize rounded rm neg m (-e) = k
  cases neg with
  | false =>
    simp only [withSign, Bool.false_eq_true, if_false]
    by_cases hbig : 2 ^ 31 ≤ k
    · rw [if_pos hbig, if_pos (by exact_mod_cast hbig)]
      rfl
    · have hsmall : ¬ 2 ^ 31 ≤ (k : Int) := by omega
      have hpos : ¬ (k : Int) < -2 ^ 31 := by omega
      have hlane : k = ulane 32 k := by rw [ulane]; omega
      rw [if_neg hbig, if_neg hsmall, if_neg hpos, ← hlane]
      rfl
  | true =>
    simp only [withSign, if_true]
    have hneg : ¬ 2 ^ 31 ≤ -(k : Int) := by omega
    by_cases hbig : 2 ^ 31 < k
    · have hout : -(k : Int) < -2 ^ 31 := by omega
      rw [if_pos hbig, if_neg hneg, if_pos hout]
      rfl
    · have hin : ¬ -(k : Int) < -2 ^ 31 := by omega
      have hlane : (2 ^ 32 - k) % 2 ^ 32 = ulane 32 (-k) := by rw [ulane]; omega
      rw [if_neg hbig, if_neg hneg, if_neg hin, hlane]
      rfl

/-! ### Integer to FP32 -/

theorem signed_eq_iff (x : Int) (k : Nat) (s : Int) :
    signOf (decide (x < 0)) * (k : ℚ) * 2 ^ s = x ↔ (k : ℚ) = x.natAbs * 2 ^ (-s) := by
  have hp : (2 : ℚ) ^ s ≠ 0 := by positivity
  rw [zpow_neg, ← div_eq_mul_inv, eq_div_iff hp]
  by_cases h : x < 0
  · have hx : (x.natAbs : ℚ) = -x := by
      rw [Nat.cast_natAbs, abs_of_neg h]
      push_cast
      rfl
    rw [hx, signOf, if_pos (by simpa using h), neg_one_mul, neg_mul, neg_eq_iff_eq_neg]
  · have hx : (x.natAbs : ℚ) = x := by rw [Nat.cast_natAbs, abs_of_nonneg (by omega)]
    rw [hx, signOf, if_neg (by simpa using h), one_mul]

theorem cvtF32_flags (rm : Nat) {x : Int} (hlow : -2 ^ 31 ≤ x) (hhigh : x < 2 ^ 31) :
    (cvtF32 rm x).2 = if f32Val (cvtF32 rm x).1 = x then 0 else 16 := by
  by_cases hx : x = 0
  · subst hx
    simp [cvtF32, f32Val, fval]
  have hm : 0 < x.natAbs := by omega
  have hlog : Nat.log2 x.natAbs < 32 := (Nat.log2_lt hm.ne').mpr (by omega)
  have hplace : lastPlace 23 x.natAbs 0 = (Nat.log2 x.natAbs : Int) - 23 := by unfold lastPlace; omega
  have hfull := (le_cut (p := 23) (e := 0) hm (by omega)).trans (cut_le_rounded rm (decide (x < 0)) _ _)
  have hk := (rounded_le rm (decide (x < 0)) _ _).trans (cut_lt (p := 23) (m := x.natAbs) (e := 0))
  have hiff := rounded_eq_iff rm (decide (x < 0)) x.natAbs (lastPlace 23 x.natAbs 0)
  rw [cvtF32, if_neg hx, fround_eq 23 rm _ hm]
  rw [sub_zero] at *
  rw [hplace] at *
  generalize rest x.natAbs _ = r at *
  generalize rounded rm _ _ _ = k at *
  have hmag : magnitude 23 ((Nat.log2 x.natAbs : Int) - 23) k < 255 * 2 ^ 23 := by unfold magnitude; omega
  have hnormal : ¬ magnitude 23 ((Nat.log2 x.natAbs : Int) - 23) k < 2 ^ 23 := by unfold magnitude; omega
  rw [packed, if_neg (not_le.mpr hmag)]
  dsimp only
  rw [f32Val_magnitude _ (by omega) hk (fun _ => hfull) hmag]
  have hsame : signOf (decide (x < 0)) * (k : ℚ) * 2 ^ ((Nat.log2 x.natAbs : Int) - 23) = x ↔ r = 0 := by
    rw [← hiff]
    exact signed_eq_iff x k _
  simp only [hsame, hnormal, decide_false, Bool.and_false]
  by_cases hr : r = 0 <;> simp [hr]

/-! ### The claim -/

/-- Whether a lower half that is not zero rounds the upper half up in a mode (R108). -/
def halfUp (rm a : Nat) (neg : Bool) : Bool :=
  match rm with
  | 0 => decide (2 ^ 15 < a % 2 ^ 16) || (a % 2 ^ 16 == 2 ^ 15 && a / 2 ^ 16 % 2 == 1)
  | 1 => false
  | 2 => !neg
  | _ => neg

theorem roundUp_eq_halfUp {rm a k : Nat} (neg : Bool) (hrm : rm < 4) (hlow : a % 2 ^ 16 ≠ 0) (hk : k % 2 = a / 2 ^ 16 % 2) :
    roundUp rm neg k (a % 2 ^ 16) 16 = halfUp rm a neg := by
  interval_cases rm
  · rw [roundUp_nearest, hk, halfUp]
    congr 1
    · rw [decide_eq_decide]
      omega
    · congr 1
      rw [Bool.eq_iff_iff, beq_iff_eq, beq_iff_eq]
      omega
  · rfl
  · rw [roundUp_up, bne_iff_ne.mpr hlow, Bool.true_and]
    rfl
  · rw [roundUp_down, bne_iff_ne.mpr hlow, Bool.true_and]
    rfl

theorem conversionFlags : Claim.ConversionFlags := by
  refine ⟨fun s d x q h1 h2 hslot hclean => flags_of_forms d q h1 h2 hslot hclean, fun rm a hrm ha => ?_⟩
  refine ⟨fun hfin hlow => ?_, fun hfin hlow => ?_, fun hnan => ⟨cvtBf16_nan rm hnan, cvtI32_nan rm hnan⟩,
    fun hfin n hn => ?_, fun x => cvtF32_flags rm⟩
  · obtain ⟨m, e, h⟩ := fields_exist ha hfin
    exact cvtBf16_exact h rm hlow
  · obtain ⟨m, e, h⟩ := fields_exist ha hfin
    exact cvtBf16_inexact h rm hlow (roundUp_eq_halfUp _ hrm hlow (upper_half_parity h))
  · obtain ⟨m, e, h⟩ := fields_exist ha hfin
    have hround : RoundsTo rm (f32Val a) n := hn
    rw [h.val] at hround
    rw [cvtI32_fin h rm, ← roundsTo_unique hrm hround]

end Sys2Proof.Proofs.ConversionFlags

/-! SUPPORT. Results rounded to nearest from a value known between two neighbours, and powers of two (R108, R114). -/

namespace Sys2Proof.Proofs.Nearest

open Machine ExactNumbers Rounding

/-! ### A value between 2Q and 2Q + 2, its last bit sticky -/

theorem nearest_bracket {Q st k D : Nat} (hst : st ≤ 1) (h : 2 * (4 * D * k) ≤ 2 * (2 * Q + st) + 4 * D)
    (h' : 2 * (2 * Q + st) ≤ 2 * (4 * D * k) + 4 * D) : 2 * (D * k) ≤ Q + D ∧ Q + st ≤ 2 * (D * k) + D := by
  rw [mul_assoc] at h h'
  omega

/-- The rounded significand has full length, and does not carry into the next power of two where its integer part is not full. -/
theorem rounded_full {neg : Bool} {M L : Nat} {e : Int} (hlog : Nat.log2 M = L) (hlong : 25 ≤ L) (hlow : -126 ≤ e + L) :
    lastPlace 23 M e = e + L - 23 ∧ lastPlace 23 M e - e = ((L - 23 : Nat) : Int)
      ∧ 2 ^ 23 ≤ rounded 0 neg M ((L - 23 : Nat) : Int) ∧ rounded 0 neg M ((L - 23 : Nat) : Int) ≤ 2 ^ 24
      ∧ (M < (2 ^ 24 - 1) * 2 ^ (L - 23) → rounded 0 neg M ((L - 23 : Nat) : Int) < 2 ^ 24) := by
  have hM : 0 < M := by
    by_contra h0
    rw [show M = 0 by omega] at hlog
    simp at hlog
    omega
  have hplace : lastPlace 23 M e = e + L - 23 := by unfold lastPlace; omega
  have hs : lastPlace 23 M e - e = ((L - 23 : Nat) : Int) := by omega
  have hfull := le_cut (p := 23) (e := e) hM (by omega)
  have hcut := cut_lt (p := 23) (m := M) (e := e)
  rw [hs] at hfull hcut
  refine ⟨hplace, hs, hfull.trans (cut_le_rounded _ _ _ _), (rounded_le _ _ _ _).trans hcut, fun hsmall => ?_⟩
  refine (rounded_le _ _ _ _).trans_lt ?_
  rw [cut_pos (by omega), Int.toNat_natCast]
  have : M / 2 ^ (L - 23) < 2 ^ 24 - 1 := (Nat.div_lt_iff_lt_mul (Nat.two_pow_pos _)).mpr hsmall
  omega

/-- Rounded to nearest, the value lies within half a unit of the last place of every number it stands for: 2Q × 2^e where the
sticky bit is clear, up to (2Q + 2) × 2^e where it is set. -/
theorem fround_bracket (neg : Bool) {Q st L : Nat} {e : Int} (hst : st ≤ 1) (hlog : Nat.log2 (2 * Q + st) = L) (hlong : 25 ≤ L)
    (hlow : -126 ≤ e + L) (hhigh : e + L < 127 ∨ e + L = 127 ∧ 2 * Q + st < (2 ^ 24 - 1) * 2 ^ (L - 23)) :
    let b := (fround 23 0 neg (2 * Q + st) e).1
    F32Normal neg b ∧ |f32Val b| - f32Ulp b / 2 ≤ 2 * Q * 2 ^ e ∧ 2 * (Q + st) * 2 ^ e ≤ |f32Val b| + f32Ulp b / 2 := by
  have hM : 0 < 2 * Q + st := Nat.pos_of_ne_zero fun h0 => by
    rw [h0] at hlog
    simp at hlog
    omega
  obtain ⟨hplace, hs, hfull, hk, hsmall⟩ := rounded_full (neg := neg) hlog hlong hlow
  obtain ⟨hnear, hnear'⟩ := rounded_nearest neg (2 * Q + st) (s := ((L - 23 : Nat) : Int)) (by omega)
  rw [Int.toNat_natCast] at hnear hnear'
  rw [fround_eq 23 0 neg hM, hs, hplace]
  generalize rounded 0 neg (2 * Q + st) _ = k at *
  have hmag : magnitude 23 (e + L - 23) k < 255 * 2 ^ 23 := by
    unfold magnitude
    rcases hhigh with htop | ⟨htop, hcarry⟩
    · omega
    · have := hsmall hcarry
      omega
  obtain ⟨hnormal, hulp⟩ := normal_of_magnitude neg (q := e + L - 23) (by omega) hfull hk hmag
  have hval := f32Val_magnitude neg (q := e + L - 23) (by omega) hk (fun _ => hfull) hmag
  have habs : |signOf neg * (k : ℚ) * 2 ^ (e + L - 23)| = k * 2 ^ (e + L - 23) := by
    rw [abs_mul, abs_mul, abs_signOf, one_mul, Nat.abs_cast, abs_of_pos (by positivity)]
  rw [packed, if_neg (not_le.mpr hmag)]
  dsimp only
  rw [hval, habs]
  refine ⟨hnormal, ?_⟩
  obtain ⟨c, rfl⟩ : ∃ c, L = c + 25 := ⟨L - 25, by omega⟩
  have hpow : 2 ^ (c + 25 - 23) = 4 * 2 ^ c := by
    rw [show c + 25 - 23 = 2 + c by omega, pow_add]
    norm_num
  rw [hpow] at hnear hnear'
  obtain ⟨hlo, hhi⟩ := nearest_bracket hst hnear hnear'
  have hunit : (2 : ℚ) ^ (e + ((c + 25 : Nat) : Int) - 23) = 4 * 2 ^ c * 2 ^ e := by
    rw [show e + ((c + 25 : Nat) : Int) - 23 = (c : Int) + 2 + e by push_cast; ring, zpow_add₀ (by norm_num),
      zpow_add₀ (by norm_num), zpow_natCast]
    ring
  have hloq : 2 * ((2 : ℚ) ^ c * k) ≤ Q + 2 ^ c := by exact_mod_cast hlo
  have hhiq : (Q : ℚ) + st ≤ 2 * ((2 : ℚ) ^ c * k) + 2 ^ c := by exact_mod_cast hhi
  rw [hunit] at hulp ⊢
  generalize f32Ulp _ = u at hulp ⊢
  constructor
  · calc (k : ℚ) * (4 * 2 ^ c * 2 ^ e) - u / 2 ≤ k * (4 * 2 ^ c * 2 ^ e) - 4 * 2 ^ c * 2 ^ e / 2 := by linarith
      _ = 2 * (2 * (2 ^ c * k) - 2 ^ c) * 2 ^ e := by ring
      _ ≤ 2 * Q * 2 ^ e := by gcongr; linarith
  · calc 2 * ((Q : ℚ) + st) * 2 ^ e ≤ 2 * (2 * (2 ^ c * k) + 2 ^ c) * 2 ^ e := by gcongr
      _ = k * (4 * 2 ^ c * 2 ^ e) + 4 * 2 ^ c * 2 ^ e / 2 := by ring
      _ ≤ k * (4 * 2 ^ c * 2 ^ e) + u / 2 := by linarith

/-! ### Powers of two -/

theorem rest_two_pow (j p : Nat) : rest (2 ^ j) ((j : Int) - p) = 0 := by
  unfold rest
  split
  · rfl
  · exact Nat.mod_eq_zero_of_dvd (pow_dvd_pow 2 (by omega))

theorem cut_two_pow (j p : Nat) : cut (2 ^ j) ((j : Int) - p) = 2 ^ p := by
  unfold cut
  split
  · rw [← pow_add]
    congr 1
    omega
  · rw [Nat.pow_div (by omega) (by decide)]
    congr 1
    omega

/-- A power of two in the range of normal numbers is exact. -/
theorem fround_two_pow (p rm : Nat) (neg : Bool) {j : Nat} {e : Int} (hlow : -126 ≤ e + j) (hhigh : e + j ≤ 127) :
    fround p rm neg (2 ^ j) e = (neg.toNat * 2 ^ (p + 8) + (e + j + 127).toNat * 2 ^ p, 0) := by
  have hplace : lastPlace p (2 ^ j) e = e + j - p := by
    unfold lastPlace
    rw [Nat.log2_two_pow]
    omega
  have hmag : magnitude p (e + j - p) (2 ^ p) = (e + j + 127).toNat * 2 ^ p := by
    unfold magnitude
    rw [show (e + j + 127).toNat = (e + j - p + p + 126).toNat + 1 by omega]
    ring
  have hover : ¬ 255 * 2 ^ p ≤ (e + j + 127).toNat * 2 ^ p := by
    rw [Nat.mul_le_mul_right_iff (Nat.two_pow_pos p)]
    omega
  rw [fround_eq p rm neg (Nat.two_pow_pos j), hplace, show e + j - p - e = (j : Int) - p by ring,
    rounded_exact (rest_two_pow j p), rest_two_pow, cut_two_pow, packed, hmag, if_neg hover]
  rfl

/-- The leading power of two of an exact value. -/
theorem two_pow_top_le {m : Nat} (hm : 0 < m) (e : Int) : (2 : ℚ) ^ (e + Nat.log2 m) ≤ m * 2 ^ e := by
  rw [zpow_add₀ (by norm_num), mul_comm, zpow_natCast]
  have : (2 : ℚ) ^ Nat.log2 m ≤ m := by exact_mod_cast Nat.log2_self_le hm.ne'
  gcongr

theorem lt_two_pow_top (m : Nat) (e : Int) : (m : ℚ) * 2 ^ e < 2 ^ (e + Nat.log2 m + 1) := by
  rw [add_assoc, zpow_add₀ (by norm_num), mul_comm]
  have : (m : ℚ) < 2 ^ (Nat.log2 m + 1) := by exact_mod_cast Nat.lt_log2_self
  have hcast : (2 : ℚ) ^ ((Nat.log2 m : Int) + 1) = 2 ^ (Nat.log2 m + 1) := by
    rw [← zpow_natCast]
    push_cast
    rfl
  rw [hcast]
  gcongr

theorem eq_two_pow_iff {m : Nat} (hm : 0 < m) (e n : Int) :
    (m : ℚ) * 2 ^ e = 2 ^ n ↔ m = 2 ^ Nat.log2 m ∧ n = e + Nat.log2 m := by
  constructor
  · intro h
    have hle := two_pow_top_le hm e
    have hlt := lt_two_pow_top m e
    rw [h] at hle hlt
    have h1 := (zpow_le_zpow_iff_right₀ (by norm_num : (1 : ℚ) < 2)).mp hle
    have h2 := (zpow_lt_zpow_iff_right₀ (by norm_num : (1 : ℚ) < 2)).mp hlt
    have hn : n = e + Nat.log2 m := by omega
    refine ⟨?_, hn⟩
    rw [hn, zpow_add₀ (by norm_num), mul_comm, zpow_natCast, mul_right_inj' (by positivity)] at h
    exact_mod_cast h
  · rintro ⟨hpow, rfl⟩
    rw [zpow_add₀ (by norm_num), mul_comm, zpow_natCast]
    congr 1
    exact_mod_cast hpow

end Sys2Proof.Proofs.Nearest

/-! SUPPORT. VRCP: special values, exact powers and the bound of one unit (R114). -/

namespace Sys2Proof.Proofs.Reciprocal

open Machine ExactNumbers Rounding Nearest

/-! ### Patterns as dyadic numbers -/

theorem dyVal_dyBits (c : Nat) : dyVal (dyBits c) = f32Val c := by
  unfold dyBits f32Val
  cases fval 23 c with
  | nan _ => simp
  | inf _ => simp
  | fin neg m e => cases neg <;> simp [dyOf, dyVal]

theorem dyVal_ulpOf (b : Nat) : dyVal (ulpOf b) = f32Ulp b := by
  simp [dyVal, ulpOf, f32Ulp]

theorem dyVal_natAbs (x : Dy) : dyVal ⟨x.m.natAbs, x.e⟩ = |dyVal x| := by
  simp only [dyVal, abs_mul]
  rw [abs_of_pos (by positivity : (0 : ℚ) < 2 ^ x.e)]
  push_cast
  rfl

theorem normal_of_normalOf {c : Nat} {neg : Bool} (hlt : c < 2 ^ 32) (h : normalOf c neg = true) : F32Normal neg c := by
  simp only [normalOf, Bool.and_eq_true, decide_eq_true_eq, beq_iff_eq] at h
  obtain ⟨⟨hlow, hhigh⟩, hsign⟩ := h
  exact ⟨hlt, hlow, hhigh, hsign⟩

theorem F32Normal.val_eq {neg : Bool} {c : Nat} (h : F32Normal neg c) : f32Val c = signOf neg * |f32Val c| := by
  obtain ⟨m, e, hf, -⟩ := F32Normal.fields h
  rw [hf.abs_val, hf.val, mul_assoc]

theorem abs_of_positive {c : Nat} (h : F32Normal false c) : |f32Val c| = f32Val c := by
  obtain ⟨m, e, hf, -⟩ := F32Normal.fields h
  rw [hf.abs_val, hf.val_pos]

/-- A normal number is many units of its last place. -/
theorem F32Normal.ulp_le {neg : Bool} {c : Nat} (h : F32Normal neg c) : 2 ^ 23 * f32Ulp c ≤ |f32Val c| := by
  obtain ⟨m, e, hf, hm⟩ := F32Normal.fields h
  rw [hf.abs_val, hf.ulp hm]
  have : (2 ^ 23 : ℚ) ≤ m := by exact_mod_cast hm
  gcongr

theorem f32Ulp_pos (c : Nat) : 0 < f32Ulp c := by unfold f32Ulp; positivity

/-! ### VRCP of a finite number that is not zero -/

section
variable {a m : Nat} {neg : Bool} {e : Int}

theorem fRcp_fin (h : Fields a neg m e) (hm : 0 < m) :
    fRcp a = (let near := rcpNear neg m e
      let pow2 := m == 2 ^ Nat.log2 m
      let n : Int := e + (Nat.log2 m : Int)
      if 126 < n ∨ (n = 126 ∧ pow2 = false) then (fZero 23 neg, 20)
      else if n < -128 ∨ (n = -128 ∧ pow2) then (fInf 23 neg, 18)
      else if pow2 then (near, 0)
      else (if rcpOk near neg m e (Config.rcp (BitVec.ofNat 32 a)).toNat then (Config.rcp (BitVec.ofNat 32 a)).toNat else near, 16)) := by
  rw [fRcp, h.fval_eq]
  simp only [if_neg hm.ne', flUF, flNX, flOF]

theorem log2_lt_of_fields (h : Fields a neg m e) (hm : 0 < m) : Nat.log2 m < 24 := (Nat.log2_lt hm.ne').mpr h.lt

/-- The reciprocal of a power of two. -/
theorem rcpNear_two_pow {j : Nat} (neg : Bool) (hj : j < 24) {e : Int} (hlow : -127 ≤ e + j) (hhigh : e + j ≤ 126) :
    rcpNear neg (2 ^ j) e = neg.toNat * 2 ^ 31 + (127 - (e + j)).toNat * 2 ^ 23 := by
  have hdvd : 2 ^ 80 % 2 ^ j = 0 := Nat.mod_eq_zero_of_dvd (pow_dvd_pow 2 (by omega))
  have hquot : 2 * (2 ^ 80 / 2 ^ j) = 2 ^ (81 - j) := by
    rw [Nat.pow_div (by omega) (by decide), ← pow_succ']
    congr 1
    omega
  rw [rcpNear, if_pos hdvd, Nat.add_zero, hquot, fround_two_pow 23 0 neg (by omega) (by omega)]
  dsimp only
  congr 3
  omega

theorem fRcp_two_pow (h : Fields a neg m e) (hm : 0 < m) {n : Int} (hv : |f32Val a| = (2 : ℚ) ^ n) (hlow : -127 ≤ n)
    (hhigh : n ≤ 126) : fRcp a = (neg.toNat * 2 ^ 31 + (127 - n).toNat * 2 ^ 23, 0) := by
  rw [h.abs_val, eq_two_pow_iff hm] at hv
  obtain ⟨hpow, rfl⟩ := hv
  have hlog := log2_lt_of_fields h hm
  have hnear := rcpNear_two_pow neg hlog hlow hhigh
  rw [← hpow] at hnear
  rw [fRcp_fin h hm]
  dsimp only
  rw [if_neg, if_neg, if_pos (by simpa using hpow), hnear]
  · simp [← hpow]
    omega
  · simp [← hpow]
    omega

theorem fRcp_large (h : Fields a neg m e) (hm : 0 < m) (hv : (2 : ℚ) ^ (126 : Int) < |f32Val a|) :
    fRcp a = (neg.toNat * 2 ^ 31, 20) := by
  rw [h.abs_val] at hv
  have hlt := hv.trans (lt_two_pow_top m e)
  rw [zpow_lt_zpow_iff_right₀ (by norm_num)] at hlt
  rw [fRcp_fin h hm]
  dsimp only
  rw [if_pos]
  · rfl
  · by_contra hno
    have htop : e + Nat.log2 m = 126 := by omega
    have hpow : m = 2 ^ Nat.log2 m := by
      by_contra hne
      exact hno (Or.inr ⟨htop, by simpa using hne⟩)
    exact hv.ne' ((eq_two_pow_iff hm e 126).mpr ⟨hpow, htop.symm⟩)

theorem fRcp_small (h : Fields a neg m e) (hm : 0 < m) (hv : |f32Val a| ≤ (2 : ℚ) ^ (-128 : Int)) :
    fRcp a = (neg.toNat * 2 ^ 31 + 0x7F800000, 18) := by
  rw [h.abs_val] at hv
  have hle := (two_pow_top_le hm e).trans hv
  rw [zpow_le_zpow_iff_right₀ (by norm_num)] at hle
  rw [fRcp_fin h hm]
  dsimp only
  rw [if_neg (by omega), if_pos]
  · rfl
  · by_contra hno
    have htop : e + Nat.log2 m = -128 := by omega
    have hle' := two_pow_top_le hm e
    rw [htop] at hle'
    have hpow := (eq_two_pow_iff hm e (-128)).mp (le_antisymm hv hle')
    exact hno (Or.inr ⟨htop, by simpa using hpow.1⟩)

/-- A number that divides a power of two is one. -/
theorem rest_ne_zero {m : Nat} (hpow : m ≠ 2 ^ Nat.log2 m) (k : Nat) : 2 ^ k % m ≠ 0 := by
  intro hzero
  obtain ⟨j, -, hj⟩ := (Nat.dvd_prime_pow Nat.prime_two).mp (Nat.dvd_of_mod_eq_zero hzero)
  rw [hj, Nat.log2_two_pow] at hpow
  exact hpow rfl

/-- The quotient that VRCP rounds, its length and what it stands for. -/
theorem quotient_bounds {m : Nat} (hm : 0 < m) (hlog : Nat.log2 m < 24) :
    2 ^ 80 / m * m ≤ 2 ^ 80 ∧ 2 ^ 80 < (2 ^ 80 / m + 1) * m
      ∧ (m ≠ 2 ^ Nat.log2 m → Nat.log2 (2 * (2 ^ 80 / m) + 1) = 80 - Nat.log2 m) := by
  have hdiv := Nat.div_add_mod (2 ^ 80) m
  have hmod := Nat.mod_lt (2 ^ 80) hm
  refine ⟨Nat.div_mul_le_self _ _, by rw [add_mul, one_mul, mul_comm]; omega, fun hpow => ?_⟩
  have hge : 2 ^ Nat.log2 m < m := lt_of_le_of_ne (Nat.log2_self_le hm.ne') (Ne.symm hpow)
  have hlow : 2 ^ (79 - Nat.log2 m) ≤ 2 ^ 80 / m := by
    rw [Nat.le_div_iff_mul_le hm]
    calc 2 ^ (79 - m.log2) * m ≤ 2 ^ (79 - m.log2) * 2 ^ (m.log2 + 1) := Nat.mul_le_mul_left _ Nat.lt_log2_self.le
      _ = 2 ^ 80 := by rw [← pow_add]; congr 1; omega
  have hhigh : 2 ^ 80 / m < 2 ^ (79 - Nat.log2 m + 1) := by
    rw [Nat.div_lt_iff_lt_mul hm]
    calc 2 ^ 80 = 2 ^ (79 - m.log2 + 1) * 2 ^ m.log2 := by rw [← pow_add]; congr 1; omega
      _ < _ := by gcongr
  generalize 2 ^ 80 / m = Q at hlow hhigh ⊢
  rw [Nat.log2_eq_iff (by omega), show 80 - Nat.log2 m = (79 - Nat.log2 m) + 1 by omega, pow_succ, pow_succ]
  rw [pow_succ] at hhigh
  omega

/-- The reciprocal of the least operand in range, past 2^(-128), stays below the largest number. -/
theorem rcp_no_carry (h : Fields a neg m e) (hm : 0 < m) (hpow : m ≠ 2 ^ Nat.log2 m) (htop : e + Nat.log2 m = -128) :
    2 * (2 ^ 80 / m) + 1 < (2 ^ 24 - 1) * 2 ^ (80 - Nat.log2 m - 23) := by
  have hge : 2 ^ Nat.log2 m < m := lt_of_le_of_ne (Nat.log2_self_le hm.ne') (Ne.symm hpow)
  have hsub : e = -149 := by
    by_contra hne
    have := h.low
    have hfull : 23 ≤ Nat.log2 m := (Nat.le_log2 hm.ne').mpr (h.normal (by omega))
    omega
  have hlast : Nat.log2 m = 21 := by omega
  have hm' : 2 ^ 21 + 1 ≤ m := by rw [← hlast]; exact hge
  have hQ : 2 ^ 80 / m * (2 ^ 21 + 1) ≤ 2 ^ 80 := (Nat.mul_le_mul_left _ hm').trans (Nat.div_mul_le_self _ _)
  rw [hlast]
  omega

/-- 1/|v| between the quotient and the next one. -/
theorem reciprocal_interval (h : Fields a neg m e) (hm : 0 < m) {Q : Nat} (hle : Q * m ≤ 2 ^ 80) (hlt : 2 ^ 80 < (Q + 1) * m) :
    2 * (Q : ℚ) * 2 ^ (-81 - e) ≤ 1 / |f32Val a| ∧ 1 / |f32Val a| ≤ 2 * ((Q : ℚ) + 1) * 2 ^ (-81 - e) := by
  have hmq : (0 : ℚ) < m := by exact_mod_cast hm
  have hx : (0 : ℚ) < m * 2 ^ e := by positivity
  have hunit : (2 : ℚ) ^ (-81 - e) * 2 ^ e * 2 ^ 81 = 1 := by
    rw [← zpow_add₀ (by norm_num), show -81 - e + e = -81 by ring]
    norm_num
  have hleq : (Q : ℚ) * m ≤ 2 ^ 80 := by exact_mod_cast hle
  have hltq : (2 : ℚ) ^ 80 ≤ (Q + 1) * m := by exact_mod_cast hlt.le
  rw [h.abs_val, le_div_iff₀ hx, div_le_iff₀ hx]
  constructor
  · calc _ = 2 * (Q * m) * (2 ^ (-81 - e) * 2 ^ e : ℚ) := by ring
      _ ≤ 2 * 2 ^ 80 * (2 ^ (-81 - e) * 2 ^ e : ℚ) := by gcongr
      _ = 1 := by linarith
  · calc (1 : ℚ) = 2 * 2 ^ 80 * (2 ^ (-81 - e) * 2 ^ e : ℚ) := by linarith
      _ ≤ 2 * ((Q + 1) * m) * (2 ^ (-81 - e) * 2 ^ e : ℚ) := by gcongr
      _ = _ := by ring

/-- The reciprocal rounded to nearest, where v is no power of two. -/
theorem rcpNear_bracket (h : Fields a neg m e) (hm : 0 < m) (hpow : m ≠ 2 ^ Nat.log2 m) (hlow : -128 ≤ e + Nat.log2 m)
    (hhigh : e + Nat.log2 m ≤ 125) :
    F32Normal neg (rcpNear neg m e) ∧ |(|f32Val (rcpNear neg m e)| - 1 / |f32Val a|)| ≤ f32Ulp (rcpNear neg m e) / 2 := by
  have hlog := log2_lt_of_fields h hm
  obtain ⟨hle, hlt, hlogQ⟩ := quotient_bounds hm hlog
  have hnear : rcpNear neg m e = (fround 23 0 neg (2 * (2 ^ 80 / m) + 1) (-81 - e)).1 := by
    rw [rcpNear, if_neg (rest_ne_zero hpow 80)]
  obtain ⟨hnormal, hlo, hhi⟩ := fround_bracket neg (e := -81 - e) le_rfl (hlogQ hpow) (by omega) (by omega)
    (by by_cases htop : e + Nat.log2 m = -128
        · exact Or.inr ⟨by omega, rcp_no_carry h hm hpow htop⟩
        · exact Or.inl (by omega))
  obtain ⟨hlow', hhigh'⟩ := reciprocal_interval h hm hle hlt
  rw [Nat.cast_one] at hhi
  rw [hnear]
  refine ⟨hnormal, ?_⟩
  rw [abs_le]
  constructor <;> linarith

/-- What a candidate within one unit satisfies. -/
theorem rcpOk_bound (h : Fields a neg m e) (hm : 0 < m) {near c : Nat} (hlt : c < 2 ^ 32) (hok : rcpOk near neg m e c = true) :
    F32Normal neg c ∧ |(|f32Val c| - 1 / |f32Val a|)| ≤ f32Ulp near := by
  have hx : (0 : ℚ) < m * 2 ^ e := by
    have : (0 : ℚ) < m := by exact_mod_cast hm
    positivity
  have hval : dyVal ⟨(m : Int), e⟩ = m * 2 ^ e := by simp [dyVal]
  simp only [rcpOk, Bool.and_eq_true, le_iff, dyVal_mul, dyVal_add, dyVal_natAbs, dyVal_neg, hval, dyVal_dyBits] at hok
  obtain ⟨⟨hnormal, hlo⟩, hhi⟩ := hok
  change (_ + -dyVal (ulpOf near)) * _ ≤ _ at hlo
  have hone : dyVal ⟨1, 0⟩ = 1 := by simp [dyVal]
  rw [dyVal_ulpOf, hone] at hlo hhi
  refine ⟨normal_of_normalOf hlt hnormal, ?_⟩
  rw [← le_div_iff₀ hx] at hlo
  rw [← div_le_iff₀ hx] at hhi
  rw [h.abs_val, abs_le]
  constructor <;> linarith

/-- Results and reciprocal have the sign of the operand. -/
theorem signed_distance (h : Fields a neg m e) {c : Nat} (hc : F32Normal neg c) :
    |f32Val c - 1 / f32Val a| = |(|f32Val c| - 1 / |f32Val a|)| := by
  have hv : 1 / f32Val a = signOf neg * (1 / |f32Val a|) := by
    rw [h.abs_val, h.val]
    cases neg <;> simp [signOf]
  rw [hv, F32Normal.val_eq hc, ← mul_sub, abs_mul, abs_signOf, one_mul, abs_mul, abs_signOf, one_mul, abs_abs]

/-- Elsewhere VRCP lies within one unit of 1/v, in units of the result rounded to nearest. -/
theorem fRcp_bound (h : Fields a neg m e) (hm : 0 < m) (hlow : (2 : ℚ) ^ (-128 : Int) < |f32Val a|)
    (hhigh : |f32Val a| ≤ (2 : ℚ) ^ (126 : Int)) (hpow : ∀ n : Int, |f32Val a| ≠ (2 : ℚ) ^ n) :
    ∃ r c, fRcp a = (r, 16) ∧ F32Normal neg r ∧ F32Normal neg c ∧ |f32Val c - 1 / f32Val a| ≤ f32Ulp c / 2
      ∧ |f32Val r - 1 / f32Val a| ≤ f32Ulp c := by
  have hne : m ≠ 2 ^ Nat.log2 m := by
    intro heq
    exact hpow (e + Nat.log2 m) (h.abs_val.trans ((eq_two_pow_iff hm e _).mpr ⟨heq, rfl⟩))
  have hlt := lt_of_le_of_ne hhigh (hpow 126)
  rw [h.abs_val] at hlow hlt
  have htop := (two_pow_top_le hm e).trans_lt hlt
  have htop' := hlow.trans (lt_two_pow_top m e)
  rw [zpow_lt_zpow_iff_right₀ (by norm_num)] at htop htop'
  obtain ⟨hnormal, hnear⟩ := rcpNear_bracket h hm hne (by omega) (by omega)
  have hstep : fRcp a = (if rcpOk (rcpNear neg m e) neg m e (Config.rcp (BitVec.ofNat 32 a)).toNat then
      (Config.rcp (BitVec.ofNat 32 a)).toNat else rcpNear neg m e, 16) := by
    rw [fRcp_fin h hm]
    dsimp only
    rw [if_neg (by omega), if_neg (by simp [hne]; omega), if_neg (by simpa using hne)]
  have hpos := f32Ulp_pos (rcpNear neg m e)
  rw [hstep]
  refine ⟨_, rcpNear neg m e, rfl, ?_⟩
  rw [signed_distance h hnormal]
  split
  · rename_i hok
    obtain ⟨hc, hbound⟩ := rcpOk_bound h hm (BitVec.isLt _) hok
    rw [signed_distance h hc]
    exact ⟨hc, hnormal, hnear, hbound⟩
  · rw [signed_distance h hnormal]
    exact ⟨hnormal, hnormal, hnear, hnear.trans (by linarith)⟩

end

end Sys2Proof.Proofs.Reciprocal

/-! SUPPORT. VRSQ: the integer square root, the root rounded to nearest, and the bound of two units (R114). -/

namespace Sys2Proof.Proofs.ReciprocalRoot

open Machine ExactNumbers Rounding Nearest Reciprocal

/-! ### The integer square root -/

theorem isqrtN_spec (x n r : Nat) (hle : r * r ≤ x) (hlt : x < (r + 2 ^ n) * (r + 2 ^ n)) :
    isqrtN x n r * isqrtN x n r ≤ x ∧ x < (isqrtN x n r + 1) * (isqrtN x n r + 1) := by
  induction n generalizing r with
  | zero =>
    rw [isqrtN]
    exact ⟨hle, by simpa using hlt⟩
  | succ n ih =>
    rw [isqrtN]
    split
    · exact ih _ ‹_› (by rw [add_assoc, ← two_mul, ← pow_succ']; exact hlt)
    · exact ih _ hle (by omega)

/-- The root of a number below 2^400, rounded down. -/
theorem isqrt_spec {x : Nat} (h : x < 2 ^ 200 * 2 ^ 200) : isqrt x * isqrt x ≤ x ∧ x < (isqrt x + 1) * (isqrt x + 1) :=
  isqrtN_spec x 200 0 (Nat.zero_le _) (by rw [zero_add]; exact h)

theorem isqrt_of_square {r : Nat} (h : r * r < 2 ^ 200 * 2 ^ 200) : isqrt (r * r) = r := by
  obtain ⟨hle, hlt⟩ := isqrt_spec h
  have h1 : isqrt (r * r) ≤ r := Nat.mul_self_le_mul_self_iff.mp hle
  have h2 : r < isqrt (r * r) + 1 := Nat.mul_self_lt_mul_self_iff.mp hlt
  omega

/-! ### The operand as an even power of two times a significand -/

/-- The significand over an even exponent. -/
def evenSig (m : Nat) (e : Int) : Nat := if e % 2 = 0 then m else 2 * m
/-- Half of that exponent. -/
def halfExp (e : Int) : Int := (if e % 2 = 0 then e else e - 1) / 2

theorem evenSig_val (m : Nat) (e : Int) : (m : ℚ) * 2 ^ e = evenSig m e * (2 ^ halfExp e * 2 ^ halfExp e) := by
  rw [← zpow_add₀ (by norm_num)]
  unfold evenSig halfExp
  by_cases h : e % 2 = 0
  · rw [if_pos h, if_pos h]
    congr 2
    omega
  · rw [if_neg h, if_neg h, show e = e - 1 + 1 by ring, zpow_add_one₀ (by norm_num)]
    have : (e - 1 + 1 - 1) / 2 + (e - 1 + 1 - 1) / 2 = e - 1 := by omega
    rw [this]
    push_cast
    ring

theorem rsqNear_eq (m : Nat) (e : Int) : rsqNear m e = (fround 23 0 false (2 * isqrt (2 ^ 160 / evenSig m e)
    + (if isqrt (2 ^ 160 / evenSig m e) * isqrt (2 ^ 160 / evenSig m e) * evenSig m e = 2 ^ 160 then 0 else 1))
    (-81 - halfExp e)).1 := rfl

/-- The root r of 2^160 / x, rounded down. -/
theorem root_bracket {x : Nat} (hx : 0 < x) (hlt : x < 2 ^ 25) :
    isqrt (2 ^ 160 / x) * isqrt (2 ^ 160 / x) * x ≤ 2 ^ 160
      ∧ 2 ^ 160 < (isqrt (2 ^ 160 / x) + 1) * (isqrt (2 ^ 160 / x) + 1) * x
      ∧ 2 ^ 67 ≤ isqrt (2 ^ 160 / x) ∧ isqrt (2 ^ 160 / x) ≤ 2 ^ 80 := by
  have hsmall : 2 ^ 160 / x ≤ 2 ^ 160 := Nat.div_le_self _ _
  have hbig : 2 ^ 135 ≤ 2 ^ 160 / x := by
    rw [Nat.le_div_iff_mul_le hx]
    omega
  obtain ⟨hle, hgt⟩ := isqrt_spec (x := 2 ^ 160 / x) (by omega)
  refine ⟨?_, ?_, ?_, ?_⟩
  · exact (Nat.mul_le_mul_right x hle).trans (Nat.div_mul_le_self _ _)
  · rwa [Nat.div_lt_iff_lt_mul hx] at hgt
  · by_contra hno
    have : isqrt (2 ^ 160 / x) + 1 ≤ 2 ^ 67 := by omega
    have := Nat.mul_le_mul this this
    omega
  · by_contra hno
    have hr : 2 ^ 80 + 1 ≤ isqrt (2 ^ 160 / x) := by omega
    have := Nat.mul_le_mul hr hr
    omega

/-- The square of a root of 2^160 / x, scaled back. -/
theorem square_scaled (y x : ℚ) (t : Int) : (2 * y * 2 ^ (-81 - t)) ^ 2 * (x * (2 ^ t * 2 ^ t)) * 2 ^ 160 = y * y * x := by
  have hunit : ((2 : ℚ) ^ (-81 - t) * 2 ^ t) * 2 ^ 81 = 1 := by
    rw [← zpow_add₀ (by norm_num), show -81 - t + t = -81 by ring]
    norm_num
  calc _ = y * y * x * (((2 : ℚ) ^ (-81 - t) * 2 ^ t) * 2 ^ 81) ^ 2 := by ring
    _ = _ := by rw [hunit]; ring

section
variable {a m : Nat} {e : Int}

theorem evenSig_bounds (h : Fields a false m e) (hm : 0 < m) : 0 < evenSig m e ∧ evenSig m e < 2 ^ 25 := by
  have hlt := h.lt
  unfold evenSig
  split <;> omega

theorem val_pos (h : Fields a false m e) (hm : 0 < m) : 0 < f32Val a := by
  have : (0 : ℚ) < m := by exact_mod_cast hm
  rw [h.val_pos]
  positivity

/-- The root rounded to nearest is a normal number, and 1/√v lies within half a unit of it. -/
theorem rsqNear_bracket (h : Fields a false m e) (hm : 0 < m) :
    F32Normal false (rsqNear m e)
      ∧ (f32Val (rsqNear m e) - f32Ulp (rsqNear m e) / 2) ^ 2 * f32Val a ≤ 1
      ∧ 1 ≤ (f32Val (rsqNear m e) + f32Ulp (rsqNear m e) / 2) ^ 2 * f32Val a := by
  obtain ⟨hpos, hlt⟩ := evenSig_bounds h hm
  obtain ⟨hle, hgt, hlow, hhigh⟩ := root_bracket hpos hlt
  have hv : f32Val a = evenSig m e * (2 ^ halfExp e * 2 ^ halfExp e) := by rw [← evenSig_val, h.val_pos]
  have hhalf : -75 ≤ halfExp e ∧ halfExp e ≤ 52 := by
    have := h.low
    have := h.high
    unfold halfExp
    split <;> omega
  obtain ⟨st, hst⟩ : ∃ st, st = if isqrt (2 ^ 160 / evenSig m e) * isqrt (2 ^ 160 / evenSig m e) * evenSig m e = 2 ^ 160
    then 0 else 1 := ⟨_, rfl⟩
  have hnear := rsqNear_eq m e
  rw [← hst] at hnear
  rw [hnear, hv]
  generalize evenSig m e = x at *
  generalize halfExp e = t at *
  generalize isqrt (2 ^ 160 / x) = r at *
  have hst1 : st ≤ 1 := by
    rw [hst]
    split <;> omega
  have hgt' : 2 ^ 160 ≤ (r + st) * (r + st) * x := by
    rw [hst]
    split
    · rename_i heq
      rw [Nat.add_zero, heq]
    · exact hgt.le
  obtain ⟨L, hL⟩ : ∃ L, Nat.log2 (2 * r + st) = L := ⟨_, rfl⟩
  have hlogs := (Nat.log2_eq_iff (by omega)).mp hL
  have hLlow : 68 ≤ L := by
    rw [← hL, Nat.le_log2 (by omega)]
    omega
  have hLhigh : L < 82 := by
    rw [← hL, Nat.log2_lt (by omega)]
    omega
  obtain ⟨hnormal, hlo, hhi⟩ := fround_bracket false (e := -81 - t) hst1 hL (by omega) (by omega) (Or.inl (by omega))
  generalize (fround 23 0 false (2 * r + st) (-81 - t)).1 = b at *
  have hulp := F32Normal.ulp_le hnormal
  have hup := f32Ulp_pos b
  rw [abs_of_positive hnormal] at hlo hhi hulp
  have hleq : (r : ℚ) * r * x ≤ 2 ^ 160 := by exact_mod_cast hle
  have hgtq : (2 : ℚ) ^ 160 ≤ (r + st) * (r + st) * x := by exact_mod_cast hgt'
  have hvpos : (0 : ℚ) ≤ x * (2 ^ t * 2 ^ t) := by positivity
  refine ⟨hnormal, ?_, ?_⟩
  · have hsq : (f32Val b - f32Ulp b / 2) ^ 2 ≤ (2 * r * 2 ^ (-81 - t)) ^ 2 := by
      apply pow_le_pow_left₀ (by linarith) hlo
    have := square_scaled r x t
    have := mul_le_mul_of_nonneg_right hsq hvpos
    linarith
  · have hsq : (2 * ((r : ℚ) + st) * 2 ^ (-81 - t)) ^ 2 ≤ (f32Val b + f32Ulp b / 2) ^ 2 := by
      apply pow_le_pow_left₀ (by positivity) hhi
    have := square_scaled (r + st) x t
    have := mul_le_mul_of_nonneg_right hsq hvpos
    linarith

/-- The pattern of a power of two. -/
theorem fields_two_pow {i : Int} (hlow : -126 ≤ i) (hhigh : i ≤ 127) :
    Fields ((i + 127).toNat * 2 ^ 23) false (2 ^ 23) (i - 23) := by
  refine ⟨?_, by omega, by omega, by omega, fun _ => le_rfl⟩
  unfold magnitude
  rw [Bool.toNat_false]
  omega

theorem f32Val_two_pow {i : Int} (hlow : -126 ≤ i) (hhigh : i ≤ 127) : f32Val ((i + 127).toNat * 2 ^ 23) = 2 ^ i := by
  rw [(fields_two_pow hlow hhigh).val_pos]
  rw [show ((2 ^ 23 : Nat) : ℚ) = 2 ^ (23 : Int) by norm_num, ← zpow_add₀ (by norm_num), add_sub_cancel]

/-- Normal numbers of one value are one pattern. -/
theorem normal_inj {b c : Nat} (hb : F32Normal false b) (hc : F32Normal false c) (h : f32Val b = f32Val c) : b = c := by
  obtain ⟨m, e, hf, hm⟩ := F32Normal.fields hb
  obtain ⟨n, i, hg, hn⟩ := F32Normal.fields hc
  have hlog : ∀ {k : Nat}, 2 ^ 23 ≤ k → k < 2 ^ 24 → Nat.log2 k = 23 := fun hk hk' =>
    (Nat.log2_eq_iff (by omega)).mpr ⟨hk, hk'⟩
  have habs : (m : ℚ) * 2 ^ e = n * 2 ^ i := by rw [← hf.abs_val, ← hg.abs_val, h]
  have hm1 := two_pow_top_le (show 0 < m by omega) e
  have hm2 := lt_two_pow_top m e
  have hn1 := two_pow_top_le (show 0 < n by omega) i
  have hn2 := lt_two_pow_top n i
  rw [hlog hm hf.lt] at hm1 hm2
  rw [hlog hn hg.lt] at hn1 hn2
  have h1 := (zpow_lt_zpow_iff_right₀ (by norm_num : (1 : ℚ) < 2)).mp (hm1.trans_lt (habs.trans_lt hn2))
  have h2 := (zpow_lt_zpow_iff_right₀ (by norm_num : (1 : ℚ) < 2)).mp (hn1.trans_lt (habs.symm.trans_lt hm2))
  obtain rfl : e = i := by omega
  have hmn : m = n := by
    have hp : (2 : ℚ) ^ e ≠ 0 := by positivity
    exact_mod_cast mul_right_cancel₀ hp habs
  rw [hf.bits, hg.bits, hmn]

/-! ### Where the root is exact: powers of four -/

/-- v = m × 2^e is a power of four. -/
def IsPowFour (m : Nat) (e : Int) : Prop := m = 2 ^ Nat.log2 m ∧ (e + Nat.log2 m) % 2 = 0

theorem rsqNear_pow_four (h : Fields a false m e) (hm : 0 < m) (hpow : m = 2 ^ Nat.log2 m) {j : Int}
    (hj : e + Nat.log2 m = 2 * j) : rsqNear m e = (-j + 127).toNat * 2 ^ 23 := by
  have hlog := log2_lt_of_fields h hm
  have hlow := h.low
  have hhigh := h.high
  obtain ⟨i, hi, hsig, hexp⟩ : ∃ i : Nat, i ≤ 12 ∧ evenSig m e = 2 ^ i * 2 ^ i ∧ halfExp e + i = j := by
    rw [hpow]
    unfold evenSig halfExp
    by_cases he : e % 2 = 0
    · refine ⟨Nat.log2 m / 2, by omega, ?_, ?_⟩
      · rw [if_pos he, ← pow_add]
        congr 1
        omega
      · rw [if_pos he]
        omega
    · refine ⟨(Nat.log2 m + 1) / 2, by omega, ?_, ?_⟩
      · rw [if_neg he, ← pow_add, ← pow_succ']
        congr 1
        omega
      · rw [if_neg he]
        omega
  have hquot : 2 ^ 160 / evenSig m e = 2 ^ (80 - i) * 2 ^ (80 - i) := by
    rw [hsig, ← pow_add, ← pow_add, Nat.pow_div (by omega) (by decide)]
    congr 1
    omega
  have hroot : isqrt (2 ^ 160 / evenSig m e) = 2 ^ (80 - i) := by
    rw [hquot]
    refine isqrt_of_square (Nat.mul_lt_mul'' ?_ ?_) <;> exact Nat.pow_lt_pow_right (by decide) (by omega)
  have hwhole : 2 ^ (80 - i) * 2 ^ (80 - i) * evenSig m e = 2 ^ 160 := by
    rw [hsig, ← pow_add, ← pow_add, ← pow_add]
    congr 1
    omega
  rw [rsqNear_eq, hroot, if_pos hwhole, Nat.add_zero, ← pow_succ', fround_two_pow 23 0 false (by omega) (by omega)]
  simp only [Bool.toNat_false, zero_mul, zero_add]
  congr 2
  omega

/-- 1/√v is a normal number only where v is a power of four. -/
theorem isPowFour_of_square (h : Fields a false m e) (hm : 0 < m) {r : Nat} (hr : F32Normal false r)
    (hsq : f32Val r ^ 2 * f32Val a = 1) : IsPowFour m e := by
  obtain ⟨M, E, hf, hM⟩ := F32Normal.fields hr
  rw [hf.val_pos, h.val_pos] at hsq
  have hprod : ((M * M * m : Nat) : ℚ) * 2 ^ (2 * E + e) = 2 ^ (0 : Int) := by
    rw [zpow_add₀ (by norm_num), two_mul, zpow_add₀ (by norm_num), zpow_zero, ← hsq]
    push_cast
    ring
  have hpos : 0 < M * M * m := Nat.mul_pos (Nat.mul_pos (by omega) (by omega)) hm
  obtain ⟨hpow, htop⟩ := (eq_two_pow_iff hpos _ _).mp hprod
  obtain ⟨i, -, hi⟩ := (Nat.dvd_prime_pow Nat.prime_two).mp (hpow ▸ Dvd.intro_left (M * M) rfl)
  obtain ⟨l, -, hl⟩ := (Nat.dvd_prime_pow Nat.prime_two).mp (hpow ▸ Dvd.intro (M * m) (mul_assoc M M m).symm)
  have hlog : Nat.log2 m = i := by rw [hi, Nat.log2_two_pow]
  have hlogs : Nat.log2 (M * M * m) = l + l + i := by rw [hi, hl, ← pow_add, ← pow_add, Nat.log2_two_pow]
  exact ⟨by rw [hlog, hi], by omega⟩

theorem near_square (h : Fields a false m e) (hm : 0 < m) (hfour : IsPowFour m e) : f32Val (rsqNear m e) ^ 2 * f32Val a = 1 := by
  obtain ⟨hpow, heven⟩ := hfour
  have hlog := log2_lt_of_fields h hm
  have hlow := h.low
  have hhigh := h.high
  have hj : e + Nat.log2 m = 2 * ((e + Nat.log2 m) / 2) := by omega
  generalize (e + Nat.log2 m) / 2 = j at hj
  have hv : f32Val a = 2 ^ (2 * j) := by
    rw [h.val_pos]
    exact (eq_two_pow_iff hm e _).mpr ⟨hpow, hj.symm⟩
  rw [rsqNear_pow_four h hm hpow hj, f32Val_two_pow (by omega) (by omega), hv, ← zpow_natCast, ← zpow_mul,
    ← zpow_add₀ (by norm_num), show -j * ((2 : Nat) : Int) + 2 * j = 0 by push_cast; ring, zpow_zero]

/-- The square of a result is 1/v exactly where v is a power of four and the result is its root. -/
theorem square_iff (h : Fields a false m e) (hm : 0 < m) {r : Nat} (hr : F32Normal false r) :
    f32Val r ^ 2 * f32Val a = 1 ↔ IsPowFour m e ∧ r = rsqNear m e := by
  constructor
  · intro hsq
    have hfour := isPowFour_of_square h hm hr hsq
    have hnear := near_square h hm hfour
    have hnormal := (rsqNear_bracket h hm).1
    have hpos : ∀ {c : Nat}, F32Normal false c → 0 ≤ f32Val c := fun hc => by
      rw [← abs_of_positive hc]
      exact abs_nonneg _
    have hsame := mul_right_cancel₀ (val_pos h hm).ne' (hsq.trans hnear.symm)
    exact ⟨hfour, normal_inj hr hnormal ((pow_left_inj₀ (hpos hr) (hpos hnormal) (by decide)).mp hsame)⟩
  · rintro ⟨hfour, rfl⟩
    exact near_square h hm hfour

/-! ### VRSQ of a finite number that is not zero -/

theorem fRsq_negative (h : Fields a true m e) (hm : 0 < m) : fRsq a = (0x7FC00000, 1) := by
  rw [fRsq, h.fval_eq]
  simp only [if_neg hm.ne', if_true]
  rfl

theorem fRsq_fin (h : Fields a false m e) (hm : 0 < m) :
    fRsq a = (let near := rsqNear m e
      let n : Int := e + (Nat.log2 m : Int)
      let exact := m == 2 ^ Nat.log2 m && n % 2 == 0
      if exact && decide (-126 ≤ n) then (near, 0)
      else
        let c := (Config.rsq (BitVec.ofNat 32 a)).toNat
        let r := if rsqOk near m e c then c else near
        (r, if exact && r == near then 0 else 16)) := by
  rw [fRsq, h.fval_eq]
  simp only [if_neg hm.ne', Bool.false_eq_true, if_false, flNX]

theorem isPowFour_iff (m : Nat) (e : Int) :
    (m == 2 ^ Nat.log2 m && (e + (Nat.log2 m : Int)) % 2 == 0) = true ↔ IsPowFour m e := by
  rw [Bool.and_eq_true, beq_iff_eq, beq_iff_eq, IsPowFour]

theorem fRsq_pow_four (h : Fields a false m e) (hm : 0 < m) {n : Int} (hv : f32Val a = (4 : ℚ) ^ n) (hlow : -63 ≤ n) :
    fRsq a = ((127 - n).toNat * 2 ^ 23, 0) := by
  rw [h.val_pos, show (4 : ℚ) = 2 ^ (2 : Int) by norm_num, ← zpow_mul,
    eq_two_pow_iff hm] at hv
  obtain ⟨hpow, htop⟩ := hv
  have hfour := (isPowFour_iff m e).mpr ⟨hpow, by omega⟩
  rw [fRsq_fin h hm]
  dsimp only
  rw [hfour, if_pos (by simp; omega), rsqNear_pow_four h hm hpow htop.symm, neg_add_eq_sub]

/-- The result is the root rounded to nearest or a candidate within two units; it is exact only as that root. -/
theorem fRsq_shape (h : Fields a false m e) (hm : 0 < m) [Decidable (IsPowFour m e)] :
    ∃ r, fRsq a = (r, if IsPowFour m e ∧ r = rsqNear m e then 0 else 16)
      ∧ (r = rsqNear m e ∨ r < 2 ^ 32 ∧ rsqOk (rsqNear m e) m e r = true) := by
  have hfour := isPowFour_iff m e
  rw [fRsq_fin h hm]
  dsimp only
  split
  · rename_i hexact
    exact ⟨_, by rw [if_pos ⟨hfour.mp (Bool.and_eq_true _ _ |>.mp hexact).1, rfl⟩], Or.inl rfl⟩
  · generalize hr : (if rsqOk (rsqNear m e) m e (Config.rsq (BitVec.ofNat 32 a)).toNat then
      (Config.rsq (BitVec.ofNat 32 a)).toNat else rsqNear m e) = r
    refine ⟨r, ?_, ?_⟩
    · simp only [Bool.and_eq_true (_ && _), hfour, beq_iff_eq]
    · rw [← hr]
      split
      · exact Or.inr ⟨BitVec.isLt _, ‹_›⟩
      · exact Or.inl rfl

theorem rsqOk_bound (h : Fields a false m e) {near c : Nat} (hlt : c < 2 ^ 32) (hok : rsqOk near m e c = true) :
    F32Normal false c ∧ (f32Val c - 2 * f32Ulp near) ^ 2 * f32Val a ≤ 1 ∧ 1 ≤ (f32Val c + 2 * f32Ulp near) ^ 2 * f32Val a := by
  have hval : dyVal ⟨(m : Int), e⟩ = f32Val a := by
    rw [h.val_pos]
    simp [dyVal]
  have hunits : dyVal ⟨2, (ulpOf near).e⟩ = 2 * f32Ulp near := by
    rw [← dyVal_ulpOf]
    simp [dyVal, ulpOf]
  have hone : dyVal ⟨1, 0⟩ = 1 := by simp [dyVal]
  simp only [rsqOk, Bool.and_eq_true, le_iff, dyVal_mul, dyVal_add, dyVal_neg, hval, hunits, hone, dyVal_dyBits] at hok
  obtain ⟨⟨hnormal, hlo⟩, hhi⟩ := hok
  exact ⟨normal_of_normalOf hlt hnormal, by linarith, by linarith⟩

/-- VRSQ lies within two units of 1/√v, in units of the result rounded to nearest, and is inexact unless its square is 1/v. -/
theorem fRsq_bound (h : Fields a false m e) (hm : 0 < m) :
    ∃ r c, (fRsq a).1 = r ∧ F32Normal false r ∧ F32Normal false c
      ∧ (f32Val c - f32Ulp c / 2) ^ 2 * f32Val a ≤ 1 ∧ 1 ≤ (f32Val c + f32Ulp c / 2) ^ 2 * f32Val a
      ∧ (f32Val r - 2 * f32Ulp c) ^ 2 * f32Val a ≤ 1 ∧ 1 ≤ (f32Val r + 2 * f32Ulp c) ^ 2 * f32Val a
      ∧ (fRsq a).2 = (if f32Val r ^ 2 * f32Val a = 1 then 0 else 16) := by
  classical
  obtain ⟨hnormal, hlo, hhi⟩ := rsqNear_bracket h hm
  obtain ⟨r, hres, hfrom⟩ := fRsq_shape h hm
  have hv := val_pos h hm
  have hbound : F32Normal false r ∧ (f32Val r - 2 * f32Ulp (rsqNear m e)) ^ 2 * f32Val a ≤ 1
      ∧ 1 ≤ (f32Val r + 2 * f32Ulp (rsqNear m e)) ^ 2 * f32Val a := by
    rcases hfrom with rfl | ⟨hlt, hok⟩
    · have hulp := F32Normal.ulp_le hnormal
      have hpos := f32Ulp_pos (rsqNear m e)
      rw [abs_of_positive hnormal] at hulp
      refine ⟨hnormal, le_trans ?_ hlo, hhi.trans ?_⟩
      · gcongr
        · linarith
        · linarith
      · gcongr
        · linarith
        · linarith
    · exact rsqOk_bound h hlt hok
  obtain ⟨hr, hrlo, hrhi⟩ := hbound
  refine ⟨r, rsqNear m e, by rw [hres], hr, hnormal, hlo, hhi, hrlo, hrhi, ?_⟩
  rw [hres]
  simp only [square_iff h hm hr]

end

end Sys2Proof.Proofs.ReciprocalRoot

/-! SUPPORT. VEXP2: its argument in fixed point, and its special values (R114). -/

namespace Sys2Proof.Proofs.Exp2Argument

open Machine Rounding

/-! ### The argument in units of 2^(-64) -/

/-- The operand in units of 2^(-64), rounded down. -/
def fixedPoint (neg : Bool) (m : Nat) (e : Int) : Int :=
  if 0 ≤ e then (if neg then -1 else 1) * m * 2 ^ (min e.toNat 200) * 2 ^ 64
  else (((if neg then -1 else 1) * (m : Int)) * 2 ^ 64).fdiv (2 ^ (-e).toNat)

/-- Whether the operand is an integer. -/
def isWhole (m : Nat) (e : Int) : Bool := decide (0 ≤ e) || m % 2 ^ (-e).toNat == 0

theorem signOf_cast (neg : Bool) : signOf neg = ((if neg then -1 else 1 : Int) : ℚ) := by cases neg <;> simp [signOf]

section
variable {a m : Nat} {neg : Bool} {e : Int}

theorem fixedPoint_eq (h : Fields a neg m e) : fixedPoint neg m e = ⌊f32Val a * 2 ^ 64⌋ := by
  have hhigh := h.high
  rw [h.val, signOf_cast, fixedPoint]
  generalize (if neg then -1 else 1 : Int) = σ
  by_cases he : 0 ≤ e
  · have hval : (σ : ℚ) * m * 2 ^ e * 2 ^ 64 = ((σ * m * 2 ^ e.toNat * 2 ^ 64 : Int) : ℚ) := by
      push_cast
      rw [pow_toNat he]
      norm_num
    rw [if_pos he, hval, Int.floor_intCast, Nat.min_eq_left (by omega)]
  · have hval : (σ : ℚ) * m * 2 ^ e * 2 ^ 64 = ((σ * m * 2 ^ 64 : Int) : ℚ) / ((2 ^ (-e).toNat : Nat) : ℚ) := by
      push_cast
      rw [pow_toNat (by omega), zpow_neg, div_inv_eq_mul]
      ring
    rw [if_neg he, hval, Rat.floor_intCast_div_natCast, Int.fdiv_eq_ediv_of_nonneg _ (by positivity)]
    push_cast
    rfl

theorem floor_eq (h : Fields a neg m e) : (fixedPoint neg m e).fdiv (2 ^ 64) = ⌊f32Val a⌋ := by
  rw [fixedPoint_eq h, Int.fdiv_eq_ediv_of_nonneg _ (by norm_num)]
  generalize f32Val a = v
  symm
  rw [Int.floor_eq_iff]
  have hlo := Int.floor_le (v * 2 ^ 64)
  have hhi := Int.lt_floor_add_one (v * 2 ^ 64)
  generalize ⌊v * 2 ^ 64⌋ = x at *
  have h1 : x / 2 ^ 64 * 2 ^ 64 ≤ x := Int.ediv_mul_le _ (by norm_num)
  have h2 : x < (x / 2 ^ 64 + 1) * 2 ^ 64 := by omega
  have h1q : ((x / 2 ^ 64 : Int) : ℚ) * 2 ^ 64 ≤ x := by exact_mod_cast h1
  have h2q : (x : ℚ) + 1 ≤ ((x / 2 ^ 64 : Int) + 1) * 2 ^ 64 := by exact_mod_cast h2
  constructor <;> linarith

theorem isWhole_iff (h : Fields a neg m e) : isWhole m e = true ↔ f32Val a = ⌊f32Val a⌋ := by
  have hrest : isWhole m e = true ↔ rest m (-e) = 0 := by
    rw [isWhole, Bool.or_eq_true, decide_eq_true_eq, beq_iff_eq, rest]
    split <;> omega
  have hiff := ConversionFlags.val_eq_iff h 1
  rw [hrest, ← hiff]
  constructor
  · intro heq
    rw [heq, Int.floor_intCast]
  · intro heq
    rw [hiff]
    have habs : (m : ℚ) * 2 ^ e = ((|⌊f32Val a⌋| : Int) : ℚ) := by
      rw [← h.abs_val]
      conv_lhs => rw [heq]
      exact (Int.cast_abs).symm
    obtain ⟨hcut, hpos, hlt⟩ := ConversionFlags.cut_bounds m e
    have hzero := ConversionFlags.frac_eq_zero_iff m (-e)
    rw [← hzero]
    rw [habs] at hcut
    generalize (rest m (-e) : ℚ) / 2 ^ (-e).toNat = ρ at *
    have hn : |⌊f32Val a⌋| = (cut m (-e) : Int) :=
      ConversionFlags.nat_eq_of_bounds (x := ((|⌊f32Val a⌋| : Int) : ℚ)) (by linarith) (by linarith) le_rfl (by linarith)
    rw [hn, Int.cast_natCast] at hcut
    linarith

/-! ### VEXP2 of a finite number that is not zero -/

/-- 2^f in units of 2^(-80), rounded down, for a fraction f of 64 bits. -/
def fracPower (f : Nat) : Nat := exp2Frac f 64 (2 * 2 ^ 80) (2 ^ 80)
/-- 2^n times that, rounded to nearest. -/
def expNear (v : Nat) (n : Int) : Nat := (fround 23 0 false (2 * v + 1) (n - 81)).1

theorem fExp2_fin (h : Fields a neg m e) (hm : 0 < m) :
    fExp2 a = (let n := ⌊f32Val a⌋
      let v := fracPower (⌊f32Val a * 2 ^ 64⌋ - n * 2 ^ 64).toNat
      let c := (Config.exp2 (BitVec.ofNat 32 a)).toNat
      if 128 ≤ n then (0x7F800000, 18)
      else if n < -126 then (0, 20)
      else if isWhole m e then ((n + 127).toNat * 2 ^ 23, 0)
      else (if exp2Ok (expNear v n) v n c then c else expNear v n, 16)) := by
  rw [← fixedPoint_eq h, ← floor_eq h, fExp2, h.fval_eq]
  simp only [if_neg hm.ne']
  rfl

theorem fExp2_over (h : Fields a neg m e) (hm : 0 < m) (hv : 128 ≤ f32Val a) : fExp2 a = (0x7F800000, 18) := by
  rw [fExp2_fin h hm]
  exact if_pos (Int.le_floor.mpr (by exact_mod_cast hv))

theorem fExp2_under (h : Fields a neg m e) (hm : 0 < m) (hv : f32Val a < -126) : fExp2 a = (0, 20) := by
  have hn : ⌊f32Val a⌋ < -126 := Int.floor_lt.mpr (by exact_mod_cast hv)
  rw [fExp2_fin h hm]
  dsimp only
  rw [if_neg (by omega), if_pos hn]

theorem fExp2_whole (h : Fields a neg m e) (hm : 0 < m) {n : Int} (hv : f32Val a = n) (hlow : -126 ≤ n) (hhigh : n ≤ 127) :
    fExp2 a = ((n + 127).toNat * 2 ^ 23, 0) := by
  have hn : ⌊f32Val a⌋ = n := by rw [hv, Int.floor_intCast]
  have hwhole : isWhole m e = true := by rw [isWhole_iff h, hn, hv]
  rw [fExp2_fin h hm, hn]
  dsimp only
  rw [if_neg (by omega), if_neg (by omega), if_pos hwhole]

end

end Sys2Proof.Proofs.Exp2Argument

/-! SUPPORT. The three approximate functions and the conversions together (R107, R114, R115). -/

namespace Sys2Proof.Proofs.FloatBounds

open Machine Rounding Reciprocal ReciprocalRoot Exp2Argument ConversionFlags

/-! ### NaN, infinity, zero -/

theorem approx_nan {a : Nat} (h : 0x7F800000 < a % 2 ^ 31) :
    let fl := if a % 2 ^ 31 < 0x7FC00000 then 1 else 0
    fRcp a = (0x7FC00000, fl) ∧ fRsq a = (0x7FC00000, fl) ∧ fExp2 a = (0x7FC00000, fl) := by
  have hnan : fNaN 23 = 0x7FC00000 := rfl
  simp [fRcp, fRsq, fExp2, fval_nan h, hnan, flNV]

theorem fval_infinity {a : Nat} (ha : a < 2 ^ 32) (h : a % 2 ^ 31 = 0x7F800000) : fval 23 a = .inf (decide (2 ^ 31 ≤ a)) := by
  have hexp : a / 2 ^ 23 % 256 = 255 := by omega
  have hfrac : a % 2 ^ 23 = 0 := by omega
  simp only [fval, if_pos hexp, if_pos hfrac, Nat.testBit_eq_decide_div_mod_eq, FV.inf.injEq, decide_eq_decide]
  omega

theorem approx_infinity {a : Nat} (ha : a < 2 ^ 32) (h : a % 2 ^ 31 = 0x7F800000) :
    fRcp a = (a / 2 ^ 31 * 2 ^ 31, 0) ∧ fRsq a = (if a / 2 ^ 31 = 0 then (0, 0) else (0x7FC00000, 1))
      ∧ fExp2 a = (if a / 2 ^ 31 = 0 then 0x7F800000 else 0, 0) := by
  simp only [fRcp, fRsq, fExp2, fval_infinity ha h]
  by_cases hneg : 2 ^ 31 ≤ a
  · have hsign : a / 2 ^ 31 = 1 := by omega
    rw [hsign, decide_eq_true hneg]
    exact ⟨rfl, rfl, rfl⟩
  · have hsign : a / 2 ^ 31 = 0 := by omega
    rw [hsign, decide_eq_false hneg]
    exact ⟨rfl, rfl, rfl⟩

theorem fval_zero {a : Nat} (ha : a < 2 ^ 32) (h : a % 2 ^ 31 = 0) : fval 23 a = .fin (decide (2 ^ 31 ≤ a)) 0 (-149) := by
  have hexp : a / 2 ^ 23 % 256 = 0 := by omega
  have hfrac : a % 2 ^ 23 = 0 := by omega
  have hsign : a.testBit (23 + 8) = decide (2 ^ 31 ≤ a) := by
    rw [Nat.testBit_eq_decide_div_mod_eq, decide_eq_decide]
    omega
  simp only [fval, hexp, hfrac, hsign]
  rfl

theorem approx_zero {a : Nat} (ha : a < 2 ^ 32) (h : a % 2 ^ 31 = 0) :
    fRcp a = (a / 2 ^ 31 * 2 ^ 31 + 0x7F800000, 8) ∧ fRsq a = (a / 2 ^ 31 * 2 ^ 31 + 0x7F800000, 8)
      ∧ fExp2 a = (0x3F800000, 0) := by
  simp only [fRcp, fRsq, fExp2, fval_zero ha h]
  by_cases hneg : 2 ^ 31 ≤ a
  · have hsign : a / 2 ^ 31 = 1 := by omega
    rw [hsign, decide_eq_true hneg]
    exact ⟨rfl, rfl, rfl⟩
  · have hsign : a / 2 ^ 31 = 0 := by omega
    rw [hsign, decide_eq_false hneg]
    exact ⟨rfl, rfl, rfl⟩

/-! ### The claim -/

theorem sign_bit {a : Nat} (ha : a < 2 ^ 32) :
    a / 2 ^ 31 = (decide (2 ^ 31 ≤ a)).toNat ∧ (a / 2 ^ 31 == 1) = decide (2 ^ 31 ≤ a) := by
  by_cases h : 2 ^ 31 ≤ a
  · have : a / 2 ^ 31 = 1 := by omega
    rw [this, decide_eq_true h]
    exact ⟨rfl, rfl⟩
  · have : a / 2 ^ 31 = 0 := by omega
    rw [this, decide_eq_false h]
    exact ⟨rfl, rfl⟩

theorem fields_pos {a m : Nat} {neg : Bool} {e : Int} (h : Fields a neg m e) (hmag : 0 < a % 2 ^ 31) : 0 < m := by
  by_contra h0
  have hbits := h.bits
  have he : e = -149 := by
    have := h.low
    have := h.normal
    omega
  rw [show m = 0 by omega, he, magnitude] at hbits
  cases neg <;> simp only [Bool.toNat_false, Bool.toNat_true] at hbits <;> omega

theorem approximateFunctions : Claim.FloatBounds := by
  intro a ha
  refine ⟨approx_nan, approx_infinity ha, approx_zero ha, fun hpos hfin => ?_⟩
  obtain ⟨hsgn, hneg⟩ := sign_bit ha
  obtain ⟨m, e, h⟩ := fields_exist ha hfin
  have hm := fields_pos h hpos
  rw [hneg, hsgn]
  generalize decide (2 ^ 31 ≤ a) = neg at h
  refine ⟨fun n hv hlow hhigh => fRcp_two_pow h hm hv hlow hhigh, fRcp_large h hm, fRcp_small h hm, fRcp_bound h hm,
    fun hone => ?_, fun n hv hlow => ?_, fun hzero => ?_, fExp2_over h hm, fExp2_under h hm,
    fun n hv hlow hhigh => fExp2_whole h hm hv hlow hhigh⟩
  · cases neg with
    | true => exact fRsq_negative h hm
    | false => cases hone
  · cases neg with
    | false => exact fRsq_pow_four h hm hv hlow
    | true =>
      have hpos4 : (0 : ℚ) < 4 ^ n := by positivity
      have hmag0 : (0 : ℚ) ≤ m * 2 ^ e := by positivity
      rw [← hv, h.val, signOf, if_pos rfl] at hpos4
      linarith
  · cases neg with
    | false => exact fRsq_bound h hm
    | true => cases hzero

/-- Settles O27: VRCP and VRSQ by the results rounded to nearest and what a kept candidate satisfies; the conversions by
rounding at a place. -/
theorem floatBounds : Obligations.FloatBounds := by
  unfold Obligations.FloatBounds
  exact ⟨approximateFunctions, conversionFlags⟩

end Sys2Proof.Proofs.FloatBounds

/-! SUPPORT. VEXP2 within its bound: the product of roots of two, the interval it gives for 2^x, and the result (R114). -/

namespace Sys2Proof.Proofs.Exp2

open Machine ExactNumbers Rounding Nearest Reciprocal ReciprocalRoot Exp2Argument

/-! ### Roots of two -/

/-- root is 2^ρ in units of 2^(-80), rounded down with an error of two units at most. -/
structure RootNear (root : Nat) (ρ : ℝ) : Prop where
  one_le : 2 ^ 80 ≤ root
  le : (root : ℝ) ≤ 2 ^ 80 * (2 : ℝ) ^ ρ
  ge : 2 ^ 80 * (2 : ℝ) ^ ρ ≤ root + 2

theorem rpow_half_sq (ρ : ℝ) : ((2 : ℝ) ^ (ρ / 2)) ^ 2 = (2 : ℝ) ^ ρ := by
  rw [← Real.rpow_natCast, ← Real.rpow_mul (by norm_num)]
  congr 1
  push_cast
  ring

/-- A square root of a root of two. -/
theorem RootNear.sqrt {root : Nat} {ρ : ℝ} (h : RootNear root ρ) (hρ : 0 ≤ ρ) (hρ1 : ρ ≤ 1) :
    RootNear (isqrt (root * 2 ^ 80)) (ρ / 2) := by
  obtain ⟨hone, hle, hge⟩ := h
  have hR : (2 : ℝ) ^ ρ ≤ 2 := by
    calc (2 : ℝ) ^ ρ ≤ 2 ^ (1 : ℝ) := Real.rpow_le_rpow_of_exponent_le (by norm_num) hρ1
      _ = 2 := Real.rpow_one 2
  have hsmall : root < 2 ^ 82 := by
    have : (root : ℝ) < 2 ^ 82 := by linarith
    exact_mod_cast this
  obtain ⟨hlo, hhi⟩ := isqrt_spec (x := root * 2 ^ 80) (by omega)
  have hS := rpow_half_sq ρ
  have hS1 : (1 : ℝ) ≤ 2 ^ (ρ / 2) := Real.one_le_rpow (by norm_num) (by linarith)
  obtain ⟨S, hSdef⟩ : ∃ S, S = (2 : ℝ) ^ (ρ / 2) := ⟨_, rfl⟩
  rw [← hSdef] at hS hS1
  generalize isqrt (root * 2 ^ 80) = r at *
  rw [← hS] at hle hge
  have hloR : (r : ℝ) * r ≤ root * 2 ^ 80 := by exact_mod_cast hlo
  have hhiR : (root : ℝ) * 2 ^ 80 + 1 ≤ (r + 1) * (r + 1) := by exact_mod_cast hhi
  have hrpos : (0 : ℝ) ≤ r := Nat.cast_nonneg r
  refine ⟨?_, ?_, ?_⟩
  · by_contra hno
    have hr : r + 1 ≤ 2 ^ 80 := by omega
    have := Nat.mul_le_mul hr hr
    omega
  · rw [← hSdef]
    refine le_of_sq_le_sq ?_ (by positivity)
    calc (r : ℝ) ^ 2 = r * r := by ring
      _ ≤ root * 2 ^ 80 := hloR
      _ ≤ 2 ^ 80 * S ^ 2 * 2 ^ 80 := by gcongr
      _ = (2 ^ 80 * S) ^ 2 := by ring
  · rw [← hSdef]
    by_contra hno
    have hgap : (r : ℝ) + 1 < 2 ^ 80 * S - 1 := by linarith
    have hsq : ((r : ℝ) + 1) * (r + 1) < (2 ^ 80 * S - 1) * (2 ^ 80 * S - 1) := by
      apply mul_lt_mul'' hgap hgap <;> linarith
    have hexp : ((2 : ℝ) ^ 80 * S - 1) * (2 ^ 80 * S - 1) = 2 ^ 80 * (2 ^ 80 * S ^ 2) - 2 * 2 ^ 80 * S + 1 := by ring
    linarith

/-! ### Products of roots -/

/-- acc is A, rounded down with a relative error of δ at most. -/
structure ProductNear (acc : Nat) (A δ : ℝ) : Prop where
  one_le : 2 ^ 80 ≤ acc
  le : (acc : ℝ) ≤ A
  ge : A * (1 - δ) ≤ acc

theorem ProductNear.mul {acc root : Nat} {A δ ρ : ℝ} (h : ProductNear acc A δ) (hroot : RootNear root ρ) (hρ : 0 ≤ ρ) :
    ProductNear (acc * root / 2 ^ 80) (A * (2 : ℝ) ^ ρ) (δ + 1 / 2 ^ 78) := by
  obtain ⟨hone, hle, hge⟩ := h
  obtain ⟨hrone, hrle, hrge⟩ := hroot
  have hS1 : (1 : ℝ) ≤ 2 ^ ρ := Real.one_le_rpow (by norm_num) hρ
  generalize (2 : ℝ) ^ ρ = S at *
  have hacc : (0 : ℝ) ≤ acc := Nat.cast_nonneg acc
  have honeR : (2 : ℝ) ^ 80 ≤ acc := by exact_mod_cast hone
  have hA : (0 : ℝ) ≤ A := by linarith
  have hAS : A ≤ A * S := le_mul_of_one_le_right hA hS1
  have hdiv := Nat.div_add_mod (acc * root) (2 ^ 80)
  have hmod := Nat.mod_lt (acc * root) (show 2 ^ 80 > 0 by decide)
  have hdown : acc * root / 2 ^ 80 * 2 ^ 80 ≤ acc * root := Nat.div_mul_le_self _ _
  have hup : acc * root ≤ acc * root / 2 ^ 80 * 2 ^ 80 + 2 ^ 80 := by omega
  refine ⟨?_, ?_, ?_⟩
  · rw [Nat.le_div_iff_mul_le (by decide)]
    exact Nat.mul_le_mul hone hrone
  · have hdownR : ((acc * root / 2 ^ 80 : Nat) : ℝ) * 2 ^ 80 ≤ acc * root := by exact_mod_cast hdown
    have hprod : (acc : ℝ) * root ≤ A * (2 ^ 80 * S) := mul_le_mul hle hrle (Nat.cast_nonneg _) hA
    linarith
  · have hupR : (acc : ℝ) * root ≤ ((acc * root / 2 ^ 80 : Nat) : ℝ) * 2 ^ 80 + 2 ^ 80 := by exact_mod_cast hup
    have hroot : (acc : ℝ) * (2 ^ 80 * S - 2) ≤ acc * root := by gcongr; linarith
    have hlow : A * (1 - δ) * (2 ^ 80 * S) ≤ acc * (2 ^ 80 * S) := by gcongr
    linarith

theorem bit_split (f n : Nat) : f % 2 ^ (n + 1) = f % 2 ^ n + (f.testBit n).toNat * 2 ^ n := by
  rw [Nat.mod_pow_succ, Nat.testBit_eq_decide_div_mod_eq]
  rcases Nat.mod_two_eq_zero_or_one (f / 2 ^ n) with h | h <;> simp [h]

/-- The product over the bits of f stays close to the power with those bits for its exponent. -/
theorem exp2Frac_near (f n : Nat) {root acc : Nat} {ρ A δ : ℝ} (hroot : RootNear root ρ) (hρ : 0 ≤ ρ) (hρ1 : ρ ≤ 1)
    (hacc : ProductNear acc A δ) :
    ProductNear (exp2Frac f n root acc) (A * (2 : ℝ) ^ (ρ * ((f % 2 ^ n : Nat) / 2 ^ n))) (δ + n / 2 ^ 78) := by
  induction n generalizing root acc ρ A δ with
  | zero => simpa [exp2Frac, Nat.mod_one] using hacc
  | succ n ih =>
    have hnext := hroot.sqrt hρ hρ1
    have hexp : ρ * (((f % 2 ^ (n + 1) : Nat) : ℝ) / 2 ^ (n + 1))
        = ρ / 2 * (f.testBit n).toNat + ρ / 2 * (((f % 2 ^ n : Nat) : ℝ) / 2 ^ n) := by
      have hp : (2 : ℝ) ^ n ≠ 0 := by positivity
      rw [bit_split, pow_succ]
      push_cast
      field_simp
      ring
    rw [exp2Frac, hexp, Real.rpow_add (by norm_num), ← mul_assoc]
    cases f.testBit n with
    | true =>
      have := ih hnext (by linarith) (by linarith) (hacc.mul hnext (by linarith))
      simp only [if_true, Bool.toNat_true, Nat.cast_one, mul_one]
      convert this using 1
      push_cast
      ring
    | false =>
      have := ih hnext (by linarith) (by linarith) hacc
      simp only [Bool.false_eq_true, if_false, Bool.toNat_false, Nat.cast_zero, mul_zero, Real.rpow_zero, mul_one]
      obtain ⟨hone, hle, hge⟩ := this
      refine ⟨hone, hle, le_trans ?_ hge⟩
      have hpos : (0 : ℝ) ≤ A * (2 : ℝ) ^ (ρ / 2 * (((f % 2 ^ n : Nat) : ℝ) / 2 ^ n)) := le_trans (Nat.cast_nonneg _) hle
      gcongr
      linarith

/-- 2^f for a fraction f of 64 bits. -/
theorem fracPower_near {f : Nat} (hf : f < 2 ^ 64) :
    ProductNear (fracPower f) (2 ^ 80 * (2 : ℝ) ^ ((f : ℝ) / 2 ^ 64)) (1 / 2 ^ 72) := by
  have hroot : RootNear (2 * 2 ^ 80) 1 := by
    refine ⟨by decide, ?_, ?_⟩ <;> · rw [Real.rpow_one]; norm_num
  have hacc : ProductNear (2 ^ 80) (2 ^ 80) 0 := ⟨le_rfl, by norm_num, by norm_num⟩
  have hnear := exp2Frac_near f 64 hroot (by norm_num) le_rfl hacc
  rw [Nat.mod_eq_of_lt hf, one_mul, zero_add] at hnear
  have herr : ((64 : Nat) : ℝ) / 2 ^ 78 = 1 / 2 ^ 72 := by norm_num
  rw [herr] at hnear
  exact hnear

/-! ### The interval for 2^x -/

/-- 2^t stays below its chords. -/
theorem two_rpow_le {t : ℝ} (h : 0 ≤ t) (h' : t ≤ 1) : (2 : ℝ) ^ t ≤ 1 + t := by
  have := rpow_one_add_le_one_add_mul_self (s := 1) (p := t) (by norm_num) h h'
  norm_num at this
  linarith

theorem two_rpow_neg_le {t : ℝ} (h : 0 ≤ t) (h' : t ≤ 1) : (2 : ℝ) ^ (-t) ≤ 1 - t / 2 := by
  have := rpow_one_add_le_one_add_mul_self (s := -1 / 2) (p := t) (by norm_num) h h'
  rw [Real.rpow_neg (by norm_num), ← Real.inv_rpow (by norm_num)]
  norm_num at this ⊢
  linarith

theorem fracPower_lt {f : Nat} (hf : f < 2 ^ 64) : fracPower f < 2 ^ 81 := by
  have hle := (fracPower_near hf).le
  have hfrac : (f : ℝ) / 2 ^ 64 < 1 := by
    rw [div_lt_one (by positivity)]
    exact_mod_cast hf
  have hpow : (2 : ℝ) ^ ((f : ℝ) / 2 ^ 64) < 2 := by
    calc (2 : ℝ) ^ ((f : ℝ) / 2 ^ 64) < 2 ^ (1 : ℝ) := Real.rpow_lt_rpow_of_exponent_lt (by norm_num) hfrac
      _ = 2 := Real.rpow_one 2
  have : (fracPower f : ℝ) < 2 ^ 81 := by linarith
  exact_mod_cast this

/-- Away from the next power of two there is no carry into it. -/
theorem fracPower_no_carry {f : Nat} (hf : f + 2 ^ 47 ≤ 2 ^ 64) : 2 * fracPower f + 1 < (2 ^ 24 - 1) * 2 ^ 58 := by
  have hle := (fracPower_near (f := f) (by omega)).le
  have hfrac : (f : ℝ) / 2 ^ 64 ≤ 1 + -(1 / 2 ^ 17) := by
    have : (f : ℝ) + 2 ^ 47 ≤ 2 ^ 64 := by exact_mod_cast hf
    rw [div_le_iff₀ (by positivity)]
    linarith
  have hpow : (2 : ℝ) ^ ((f : ℝ) / 2 ^ 64) ≤ 2 * (1 - 1 / 2 ^ 17 / 2) := by
    calc (2 : ℝ) ^ ((f : ℝ) / 2 ^ 64) ≤ 2 ^ (1 + -(1 / 2 ^ 17 : ℝ)) :=
          Real.rpow_le_rpow_of_exponent_le (by norm_num) hfrac
      _ = 2 * 2 ^ (-(1 / 2 ^ 17 : ℝ)) := by rw [Real.rpow_add (by norm_num), Real.rpow_one]
      _ ≤ _ := by
        gcongr
        exact two_rpow_neg_le (by positivity) (by norm_num)
  have hsum : ((2 * fracPower f + 1 + 2 ^ 58 : Nat) : ℝ) < ((2 ^ 82 : Nat) : ℝ) := by
    push_cast
    linarith
  have := Nat.cast_lt.mp hsum
  omega

/-- A fraction φ of which f are the first 64 bits. -/
theorem fracPower_interval {f : Nat} {φ : ℝ} (hf : f < 2 ^ 64) (hlo : (f : ℝ) ≤ φ * 2 ^ 64) (hhi : φ * 2 ^ 64 ≤ f + 1) :
    (fracPower f : ℝ) ≤ 2 ^ 80 * (2 : ℝ) ^ φ ∧ 2 ^ 80 * (2 : ℝ) ^ φ ≤ fracPower f + 2 ^ 18 := by
  obtain ⟨-, hle, hge⟩ := fracPower_near hf
  have hV2 : (fracPower f : ℝ) ≤ 2 ^ 81 := by exact_mod_cast (fracPower_lt hf).le
  have hmono : (2 : ℝ) ^ ((f : ℝ) / 2 ^ 64) ≤ 2 ^ φ :=
    Real.rpow_le_rpow_of_exponent_le (by norm_num) ((div_le_iff₀ (by positivity)).mpr hlo)
  have hup : (2 : ℝ) ^ φ ≤ 2 ^ ((f : ℝ) / 2 ^ 64) * (1 + 1 / 2 ^ 64) := by
    calc (2 : ℝ) ^ φ ≤ 2 ^ ((f : ℝ) / 2 ^ 64 + 1 / 2 ^ 64) := by
          apply Real.rpow_le_rpow_of_exponent_le (by norm_num)
          rw [← add_div, le_div_iff₀ (by positivity)]
          exact hhi
      _ = 2 ^ ((f : ℝ) / 2 ^ 64) * 2 ^ (1 / 2 ^ 64 : ℝ) := Real.rpow_add (by norm_num) _ _
      _ ≤ _ := by
        gcongr
        exact two_rpow_le (by positivity) (by norm_num)
  generalize (2 : ℝ) ^ φ = Y at *
  generalize (2 : ℝ) ^ ((f : ℝ) / 2 ^ 64) = V at *
  constructor <;> linarith

/-! ### The result -/

section
variable {a m : Nat} {neg : Bool} {e : Int}

/-- The first 64 bits of the fraction of the operand. -/
def fracBits (v : ℚ) : Nat := (⌊v * 2 ^ 64⌋ - ⌊v⌋ * 2 ^ 64).toNat

theorem fracBits_spec (v : ℚ) : (fracBits v : ℚ) ≤ (v - ⌊v⌋) * 2 ^ 64 ∧ (v - ⌊v⌋) * 2 ^ 64 < fracBits v + 1
    ∧ fracBits v < 2 ^ 64 := by
  have hlo := Int.floor_le v
  have hhi := Int.lt_floor_add_one v
  have hxlo := Int.floor_le (v * 2 ^ 64)
  have hxhi := Int.lt_floor_add_one (v * 2 ^ 64)
  unfold fracBits
  generalize ⌊v⌋ = n at *
  generalize ⌊v * 2 ^ 64⌋ = x at *
  have hge : n * 2 ^ 64 < x + 1 := by
    have : (n : ℚ) * 2 ^ 64 < x + 1 := by linarith
    exact_mod_cast this
  have hlt : x < (n + 1) * 2 ^ 64 := by
    have : (x : ℚ) < (n + 1) * 2 ^ 64 := by linarith
    exact_mod_cast this
  have hcast : (((x - n * 2 ^ 64).toNat : Nat) : ℚ) = x - n * 2 ^ 64 := by
    rw [← Int.cast_natCast, Int.toNat_of_nonneg (by omega)]
    push_cast
    ring
  refine ⟨?_, ?_, by omega⟩
  · rw [hcast]
    linarith
  · rw [hcast]
    linarith

/-- 2^x lies between v and v + 2^18 in units of 2^(n - 80). -/
theorem power_interval (v : ℚ) :
    ((fracPower (fracBits v) * 2 ^ (⌊v⌋ - 80) : ℚ) : ℝ) ≤ (2 : ℝ) ^ ((v : ℚ) : ℝ)
      ∧ (2 : ℝ) ^ ((v : ℚ) : ℝ) ≤ (((fracPower (fracBits v) + 2 ^ 18) * 2 ^ (⌊v⌋ - 80) : ℚ) : ℝ) := by
  obtain ⟨hlo, hhi, hlt⟩ := fracBits_spec v
  have hloR : (fracBits v : ℝ) ≤ ((v : ℝ) - ⌊v⌋) * 2 ^ 64 := by exact_mod_cast hlo
  have hhiR : ((v : ℝ) - ⌊v⌋) * 2 ^ 64 ≤ fracBits v + 1 := by exact_mod_cast hhi.le
  obtain ⟨h1, h2⟩ := fracPower_interval hlt hloR hhiR
  have hsplit : (2 : ℝ) ^ ((v : ℚ) : ℝ) = 2 ^ 80 * (2 : ℝ) ^ ((v : ℝ) - ⌊v⌋) * 2 ^ (⌊v⌋ - 80) := by
    rw [zpow_sub₀ (by norm_num), ← Real.rpow_intCast, Real.rpow_sub (by norm_num)]
    have : (2 : ℝ) ^ ((⌊v⌋ : Int) : ℝ) ≠ 0 := by positivity
    field_simp
  have hp : (0 : ℝ) < 2 ^ (⌊v⌋ - 80) := by positivity
  rw [hsplit]
  push_cast
  constructor <;> gcongr

/-- Near 128 the operand has no finer bits than 2^(-17). -/
theorem no_carry_at_top (h : Fields a neg m e) (hlt : f32Val a < 128) (hn : ⌊f32Val a⌋ = 127) :
    fracBits (f32Val a) + 2 ^ 47 ≤ 2 ^ 64 := by
  have hge : (127 : ℚ) ≤ f32Val a := by
    have := Int.floor_le (f32Val a)
    rw [hn] at this
    exact_mod_cast this
  obtain ⟨hbits, -, -⟩ := fracBits_spec (f32Val a)
  have habs : f32Val a = m * 2 ^ e := by rw [← h.abs_val, abs_of_pos (by linarith)]
  have hm24 : (m : ℚ) < 2 ^ 24 := by exact_mod_cast h.lt
  have hfine : -17 ≤ e := by
    by_contra hsmall
    have hpe : (2 : ℚ) ^ e ≤ 2 ^ (-18 : Int) := zpow_le_zpow_right₀ (by norm_num) (by omega)
    have : (m : ℚ) * 2 ^ e ≤ 2 ^ 24 * 2 ^ (-18 : Int) := by gcongr
    rw [← habs] at this
    norm_num at this
    linarith
  have hgrid : f32Val a * 2 ^ 17 = ((m * 2 ^ (e + 17).toNat : Nat) : ℚ) := by
    push_cast
    rw [pow_toNat (by omega), habs, mul_assoc, zpow_add₀ (by norm_num)]
    norm_num
  have hmax : f32Val a * 2 ^ 17 ≤ 2 ^ 24 - 1 := by
    have hlt' : f32Val a * 2 ^ 17 < 2 ^ 24 := by linarith
    rw [hgrid] at hlt' ⊢
    have hnat : m * 2 ^ (e + 17).toNat < 2 ^ 24 := by exact_mod_cast hlt'
    have : m * 2 ^ (e + 17).toNat + 1 ≤ 2 ^ 24 := hnat
    have hq : ((m * 2 ^ (e + 17).toNat : Nat) : ℚ) + 1 ≤ 2 ^ 24 := by exact_mod_cast this
    linarith
  rw [hn] at hbits
  have : (fracBits (f32Val a) : ℚ) + 2 ^ 47 ≤ 2 ^ 64 := by
    push_cast at hbits
    linarith
  exact_mod_cast this

/-- The result rounded to nearest: normal, and half a unit from the ends of the interval but for the width of that. -/
theorem expNear_bracket (h : Fields a neg m e) (hlow : -126 ≤ f32Val a) (hhigh : f32Val a < 128) :
    let v := fracPower (fracBits (f32Val a))
    let n := ⌊f32Val a⌋
    F32Normal false (expNear v n) ∧ f32Val (expNear v n) - f32Ulp (expNear v n) / 2 ≤ v * 2 ^ (n - 80)
      ∧ (v + 2 ^ 18) * 2 ^ (n - 80) ≤ f32Val (expNear v n) + (1 / 2 + 1 / 2 ^ 30) * f32Ulp (expNear v n) := by
  obtain ⟨-, -, hfrac⟩ := fracBits_spec (f32Val a)
  have hnlow : -126 ≤ ⌊f32Val a⌋ := Int.le_floor.mpr (by exact_mod_cast hlow)
  have hnhigh : ⌊f32Val a⌋ < 128 := Int.floor_lt.mpr (by exact_mod_cast hhigh)
  have hone := (fracPower_near hfrac).one_le
  have hlt := fracPower_lt hfrac
  have hcarry : ⌊f32Val a⌋ = 127 → 2 * fracPower (fracBits (f32Val a)) + 1 < (2 ^ 24 - 1) * 2 ^ 58 :=
    fun htop => fracPower_no_carry (no_carry_at_top h hhigh htop)
  dsimp only
  unfold expNear
  generalize fracPower (fracBits (f32Val a)) = v at *
  generalize ⌊f32Val a⌋ = n at *
  have hlog : Nat.log2 (2 * v + 1) = 81 := (Nat.log2_eq_iff (by omega)).mpr ⟨by omega, by omega⟩
  obtain ⟨hnormal, hlo, hhi⟩ := fround_bracket false (e := n - 81) le_rfl hlog (by omega) (by omega)
    (by by_cases htop : n = 127
        · exact Or.inr ⟨by omega, hcarry htop⟩
        · exact Or.inl (by omega))
  generalize (fround 23 0 false (2 * v + 1) (n - 81)).1 = b at *
  have hb := abs_of_positive hnormal
  obtain ⟨M, E, hf, hM⟩ := F32Normal.fields hnormal
  have hulp : f32Val b ≤ (2 ^ 24 - 1) * f32Ulp b := by
    rw [← hb, hf.abs_val, hf.ulp hM]
    have : (M : ℚ) ≤ 2 ^ 24 - 1 := by
      have hlt : M + 1 ≤ 2 ^ 24 := hf.lt
      have : (M : ℚ) + 1 ≤ 2 ^ 24 := by exact_mod_cast hlt
      linarith
    gcongr
  have hunit : (2 : ℚ) ^ (n - 80) = 2 * 2 ^ (n - 81) := by
    rw [show n - 80 = n - 81 + 1 by ring, zpow_add_one₀ (by norm_num), mul_comm]
  have honeq : (2 : ℚ) ^ 80 ≤ v := by exact_mod_cast hone
  have hp : (0 : ℚ) < 2 ^ (n - 81) := by positivity
  rw [hb] at hlo hhi
  rw [Nat.cast_one] at hhi
  rw [hunit]
  generalize (2 : ℚ) ^ (n - 81) = p at *
  have hvp : (2 : ℚ) ^ 80 * p ≤ v * p := by gcongr
  refine ⟨hnormal, by linarith, ?_⟩
  linarith

/-- A candidate that is kept lies within two units of both ends. -/
theorem exp2Ok_bound {near v c : Nat} {n : Int} (hlt : c < 2 ^ 32) (hok : exp2Ok near v n c = true) :
    F32Normal false c ∧ f32Val c - v * 2 ^ (n - 80) ≤ 2 * f32Ulp near
      ∧ -(2 * f32Ulp near) ≤ f32Val c - (v + 2 ^ 18) * 2 ^ (n - 80) := by
  have hunits : ∀ k : Int, dyVal ⟨k, (ulpOf near).e⟩ = k * f32Ulp near := fun k => by
    rw [← dyVal_ulpOf]
    simp [dyVal, ulpOf]
  have hneg : ∀ k : Int, dyVal ⟨-k, n - 80⟩ = -(k * 2 ^ (n - 80)) := fun k => by rw [dyVal_neg, dyVal]
  simp only [exp2Ok, Bool.and_eq_true, le_iff, dyVal_add, dyVal_dyBits, hunits, hneg] at hok
  obtain ⟨⟨hnormal, hlo⟩, hhi⟩ := hok
  push_cast at hlo hhi
  exact ⟨normal_of_normalOf hlt hnormal, by linarith, by linarith⟩

/-- A rational bound on both sides of an interval bounds the distance to a real number in it. -/
theorem abs_sub_le_of_interval {x lo hi d : ℚ} {y : ℝ} (hy : (lo : ℝ) ≤ y) (hy' : y ≤ (hi : ℝ)) (h : x - lo ≤ d) (h' : hi ≤ x + d) :
    |(x : ℝ) - y| ≤ (d : ℝ) := by
  have hR : (x : ℝ) - lo ≤ d := by exact_mod_cast h
  have hR' : (hi : ℝ) ≤ x + d := by exact_mod_cast h'
  rw [abs_le]
  constructor <;> linarith

theorem isWhole_false (h : Fields a neg m e) (hv : ∀ n : Int, f32Val a ≠ n) : isWhole m e = false :=
  Bool.eq_false_iff.mpr fun hw => hv _ ((isWhole_iff h).mp hw)

theorem fExp2_fraction (h : Fields a neg m e) (hm : 0 < m) (hlow : -126 ≤ f32Val a) (hhigh : f32Val a < 128)
    (hv : ∀ n : Int, f32Val a ≠ n) :
    let near := expNear (fracPower (fracBits (f32Val a))) ⌊f32Val a⌋
    let c := (Config.exp2 (BitVec.ofNat 32 a)).toNat
    fExp2 a = (if exp2Ok near (fracPower (fracBits (f32Val a))) ⌊f32Val a⌋ c then c else near, 16) := by
  have hnlow : -126 ≤ ⌊f32Val a⌋ := Int.le_floor.mpr (by exact_mod_cast hlow)
  have hnhigh : ⌊f32Val a⌋ < 128 := Int.floor_lt.mpr (by exact_mod_cast hhigh)
  rw [fExp2_fin h hm]
  dsimp only
  rw [if_neg (by omega), if_neg (by omega), isWhole_false h hv, if_neg (by decide)]
  rfl

end

/-- Settles O28: the interval for 2^x from the product of roots, the result rounded to nearest from it, and a kept candidate. -/
theorem exp2Bound : Obligations.Exp2Bound := by
  unfold Obligations.Exp2Bound
  intro a ha hfin hlow hhigh hv y
  obtain ⟨m, e, h⟩ := fields_exist ha hfin
  have hm : 0 < m := by
    by_contra h0
    refine hv 0 ?_
    rw [h.val, show m = 0 by omega]
    simp
  obtain ⟨hy, hy'⟩ := power_interval (f32Val a)
  obtain ⟨hnormal, hlo, hhi⟩ := expNear_bracket h hlow hhigh
  rw [fExp2_fraction h hm hlow hhigh hv]
  generalize fracPower (fracBits (f32Val a)) = v at *
  generalize ⌊f32Val a⌋ = n at *
  have hpos := f32Ulp_pos (expNear v n)
  have hnear := abs_sub_le_of_interval (x := f32Val (expNear v n)) hy hy' (d := (1 / 2 + 1 / 2 ^ 30) * f32Ulp (expNear v n)) (by linarith) (by linarith)
  refine ⟨_, expNear v n, rfl, ?_, hnormal, by push_cast at hnear; exact hnear, ?_⟩
  · split
    · exact (exp2Ok_bound (BitVec.isLt _) ‹_›).1
    · exact hnormal
  · have hres : ∀ r : Nat, f32Val r - v * 2 ^ (n - 80) ≤ 2 * f32Ulp (expNear v n) →
        -(2 * f32Ulp (expNear v n)) ≤ f32Val r - (v + 2 ^ 18) * 2 ^ (n - 80) →
        |((f32Val r : ℚ) : ℝ) - y| ≤ 2 * ((f32Ulp (expNear v n) : ℚ) : ℝ) := fun r h1 h2 => by
      have := abs_sub_le_of_interval hy hy' h1 (by linarith)
      push_cast at this
      exact this
    split
    · obtain ⟨-, h1, h2⟩ := exp2Ok_bound (BitVec.isLt _) ‹_›
      exact hres _ h1 h2
    · exact hres _ (by linarith) (by linarith)

end Sys2Proof.Proofs.Exp2

/-! SUPPORT. Integer and bitwise vector results lane by lane (R127, R128): signed lanes and the numbers they stand for. -/

namespace Sys2Proof.Proofs.VectorInteger

open Machine Lanes

/-! ### The shared forms -/

theorem vecResult_congr {w : Nat} {q : Word} {old new : VWord} {f g : Nat → Nat} (h : VecResult w q old new f)
    (hfg : ∀ n, f n % 2 ^ w = g n % 2 ^ w) : VecResult w q old new g := fun n hn => by rw [h n hn, hfg n]

/-- A form of two vectors writes g in the active lanes, where g agrees with what it computes modulo 2^w. -/
theorem vec2_lanes {s : State} {i : Instr} {w : Nat} {vd va vb : Reg} {q : PReg} {f : Nat → Nat → Nat} {g : Nat → Nat}
    (hslot : s.InSlot) (hclean : s.Clean [] [va, vb])
    (hg : ∀ n, f (laneAt w (s.v va) n) (laneAt w (s.v vb) n) % 2 ^ w = g n % 2 ^ w) :
    CompletesWith (opVec2 s i w vd va vb q f) (fun t => VecResult w (s.q q) (s.v vd) (t.v vd) g) := by
  refine ⟨_, rfl, vecResult_congr ?_ hg⟩
  rw [slotOnly_slot hslot, guardP_clean hclean, v_advance, zipWith_lanes]
  exact vecResult_setLanes s vd w (s.q q) _

/-! ### Lanes as signed numbers (R102, R127) -/

theorem ulane_slane {w x : Nat} (h : x < 2 ^ w) : ulane w (slane w x) = x := by
  have hx : (x : Int) % 2 ^ w = x := Int.emod_eq_of_lt (Int.natCast_nonneg x) (by exact_mod_cast h)
  unfold ulane slane
  split
  · rw [Int.sub_emod_right, hx, Int.toNat_natCast]
  · rw [hx, Int.toNat_natCast]

theorem slane_inj {w x y : Nat} (hx : x < 2 ^ w) (hy : y < 2 ^ w) : slane w x = slane w y ↔ x = y :=
  ⟨fun h => by rw [← ulane_slane hx, h, ulane_slane hy], fun h => by rw [h]⟩

theorem slane_bounds {w x : Nat} (h : x < 2 ^ w) : -2 ^ w ≤ slane w x ∧ slane w x < 2 ^ w := by
  have hx : (x : Int) < 2 ^ w := by exact_mod_cast h
  unfold slane
  split <;> omega

/-- Every lane width is a shift beyond which only the sign is left. -/
theorem ulane_shift_out {w x : Nat} (h : x < 2 ^ w) :
    ulane w ((slane w x).fdiv (2 ^ w)) = if slane w x < 0 then 2 ^ w - 1 else 0 := by
  obtain ⟨hlow, hhigh⟩ := slane_bounds h
  have hpos : (0 : Int) < 2 ^ w := by positivity
  rw [Int.fdiv_eq_ediv_of_nonneg _ hpos.le]
  split
  · have hquot : slane w x / 2 ^ w = -1 := ((Int.ediv_emod_unique hpos (r := slane w x + 2 ^ w)).mpr (by omega)).1
    have hrem : (-1 : Int) % 2 ^ w = ((2 ^ w - 1 : Nat) : Int) := by
      rw [Nat.cast_sub (Nat.one_le_two_pow)]
      push_cast
      exact ((Int.ediv_emod_unique hpos (q := -1)).mpr (by omega)).2
    rw [hquot, ulane, hrem, Int.toNat_natCast]
  · rw [Int.ediv_eq_zero_of_lt (by omega) hhigh]
    simp [ulane]

/-- A choice between two lanes by their signed order is the lane of the number chosen. -/
theorem lane_min {w x y : Nat} (hx : x < 2 ^ w) (hy : y < 2 ^ w) :
    (if slane w y < slane w x then y else x) = ulane w (min (slane w x) (slane w y)) := by
  split
  · rw [min_eq_right (by omega), ulane_slane hy]
  · rw [min_eq_left (by omega), ulane_slane hx]

theorem lane_max {w x y : Nat} (hx : x < 2 ^ w) (hy : y < 2 ^ w) :
    (if slane w y < slane w x then x else y) = ulane w (max (slane w x) (slane w y)) := by
  split
  · rw [max_eq_left (by omega), ulane_slane hx]
  · rw [max_eq_right (by omega), ulane_slane hy]

theorem lane_sra {w x : Nat} (y : Nat) (hx : x < 2 ^ w) :
    ulane w ((slane w x).fdiv (2 ^ min y w))
      = if w ≤ y then (if slane w x < 0 then 2 ^ w - 1 else 0) else ulane w ((slane w x).fdiv (2 ^ y)) := by
  split
  · rw [min_eq_right ‹_›, ulane_shift_out hx]
  · rw [min_eq_left (by omega)]

theorem ulane_natCast (w x : Nat) : ulane w (x : Int) = x % 2 ^ w := by
  rw [ulane, show (2 : Int) ^ w = ((2 ^ w : Nat) : Int) by push_cast; rfl, ← Int.natCast_emod, Int.toNat_natCast]

theorem vabs_lanes {s : State} (hslot : s.InSlot) (w : Width) (d : Reg) {x : Reg} (hclean : s.Clean [] [x]) (q : PReg) :
    CompletesWith (exec (.vabs w d x q) s) (fun t => VecResult (wbits w) (s.q q) (s.v d) (t.v d)
      (fun n => (slaneAt (wbits w) (s.v x) n).natAbs)) := by
  obtain ⟨t, hexec, hres, -⟩ := vec1_lanes (i := .vabs w d x q) (vd := d) (q := q)
    (f := fun a => ulane (wbits w) (slane (wbits w) a).natAbs) hslot hclean
  exact ⟨t, hexec, vecResult_congr hres (fun n => by rw [ulane_natCast, Nat.mod_mod]; rfl)⟩

theorem vectorIntegerLanes : Claim.VectorIntegerResults := by
  intro s w d x y q hslot hclean W a b sa sb gives
  have ha : ∀ n, a n < 2 ^ W := laneAt_lt W _
  have hb : ∀ n, b n < 2 ^ W := laneAt_lt W _
  refine ⟨?_, ?_, ?_, ?_, ?_, ?_, ?_, ?_, ?_, ?_, ?_, ?_, ?_⟩
  · exact vec2_lanes hslot hclean (fun _ => rfl)
  · exact vec2_lanes hslot hclean (fun _ => rfl)
  · exact vec2_lanes hslot hclean (fun _ => rfl)
  · exact vec2_lanes hslot hclean (fun _ => rfl)
  · exact vec2_lanes hslot hclean (fun _ => rfl)
  · exact vec2_lanes hslot hclean (fun n => congrArg (· % 2 ^ W) (lane_min (ha n) (hb n)))
  · exact vec2_lanes hslot hclean (fun n => congrArg (· % 2 ^ W) (lane_max (ha n) (hb n)))
  · exact vec2_lanes hslot hclean (fun _ => rfl)
  · exact vec2_lanes hslot hclean (fun _ => rfl)
  · exact vec2_lanes hslot hclean (fun _ => rfl)
  · exact vec2_lanes hslot hclean (fun _ => rfl)
  · exact vec2_lanes hslot hclean (fun n => congrArg (· % 2 ^ W) (lane_sra (b n) (ha n)))
  · exact vabs_lanes hslot w d (VectorFloat.clean_of_subset hclean (by simp) (by simp)) q

/-! ### Byte lanes and VSEL (R128) -/

theorem testBit_laneAt (w : Nat) (v : VWord) (n k : Nat) :
    (laneAt w v n).testBit k = (decide (k < w) && v.getLsbD (w * n + k)) := by
  rw [laneAt, Nat.testBit_mod_two_pow, Nat.testBit_div_two_pow, Nat.add_comm, BitVec.getLsbD]

/-- A register is its bytes. -/
theorem eq_of_byte_lanes {u v : VWord} (h : ∀ n, n < 64 → laneAt 8 u n = laneAt 8 v n) : u = v := by
  refine BitVec.eq_of_getLsbD_eq fun i hi => ?_
  have hbit := congrArg (Nat.testBit · (i % 8)) (h (i / 8) (by omega))
  have hlt : i % 8 < 8 := Nat.mod_lt _ (by decide)
  simpa only [testBit_laneAt, hlt, decide_true, Bool.true_and, Nat.div_add_mod] using hbit

/-- The bytes VSEL puts together. -/
theorem selected_bytes (s : State) (x y : Reg) (q : PReg) :
    ((actives 8 (s.q q)).zip ((lanes 8 (s.v x)).zip (lanes 8 (s.v y)))).map (fun e => if e.1 then e.2.1 else e.2.2)
      = (List.range 64).map (fun n => if laneOn 8 (s.q q) n then laneAt 8 (s.v x) n else laneAt 8 (s.v y) n) := by
  rw [actives_eq, zip_lanes, List.zip_map', List.map_map]
  rfl

/-- With q0 every lane is active. -/
theorem laneOn_q0 (s : State) {n : Nat} (h : n < 64) : laneOn 8 (s.q 0) n = true := by
  rw [State.q, qreg_zero, laneOn, BitVec.getLsbD_allOnes]
  simpa using h

theorem vsel_lanes {s : State} (hslot : s.InSlot) (d : Reg) {x y : Reg} (hclean : s.Clean [] [x, y]) (q : PReg) :
    CompletesWith (exec (.vsel d x y q) s) (fun t => AllLanes 8 (t.v d)
      (fun n => if laneOn 8 (s.q q) n then laneAt 8 (s.v x) n else laneAt 8 (s.v y) n)) :=
  VectorMoves.setAll_lanes (w := 8) hslot hclean (by rw [selected_bytes]; simp)
    (fun n hn => by rw [selected_bytes, getD_map_range _ _ hn])

theorem vectorBitwiseLanes : Claim.VectorBitwiseResults := by
  intro s d x y q hslot hclean a b gives
  refine ⟨?_, ?_, ?_, ?_, ?_⟩
  · exact vec2_lanes hslot hclean (fun _ => rfl)
  · exact vec2_lanes hslot hclean (fun _ => rfl)
  · exact vec2_lanes hslot hclean (fun _ => rfl)
  · exact vec2_lanes hslot hclean (fun _ => rfl)
  · obtain ⟨t, hexec, hall⟩ := vsel_lanes hslot d hclean q
    refine ⟨t, hexec, hall, fun hq => eq_of_byte_lanes fun n hn => ?_⟩
    subst hq
    rw [hall n hn]
    simp only [laneOn_q0 s hn, if_true, laneAt_mod]

/-- Settles O22: each form computes its lanes by the rule of R127 or R128, up to how the rule writes a signed number. -/
theorem vectorIntegerResults : Obligations.VectorIntegerResults := by
  unfold Obligations.VectorIntegerResults
  exact ⟨vectorIntegerLanes, vectorBitwiseLanes⟩

end Sys2Proof.Proofs.VectorInteger

/-! SUPPORT. Vector compares and predicate operations: the groups of bits a compare writes and the flags it gathers (R121, R130,
R131). -/

namespace Sys2Proof.Proofs.VectorCompares

open Machine Lanes

/-! ### What a compare writes (R121, R130) -/

/-- The bits of a group of n bits that takes one result. -/
def groupOf (n : Nat) (b : Bool) : Nat := if b then 2 ^ n - 1 else 0

theorem testBit_groupOf (n k : Nat) (b : Bool) : (groupOf n b).testBit k = (decide (k < n) && b) := by
  cases b <;> simp [groupOf]

/-- Group n of a predicate put together from groups. -/
theorem group_foldr (m : Nat) (l : List Bool) (n : Nat) :
    l.foldr (fun b a => groupOf m b + 2 ^ m * a) 0 / 2 ^ (m * n) % 2 ^ m = groupOf m (l.getD n false) := by
  have hlt : ∀ b, groupOf m b % 2 ^ m = groupOf m b := fun b => by cases b <;> simp [groupOf]
  have hdigits := digit_foldr m (l.map (groupOf m)) n
  have hentry : (l.map (groupOf m)).getD n 0 = groupOf m (l.getD n false) := by
    simp only [List.getD_eq_getElem?_getD, List.getElem?_map]
    cases l[n]? <;> rfl
  simpa only [List.foldr_map, hlt, hentry] using hdigits

/-- Every bit of a group takes the group's entry. -/
theorem getLsbD_groupBits {w : Nat} (hw : 0 < w / 8) (l : List Bool) {j : Nat} (hj : j < 64) :
    (groupBits w l).getLsbD j = l.getD (j / (w / 8)) false := by
  have hin : j % (w / 8) < w / 8 := Nat.mod_lt _ hw
  have hbit := congrArg (Nat.testBit · (j % (w / 8))) (group_foldr (w / 8) l (j / (w / 8)))
  simp only [Nat.testBit_mod_two_pow, Nat.testBit_div_two_pow, hin, decide_true, Bool.true_and, Nat.mod_add_div,
    testBit_groupOf] at hbit
  rw [groupBits, word, BitVec.getLsbD_ofNat, decide_eq_true hj, Bool.true_and]
  exact hbit

/-- The flags that a compare gathers are those of its active lanes. -/
theorem compareFlags_eq (act : List Bool) (r : List (Bool × Nat)) :
    (act.zip r).foldl (fun fl e => if e.1 then fl ||| e.2.2 else fl) 0 = laneFlags act (r.map (fun e => (0, e.2))) := by
  rw [laneFlags, List.zip_map_right, List.foldl_map]
  rfl

theorem q_setQ (s : State) {r : PReg} (w : Word) (h : r ≠ 0) : (s.setQ r w).q r = w := by
  rw [State.q, State.setQ, my_setMy, qreg_setQ_same _ _ h]

theorem q_addFlags (s : State) (fl : Nat) (r : PReg) : (s.addFlags fl).q r = s.q r :=
  (writes_addFlags s fl).keeps.q r (by simp)

theorem q_advance (s : State) (r : PReg) : s.advance.q r = s.q r := by
  rw [State.q, my_advance, qreg_advance, State.q]

theorem fflags_setQ (s : State) (r : PReg) (w : Word) : (s.setQ r w).my.cwv cwFFLAGS = s.my.cwv cwFFLAGS :=
  (writes_setQ s r w).keeps.cw _ (by simp)

/-- What a compare of lanes of width w leaves: qd takes r in the groups of active lanes, FFLAGS the flags fl of those lanes. -/
def Compared (w : Nat) (s : State) (d : PReg) (x y : Reg) (q : PReg) (r : Nat → Nat → Bool) (fl : Nat → Nat → Nat)
    (t : State) : Prop :=
  (d ≠ 0 → ∀ j, j < 64 → (t.q d).getLsbD j = (laneOn w (s.q q) (j / (w / 8))
    && r (laneAt w (s.v x) (j / (w / 8))) (laneAt w (s.v y) (j / (w / 8)))))
  ∧ FlagsAdded w (s.q q) (512 / w) (s.my.cwv cwFFLAGS) (t.my.cwv cwFFLAGS)
      (fun n => fl (laneAt w (s.v x) n) (laneAt w (s.v y) n))

/-- A width whose groups fill a predicate. -/
def GroupsFill (w : Nat) : Prop := 0 < w / 8 ∧ 512 / w * (w / 8) = 64

theorem groupsFill_wbits (w : Width) : GroupsFill (wbits w) := by cases w <;> exact ⟨by decide, by decide⟩
theorem groupsFill_fbits (f : FFmt) : GroupsFill (fbits f) := by cases f <;> exact ⟨by decide, by decide⟩

theorem cmp_lanes {s : State} {o : Out} {i : Instr} {w : Nat} {d : PReg} {x y : Reg} {q : PReg} {f : Nat → Nat → Bool × Nat}
    {r : Nat → Nat → Bool} {fl : Nat → Nat → Nat} (ho : o = opCmp s i w d x y q f) (hslot : s.InSlot)
    (hclean : s.Clean [] [x, y]) (hfill : GroupsFill w)
    (hf : ∀ a b, a < 2 ^ w → b < 2 ^ w → f a b = (r a b, fl a b)) :
    CompletesWith o (Compared w s d x y q r fl) := by
  obtain ⟨hw, hcount⟩ := hfill
  refine ⟨_, ho, ?_⟩
  rw [slotOnly_slot hslot, guardP_clean hclean]
  dsimp only
  rw [zipWith_lanes, List.map_congr_left (fun n _ => hf _ _ (laneAt_lt w _ n) (laneAt_lt w _ n)), compareFlags_eq]
  refine ⟨fun hd j hj => ?_, fun k hk => ?_⟩
  · have hlane : j / (w / 8) < 512 / w := Nat.div_lt_of_lt_mul (by rwa [Nat.mul_comm, hcount])
    rw [q_advance, q_addFlags, q_setQ _ _ hd, getLsbD_groupBits hw _ hj, actives_eq, List.zip_map', List.map_map,
      getD_map_range _ _ hlane]
    rfl
  · rw [my_advance, fflags_advance, fflags_addFlags, fflags_setQ, getLsbD_or_flags _ _ hk, List.map_map]
    exact congrArg _ (testBit_laneFlags_map w (s.q q) _ k)

/-! ### The orders (R130) -/

theorem cmpEq_int {t : CmpTy} (hf : t ≠ .f32) (hb : t ≠ .bf16) (a b : Nat) : cmpEq t a b = (decide (a = b), 0) := by
  cases t with
  | f32 => exact absurd rfl hf
  | bf16 => exact absurd rfl hb
  | _ => rfl

theorem cmpLt_int {t : CmpTy} (hf : t ≠ .f32) (hb : t ≠ .bf16) (orEq : Bool) (a b : Nat) : cmpLt t orEq a b
    = (decide (slane (cmpBits t) a < slane (cmpBits t) b) || (orEq && a == b), 0) := by
  cases t with
  | f32 => exact absurd rfl hf
  | bf16 => exact absurd rfl hb
  | _ => rfl

/-- On lanes, LE as the model computes it is the order of the signed numbers. -/
theorem slane_le {w a b : Nat} (ha : a < 2 ^ w) (hb : b < 2 ^ w) :
    (decide (slane w a < slane w b) || (true && a == b)) = decide (slane w a ≤ slane w b) := by
  rw [Bool.true_and, beq_eq_decide, ← Bool.decide_or, decide_eq_decide, le_iff_lt_or_eq,
    VectorInteger.slane_inj ha hb]

/-- The flag of a float LT or LE: NV for any NaN (R130). -/
theorem flt_eq (p : Nat) (orEq : Bool) (a b : Nat) : flt p orEq a b
    = (!(fval p a).isNaN && !(fval p b).isNaN && (decide (fnum p a < fnum p b) || (orEq && fnum p a == fnum p b)),
      if (fval p a).isNaN || (fval p b).isNaN then 1 else 0) := by
  rw [flt, ← Bool.not_or]
  cases (fval p a).isNaN || (fval p b).isNaN <;> simp [flNV]

theorem flt_lt (p a b : Nat) : flt p false a b
    = (!(fval p a).isNaN && !(fval p b).isNaN && decide (fnum p a < fnum p b),
      if (fval p a).isNaN || (fval p b).isNaN then 1 else 0) := by
  rw [flt_eq, Bool.false_and, Bool.or_false]

theorem flt_le (p a b : Nat) : flt p true a b
    = (!(fval p a).isNaN && !(fval p b).isNaN && decide (fnum p a ≤ fnum p b),
      if (fval p a).isNaN || (fval p b).isNaN then 1 else 0) := by
  have hle : (decide (fnum p a < fnum p b) || fnum p a == fnum p b) = decide (fnum p a ≤ fnum p b) := by
    rw [beq_eq_decide, ← Bool.decide_or, decide_eq_decide, le_iff_lt_or_eq]
  rw [flt_eq, Bool.true_and, hle]

/-- The compare type of a float format. -/
def floatTy (f : FFmt) : CmpTy :=
  match f with
  | .f32 => .f32
  | .bf16 => .bf16

theorem floatTy_spec (f : FFmt) : cmpBits (floatTy f) = fbits f ∧ (∀ a b, cmpEq (floatTy f) a b = feq (ffrac f) a b)
    ∧ ∀ orEq a b, cmpLt (floatTy f) orEq a b = flt (ffrac f) orEq a b := by
  cases f <;> exact ⟨rfl, fun _ _ => rfl, fun _ _ _ => rfl⟩

/-- A compare works on the lanes of its type's width. -/
theorem cmp_width {s : State} {t : CmpTy} {w : Nat} (hbits : cmpBits t = w) {i : Instr} {d : PReg} {x y : Reg} {q : PReg}
    {f : Nat → Nat → Bool × Nat} : opCmp s i (cmpBits t) d x y q f = opCmp s i w d x y q f :=
  congrArg (opCmp s i · d x y q f) hbits

theorem compareLanes : Claim.CompareResults := by
  intro s d x y q hslot hclean gives
  have hgives : ∀ w i r fl, CompletesWith (exec i s) (Compared w s d x y q r fl) → gives w i r fl := fun _ _ _ _ h => h
  clear_value gives
  refine ⟨fun w t hbits hf hb => ?_, fun t f ht => ?_⟩
  · have hfill := groupsFill_wbits w
    refine ⟨hgives _ _ _ _ ?_, hgives _ _ _ _ ?_, hgives _ _ _ _ ?_, hgives _ _ _ _ ?_, hgives _ _ _ _ ?_, hgives _ _ _ _ ?_⟩
    · exact cmp_lanes (cmp_width hbits) hslot hclean hfill (fun a b _ _ => cmpEq_int hf hb a b)
    · exact cmp_lanes (cmp_width hbits) hslot hclean hfill (fun a b _ _ => by rw [cmpEq_int hf hb, decide_not])
    · exact cmp_lanes (cmp_width hbits) hslot hclean hfill (fun a b _ _ => by
        rw [cmpLt_int hf hb, hbits, Bool.false_and, Bool.or_false])
    · exact cmp_lanes (cmp_width hbits) hslot hclean hfill (fun a b ha' hb' => by
        rw [cmpLt_int hf hb, hbits, slane_le ha' hb'])
    · exact cmp_lanes rfl hslot hclean hfill (fun _ _ _ _ => rfl)
    · exact cmp_lanes rfl hslot hclean hfill (fun _ _ _ _ => rfl)
  · have hty : t = floatTy f := by cases f <;> exact ht
    obtain ⟨hbits, heq, hlt⟩ := floatTy_spec f
    rw [← hty] at hbits heq hlt
    have hfill := groupsFill_fbits f
    refine ⟨hgives _ _ _ _ ?_, hgives _ _ _ _ ?_, hgives _ _ _ _ ?_, hgives _ _ _ _ ?_⟩
    · exact cmp_lanes (cmp_width hbits) hslot hclean hfill (fun a b _ _ => heq a b)
    · exact cmp_lanes (cmp_width hbits) hslot hclean hfill (fun a b _ _ => by rw [heq]; rfl)
    · exact cmp_lanes (cmp_width hbits) hslot hclean hfill (fun a b _ _ => by rw [hlt, flt_lt])
    · exact cmp_lanes (cmp_width hbits) hslot hclean hfill (fun a b _ _ => by rw [hlt, flt_le])

/-! ### Predicate operations (R131) -/

theorem qcnt_result {s : State} (hslot : s.InSlot) (g : Reg) (a : PReg) : exec (.qcnt g a) s
    = .next (s.done g (BitVec.ofNat 64 ((List.range 64).countP (fun k => (s.q a).getLsbD k)))) := by
  change Host.Outcome.next _ = _
  rw [slotOnly_slot hslot, Arithmetic.popN_eq_countP]
  rfl

theorem predicateResults : Claim.PredicateResults := by
  intro s d a b g hslot A B
  have hnext : ∀ (i : Instr) (k : State), Host.Outcome.next (s.slotOnly i k) = (.next k : Out) :=
    fun i k => congrArg Host.Outcome.next (slotOnly_slot hslot i k)
  refine ⟨hnext _ _, hnext _ _, hnext _ _, hnext _ _, hnext _ _, qcnt_result hslot g a, hnext _ _, fun hclean => ?_,
    fun hpois => ?_⟩
  · exact (hnext _ _).trans (congrArg Host.Outcome.next (guardP_clean hclean _))
  · refine (hnext _ _).trans (congrArg Host.Outcome.next ?_)
    rw [State.guardP, hpois]
    rfl

/-- Settles O24: a compare by the groups it writes and the flags it gathers, QCNT by counting bits. -/
theorem vectorComparesAndPredicates : Obligations.VectorComparesAndPredicates := by
  unfold Obligations.VectorComparesAndPredicates
  exact ⟨compareLanes, predicateResults⟩

end Sys2Proof.Proofs.VectorCompares

/-! SUPPORT. VLD, VST and VLDB on plain local memory: the checks it passes, the bytes a load gives a register, the bytes a masked
store writes (R117, R122 to R124, R210). -/

namespace Sys2Proof.Proofs.VectorMemory

open Machine Lanes VectorCompares

/-! ### Checks that plain local memory passes (R19, R70, R76, R220, R375) -/

section
variable {s : State}

theorem resolve_local {i : Instr} {va : Word} (k : Asked) (hin : va.toNat < 0x40000)
    (hstash : s.myCore.stashAt va.toNat = none) : s.resolve i va k = (s, some (.own va.toNat)) := by
  have harea : areaOf va.toNat = .mem := LoadsAndStores.areaOf_inside (n := 1) (by omega) (by decide)
  have hplace : s.place va = .loc va.toNat := by
    rw [State.place, if_pos (by omega), harea, if_neg (by decide)]
  have hready : s.stashReady va va.toNat k.wr k.lane = (s, true) := by
    unfold State.stashReady
    unfold State.myCore at hstash
    dsimp only
    rw [hstash]
  unfold State.resolve
  dsimp only
  rw [hplace]
  dsimp only
  rw [harea, hready]
  simp [Asked.areaOk]

theorem channelOk_nil : s.channelOk [] = (s, true) := by
  simp [State.channelOk, State.chanTest]

theorem watchHit_noBreak (h : s.NoBreak) (accs : List (Nat × Nat)) (rd wr : Bool) : s.watchHit accs rd wr = none := by
  unfold State.watchHit
  split
  · rfl
  · simp [h _]

theorem watched_noBreak (h : s.NoBreak) (accs : List (Nat × Nat)) (rd wr : Bool) (k : State) :
    s.watched accs rd wr k = k := by
  rw [State.watched, watchHit_noBreak h]

theorem toNat_add_offset {va : Word} {n f : Nat} (hin : va.toNat + n ≤ 0x40000) (hf : f < n) :
    (va + word f).toNat = va.toNat + f := by
  rw [BitVec.toNat_add, word, BitVec.toNat_ofNat, Nat.mod_eq_of_lt (a := f) (by omega), Nat.mod_eq_of_lt (by omega)]

/-- A vector access of plain local memory whose first active byte is f places on. -/
theorem vecAccess_plain {va : Word} {n f : Nat} (h : s.PlainLocal va n) (hf : f < n) {i : Instr} {wr : Bool}
    {accs : List (Nat × Nat)} {runs : List Nat} (hfirst : (accs.headD (va.toNat, 0)).1 = va.toNat + f) :
    s.vecAccess i va n wr accs runs = (s, some (.own va.toNat)) := by
  have hadd := toNat_add_offset h.inside hf
  have hres := fun k => resolve_local (s := s) (i := i) (va := va + word f) k (by rw [hadd]; have := h.inside; omega)
    (by rw [hadd]; exact h.noStash f hf)
  have hback : (Where.own (va.toNat + f)).back f = .own va.toNat := by rw [Where.back, Nat.add_sub_cancel]
  have hchan : (if wr = true then countedAt (.own va.toNat) runs else []) = [] := by split <;> rfl
  unfold State.vecAccess
  simp only [h.aligned, hfirst, Nat.add_sub_cancel_left, ne_eq, not_true_eq_false, if_false, hres, hadd, hback, hchan,
    channelOk_nil, watchHit_noBreak h.noBreak]

theorem vecAccess_misaligned {va : Word} {n f : Nat} (h : va.toNat % n ≠ 0) {i : Instr} {wr : Bool}
    {accs : List (Nat × Nat)} {runs : List Nat} (hfirst : (accs.headD (va.toNat, 0)).1 = va.toNat + f) :
    s.vecAccess i va n wr accs runs = (s.raise 0x03 (va + word f), none) := by
  rw [State.vecAccess, if_pos h, hfirst, Nat.add_sub_cancel_left]

end

/-! ### Active bytes and lanes (R120) -/

theorem laneOn_byte (q : Word) (n : Nat) : laneOn 8 q n = q.getLsbD n := by rw [laneOn, show 8 / 8 * n = n by omega]

theorem laneOn_word (q : Word) (n : Nat) : laneOn 32 q n = bit q (4 * n) := rfl

/-- The accesses of a mask begin at its lowest byte. -/
theorem maskAccs_head {va n : Nat} {mask : BitVec 64} (hn : n < 64) (hon : mask.getLsbD n = true)
    (hlow : ∀ m, m < n → mask.getLsbD m = false) (z : Nat × Nat) : ((maskAccs va mask).headD z).1 = va + n := by
  have hfind : (List.range 64).find? (fun b => mask.getLsbD b) = some n :=
    List.find?_range_eq_some.mpr ⟨hon, List.mem_range.mpr hn, fun m hm => by simp [hlow m hm]⟩
  rw [maskAccs, upto_zero, List.headD_eq_head?_getD, List.head?_map, List.head?_filter, hfind]
  rfl

theorem exists_lowest {mask : BitVec 64} (h : mask ≠ 0) :
    ∃ n, n < 64 ∧ mask.getLsbD n = true ∧ ∀ m, m < n → mask.getLsbD m = false := by
  have hex : ∃ n, mask.getLsbD n = true := by
    by_contra hnone
    exact h (BitVec.eq_of_getLsbD_eq fun i _ => by simpa using fun hi => hnone ⟨i, hi⟩)
  refine ⟨Nat.find hex, ?_, Nat.find_spec hex, fun m hm => by simpa using Nat.find_min hex hm⟩
  by_contra hge
  have := Nat.find_spec hex
  rw [BitVec.getLsbD_of_ge _ _ (by omega)] at this
  cases this

/-- The bytes of the active word lanes below lane k. -/
def wordBytes (q : Word) : Nat → Nat
  | 0 => 0
  | k + 1 => 2 ^ (4 * k) * groupOf 4 (bit q (4 * k)) + wordBytes q k

theorem foldl_wordBytes (q : Word) (k : Nat) :
    (List.range k).foldl (fun a n => if bit q (4 * n) then a + 15 * 2 ^ (4 * n) else a) 0 = wordBytes q k := by
  induction k with
  | zero => rfl
  | succ k ih =>
    rw [List.range_succ, List.foldl_append, ih, List.foldl_cons, List.foldl_nil, wordBytes]
    cases bit q (4 * k) with
    | false => simp [groupOf]
    | true => rw [if_pos rfl, groupOf, if_pos rfl]; ring

theorem wordBytes_lt (q : Word) (k : Nat) : wordBytes q k < 2 ^ (4 * k) := by
  induction k with
  | zero => exact Nat.one_pos
  | succ k ih =>
    have hgroup : groupOf 4 (bit q (4 * k)) ≤ 15 := by cases bit q (4 * k) <;> decide
    have hmul := Nat.mul_le_mul_left (2 ^ (4 * k)) hgroup
    rw [wordBytes, mul_add, pow_add]
    omega

theorem testBit_wordBytes (q : Word) (k j : Nat) :
    (wordBytes q k).testBit j = (decide (j < 4 * k) && bit q (4 * (j / 4))) := by
  induction k with
  | zero => simp [wordBytes]
  | succ k ih =>
    rw [wordBytes, Nat.testBit_two_pow_mul_add _ (wordBytes_lt q k)]
    by_cases hlow : j < 4 * k
    · rw [if_pos hlow, ih, decide_eq_true hlow, decide_eq_true (by omega)]
    · rw [if_neg hlow, testBit_groupOf]
      by_cases hin : j < 4 * (k + 1)
      · rw [decide_eq_true hin, decide_eq_true (by omega), show j / 4 = k by omega]
      · rw [decide_eq_false hin, decide_eq_false (by omega), Bool.false_and, Bool.false_and]

/-- A byte is active in the mask where its word lane is. -/
theorem getLsbD_laneMask (q : Word) {n b : Nat} (hn : n < 16) (hb : b < 4) :
    (laneMask q).getLsbD (4 * n + b) = laneOn 32 q n := by
  rw [laneMask, upto_zero, foldl_wordBytes, word, BitVec.getLsbD_ofNat, testBit_wordBytes, laneOn_word,
    decide_eq_true (show 4 * n + b < 4 * 16 by omega), show (4 * n + b) / 4 = n by omega]
  rfl

/-! ### What a vector load writes (R117, R121) -/

theorem testBit_leNat (bs : List Byte) (k : Nat) : (leNat bs).testBit k = (bs.getD (k / 8) 0).getLsbD (k % 8) := by
  induction bs generalizing k with
  | nil => simp [leNat]
  | cons b bs ih =>
    rw [leNat, Nat.add_comm, show 256 = 2 ^ 8 from rfl, Nat.testBit_two_pow_mul_add _ b.isLt]
    by_cases hk : k < 8
    · rw [if_pos hk, show k / 8 = 0 by omega, Nat.mod_eq_of_lt hk, List.getD_cons_zero]
      rfl
    · rw [if_neg hk, ih, show k / 8 = (k - 8) / 8 + 1 by omega, List.getD_cons_succ, show (k - 8) % 8 = k % 8 by omega]

theorem vreg_loadV (x : Ctx) (vd : Reg) (mask : BitVec 64) (bs : List Byte) (bad : Bool) :
    (x.loadV vd mask bs bad).vreg vd = ofLanes 8 ((List.range 64).map (fun b =>
      if mask.getLsbD b then (bs.getD b 0).toNat else laneAt 8 (x.vreg vd) b)) := by
  have hlanes : (List.range 64).map (fun b => if mask.getLsbD b then (bs.getD b 0).toNat else (lanes 8 (x.vreg vd)).getD b 0)
      = (List.range 64).map (fun b => if mask.getLsbD b then (bs.getD b 0).toNat else laneAt 8 (x.vreg vd) b) :=
    List.map_congr_left fun b hb => by rw [getD_lanes _ _ (List.mem_range.mp hb)]
  rw [← hlanes, ← upto_zero]
  unfold Ctx.loadV
  dsimp only
  split
  · rw [vreg_poisV, vreg_setV_same]
  · split
    · rw [vreg_cleanV, vreg_setV_same]
    · rw [vreg_setV_same]

/-- Bit by bit: the byte loaded where it is active, else what stood there. -/
theorem getLsbD_loadV (x : Ctx) (vd : Reg) (mask : BitVec 64) (bs : List Byte) (bad : Bool) {i : Nat} (h : i < 512) :
    ((x.loadV vd mask bs bad).vreg vd).getLsbD i
      = if mask.getLsbD (i / 8) then (bs.getD (i / 8) 0).getLsbD (i % 8) else (x.vreg vd).getLsbD i := by
  have hbyte : i / 8 < 64 := by omega
  have hin : i % 8 < 8 := Nat.mod_lt _ (by decide)
  have hsplit : ∀ v : VWord, v.getLsbD i = (laneAt 8 v (i / 8)).testBit (i % 8) := fun v => by
    rw [VectorInteger.testBit_laneAt, decide_eq_true hin, Bool.true_and, Nat.div_add_mod]
  rw [hsplit, hsplit (x.vreg vd), vreg_loadV, laneAt_ofLanes _ hbyte, getD_map_range _ _ hbyte, Nat.testBit_mod_two_pow,
    decide_eq_true hin, Bool.true_and]
  split <;> rfl

/-- Lanes of m bytes whose bytes are all active or all inactive take the numbers their bytes stand for. -/
theorem vecResult_loadV {x : Ctx} {vd : Reg} {mask : BitVec 64} {bs : List Byte} {bad : Bool} {m : Nat} {q : Word}
    {c : Nat → List Byte} (hmask : ∀ n, n < 512 / (8 * m) → ∀ b, b < m → mask.getLsbD (m * n + b) = laneOn (8 * m) q n)
    (hbytes : ∀ n, n < 512 / (8 * m) → laneOn (8 * m) q n = true → ∀ b, b < m → bs.getD (m * n + b) 0 = (c n).getD b 0) :
    VecResult (8 * m) q (x.vreg vd) ((x.loadV vd mask bs bad).vreg vd) (fun n => leNat (c n)) := by
  intro n hn
  have hfits := lane_inside hn
  apply Nat.eq_of_testBit_eq
  intro k
  rw [VectorInteger.testBit_laneAt]
  by_cases hk : k < 8 * m
  · have hb : k / 8 < m := Nat.div_lt_of_lt_mul hk
    have hplace : (8 * m * n + k) / 8 = m * n + k / 8 := by rw [mul_assoc]; omega
    have hbit : (8 * m * n + k) % 8 = k % 8 := by rw [mul_assoc]; omega
    rw [decide_eq_true hk, Bool.true_and, getLsbD_loadV _ _ _ _ _ (by rw [mul_add] at hfits; omega), hplace, hbit,
      hmask n hn _ hb]
    split
    · rw [Nat.testBit_mod_two_pow, decide_eq_true hk, Bool.true_and, testBit_leNat, hbytes n hn ‹_› _ hb]
    · rw [VectorInteger.testBit_laneAt, decide_eq_true hk, Bool.true_and]
  · rw [decide_eq_false hk, Bool.false_and]
    split
    · rw [Nat.testBit_mod_two_pow, decide_eq_false hk, Bool.false_and]
    · rw [VectorInteger.testBit_laneAt, decide_eq_false hk, Bool.false_and]

theorem keeps_loadV (x : Ctx) (vd : Reg) (mask : BitVec 64) (bs : List Byte) :
    Keeps [] [] [vd] [] x (x.loadV vd mask bs false) := by
  unfold Ctx.loadV
  dsimp only
  rw [if_neg Bool.false_ne_true]
  split
  · exact (keeps_setV _ _ _).trans (keeps_cleanV _ _)
  · exact keeps_setV _ _ _

theorem spot_loadV (x : Ctx) (vd : Reg) (mask : BitVec 64) (bs : List Byte) :
    SameSpot x (x.loadV vd mask bs false) := by
  unfold Ctx.loadV
  dsimp only
  rw [if_neg Bool.false_ne_true]
  split <;> exact ⟨rfl, rfl, rfl⟩

/-- A load that brings no poison writes vd alone and moves on. -/
theorem regFrame_loadV (s : State) (vd : Reg) (mask : BitVec 64) (bs : List Byte) :
    RegFrame [] [] [vd] [] s (s.setMy (s.my.loadV vd mask bs false).advance) := by
  obtain ⟨-, hkeeps, hpast⟩ := (writes_setMy s (keeps_loadV s.my vd mask bs) (spot_loadV s.my vd mask bs)).advance
  refine ⟨onlyMine_setMy s _, ?_, ?_⟩
  · simpa only [my_advance, my_setMy] using hkeeps
  · simpa only [my_advance, my_setMy] using hpast

/-! ### The shape of every vector memory form (R60, R76, R123) -/

section
variable {s k : State} {i : Instr} {gs vs : List Reg} {p : Prop} [Decidable p]

/-- With nothing active a form only moves on. -/
theorem form_inactive (hslot : s.InSlot) (hclean : s.Clean gs vs) (h : p) :
    Host.Outcome.next (s.slotOnly i (s.guardP gs vs (if p then s.advance else k))) = (.next s.advance : Out) := by
  rw [slotOnly_slot hslot, guardP_clean hclean, if_pos h]

theorem form_active (hslot : s.InSlot) (hclean : s.Clean gs vs) (h : ¬ p) :
    Host.Outcome.next (s.slotOnly i (s.guardP gs vs (if p then s.advance else k))) = (.next k : Out) := by
  rw [slotOnly_slot hslot, guardP_clean hclean, if_neg h]

end

/-! ### VLD and VLDB (R122 to R124) -/

theorem vecResult_none {w : Nat} {q : Word} {v : VWord} {f : Nat → Nat} (h : ∀ n, n < 512 / w → laneOn w q n = false) :
    VecResult w q v v f := fun n hn => by rw [h n hn, if_neg Bool.false_ne_true]

/-- With no active lane a load only moves on. -/
theorem load_inactive {s : State} {o : Out} {w : Nat} {q : PReg} {d : Reg} {f : Nat → Nat} (ho : o = .next s.advance)
    (h : ∀ n, n < 512 / w → laneOn w (s.q q) n = false) :
    CompletesWith o (fun t => VecResult w (s.q q) (s.v d) (t.v d) f ∧ RegFrame [] [] [d] [] s t) := by
  refine ⟨_, ho, ?_, (Writes.refl _ _ _ _ s).advance⟩
  rw [v_advance]
  exact vecResult_none h

theorem v_setMy (s : State) (x : Ctx) (r : Reg) : (s.setMy x).v r = x.vreg r := by rw [State.v, my_setMy]

/-- A load whose bytes have come: lane n holds the number its m bytes c n stand for. -/
theorem load_lanes {s : State} {o : Out} {m : Nat} {q : PReg} {d : Reg} {mask : BitVec 64} {bs : List Byte}
    {c : Nat → List Byte} (ho : o = .next (s.setMy (s.my.loadV d mask bs false).advance))
    (hmask : ∀ n, n < 512 / (8 * m) → ∀ b, b < m → mask.getLsbD (m * n + b) = laneOn (8 * m) (s.q q) n)
    (hbytes : ∀ n, n < 512 / (8 * m) → laneOn (8 * m) (s.q q) n = true → ∀ b, b < m →
      bs.getD (m * n + b) 0 = (c n).getD b 0) :
    CompletesWith o (fun t => VecResult (8 * m) (s.q q) (s.v d) (t.v d) (fun n => leNat (c n)) ∧ RegFrame [] [] [d] [] s t) := by
  refine ⟨_, ho, ?_, regFrame_loadV s d mask bs⟩
  rw [v_setMy, vreg_advance]
  exact vecResult_loadV hmask hbytes

theorem localRecord_clean (s : State) (k : CoreId) (off : Nat) : s.localRecord k off false = s := rfl

theorem getD_bytes (s : State) (a : Nat) {n b : Nat} (h : b < n) : (s.bytes a n).getD b 0 = s.byte (a + b) := by
  rw [List.getD_eq_getElem?_getD, List.getElem?_eq_getElem (by simpa using h), Option.getD_some, bytes_get s a n h]

theorem maskedBad_zero (mask : BitVec 64) : maskedBad mask 0 = false := by
  simp [maskedBad]

theorem vld_plain {s : State} (hslot : s.InSlot) {a b : Reg} (hclean : s.Clean [a, b] []) (d : Reg) {q : PReg}
    (hplain : s.PlainLocal (s.g a + s.g b) 64) (hmarks : s.marks (s.myLoc (s.g a + s.g b)) 64 = 0) (h : s.q q ≠ 0) :
    exec (.vld d a b q) s = .next (s.setMy
      (s.my.loadV d (s.q q) (s.bytes (s.myLoc (s.g a + s.g b)) 64) false).advance) := by
  obtain ⟨n, hn, hon, hlow⟩ := exists_lowest h
  have hmarks' : s.marks (localLoc s.cur.core (s.g a + s.g b).toNat) 64 = 0 := hmarks
  refine (form_active hslot hclean h).trans ?_
  rw [vecAccess_plain hplain hn (maskAccs_head hn hon hlow _)]
  dsimp only
  rw [hmarks', maskedBad_zero, localRecord_clean]
  rfl

theorem vld_result {s : State} (hslot : s.InSlot) {a b : Reg} (hclean : s.Clean [a, b] []) (d : Reg) (q : PReg)
    (hplain : s.PlainLocal (s.g a + s.g b) 64) (hmarks : s.marks (s.myLoc (s.g a + s.g b)) 64 = 0) :
    CompletesWith (exec (.vld d a b q) s) (fun t => VecResult 8 (s.q q) (s.v d) (t.v d)
      (fun n => (s.byte (s.myLoc (s.g a + s.g b) + n)).toNat) ∧ RegFrame [] [] [d] [] s t) := by
  by_cases h : s.q q = 0
  · exact load_inactive (form_inactive hslot hclean h) (fun n _ => by rw [laneOn_byte, h]; exact BitVec.getLsbD_zero)
  · refine load_lanes (m := 1) (c := fun n => [s.byte (s.myLoc (s.g a + s.g b) + n)])
      (vld_plain hslot hclean d hplain hmarks h) (fun n _ j hj => ?_) (fun n hn _ j hj => ?_)
    · obtain rfl : j = 0 := by omega
      rw [Nat.one_mul, Nat.add_zero, ← laneOn_byte]
    · obtain rfl : j = 0 := by omega
      rw [Nat.one_mul, Nat.add_zero, getD_bytes s _ hn]
      rfl

theorem vldb_plain {s : State} (hslot : s.InSlot) {a b : Reg} (hclean : s.Clean [a, b] []) (d : Reg) {q : PReg}
    (hplain : s.PlainLocal (s.g a + s.g b) 4) (hpois : s.poisAt (s.myLoc (s.g a + s.g b)) 4 = false)
    (h : laneMask (s.q q) ≠ 0) : exec (.vldb d a b q) s = .next (s.setMy
      (s.my.loadV d (laneMask (s.q q)) (repeat16 (s.bytes (s.myLoc (s.g a + s.g b)) 4)) false).advance) := by
  have hpois' : s.poisAt (localLoc s.cur.core (s.g a + s.g b).toNat) 4 = false := hpois
  refine (form_active hslot hclean h).trans ?_
  rw [vecAccess_plain (f := 0) hplain (by decide) rfl]
  dsimp only
  rw [hpois', localRecord_clean]
  rfl

/-- Byte b of piece n of pieces of m bytes. -/
theorem getD_flatMap_pieces {α : Type} {m : Nat} {g : α → List Byte} (hg : ∀ x, (g x).length = m) (l : List α) {n b : Nat}
    (hn : n < l.length) (hb : b < m) : (l.flatMap g).getD (m * n + b) 0 = (g l[n]).getD b 0 := by
  induction l generalizing n with
  | nil => simp at hn
  | cons x l ih =>
    simp only [List.getD_eq_getElem?_getD] at ih ⊢
    rw [List.flatMap_cons]
    cases n with
    | zero => rw [List.getElem?_append_left (by rw [hg]; omega)]; simp
    | succ n =>
      have hrest : m * (n + 1) + b - m = m * n + b := by rw [mul_add]; omega
      rw [List.getElem?_append_right (by rw [hg, mul_add]; omega), hg, hrest]
      exact ih (by simpa using hn)

theorem inactive_of_laneMask {q : Word} (h : laneMask q = 0) : ∀ n, n < 512 / 32 → laneOn 32 q n = false := fun n hn => by
  rw [← getLsbD_laneMask q hn (b := 0) (by decide), h]
  exact BitVec.getLsbD_zero

theorem vldb_result {s : State} (hslot : s.InSlot) {a b : Reg} (hclean : s.Clean [a, b] []) (d : Reg) (q : PReg)
    (hplain : s.PlainLocal (s.g a + s.g b) 4) (hpois : s.poisAt (s.myLoc (s.g a + s.g b)) 4 = false) :
    CompletesWith (exec (.vldb d a b q) s) (fun t => VecResult 32 (s.q q) (s.v d) (t.v d)
      (fun _ => s.readLE (s.myLoc (s.g a + s.g b)) 4) ∧ RegFrame [] [] [d] [] s t) := by
  by_cases h : laneMask (s.q q) = 0
  · exact load_inactive (form_inactive hslot hclean h) (inactive_of_laneMask h)
  · refine load_lanes (m := 4) (c := fun _ => s.bytes (s.myLoc (s.g a + s.g b)) 4)
      (vldb_plain hslot hclean d hplain hpois h) (fun n hn j hj => getLsbD_laneMask _ hn hj)
      (fun n hn _ j hj => ?_)
    rw [repeat16, upto_zero, getD_flatMap_pieces (fun _ => bytes_length _ _ _) _ (by simpa using hn) hj]

/-! ### Memory alone changed -/

/-- Nothing differs but memory and its poison marks. -/
def OnlyMem (s t : State) : Prop := ∃ m p, t = { s with mem := m, pois := p }

theorem OnlyMem.refl (s : State) : OnlyMem s s := ⟨s.mem, s.pois, rfl⟩

theorem OnlyMem.poke {s t : State} (h : OnlyMem s t) (a : Nat) (bs : List Byte) (bad : Bool) : OnlyMem s (t.poke a bs bad) := by
  obtain ⟨m, p, rfl⟩ := h
  exact ⟨_, _, rfl⟩

/-- Pokes one after the other. -/
theorem OnlyMem.foldl {α : Type} {f : State → α → State} (hf : ∀ u x s, OnlyMem s u → OnlyMem s (f u x)) (l : List α)
    {s t : State} (h : OnlyMem s t) : OnlyMem s (l.foldl f t) := by
  induction l generalizing t with
  | nil => exact h
  | cons x l ih => exact ih (hf t x s h)

/-- Memory written, then the context moved on. -/
theorem OnlyMem.advance {s t : State} (h : OnlyMem s t) :
    OnlyMemAndMine s t.advance ∧ Keeps [] [] [] leftWords s.my t.advance.my ∧ Past s.my t.advance.my := by
  obtain ⟨m, p, rfl⟩ := h
  refine ⟨⟨rfl, fun c hc => ctx_setCtx_other _ _ hc⟩, ?_, ?_⟩
  · rw [my_advance]
    exact keeps_advance s.my
  · rw [my_advance]
    exact past_advance s.my

/-! ### VST (R122, R210) -/

/-- The byte at loc + b is that of bs for every b of a set, and all else as before. -/
theorem byte_pokes (bs : List Byte) (loc : Nat) (act : List Nat) (s : State) (c : Nat) :
    (act.foldl (fun s b => s.poke (loc + b) [bs.getD b 0] false) s).byte c
      = if loc ≤ c ∧ c - loc ∈ act then bs.getD (c - loc) 0 else s.byte c := by
  induction act generalizing s with
  | nil => simp
  | cons b act ih =>
    rw [List.foldl_cons, ih]
    by_cases hin : loc ≤ c ∧ c - loc ∈ act
    · rw [if_pos hin, if_pos ⟨hin.1, List.mem_cons_of_mem _ hin.2⟩]
    · rw [if_neg hin]
      by_cases hb : c = loc + b
      · subst hb
        have hpoke := byte_poke_inside s (loc + b) [bs.getD b 0] false (i := 0) (by simp)
        rw [Nat.add_zero] at hpoke
        rw [hpoke, if_pos (by simp), Nat.add_sub_cancel_left]
        rfl
      · rw [byte_poke_outside s _ _ _ (by simp; omega), if_neg]
        rintro ⟨hle, hmem⟩
        rcases List.mem_cons.mp hmem with h | h
        · omega
        · exact hin ⟨hle, h⟩

/-- One 8-byte word of a masked write. -/
def pokeWord (loc : Nat) (mask : BitVec 64) (bs : List Byte) (s : State) (w : Nat) : State :=
  let act := (upto (8 * w) 8).filter (fun b => mask.getLsbD b)
  if act.length = 8 then s.poke (loc + 8 * w) ((bs.drop (8 * w)).take 8) false
  else act.foldl (fun s b => s.poke (loc + b) [bs.getD b 0] false) s

theorem pokeMasked_eq (s : State) (loc : Nat) (mask : BitVec 64) (bs : List Byte) :
    s.pokeMasked loc mask bs = (List.range 8).foldl (pokeWord loc mask bs) s := by
  rw [State.pokeMasked, upto_zero]
  rfl

theorem mem_upto (a n x : Nat) : x ∈ upto a n ↔ a ≤ x ∧ x < a + n := by
  rw [Frames.upto_eq_range', List.mem_range'_1]

theorem byte_pokeWord {loc : Nat} {mask : BitVec 64} {bs : List Byte} (hlen : bs.length = 64) (s : State) {w : Nat} (hw : w < 8)
    (c : Nat) : (pokeWord loc mask bs s w).byte c
      = if loc + 8 * w ≤ c ∧ c < loc + 8 * w + 8 ∧ mask.getLsbD (c - loc) = true then bs.getD (c - loc) 0 else s.byte c := by
  unfold pokeWord
  dsimp only
  split
  next hfull =>
    have hall : ∀ b ∈ upto (8 * w) 8, mask.getLsbD b = true := List.length_filter_eq_length_iff.mp hfull
    by_cases hin : loc + 8 * w ≤ c ∧ c < loc + 8 * w + 8
    · obtain ⟨i, rfl⟩ := Nat.exists_eq_add_of_le hin.1
      have hi : i < ((bs.drop (8 * w)).take 8).length := by simp; omega
      rw [byte_poke_inside _ _ _ _ hi, if_pos ⟨hin.1, hin.2, hall _ ((mem_upto _ _ _).mpr (by omega))⟩]
      simp [show loc + 8 * w + i - loc = 8 * w + i by omega, List.getD_eq_getElem?_getD, show 8 * w + i < bs.length by omega]
    · rw [byte_poke_outside _ _ _ _ (by simp; omega), if_neg (fun h => hin ⟨h.1, h.2.1⟩)]
  next =>
    rw [byte_pokes]
    refine if_congr ?_ rfl rfl
    rw [List.mem_filter, mem_upto]
    constructor
    · rintro ⟨h, ⟨hlow, hhigh⟩, hon⟩
      exact ⟨by omega, by omega, hon⟩
    · rintro ⟨hlow, hhigh, hon⟩
      exact ⟨by omega, ⟨by omega, by omega⟩, hon⟩

theorem byte_pokeWords {loc : Nat} {mask : BitVec 64} {bs : List Byte} (hlen : bs.length = 64) (s : State) {k : Nat} (hk : k ≤ 8)
    (c : Nat) : ((List.range k).foldl (pokeWord loc mask bs) s).byte c
      = if loc ≤ c ∧ c < loc + 8 * k ∧ mask.getLsbD (c - loc) = true then bs.getD (c - loc) 0 else s.byte c := by
  induction k with
  | zero => rw [if_neg (by omega)]; rfl
  | succ k ih =>
    rw [List.range_succ, List.foldl_append, List.foldl_cons, List.foldl_nil, byte_pokeWord hlen _ (by omega), ih (by omega)]
    by_cases hhigh : loc + 8 * k ≤ c
    · rw [if_neg (c := loc ≤ c ∧ c < loc + 8 * k ∧ _) (by omega)]
      exact if_congr ⟨fun h => ⟨by omega, by omega, h.2.2⟩, fun h => ⟨hhigh, by omega, h.2.2⟩⟩ rfl rfl
    · rw [if_neg (by omega)]
      exact if_congr ⟨fun h => ⟨h.1, by omega, h.2.2⟩, fun h => ⟨h.1, by omega, h.2.2⟩⟩ rfl rfl

theorem byte_pokeMasked {bs : List Byte} (hlen : bs.length = 64) (s : State) (loc : Nat) (mask : BitVec 64) (c : Nat) :
    (s.pokeMasked loc mask bs).byte c
      = if loc ≤ c ∧ c < loc + 64 ∧ mask.getLsbD (c - loc) = true then bs.getD (c - loc) 0 else s.byte c := by
  rw [pokeMasked_eq]
  exact byte_pokeWords hlen s (le_refl 8) c

theorem onlyMem_pokeMasked (s : State) (loc : Nat) (mask : BitVec 64) (bs : List Byte) :
    OnlyMem s (s.pokeMasked loc mask bs) := by
  rw [pokeMasked_eq]
  refine (OnlyMem.refl s).foldl (fun u w s h => ?_) _
  unfold pokeWord
  dsimp only
  split
  · exact h.poke _ _ _
  · exact h.foldl (fun u b s h => h.poke _ _ _) _

theorem vbytes_length (v : VWord) : (vbytes v).length = 64 := leBytes_length 64 _

theorem getD_vbytes (v : VWord) {n : Nat} (h : n < 64) : (vbytes v).getD n 0 = BitVec.ofNat 8 (laneAt 8 v n) := by
  have hn : n < (vbytes v).length := by rwa [vbytes_length]
  rw [List.getD_eq_getElem?_getD, List.getElem?_eq_getElem hn, Option.getD_some]
  refine (LoadsAndStores.getElem_leBytes 64 v.toNat n hn).trans ?_
  apply BitVec.eq_of_toNat_eq
  rw [BitVec.toNat_ofNat, BitVec.toNat_ofNat, laneAt, Nat.mod_mod, pow_mul]
  rfl

theorem vst_plain {s : State} (hslot : s.InSlot) {a b d : Reg} (hclean : s.Clean [a, b] [d]) {q : PReg}
    (hplain : s.PlainLocal (s.g a + s.g b) 64) (h : s.q q ≠ 0) : exec (.vst d a b q) s
      = .next (s.pokeMasked (s.myLoc (s.g a + s.g b)) (s.q q) (vbytes (s.v d))).advance := by
  obtain ⟨n, hn, hon, hlow⟩ := exists_lowest h
  refine (form_active hslot hclean h).trans ?_
  rw [vecAccess_plain hplain hn (maskAccs_head hn hon hlow _)]
  rfl

theorem byte_advance (s : State) (c : Nat) : s.advance.byte c = s.byte c := rfl

theorem vst_result {s : State} (hslot : s.InSlot) {a b d : Reg} (hclean : s.Clean [a, b] [d]) (q : PReg)
    (hplain : s.PlainLocal (s.g a + s.g b) 64) : CompletesWith (exec (.vst d a b q) s) (fun t =>
      (∀ n, n < 64 → t.byte (s.myLoc (s.g a + s.g b) + n)
        = if laneOn 8 (s.q q) n then BitVec.ofNat 8 (laneAt 8 (s.v d) n) else s.byte (s.myLoc (s.g a + s.g b) + n))
      ∧ (∀ c, c < s.myLoc (s.g a + s.g b) ∨ s.myLoc (s.g a + s.g b) + 64 ≤ c → t.byte c = s.byte c)
      ∧ OnlyMemAndMine s t ∧ Keeps [] [] [] leftWords s.my t.my ∧ Past s.my t.my) := by
  by_cases h : s.q q = 0
  · refine ⟨_, form_inactive hslot hclean h, fun n _ => ?_, fun _ _ => rfl, (OnlyMem.refl s).advance⟩
    rw [laneOn_byte, h, if_neg (by simp), byte_advance]
  · refine ⟨_, vst_plain hslot hclean hplain h, fun n hn => ?_, fun c hc => ?_, (onlyMem_pokeMasked s _ _ _).advance⟩
    · rw [byte_advance, byte_pokeMasked (vbytes_length _), Nat.add_sub_cancel_left, getD_vbytes _ hn, laneOn_byte]
      exact if_congr ⟨fun h => h.2.2, fun h => ⟨by omega, by omega, h⟩⟩ rfl rfl
    · rw [byte_advance, byte_pokeMasked (vbytes_length _), if_neg (by omega)]

theorem vectorMemoryLocal : Claim.VectorMemoryLocal := by
  intro s d a b q hslot hclean ea loc
  have hab : s.Clean [a, b] [] := VectorFloat.clean_of_subset hclean (by simp) (by simp)
  exact ⟨fun h => ⟨form_inactive hslot hab h, form_inactive hslot hclean h⟩, vld_result hslot hab d q,
    vst_result hslot hclean q, vldb_result hslot hab d q⟩

end Sys2Proof.Proofs.VectorMemory

/-! SUPPORT. The element forms on plain local memory: active lanes and their addresses, the order of the checks, what the lanes
load and store (R122 to R125). -/

namespace Sys2Proof.Proofs.VectorElements

open Machine Lanes VectorMemory

/-! ### Active lanes and their addresses (R120, R124) -/

/-- The active word lanes, lowest first. -/
def activeWords (q : Word) : List Nat := (List.range 16).filter (laneOn 32 q)

theorem mem_activeWords {q : Word} {n : Nat} : n ∈ activeWords q ↔ n < 16 ∧ laneOn 32 q n = true := by
  rw [activeWords, List.mem_filter, List.mem_range]

theorem activeLanes_eq (q : Word) (ea : Nat → Word) : activeLanes q ea = (activeWords q).map (fun n => (n, ea n)) := by
  rw [activeLanes, upto_zero]
  rfl

theorem map_activeLanes (q : Word) (ea : Nat → Word) :
    (activeLanes q ea).map (fun e => e.2) = (activeWords q).map ea := by
  rw [activeLanes_eq, List.map_map]
  rfl

theorem activeLanes_congr {q : Word} {ea ea' : Nat → Word} (h : ∀ n, n < 16 → ea n = ea' n) :
    activeLanes q ea = activeLanes q ea' := by
  rw [activeLanes_eq, activeLanes_eq]
  exact List.map_congr_left fun n hn => by rw [h n (mem_activeWords.mp hn).1]

/-- The lowest active lane with a property. -/
theorem find?_activeWords {q : Word} {p : Nat → Bool} {n : Nat} (hn : n < 16) (hon : laneOn 32 q n = true) (hp : p n = true)
    (hlow : ∀ m, m < n → laneOn 32 q m = true → p m = false) : (activeWords q).find? p = some n := by
  rw [activeWords, List.find?_filter]
  refine List.find?_range_eq_some.mpr ⟨decide_eq_true ⟨hon, hp⟩, List.mem_range.mpr hn, fun m hm => ?_⟩
  cases hon' : laneOn 32 q m with
  | false => simp
  | true => simp [hlow m hm hon']

theorem find?_addresses {q : Word} {ea : Nat → Word} {p : Word → Bool} {n : Nat} (hn : n < 16) (hon : laneOn 32 q n = true)
    (hp : p (ea n) = true) (hlow : ∀ m, m < n → laneOn 32 q m = true → p (ea m) = false) :
    ((activeWords q).map ea).find? p = some (ea n) := by
  rw [List.find?_map, find?_activeWords (p := p ∘ ea) hn hon hp hlow]
  rfl

theorem find?_addresses_none {q : Word} {ea : Nat → Word} {p : Word → Bool}
    (h : ∀ n, n < 16 → laneOn 32 q n = true → p (ea n) = false) : ((activeWords q).map ea).find? p = none := by
  rw [List.find?_eq_none]
  intro a ha
  obtain ⟨n, hn, rfl⟩ := List.mem_map.mp ha
  rw [h n (mem_activeWords.mp hn).1 (mem_activeWords.mp hn).2]
  exact Bool.false_ne_true

/-- The entry of an active lane. -/
theorem find?_activeLanes {q : Word} (ea : Nat → Word) {n : Nat} (hn : n < 16) (hon : laneOn 32 q n = true) :
    (activeLanes q ea).find? (fun e => e.1 == n) = some (n, ea n) := by
  have hfind : (activeWords q).find? ((fun e => e.1 == n) ∘ fun n => (n, ea n)) = some n :=
    find?_activeWords hn hon (beq_self_eq_true n) (fun m hm _ => beq_eq_false_iff_ne.mpr hm.ne)
  rw [activeLanes_eq, List.find?_map, hfind]
  rfl

/-! ### The checks of the element forms (R124, R125) -/

theorem foreignStash_none {s : State} {off : Nat} (h : s.myCore.stashAt off = none) : s.foreignStash off = false := by
  rw [State.foreignStash, h]

theorem stashTranslate_none {s : State} (wr : Bool) {offs : List Nat} (h : ∀ off ∈ offs, s.myCore.stashAt off = none) :
    s.stashTranslate wr offs = (s, some []) := by
  induction offs with
  | nil => rfl
  | cons off offs ih =>
    rw [State.stashTranslate, h off List.mem_cons_self]
    exact ih fun o ho => h o (List.mem_cons_of_mem _ ho)

theorem stashAll_none {s : State} (wr : Bool) {offs : List Nat} (h : ∀ off ∈ offs, s.myCore.stashAt off = none) :
    s.stashAll wr offs = (s, true) := by
  induction offs with
  | nil => rfl
  | cons off offs ih =>
    have hready : s.stashReady (word off) off wr true = (s, true) := by
      have hoff := h off List.mem_cons_self
      unfold State.myCore at hoff
      rw [State.stashReady, hoff]
    rw [State.stashAll, hready]
    exact ih fun o ho => h o (List.mem_cons_of_mem _ ho)

section
variable {s : State} {q : Word} {ea : Nat → Word}

/-- The word at an active lane's address lies in plain local memory. -/
def PlainLanes (s : State) (q : Word) (ea : Nat → Word) : Prop :=
  ∀ n, n < 16 → laneOn 32 q n = true → s.PlainLocal (ea n) 4

theorem not_outside {a : Word} (h : s.PlainLocal a 4) :
    (decide (0x40000 ≤ a.toNat) || s.foreignStash a.toNat) = false := by
  have hin := h.inside
  have hstash : s.myCore.stashAt a.toNat = none := h.noStash 0 (by decide)
  rw [foreignStash_none hstash, decide_eq_false (by omega)]
  rfl

/-- Plain local memory passes every check. -/
theorem elemChecked_plain (hne : activeWords q ≠ []) (h : PlainLanes s q ea) (wr : Bool) (k : State → State) :
    s.elemChecked ((activeWords q).map ea) wr k = k s := by
  have hstash : ∀ off ∈ ((activeWords q).map ea).map (fun a => a.toNat), s.myCore.stashAt off = none := by
    intro off hoff
    obtain ⟨a, ha, rfl⟩ := List.mem_map.mp hoff
    obtain ⟨n, hn, rfl⟩ := List.mem_map.mp ha
    obtain ⟨hlt, hon⟩ := mem_activeWords.mp hn
    exact (h n hlt hon).noStash 0 (by decide)
  have hbreak : s.NoBreak := by
    obtain ⟨n, hn⟩ := List.exists_mem_of_ne_nil _ hne
    obtain ⟨hlt, hon⟩ := mem_activeWords.mp hn
    exact (h n hlt hon).noBreak
  rw [State.elemChecked, find?_addresses_none (fun n hn hon => by simp [(h n hn hon).aligned])]
  dsimp only
  rw [find?_addresses_none (fun n hn hon => not_outside (h n hn hon))]
  dsimp only
  rw [stashTranslate_none wr hstash]
  dsimp only [List.find?_nil]
  rw [stashAll_none wr hstash]
  exact watched_noBreak hbreak _ _ _ _

/-- The lowest misaligned address faults first. -/
theorem elemChecked_misaligned {n : Nat} (hn : n < 16) (hon : laneOn 32 q n = true) (hbad : (ea n).toNat % 4 ≠ 0)
    (hlow : ∀ m, m < n → laneOn 32 q m = true → (ea m).toNat % 4 = 0) (wr : Bool) (k : State → State) :
    s.elemChecked ((activeWords q).map ea) wr k = s.raise 0x03 (ea n) := by
  rw [State.elemChecked, find?_addresses hn hon (by simpa using hbad) (fun m hm hon' => by simp [hlow m hm hon'])]

/-- With all aligned, the lowest outside local memory. -/
theorem elemChecked_outside {n : Nat} (hn : n < 16) (hon : laneOn 32 q n = true) (hout : 0x40000 ≤ (ea n).toNat)
    (halign : ∀ m, m < 16 → laneOn 32 q m = true → (ea m).toNat % 4 = 0)
    (hlow : ∀ m, m < n → laneOn 32 q m = true → s.PlainLocal (ea m) 4) (wr : Bool) (k : State → State) :
    s.elemChecked ((activeWords q).map ea) wr k = s.raise 0x05 (ea n) := by
  rw [State.elemChecked, find?_addresses_none (fun m hm hon' => by simp [halign m hm hon'])]
  dsimp only
  rw [find?_addresses hn hon (by simp [hout]) (fun m hm hon' => not_outside (hlow m hm hon'))]

end

/-! ### The shape of every element form -/

theorem activeWords_eq_nil {q : Word} : activeWords q = [] ↔ ∀ n, n < 16 → laneOn 32 q n = false := by
  rw [activeWords, List.filter_eq_nil_iff]
  simp

theorem activeLanes_eq_nil {q : Word} {ea : Nat → Word} : activeLanes q ea = [] ↔ activeWords q = [] := by
  rw [activeLanes_eq, List.map_eq_nil_iff]

section
variable {s : State} {i : Instr} {gs vs : List Reg} {q : PReg} {ea : Nat → Word} {wr : Bool} {k : State → State}

/-- The outcome of an element form that checks its addresses and goes on with k. -/
def elementForm (s : State) (i : Instr) (gs vs : List Reg) (q : PReg) (ea : Nat → Word) (wr : Bool) (k : State → State) : Out :=
  .next (s.slotOnly i (s.guardP gs vs (if activeLanes (s.q q) ea = [] then s.advance
    else s.elemChecked ((activeLanes (s.q q) ea).map (fun e => e.2)) wr k)))

theorem element_inactive (hslot : s.InSlot) (hclean : s.Clean gs vs) (h : activeWords (s.q q) = []) :
    elementForm s i gs vs q ea wr k = .next s.advance := form_inactive hslot hclean (activeLanes_eq_nil.mpr h)

theorem element_active (hslot : s.InSlot) (hclean : s.Clean gs vs) (h : activeWords (s.q q) ≠ []) :
    elementForm s i gs vs q ea wr k = .next (s.elemChecked ((activeWords (s.q q)).map ea) wr k) := by
  rw [← map_activeLanes]
  exact form_active hslot hclean (mt activeLanes_eq_nil.mp h)

theorem element_plain (hslot : s.InSlot) (hclean : s.Clean gs vs) (hne : activeWords (s.q q) ≠ [])
    (h : PlainLanes s (s.q q) ea) : elementForm s i gs vs q ea wr k = .next (k s) := by
  rw [element_active hslot hclean hne, elemChecked_plain hne h]

end

/-! ### VLDS and VLDX (R122 to R124) -/

theorem opGatherV_congr {s : State} {i : Instr} {gs vs : List Reg} {d : Reg} {q : PReg} {ea ea' : Nat → Word}
    (h : ∀ n, n < 16 → ea n = ea' n) : opGatherV s i gs vs d q ea = opGatherV s i gs vs d q ea' := by
  unfold opGatherV
  rw [activeLanes_congr h]

theorem opScatterV_congr {s : State} {i : Instr} {gs vs : List Reg} {d : Reg} {q : PReg} {ea ea' : Nat → Word}
    (h : ∀ n, n < 16 → ea n = ea' n) : opScatterV s i gs vs d q ea = opScatterV s i gs vs d q ea' := by
  unfold opScatterV
  rw [activeLanes_congr h]

/-- The four bytes a load brings for word lane n: those at the lane's address, where it is active. -/
def laneBytes (s : State) (l : List (Nat × Word)) (n : Nat) : List Byte :=
  match l.find? (fun e => e.1 == n) with
  | some e => s.bytes (s.myLoc e.2) 4
  | none => [0, 0, 0, 0]

theorem length_laneBytes (s : State) (l : List (Nat × Word)) (n : Nat) : (laneBytes s l n).length = 4 := by
  rw [laneBytes]
  split
  · exact bytes_length _ _ _
  · rfl

theorem laneBytes_active (s : State) {q : Word} (ea : Nat → Word) {n : Nat} (hn : n < 16) (hon : laneOn 32 q n = true) :
    laneBytes s (activeLanes q ea) n = s.bytes (s.myLoc (ea n)) 4 := by
  rw [laneBytes, find?_activeLanes ea hn hon]

section
variable {s : State} {i : Instr} {gs vs : List Reg} {d : Reg} {q : PReg} {ea : Nat → Word}

/-- Data gathered for the lanes, none of it poisoned, is written. -/
theorem gather_plain (hslot : s.InSlot) (hclean : s.Clean gs vs) (hne : activeWords (s.q q) ≠ [])
    (h : PlainLanes s (s.q q) ea)
    (hpois : ∀ n, n < 16 → laneOn 32 (s.q q) n = true → s.poisAt (s.myLoc (ea n)) 4 = false) :
    opGatherV s i gs vs d q ea = .next (s.setMy (s.my.loadV d (laneMask (s.q q))
      ((upto 0 16).flatMap (laneBytes s (activeLanes (s.q q) ea))) false).advance) := by
  have hbad : (activeLanes (s.q q) ea).any (fun e => s.poisAt (localLoc s.cur.core e.2.toNat) 4) = false := by
    rw [activeLanes_eq, List.any_map, List.any_eq_false]
    intro n hn
    obtain ⟨hlt, hon⟩ := mem_activeWords.mp hn
    have hclear := hpois n hlt hon
    rw [State.myLoc] at hclear
    rw [Function.comp_apply, hclear]
    exact Bool.false_ne_true
  refine (element_plain hslot hclean hne h).trans ?_
  dsimp only
  rw [hbad, localRecord_clean]
  rfl

theorem gather_result (hslot : s.InSlot) (hclean : s.Clean gs vs) (h : PlainLanes s (s.q q) ea)
    (hpois : ∀ n, n < 16 → laneOn 32 (s.q q) n = true → s.poisAt (s.myLoc (ea n)) 4 = false) :
    CompletesWith (opGatherV s i gs vs d q ea) (fun t => VecResult 32 (s.q q) (s.v d) (t.v d)
      (fun n => s.readLE (s.myLoc (ea n)) 4) ∧ RegFrame [] [] [d] [] s t) := by
  by_cases hnil : activeWords (s.q q) = []
  · exact load_inactive (element_inactive hslot hclean hnil) (activeWords_eq_nil.mp hnil)
  · refine load_lanes (m := 4) (c := fun n => s.bytes (s.myLoc (ea n)) 4) (gather_plain hslot hclean hnil h hpois)
      (fun n hn j hj => getLsbD_laneMask _ hn hj) (fun n hn hon j hj => ?_)
    rw [upto_zero, getD_flatMap_pieces (length_laneBytes _ _) _ (by simpa using hn) hj, List.getElem_range,
      laneBytes_active s ea hn hon]

/-! ### VSTS and VSTX (R122 to R124) -/

/-- The words that the lanes of a list store, one after the other. -/
def storeWords (s : State) (addr val : Nat → Nat) (l : List Nat) : State :=
  l.foldl (fun u n => u.poke (addr n) (leBytes 4 (val n)) false) s

theorem onlyMem_storeWords (s : State) (addr val : Nat → Nat) (l : List Nat) : OnlyMem s (storeWords s addr val l) :=
  (OnlyMem.refl s).foldl (fun _ _ _ h => h.poke _ _ _) l

theorem byte_storeWords_outside (s : State) {addr : Nat → Nat} (val : Nat → Nat) {l : List Nat} {c : Nat}
    (h : ∀ n ∈ l, c < addr n ∨ addr n + 4 ≤ c) : (storeWords s addr val l).byte c = s.byte c := by
  induction l generalizing s with
  | nil => rfl
  | cons n l ih =>
    rw [storeWords, List.foldl_cons]
    refine (ih _ fun m hm => h m (List.mem_cons_of_mem _ hm)).trans ?_
    exact byte_poke_outside s _ _ _ (by rw [leBytes_length]; exact h n List.mem_cons_self)

theorem readLE_congr {s t : State} {a n : Nat} (h : ∀ j, j < n → t.byte (a + j) = s.byte (a + j)) :
    t.readLE a n = s.readLE a n := by
  refine congrArg leNat (List.ext_getElem (by simp) fun j hj _ => ?_)
  have hlt : j < n := by simpa using hj
  rw [bytes_get t a n hlt, bytes_get s a n hlt, h j hlt]

/-- A lane's word stays when every later lane stores apart from it. -/
theorem readLE_storeWords (s : State) {addr val : Nat → Nat} {l : List Nat} (hsorted : l.Pairwise (· < ·)) {n : Nat}
    (hn : n ∈ l) (hlater : ∀ m ∈ l, n < m → addr m + 4 ≤ addr n ∨ addr n + 4 ≤ addr m) :
    (storeWords s addr val l).readLE (addr n) 4 = val n % 256 ^ 4 := by
  obtain ⟨before, after, rfl⟩ := List.append_of_mem hn
  have hafter : ∀ m ∈ after, n < m := (List.pairwise_cons.mp (List.pairwise_append.mp hsorted).2.1).1
  rw [storeWords, List.foldl_append, List.foldl_cons]
  refine Eq.trans (readLE_congr fun j hj => byte_storeWords_outside _ val fun m hm => ?_) (readLE_poke _ _ _ _ _)
  have := hlater m (by simp [hm]) (hafter m hm)
  omega

theorem sorted_activeWords (q : Word) : (activeWords q).Pairwise (· < ·) := List.pairwise_lt_range.filter _

/-- The stores of the lanes, as the model folds them over a state whose context stays. -/
theorem foldl_pokes_eq {s t : State} (h : OnlyMem s t) (v : Reg) (ea : Nat → Word) {l : List Nat} (hl : ∀ n ∈ l, n < 16) :
    (l.map (fun n => (n, ea n))).foldl (fun s e =>
      s.poke (localLoc s.cur.core e.2.toNat) (leBytes 4 ((lanes 32 (s.v v)).getD e.1 0)) false) t
      = storeWords t (fun n => s.myLoc (ea n)) (fun n => laneAt 32 (s.v v) n) l := by
  induction l generalizing t with
  | nil => rfl
  | cons n l ih =>
    have hpoke : t.poke (localLoc t.cur.core (ea n).toNat) (leBytes 4 ((lanes 32 (t.v v)).getD n 0)) false
        = t.poke (s.myLoc (ea n)) (leBytes 4 (laneAt 32 (s.v v) n)) false := by
      rw [getD_lanes _ _ (hl n List.mem_cons_self)]
      obtain ⟨m, p, rfl⟩ := h
      rfl
    rw [List.map_cons, List.foldl_cons, hpoke, ih (h.poke _ _ _) fun m hm => hl m (List.mem_cons_of_mem _ hm)]
    rfl

theorem scatter_plain (hslot : s.InSlot) (hclean : s.Clean gs vs) (hne : activeWords (s.q q) ≠ [])
    (h : PlainLanes s (s.q q) ea) : opScatterV s i gs vs d q ea
      = .next (storeWords s (fun n => s.myLoc (ea n)) (fun n => laneAt 32 (s.v d) n) (activeWords (s.q q))).advance := by
  refine (element_plain hslot hclean hne h).trans ?_
  rw [activeLanes_eq, foldl_pokes_eq (OnlyMem.refl s) d ea fun n hn => (mem_activeWords.mp hn).1]

/-- Aligned words of local memory are one word or apart. -/
theorem myLoc_apart {a b : Word} (ha : a.toNat % 4 = 0) (hb : b.toNat % 4 = 0) (hne : a ≠ b) :
    s.myLoc a + 4 ≤ s.myLoc b ∨ s.myLoc b + 4 ≤ s.myLoc a := by
  have hnat : a.toNat ≠ b.toNat := fun h => hne (BitVec.eq_of_toNat_eq h)
  unfold State.myLoc localLoc
  omega

theorem scatter_result (hslot : s.InSlot) (hclean : s.Clean gs vs) (h : PlainLanes s (s.q q) ea) :
    CompletesWith (opScatterV s i gs vs d q ea) (fun t =>
      (∀ n, n < 16 → laneOn 32 (s.q q) n = true → (∀ m, n < m → m < 16 → laneOn 32 (s.q q) m = true → ea m ≠ ea n) →
        t.readLE (s.myLoc (ea n)) 4 = laneAt 32 (s.v d) n)
      ∧ (∀ c, (∀ n, n < 16 → laneOn 32 (s.q q) n = true → c < s.myLoc (ea n) ∨ s.myLoc (ea n) + 4 ≤ c) →
        t.byte c = s.byte c)
      ∧ OnlyMemAndMine s t ∧ Keeps [] [] [] leftWords s.my t.my ∧ Past s.my t.my) := by
  by_cases hnil : activeWords (s.q q) = []
  · refine ⟨_, element_inactive hslot hclean hnil, fun n hn hon => ?_, fun _ _ => rfl, (OnlyMem.refl s).advance⟩
    rw [activeWords_eq_nil.mp hnil n hn] at hon
    cases hon
  · refine ⟨_, scatter_plain hslot hclean hnil h, fun n hn hon hlast => ?_, fun c hc => ?_,
      (onlyMem_storeWords s _ _ _).advance⟩
    · rw [LoadsAndStores.readLE_advance]
      refine (readLE_storeWords s (addr := fun n => s.myLoc (ea n)) (sorted_activeWords _) (mem_activeWords.mpr ⟨hn, hon⟩)
        fun m hm hlt => ?_).trans (laneAt_mod 32 _ _)
      obtain ⟨hm16, hmon⟩ := mem_activeWords.mp hm
      exact myLoc_apart (h m hm16 hmon).aligned (h n hn hon).aligned (hlast m hlt hm16 hmon)
    · exact byte_storeWords_outside s _ fun n hn => hc n (mem_activeWords.mp hn).1 (mem_activeWords.mp hn).2

end

/-! ### The four forms -/

/-- The addresses of VLDX and VSTX, which read the index lanes of a register. -/
theorem indexed_eq (s : State) (g x : Reg) : ∀ n, n < 16 →
    s.g g + word ((lanes 32 (s.v x)).getD n 0) = s.g g + BitVec.ofNat 64 (laneAt 32 (s.v x) n) := fun n hn => by
  rw [getD_lanes _ _ hn]
  rfl

theorem vldx_eq (s : State) (d a x : Reg) (q : PReg) : exec (.vldx d a x q) s
    = opGatherV s (.vldx d a x q) [a] [x] d q (fun n => s.g a + BitVec.ofNat 64 (laneAt 32 (s.v x) n)) :=
  opGatherV_congr (indexed_eq s a x)

theorem vstx_eq (s : State) (d a x : Reg) (q : PReg) : exec (.vstx d a x q) s
    = opScatterV s (.vstx d a x q) [a] [x, d] d q (fun n => s.g a + BitVec.ofNat 64 (laneAt 32 (s.v x) n)) :=
  opScatterV_congr (indexed_eq s a x)

theorem vectorElementsLocal : Claim.VectorElementsLocal := by
  intro s d a b x q hslot hclean on load store strided indexed
  have hsub : ∀ {gs vs : List Reg}, gs ⊆ [a, b] → vs ⊆ [d, x] → s.Clean gs vs :=
    fun hg hv => VectorFloat.clean_of_subset hclean hg hv
  refine ⟨fun h => ?_, fun h => ?_, fun h => ?_, fun h => ?_⟩
  · exact gather_result hslot (hsub (by simp) (by simp)) (fun n hn hon => (h n hn hon).1) (fun n hn hon => (h n hn hon).2)
  · rw [vldx_eq]
    exact gather_result hslot (hsub (by simp) (by simp)) (fun n hn hon => (h n hn hon).1) (fun n hn hon => (h n hn hon).2)
  · exact scatter_result hslot (hsub (by simp) (by simp)) h
  · rw [vstx_eq]
    exact scatter_result hslot (hsub (by simp) (by simp)) h

end Sys2Proof.Proofs.VectorElements

/-! SUPPORT. Faults of the vector memory forms, in their order (R60, R87, R123, R125). -/

namespace Sys2Proof.Proofs.VectorFaults

open Machine Lanes VectorMemory VectorElements

/-! ### VLD and VST (R123, R125) -/

section
variable {s : State} {q : PReg} {n : Nat} (hn : n < 64) (hon : laneOn 8 (s.q q) n = true)
  (hlow : ∀ m, m < n → laneOn 8 (s.q q) m = false)
include hn hon hlow

/-- A misaligned line is named by its lowest active byte. -/
theorem vecAccess_lowest {va : Word} (hbad : va.toNat % 64 ≠ 0) {i : Instr} {wr : Bool} {runs : List Nat} :
    s.vecAccess i va 64 wr (maskAccs va.toNat (s.q q)) runs = (s.raise 0x03 (va + BitVec.ofNat 64 n), none) := by
  simp only [laneOn_byte] at hon hlow
  exact vecAccess_misaligned hbad (maskAccs_head hn hon hlow _)

theorem line_misaligned (hslot : s.InSlot) {a b d : Reg} (hclean : s.Clean [a, b] [d])
    (hbad : (s.g a + s.g b).toNat % 64 ≠ 0) :
    exec (.vld d a b q) s = .next (s.raise 0x03 (s.g a + s.g b + BitVec.ofNat 64 n))
    ∧ exec (.vst d a b q) s = .next (s.raise 0x03 (s.g a + s.g b + BitVec.ofNat 64 n)) := by
  have hmask : s.q q ≠ 0 := fun h => by simp [laneOn_byte, h] at hon
  have hab : s.Clean [a, b] [] := VectorFloat.clean_of_subset hclean (by simp) (by simp)
  constructor
  · exact (form_active hslot hab hmask).trans (by rw [vecAccess_lowest hn hon hlow hbad])
  · exact (form_active hslot hclean hmask).trans (by rw [vecAccess_lowest hn hon hlow hbad])

end

/-! ### The element forms (R124, R125) -/

/-- The faults of an element form: the lowest misaligned lane, else the lowest outside local memory. -/
def ElementFaults (s : State) (q : Word) (ea : Nat → Word) (o : Out) : Prop :=
  (∀ n, n < 16 → laneOn 32 q n = true → (ea n).toNat % 4 ≠ 0 →
    (∀ m, m < n → laneOn 32 q m = true → (ea m).toNat % 4 = 0) → o = .next (s.raise 0x03 (ea n)))
  ∧ (∀ n, n < 16 → laneOn 32 q n = true → 0x40000 ≤ (ea n).toNat →
    (∀ m, m < 16 → laneOn 32 q m = true → (ea m).toNat % 4 = 0) →
    (∀ m, m < n → laneOn 32 q m = true → s.PlainLocal (ea m) 4) → o = .next (s.raise 0x05 (ea n)))

theorem activeWords_ne_nil {q : Word} {n : Nat} (hn : n < 16) (hon : laneOn 32 q n = true) : activeWords q ≠ [] :=
  List.ne_nil_of_mem (mem_activeWords.mpr ⟨hn, hon⟩)

theorem element_faults {s : State} {o : Out} {i : Instr} {gs vs : List Reg} {q : PReg} {ea : Nat → Word} {wr : Bool}
    {k : State → State} (ho : o = elementForm s i gs vs q ea wr k) (hslot : s.InSlot) (hclean : s.Clean gs vs) :
    ElementFaults s (s.q q) ea o := by
  subst ho
  refine ⟨fun n hn hon hbad hlow => ?_, fun n hn hon hout halign hlow => ?_⟩
  · rw [element_active hslot hclean (activeWords_ne_nil hn hon), elemChecked_misaligned hn hon hbad hlow]
  · rw [element_active hslot hclean (activeWords_ne_nil hn hon), elemChecked_outside hn hon hout halign hlow]

theorem vectorMemoryFaults : Claim.VectorMemoryFaults := by
  intro s d a b x q
  refine ⟨fun hbank => ?_, fun hslot hclean => ?_⟩
  · have hhandler : s.cur.isHandler = true := by simpa [State.InSlot] using hbank
    exact ⟨congrArg Host.Outcome.next (if_pos hhandler), congrArg Host.Outcome.next (if_pos hhandler)⟩
  · have hsub : ∀ {gs vs : List Reg}, gs ⊆ [a, b] → vs ⊆ [d, x] → s.Clean gs vs :=
      fun hg hv => VectorFloat.clean_of_subset hclean hg hv
    refine ⟨fun n hn hon hlow hbad _ => line_misaligned hn hon hlow hslot (hsub (by simp) (by simp)) hbad, ?_, ?_, ?_, ?_⟩
    · exact element_faults rfl hslot (hsub (by simp) (by simp))
    · exact element_faults rfl hslot (hsub (by simp) (by simp))
    · exact element_faults (vldx_eq s d a x q) hslot (hsub (by simp) (by simp))
    · exact element_faults (vstx_eq s d a x q) hslot (hsub (by simp) (by simp))

/-- Settles O29: plain local memory passes every check, a load or store then acts byte by byte and lane by lane, and a fault is
that of the lowest lane that fails the first check. -/
theorem vectorMemory : Obligations.VectorMemory := by
  unfold Obligations.VectorMemory
  exact ⟨vectorMemoryLocal, vectorElementsLocal, vectorMemoryFaults⟩

end Sys2Proof.Proofs.VectorFaults

/-! SUPPORT. Byte strings: numbers and registers cut out of them, memory read and written in consecutive pieces, poison marks of a
part (R86, R102, R210). -/

namespace Sys2Proof.Proofs.ByteStrings

open Machine Lanes

/-! ### Numbers cut out of a byte string (R102) -/

theorem leNat_append (xs ys : List Byte) : leNat (xs ++ ys) = leNat xs + 256 ^ xs.length * leNat ys := by
  induction xs with
  | nil => simp [leNat]
  | cons b xs ih =>
    rw [List.cons_append, leNat, leNat, ih, List.length_cons, pow_succ']
    ring

theorem leNat_drop (bs : List Byte) (k : Nat) : leNat (bs.drop k) = leNat bs / 256 ^ k := by
  induction bs generalizing k with
  | nil => simp [leNat]
  | cons b bs ih =>
    cases k with
    | zero => simp
    | succ k =>
      have hb : b.toNat < 256 := b.isLt
      rw [List.drop_succ_cons, ih, leNat, pow_succ', ← Nat.div_div_eq_div_mul, Nat.add_mul_div_left _ _ (by decide),
        Nat.div_eq_of_lt hb, Nat.zero_add]

theorem leNat_take (bs : List Byte) (k : Nat) : leNat (bs.take k) = leNat bs % 256 ^ k := by
  have hsplit := leNat_append (bs.take k) (bs.drop k)
  rw [List.take_append_drop] at hsplit
  by_cases hk : k ≤ bs.length
  · have hlen : (bs.take k).length = k := List.length_take_of_le hk
    have hlt := leNat_lt (bs.take k)
    rw [hlen] at hsplit hlt
    rw [hsplit, Nat.add_mul_mod_self_left, Nat.mod_eq_of_lt hlt]
  · have hlt := leNat_lt bs
    have hpow : 256 ^ bs.length ≤ 256 ^ k := Nat.pow_le_pow_right (by decide) (by omega)
    rw [List.take_of_length_le (by omega), Nat.mod_eq_of_lt (by omega)]

theorem pow_256 (n : Nat) : 256 ^ n = 2 ^ (8 * n) := by rw [pow_mul]; rfl

/-- A bit field of w bytes of a number is the number of those bytes. -/
theorem leNat_field (bs : List Byte) (w n : Nat) :
    leNat ((bs.drop (w * n)).take w) = leNat bs / 2 ^ (8 * w * n) % 2 ^ (8 * w) := by
  rw [leNat_take, leNat_drop, pow_256, pow_256, mul_assoc]

/-- A lane of w bytes of a register made of bytes. -/
theorem laneAt_vofBytes (bs : List Byte) {w n : Nat} (h : w * (n + 1) ≤ 64) :
    laneAt (8 * w) (vofBytes bs) n = leNat ((bs.drop (w * n)).take w) := by
  rw [vofBytes, laneAt_ofNat _ (by rw [mul_assoc]; omega), leNat_field]

/-- The bytes of a lane of a register. -/
theorem leNat_vbytes (v : VWord) {w n : Nat} (h : w * (n + 1) ≤ 64) :
    leNat (((vbytes v).drop (w * n)).take w) = laneAt (8 * w) v n := by
  rw [leNat_field, vbytes, leNat_leBytes, pow_256, field_of_mod _ (by rw [mul_assoc]; rw [mul_add, mul_one] at h; omega), laneAt]

theorem vofBytes_vbytes (v : VWord) : vofBytes (vbytes v) = v := by
  rw [vofBytes, vbytes, leNat_leBytes, pow_256, Nat.mod_eq_of_lt v.isLt, BitVec.ofNat_toNat, BitVec.setWidth_eq]

/-! ### Strings of pieces of one length -/

theorem length_flatMap_pieces {α : Type} {m : Nat} {g : α → List Byte} {l : List α} (hg : ∀ x ∈ l, (g x).length = m) :
    (l.flatMap g).length = m * l.length := by
  induction l with
  | nil => rfl
  | cons x l ih =>
    rw [List.flatMap_cons, List.length_append, hg x List.mem_cons_self, ih fun y hy => hg y (List.mem_cons_of_mem x hy),
      List.length_cons, mul_add, mul_one, Nat.add_comm]

/-- Piece i of a string of pieces. -/
theorem drop_take_flatMap {α : Type} {m : Nat} {g : α → List Byte} {l : List α} (hg : ∀ x ∈ l, (g x).length = m) {i : Nat}
    (hi : i < l.length) : ((l.flatMap g).drop (m * i)).take m = g l[i] := by
  induction l generalizing i with
  | nil => simp at hi
  | cons x l ih =>
    have hx := hg x List.mem_cons_self
    rw [List.flatMap_cons]
    cases i with
    | zero => rw [Nat.mul_zero, List.drop_zero, List.take_left' hx]; rfl
    | succ i =>
      rw [mul_add, mul_one, Nat.add_comm, ← hx, ← List.drop_drop, List.drop_left, hx]
      exact ih (fun y hy => hg y (List.mem_cons_of_mem x hy)) (by simpa using hi)

theorem drop_take_drop_take (bs : List Byte) {a n b m : Nat} (h : b + m ≤ n) :
    (((bs.drop a).take n).drop b).take m = (bs.drop (a + b)).take m := by
  rw [List.drop_take, List.drop_drop, List.take_take, Nat.min_eq_left (by omega)]

theorem length_rowsOf (n : Nat) (bs : List Byte) : (rowsOf n bs).length = n := by
  induction n generalizing bs with
  | zero => rfl
  | succ n ih => rw [rowsOf, List.length_cons, ih]

theorem getElem_rowsOf {n i : Nat} (bs : List Byte) (h : i < (rowsOf n bs).length) :
    (rowsOf n bs)[i] = vofBytes ((bs.drop (64 * i)).take 64) := by
  induction n generalizing bs i with
  | zero => simp [rowsOf] at h
  | succ n ih =>
    cases i with
    | zero => rfl
    | succ i =>
      have hi : i < (rowsOf n (bs.drop 64)).length := by simpa [rowsOf] using h
      have hrest := ih (bs.drop 64) hi
      rw [List.drop_drop, show 64 + 64 * i = 64 * (i + 1) by ring] at hrest
      simpa only [rowsOf, List.getElem_cons_succ] using hrest

/-! ### Memory in consecutive pieces -/

theorem bytes_add (s : State) (a m n : Nat) : s.bytes a (m + n) = s.bytes a m ++ s.bytes (a + m) n := by
  induction m generalizing a with
  | zero => rw [Nat.zero_add]; rfl
  | succ m ih =>
    rw [Nat.add_right_comm, State.bytes, State.bytes, ih, List.cons_append, show a + 1 + m = a + (m + 1) by omega]

theorem bytes_drop (s : State) (a : Nat) {n i : Nat} (h : i ≤ n) : (s.bytes a n).drop i = s.bytes (a + i) (n - i) := by
  conv_lhs => rw [← Nat.add_sub_cancel' h, bytes_add]
  rw [List.drop_left' (bytes_length s a i)]

theorem bytes_take (s : State) (a : Nat) {n i : Nat} (h : i ≤ n) : (s.bytes a n).take i = s.bytes a i := by
  conv_lhs => rw [← Nat.add_sub_cancel' h, bytes_add]
  rw [List.take_left' (bytes_length s a i)]

theorem bytes_part (s : State) (a : Nat) {n i m : Nat} (h : i + m ≤ n) :
    ((s.bytes a n).drop i).take m = s.bytes (a + i) m := by
  rw [bytes_drop s a (by omega), bytes_take s _ (by omega)]

/-- Pieces of z bytes one after the other are the bytes from the first on. -/
theorem bytes_pieces (s : State) (a z i n : Nat) :
    (upto i n).flatMap (fun j => s.bytes (a + z * j) z) = s.bytes (a + z * i) (z * n) := by
  induction n generalizing i with
  | zero => rfl
  | succ n ih =>
    rw [upto, List.flatMap_cons, ih, mul_add z n 1, mul_one, Nat.add_comm (z * n) z, bytes_add, mul_add, mul_one, Nat.add_assoc]

theorem memPuts_append (m : Table Byte) (a : Nat) (xs ys : List Byte) :
    memPuts m a (xs ++ ys) = memPuts (memPuts m a xs) (a + xs.length) ys := by
  induction xs generalizing m a with
  | nil => rfl
  | cons b xs ih =>
    rw [List.cons_append, memPuts, ih, memPuts, List.length_cons, show a + 1 + xs.length = a + (xs.length + 1) by omega]

/-! ### Tables of bytes -/

theorem tget_tableOf (bs : List Byte) {i : Nat} (h : i < bs.length) : tget 0 (tableOf bs) i = bs.getD i 0 := by
  have hput := byte_memPuts_inside [] 0 bs h
  rw [Nat.zero_add] at hput
  rw [tableOf, hput, List.getD_eq_getElem?_getD, List.getElem?_eq_getElem h, Option.getD_some]

/-! ### Poison marks of a part (R210) -/

/-- Part of an unpoisoned range is unpoisoned. -/
theorem poisAt_part {s : State} {a n b m : Nat} (h : s.poisAt a n = false) (hlow : a ≤ b) (hhigh : b + m ≤ a + n) :
    s.poisAt b m = false := by
  rw [State.poisAt, List.any_eq_false] at h ⊢
  intro w hw
  refine h w ?_
  rw [wordsAt] at hw ⊢
  by_cases hm : m = 0
  · simp [hm] at hw
  · rw [if_neg hm, VectorMemory.mem_upto] at hw
    rw [if_neg (by omega), VectorMemory.mem_upto]
    omega

end Sys2Proof.Proofs.ByteStrings

/-! SUPPORT. The matrix slice of the current core: taking it, its queue, the rows of its accumulators, and the instructions of its
registers alone (R139, R140, R145, R149, R153, R164). -/

namespace Sys2Proof.Proofs.Slices

open Machine Lanes ByteStrings

/-! ### A state that differs in the slice of the current core -/

/-- Nothing differs but the slice of the current core, which is x. -/
structure SliceIs (s u : State) (x : Slice) : Prop where
  rest : u = { s with cores := u.cores }
  cores : ∀ k, u.core k = if k = s.cur.core then { s.myCore with slice := x } else s.core k

section
variable {s u : State} {x : Slice}

theorem SliceIs.refl (s : State) : SliceIs s s s.slice := by
  refine ⟨rfl, fun k => ?_⟩
  split
  · next h => rw [h]; rfl
  · rfl

theorem SliceIs.same {β : Type} (h : SliceIs s u x) (f : State → β) (hf : ∀ cs, f { s with cores := cs } = f s) : f u = f s := by
  rw [h.rest]
  exact hf _

theorem SliceIs.cur (h : SliceIs s u x) : u.cur = s.cur := h.same State.cur fun _ => rfl
theorem SliceIs.time (h : SliceIs s u x) : u.time = s.time := h.same State.time fun _ => rfl
theorem SliceIs.ctx (h : SliceIs s u x) (c : CtxId) : u.ctx c = s.ctx c := h.same (State.ctx · c) fun _ => rfl
theorem SliceIs.my (h : SliceIs s u x) : u.my = s.my := h.same State.my fun _ => rfl
theorem SliceIs.g (h : SliceIs s u x) (r : Reg) : u.g r = s.g r := h.same (State.g · r) fun _ => rfl
theorem SliceIs.sameMem (h : SliceIs s u x) : SameMem s u := ⟨h.same State.mem fun _ => rfl, h.same State.pois fun _ => rfl⟩
theorem SliceIs.bytes (h : SliceIs s u x) (a n : Nat) : u.bytes a n = s.bytes a n :=
  LoadsAndStores.bytes_congr h.sameMem.1 a n
theorem SliceIs.poisAt (h : SliceIs s u x) (a n : Nat) : u.poisAt a n = s.poisAt a n := by
  rw [State.poisAt, h.sameMem.2, State.poisAt]
theorem SliceIs.myLoc (h : SliceIs s u x) (a : Word) : u.myLoc a = s.myLoc a := by rw [State.myLoc, h.cur, State.myLoc]

theorem SliceIs.myCore (h : SliceIs s u x) : u.myCore = { s.myCore with slice := x } := by
  rw [State.myCore, h.cur, h.cores, if_pos rfl]
theorem SliceIs.slice (h : SliceIs s u x) : u.slice = x := by rw [State.slice, h.myCore]

theorem SliceIs.regionOf (h : SliceIs s u x) : u.regionOf u.cur = s.regionOf s.cur := by
  rw [State.regionOf, h.cur, h.ctx, h.cores, if_pos rfl]
  rfl

theorem SliceIs.noStash (h : SliceIs s u x) (hs : s.NoStash) : u.NoStash := fun off => by
  rw [h.myCore]
  exact hs off

theorem SliceIs.setSlice (h : SliceIs s u x) (y : Slice) : SliceIs s (u.setSlice u.cur.core y) y := by
  have hset : u.setSlice u.cur.core y = u.setCore s.cur.core { u.myCore with slice := y } := by rw [← h.cur]; rfl
  refine ⟨?_, fun k => ?_⟩
  · rw [h.rest]
    rfl
  · rw [hset, h.myCore]
    split
    · next hk => rw [hk, core_setCore_same]
    · next hk => rw [core_setCore_other _ _ hk, h.cores, if_neg hk]

end

/-! ### Taking the slice (R140, R145) -/

/-- The slice once its slot owns it. -/
def owned (s : State) : Slice := { s.slice with owner := some s.cur.ctx.val }

section
variable {s : State} {i : Instr} {gs vs : List Reg} (k : State → State)

/-- A matrix instruction that its checks let go on, where its slot may use the slice: taken by now. -/
theorem withSlice_runs (hslot : s.InSlot) (hclean : s.Clean gs vs) (hmay : s.MaySlice) :
    ∃ u, SliceIs s u (owned s) ∧ s.withSlice i gs vs k = k u := by
  rw [State.withSlice, slotOnly_slot hslot, guardP_clean hclean]
  rcases hmay with ⟨howner, hqueue⟩ | ⟨howner, hroom⟩
  · refine ⟨_, (SliceIs.refl s).setSlice (owned s), ?_⟩
    simp only [howner, if_pos hqueue]
    rfl
  · refine ⟨s, ?_, ?_⟩
    · have hsame : s.slice = owned s := by rw [owned, ← howner]
      rw [← hsame]
      exact SliceIs.refl s
    · simp only [howner]
      exact if_pos ⟨trivial, hroom⟩

theorem withSlice_owner (hslot : s.InSlot) (hclean : s.Clean gs vs) (howner : s.slice.owner = some s.cur.ctx.val)
    (hroom : s.slice.queue.length < 8) : s.withSlice i gs vs k = k s := by
  rw [State.withSlice, slotOnly_slot hslot, guardP_clean hclean]
  simp only [howner]
  exact if_pos ⟨trivial, hroom⟩

theorem withSlice_waits (hslot : s.InSlot) (hclean : s.Clean gs vs) (hmay : ¬ s.MaySlice) :
    s.withSlice i gs vs k = s.stall := by
  rw [State.withSlice, slotOnly_slot hslot, guardP_clean hclean]
  rw [State.MaySlice] at hmay
  cases howner : s.slice.owner with
  | none => exact if_neg fun hqueue => hmay (.inl ⟨howner, hqueue⟩)
  | some o => exact if_neg fun h => hmay (.inr ⟨by rw [howner, h.1], h.2⟩)

theorem withSlice_handler (hslot : ¬ s.InSlot) : s.withSlice i gs vs k = s.illegal i := by
  have hbank : s.cur.isHandler = true := by simpa [State.InSlot] using hslot
  exact if_pos hbank

theorem withSlice_poisoned (hslot : s.InSlot) {n : Nat} (hpois : s.my.poisoned gs vs = some n) :
    s.withSlice i gs vs k = s.raise 0x0D (word n) := by
  rw [State.withSlice, slotOnly_slot hslot, State.guardP, hpois]

theorem withDrained_runs (hslot : s.InSlot) (hclean : s.Clean gs vs) (hmay : s.MaySlice) (hqueue : s.slice.queue = []) :
    ∃ u, SliceIs s u (owned s) ∧ s.withDrained i gs vs k = k u := by
  obtain ⟨u, hu, hrun⟩ := withSlice_runs (i := i) (fun s => if s.slice.queue = [] then k s else s.stall) hslot hclean hmay
  refine ⟨u, hu, hrun.trans ?_⟩
  have hempty : u.slice.queue = [] := by rw [hu.slice]; exact hqueue
  simp only [if_pos hempty]

theorem withDrained_owner (hslot : s.InSlot) (hclean : s.Clean gs vs) (howner : s.slice.owner = some s.cur.ctx.val)
    (hqueue : s.slice.queue = []) : s.withDrained i gs vs k = k s :=
  (withSlice_owner _ hslot hclean howner (by rw [hqueue]; decide)).trans (if_pos hqueue)

end

section
variable {s : State} {i : Instr} {gs vs : List Reg} {k : State → State} {p : State → Prop} (hslot : s.InSlot)
  (hclean : s.Clean gs vs) (hmay : s.MaySlice)
include hslot hclean hmay

theorem withSlice_completes (h : ∀ u, SliceIs s u (owned s) → p (k u)) : CompletesWith (.next (s.withSlice i gs vs k)) p := by
  obtain ⟨u, hu, hrun⟩ := withSlice_runs (i := i) k hslot hclean hmay
  exact ⟨_, congrArg _ hrun, h u hu⟩

theorem withDrained_completes (hqueue : s.slice.queue = []) (h : ∀ u, SliceIs s u (owned s) → p (k u)) :
    CompletesWith (.next (s.withDrained i gs vs k)) p := by
  obtain ⟨u, hu, hrun⟩ := withDrained_runs (i := i) k hslot hclean hmay hqueue
  exact ⟨_, congrArg _ hrun, h u hu⟩

end

/-! ### Leaving an instruction in the slice queue (R145) -/

/-- A slice with one more instruction in its queue. -/
def busy (x : Slice) (time region cycles : Nat) : Slice :=
  { x with queue := x.queue ++ [(x.queue.foldl (fun m e => max m e.1) time + cycles, region)] }

theorem slice_sliceDone (v : State) (n : Nat) : (v.sliceDone n).slice = busy v.slice v.time (v.regionOf v.cur) n :=
  congrArg Core.slice (core_setCore_same v v.cur.core _)

theorem my_sliceDone (v : State) (n : Nat) : (v.sliceDone n).my = v.my.advance := my_advance _

theorem ctx_sliceDone {v : State} (n : Nat) {c : CtxId} (h : c ≠ v.cur) : (v.sliceDone n).ctx c = v.ctx c :=
  ctx_setCtx_other _ _ h

theorem keeps_sliceDone (v : State) (n : Nat) : Keeps [] [] [] leftWords v.my (v.sliceDone n).my := by
  rw [my_sliceDone]
  exact keeps_advance v.my

theorem past_sliceDone (v : State) (n : Nat) : Past v.my (v.sliceDone n).my := by
  rw [my_sliceDone]
  exact past_advance v.my

/-- The end of the last of the queue is not before now, nor before any other. -/
theorem le_foldl_max (l : List (Nat × Nat)) (m : Nat) :
    m ≤ l.foldl (fun m e => max m e.1) m ∧ ∀ d ∈ l, d.1 ≤ l.foldl (fun m e => max m e.1) m := by
  induction l generalizing m with
  | nil => simp
  | cons e l ih =>
    obtain ⟨hfirst, hrest⟩ := ih (max m e.1)
    rw [List.foldl_cons]
    refine ⟨by omega, fun d hd => ?_⟩
    rcases List.mem_cons.mp hd with rfl | hd
    · omega
    · exact hrest d hd

/-- Slices of the same contents; their owners and queues may differ. -/
structure SameContents (x y : Slice) : Prop where
  acc : y.acc = x.acc
  mpois : y.mpois = x.mpois
  wa : y.wa = x.wa
  wb : y.wb = x.wb

theorem sameContents_busy (x : Slice) (time region n : Nat) : SameContents x (busy x time region n) := ⟨rfl, rfl, rfl, rfl⟩

theorem SameContents.row {x y : Slice} (h : SameContents x y) (m i : Nat) : y.row m i = x.row m i := by
  rw [Slice.row, h.acc, Slice.row]

/-- Writing words of the context leaves the slice. -/
theorem slice_writes {s u v : State} {x : Slice} {cws : List Nat} (h : SliceIs s u x) (hwrites : Writes [] [] [] cws u v) :
    v.cur = s.cur ∧ v.time = s.time ∧ v.slice = x := by
  have hcur : v.cur = s.cur := hwrites.only.cur.trans h.cur
  have hcores : v.cores = u.cores := by have hsame := congrArg State.cores hwrites.only.1; exact hsame
  have htime : v.time = u.time := by have hsame := congrArg State.time hwrites.only.1; exact hsame
  refine ⟨hcur, htime.trans h.time, ?_⟩
  rw [← h.slice, State.slice, State.myCore, hcur, State.slice, State.myCore, h.cur, State.core, hcores, State.core]

/-- What an instruction that has put x in the slice, and written words of its context, leaves. -/
theorem sliceStep_done {s u v : State} {x : Slice} {cws : List Nat} {p : Slice → Prop} {n : Nat} (h : SliceIs s u x)
    (hwrites : Writes [] [] [] cws u v) (howner : x.owner = some s.cur.ctx.val) (hqueue : x.queue = s.slice.queue)
    (hp : ∀ y, SameContents x y → p y) : SliceStep cws p s (v.sliceDone n) := by
  obtain ⟨hcur, htime, hslice⟩ := slice_writes h hwrites
  have hdone : (v.sliceDone n).slice = busy x s.time (v.regionOf v.cur) n := by rw [slice_sliceDone, hslice, htime]
  obtain ⟨hnow, holder⟩ := le_foldl_max x.queue s.time
  refine ⟨by rw [hdone]; exact hp _ (sameContents_busy _ _ _ _), by rw [hdone]; exact howner, ?_, ?_, ?_, ?_, fun c hc => ?_⟩
  · rw [hdone, ← hqueue]
    exact ⟨_, rfl, Nat.le_add_right_of_le hnow, fun d hd => Nat.le_add_right_of_le (holder d hd)⟩
  · obtain ⟨hmem, hpois⟩ := hwrites.only.sameMem
    exact ⟨hmem.trans h.sameMem.1, hpois.trans h.sameMem.2⟩
  · rw [← h.my]
    exact (hwrites.keeps.mono (by simp) (by simp) (by simp) (List.subset_append_right _ _)).trans
      ((keeps_sliceDone v n).mono (by simp) (by simp) (by simp) (List.subset_append_left _ _))
  · rw [← h.my]
    exact hwrites.spot.past (past_sliceDone v n)
  · rw [ctx_sliceDone n (by rwa [hcur]), hwrites.only.2 c (by rwa [h.cur]), h.ctx]

/-- An instruction of the slice alone: taken, given the slice f of it, and in the queue. -/
theorem slice_only {s : State} {i : Instr} {gs vs : List Reg} {k : State → State} {f : State → Slice} {n : Nat}
    {p : Slice → Prop} (hslot : s.InSlot) (hclean : s.Clean gs vs) (hmay : s.MaySlice)
    (hk : ∀ u, k u = (u.setSlice u.cur.core (f u)).sliceDone n)
    (hf : ∀ u, SliceIs s u (owned s) → (f u).owner = some s.cur.ctx.val ∧ (f u).queue = s.slice.queue
      ∧ ∀ y, SameContents (f u) y → p y) :
    CompletesWith (.next (s.withSlice i gs vs k)) (SliceStep [] p s) := by
  refine withSlice_completes hslot hclean hmay fun u hu => ?_
  obtain ⟨howner, hqueue, hp⟩ := hf u hu
  rw [hk u]
  exact sliceStep_done (hu.setSlice (f u)) (.refl _ _ _ _ _) howner hqueue hp

/-! ### Rows of the accumulators (R139, R153) -/

section
variable {α : Type} (f : α → VWord → VWord) {key : Nat → Nat}

/-- Rows computed one after the other: those that none of them is at stay. -/
theorem tget_rows_outside (l : List α) (a : Nat) (t : Table VWord) {k : Nat}
    (h : ∀ i, i < l.length → k ≠ key (a + i)) :
    tget 0 (((upto a l.length).zip l).foldl (fun t e => tset 0 t (key e.1) (f e.2 (tget 0 t (key e.1)))) t) k
      = tget 0 t k := by
  induction l generalizing a t with
  | nil => rfl
  | cons x l ih =>
    refine (ih (a + 1) _ fun i hi => ?_).trans (tget_tset_other 0 t _ (h 0 (by simp)))
    rw [Nat.add_right_comm, Nat.add_assoc]
    exact h (i + 1) (by simpa using hi)

/-- Each takes what its entry makes of what it held. -/
theorem tget_rows_inside (hkey : ∀ i j, key i = key j → i = j) (l : List α) (a : Nat) (t : Table VWord) {i : Nat} (h : i < l.length) :
    tget 0 (((upto a l.length).zip l).foldl (fun t e => tset 0 t (key e.1) (f e.2 (tget 0 t (key e.1)))) t) (key (a + i))
      = f l[i] (tget 0 t (key (a + i))) := by
  induction l generalizing a t i with
  | nil => simp at h
  | cons x l ih =>
    cases i with
    | zero =>
      refine (tget_rows_outside f l (a + 1) _ fun i _ heq => ?_).trans (tget_tset_same 0 t _ _)
      have := hkey _ _ heq
      omega
    | succ i =>
      have hne : key (a + (i + 1)) ≠ key a := fun heq => by have := hkey _ _ heq; omega
      have hrest := ih (a + 1) (tset 0 t (key a) (f x (tget 0 t (key a)))) (i := i) (by simpa using h)
      rw [Nat.add_right_comm, Nat.add_assoc, tget_tset_other 0 t _ hne] at hrest
      exact hrest

end

theorem setRows_acc (x : Slice) (m : Nat) {r : List VWord} (hr : r.length = 16) :
    (x.setRows m r).acc = ((upto (16 * m) r.length).zip r).foldl (fun t e => tset 0 t e.1 e.2) x.acc := by
  rw [hr]
  rfl

section
variable (x : Slice) (m : Nat) (r : List VWord) {y : Slice} (hacc : y.acc = (x.setRows m r).acc) (hr : r.length = 16) {i : Nat} (hi : i < 16)
include hacc hr hi

/-- A slice whose accumulator m was given rows: row i of it. -/
theorem row_setRows : y.row m i = r.getD i 0 := by
  have hlt : i < r.length := by omega
  rw [Slice.row, hacc, setRows_acc x m hr, List.getD_eq_getElem?_getD, List.getElem?_eq_getElem hlt, Option.getD_some]
  exact tget_rows_inside (fun v _ => v) (key := fun n => n) (fun _ _ h => h) r (16 * m) x.acc hlt

theorem row_setRows_other {j : Nat} (hj : j ≠ m) : y.row j i = x.row j i := by
  rw [Slice.row, hacc, setRows_acc x m hr]
  exact tget_rows_outside (fun v _ => v) (key := fun n => n) r (16 * m) x.acc fun n hn => by omega

end

theorem rows_eq (x : Slice) (m : Nat) : x.rows m = (List.range 16).map (x.row m) := by
  rw [Slice.rows, Frames.upto_eq_range', List.range'_eq_map_range, List.map_map]
  rfl

theorem length_rows (x : Slice) (m : Nat) : (x.rows m).length = 16 := by simp [rows_eq]

theorem acc_setPois (x : Slice) (m : Nat) (b : Bool) : (x.setPois m b).acc = x.acc := rfl

theorem getLsbD_setPois_clear (x : Slice) (m : Nat) : (x.setPois m false).mpois.getLsbD m = false := by
  simp [Slice.setPois]

/-! ### The instructions of the slice's registers (R149, R153, R164) -/

theorem mswap_step {s : State} (hslot : s.InSlot) (hmay : s.MaySlice) :
    CompletesWith (exec .mswap s) (SliceStep [] (fun x => x.wa = s.slice.wb ∧ x.wb = s.slice.wa ∧ x.acc = s.slice.acc
      ∧ x.mpois = s.slice.mpois) s) := by
  refine slice_only hslot rfl hmay (fun _ => rfl) fun u hu => ?_
  rw [hu.slice]
  exact ⟨rfl, rfl, fun _ h => ⟨h.wa, h.wb, h.acc, h.mpois⟩⟩

theorem mzero_step {s : State} (hslot : s.InSlot) (hmay : s.MaySlice) (m : Acc) :
    CompletesWith (exec (.mzero m) s) (SliceStep [] (fun x => (∀ i, i < 16 → x.row m.toNat i = 0)
      ∧ (∀ k i, k ≠ m.toNat → i < 16 → x.row k i = s.slice.row k i) ∧ x.mpois.getLsbD m.toNat = false
      ∧ x.wa = s.slice.wa ∧ x.wb = s.slice.wb) s) := by
  refine slice_only hslot rfl hmay (fun _ => rfl) fun u hu => ?_
  rw [hu.slice]
  refine ⟨rfl, rfl, fun y h => ?_⟩
  have hacc : y.acc = ((owned s).setRows m.toNat (List.replicate 16 0)).acc := h.acc.trans (acc_setPois _ _ _)
  refine ⟨fun i hi => ?_, fun k i hk hi => row_setRows_other (owned s) _ _ hacc List.length_replicate hi hk, ?_, h.wa, h.wb⟩
  · rw [row_setRows (owned s) _ _ hacc List.length_replicate hi, List.getD_eq_getElem?_getD, List.getElem?_replicate, if_pos hi,
      Option.getD_some]
  · rw [h.mpois, getLsbD_setPois_clear]

/-- A row with every element multiplied. -/
def scaled (factor : Nat) (v : VWord) : VWord := ofLanes 32 ((lanes 32 v).map (fun c => (fmul 23 0 c factor).1))

theorem laneAt_scaled (factor : Nat) (v : VWord) {n : Nat} (h : n < 16) :
    laneAt 32 (scaled factor v) n = (fmul 23 0 (laneAt 32 v n) factor).1 % 2 ^ 32 := by
  rw [scaled, laneAt_ofLanes _ h, map_lanes, getD_map_range _ _ h]

theorem exec_mscale (m : Acc) (g : Reg) (s : State) :
    exec (.mscale m g) s = .next (s.withSlice (.mscale m g) [g] [] fun u =>
      (u.setSlice u.cur.core (u.slice.setRows m.toNat ((u.slice.rows m.toNat).map (scaled (bits (u.g g) 31 0))))).sliceDone 16) :=
  rfl

theorem mscale_step {s : State} (hslot : s.InSlot) (hmay : s.MaySlice) (m : Acc) {g : Reg} (hclean : s.Clean [g] []) :
    CompletesWith (exec (.mscale m g) s) (SliceStep [] (fun x =>
      (∀ i n, i < 16 → n < 16 → laneAt 32 (x.row m.toNat i) n =
        (fmul 23 0 (laneAt 32 (s.slice.row m.toNat i) n) ((s.g g).toNat % 2 ^ 32)).1 % 2 ^ 32)
      ∧ (∀ k i, k ≠ m.toNat → i < 16 → x.row k i = s.slice.row k i) ∧ x.mpois = s.slice.mpois
      ∧ x.wa = s.slice.wa ∧ x.wb = s.slice.wb) s) := by
  rw [exec_mscale]
  refine slice_only hslot hclean hmay
    (f := fun u => u.slice.setRows m.toNat ((u.slice.rows m.toNat).map (scaled (bits (u.g g) 31 0)))) (fun _ => rfl) fun u hu => ?_
  have hfactor : bits (u.g g) 31 0 = (s.g g).toNat % 2 ^ 32 := by rw [hu.g, bits, bitsN, pow_zero, Nat.div_one]
  have hlen : (((owned s).rows m.toNat).map (scaled ((s.g g).toNat % 2 ^ 32))).length = 16 := by
    rw [List.length_map, length_rows]
  rw [hu.slice, hfactor]
  refine ⟨rfl, rfl, fun y h => ⟨fun i n hi hn => ?_,
    fun k i hk hi => row_setRows_other (owned s) _ _ h.acc hlen hi hk, h.mpois, h.wa, h.wb⟩⟩
  rw [row_setRows (owned s) _ _ h.acc hlen hi, rows_eq, List.map_map, getD_map_range _ _ hi]
  exact laneAt_scaled _ _ hn

/-- MFREE counts an event, which leaves all of this as it is. -/
theorem counted_event (s : State) :
    Bookkeeping.Served s (s.count s.cur.core 0x07 (some (s.regionOf s.cur)) 1) := Bookkeeping.served_count _ _ _ _ _

/-- A state with the same contexts that moves on. -/
theorem frame_advance {s u : State} (hctxs : u.ctxs = s.ctxs) (hcur : u.cur = s.cur) :
    Keeps [] [] [] leftWords s.my u.advance.my ∧ Past s.my u.advance.my := by
  have hmy : u.my = s.my := by rw [State.my, State.ctx, hctxs, hcur]; rfl
  rw [my_advance, hmy]
  exact ⟨keeps_advance _, past_advance _⟩

/-- Giving up a slice whose queue is empty clears it. -/
theorem slice_releaseSlice {u : State} (howner : u.slice.owner = some u.cur.ctx.val) (hqueue : u.slice.queue = []) :
    (u.releaseSlice u.cur).slice = {} ∧ (u.releaseSlice u.cur).ctxs = u.ctxs ∧ (u.releaseSlice u.cur).cur = u.cur
      ∧ SameMem u (u.releaseSlice u.cur) := by
  have hrel : u.releaseSlice u.cur = u.setCore u.cur.core { u.core u.cur.core with slice := { queue := [] } } := by
    rw [State.releaseSlice]
    refine (if_pos howner).trans ?_
    exact congrArg (fun q : List (Nat × Nat) => u.setCore u.cur.core { u.core u.cur.core with slice := { queue := q } }) hqueue
  rw [hrel]
  exact ⟨congrArg Core.slice (core_setCore_same _ _ _), rfl, rfl, rfl, rfl⟩

theorem mfree_step {s : State} (hslot : s.InSlot) (h : s.slice.owner ≠ some s.cur.ctx.val ∨ s.slice.queue = []) :
    CompletesWith (exec .mfree s) (fun t => SameMem s t ∧ Keeps [] [] [] leftWords s.my t.my ∧ Past s.my t.my
      ∧ t.slice = if s.slice.owner = some s.cur.ctx.val then {} else s.slice) := by
  refine ⟨_, congrArg Host.Outcome.next (slotOnly_slot hslot _ _), ?_⟩
  have hcount := (counted_event s).tended
  have hmem : SameMem s (s.count s.cur.core 0x07 (some (s.regionOf s.cur)) 1) := ⟨rfl, rfl⟩
  generalize s.count s.cur.core 0x07 (some (s.regionOf s.cur)) 1 = u at hcount hmem ⊢
  have hslice : u.slice = s.slice := by rw [State.slice, State.myCore, hcount.cur]; exact hcount.slices _
  by_cases howner : s.slice.owner = some s.cur.ctx.val
  · have hqueue : s.slice.queue = [] := h.resolve_left (not_not.mpr howner)
    obtain ⟨hclear, hctxs, hcur, hsame⟩ := slice_releaseSlice (u := u) (by rw [hslice, hcount.cur, howner]) (by rw [hslice, hqueue])
    rw [hcount.cur] at hclear hctxs hcur hsame
    rw [if_neg (not_not.mpr howner), if_pos hqueue, if_pos howner]
    exact ⟨⟨hsame.1.trans hmem.1, hsame.2.trans hmem.2⟩, (frame_advance (hctxs.trans hcount.ctxs) (hcur)).1,
      (frame_advance (hctxs.trans hcount.ctxs) hcur).2, hclear⟩
  · rw [if_pos howner, if_neg howner]
    exact ⟨hmem, (frame_advance hcount.ctxs hcount.cur).1, (frame_advance hcount.ctxs hcount.cur).2, hslice⟩

theorem sliceRegisterForms : Claim.SliceRegisterForms := by
  intro s m g hslot
  refine ⟨fun hmay => ⟨mswap_step hslot hmay, mzero_step hslot hmay m, mscale_step hslot hmay m⟩,
    fun hmay => ⟨?_, ?_⟩, mfree_step hslot, fun howner hqueue => ?_⟩
  · exact congrArg Host.Outcome.next (withSlice_waits _ hslot rfl hmay)
  · exact congrArg Host.Outcome.next (withSlice_waits _ hslot rfl hmay)
  · refine congrArg Host.Outcome.next ((slotOnly_slot hslot _ _).trans ?_)
    rw [if_neg (not_not.mpr howner), if_neg hqueue]

/-! ### The slice queue (R139, R145) -/

/-- What counting an event leaves of a core. -/
def SameQueues (x y : Core) : Prop := y.slice = x.slice ∧ y.outs = x.outs ∧ y.ports = x.ports ∧ y.inbox = x.inbox

theorem SameQueues.trans {x y z : Core} (h : SameQueues x y) (h' : SameQueues y z) : SameQueues x z :=
  ⟨h'.1.trans h.1, h'.2.1.trans h.2.1, h'.2.2.1.trans h.2.2.1, h'.2.2.2.trans h.2.2.2⟩

theorem sameQueues_pcAdd (x : Core) (ev : Nat) (r : Option Nat) (n k : Nat) : SameQueues x (pcAdd x ev r n k) := by
  induction k with
  | zero => exact ⟨rfl, rfl, rfl, rfl⟩
  | succ k ih =>
    simp only [pcAdd]
    split
    · exact ih
    · exact ih

theorem sameQueues_events (l : List (Nat × Nat)) (x : Core) :
    SameQueues x (l.foldl (fun y e => pcAdd y 0x07 (some e.2) 1 16) x) := by
  induction l generalizing x with
  | nil => exact ⟨rfl, rfl, rfl, rfl⟩
  | cons e l ih => exact (sameQueues_pcAdd x _ _ _ _).trans (ih _)

/-- The queue of a slice after a cycle. -/
theorem queue_stays (x : Slice) (q : List (Nat × Nat)) (h : x.queue = q) : x = { x with queue := q } := by
  rw [← h]

theorem sliceQueue : Claim.SliceQueue := by
  intro x now
  rw [Core.sliceCycle]
  have hkeeps : (fun e : Nat × Nat => !decide (e.1 ≤ now)) = fun e => decide (now < e.1) := by
    funext e
    rw [← decide_not]
    exact decide_eq_decide.mpr Nat.not_le
  split
  · next hempty => exact ⟨queue_stays _ _ (by rw [hempty]; rfl), rfl, rfl, rfl⟩
  · next e l hqueue =>
    obtain ⟨hslice, houts, hports, hinbox⟩ := (sameQueues_pcAdd x 0x06 (some e.2) 1 16).trans
      (sameQueues_events (x.slice.queue.filter (fun e => decide (e.1 ≤ now))) _)
    refine ⟨?_, houts, hports, hinbox⟩
    simp only [hslice, hkeeps]

end Sys2Proof.Proofs.Slices

/-! SUPPORT. Matrix operands in local memory that no stash window covers: the checks they pass, the bytes their pieces read and
write (R148, R154, R155, R162). -/

namespace Sys2Proof.Proofs.LocalOperands

open Machine VectorMemory ByteStrings

/-! ### Checks that an operand in local memory passes (R155) -/

/-- Where the pieces of an operand in local memory lie. -/
def localPieces (ps : List (Word × Nat)) : List Piece := ps.map (fun p => (.own p.1.toNat, p.2))

/-- Every piece lies in local memory. -/
def AllLocal (ps : List (Word × Nat)) : Prop := ∀ p ∈ ps, p.1.toNat < 0x40000

section
variable {s : State} {ps : List (Word × Nat)}

theorem place_local {va : Word} (h : va.toNat < 0x40000) : s.place va = .loc va.toNat ∧ areaOf va.toNat = .mem := by
  have harea : areaOf va.toNat = .mem := LoadsAndStores.areaOf_inside (n := 1) (by omega) (by decide)
  exact ⟨by rw [State.place, if_pos (by omega), harea, if_neg (by decide)], harea⟩

theorem matForm_local {va : Word} (h : va.toNat < 0x40000) : s.matForm va = true := by
  obtain ⟨hplace, harea⟩ := place_local (s := s) h
  rw [State.matForm, hplace]
  simp [harea]

theorem matWindows_local (h : AllLocal ps) : s.matWindows ps = [] := by
  rw [State.matWindows, List.filterMap_eq_nil_iff]
  intro p hp
  rw [(place_local (h p hp)).1]

theorem matPages_local (wr : Bool) (h : AllLocal ps) : s.matPages wr (ps.map (fun p => p.1)) = (s, true) := by
  induction ps with
  | nil => rfl
  | cons p ps ih =>
    rw [List.map_cons, State.matPages, (place_local (h p List.mem_cons_self)).1]
    exact ih fun q hq => h q (List.mem_cons_of_mem p hq)

theorem matResolve_local (i : Instr) (wr : Bool) (hs : s.NoStash) (h : AllLocal ps) :
    s.matResolve i wr ps = (s, some (localPieces ps)) := by
  induction ps with
  | nil => rfl
  | cons p ps ih =>
    obtain ⟨va, n⟩ := p
    rw [State.matResolve, resolve_local _ (h _ List.mem_cons_self) (hs _)]
    simp only [ih fun q hq => h q (List.mem_cons_of_mem _ hq)]
    rfl

theorem matOperand_local (i : Instr) (wr : Bool) (hs : s.NoStash) (h : AllLocal ps) :
    s.matOperand i wr ps = (s, some (localPieces ps)) := by
  have hform : ps.find? (fun p => !s.matForm p.1) = none := by
    rw [List.find?_eq_none]
    intro p hp
    simp [matForm_local (h p hp)]
  rw [State.matOperand, hform, matWindows_local h, State.unasked]
  simp only [List.find?_nil, matPages_local wr h, matResolve_local i wr hs h]

theorem gather_local (all : Bool) : s.gather all (localPieces ps) = (s, true) := by
  have hmissing : s.missing (localPieces ps) = [] := by
    rw [State.missing, localPieces, List.filter_eq_nil_iff.mpr]
    · rfl
    · intro p hp
      obtain ⟨q, -, rfl⟩ := List.mem_map.mp hp
      simp [Where.away]
  rw [State.gather, hmissing]

theorem channelOk_local : s.channelOk (s.farPieces (localPieces ps)) = (s, true) := by
  have hfar : s.farPieces (localPieces ps) = [] := by
    rw [State.farPieces, List.filterMap_eq_nil_iff]
    intro p hp
    obtain ⟨q, -, rfl⟩ := List.mem_map.mp hp
    rfl
  rw [hfar, channelOk_nil]

/-! ### What the pieces read (R148, R154) -/

/-- The bytes of the pieces, one after the other. -/
def localData (s : State) (ps : List (Word × Nat)) : List Byte := ps.flatMap (fun p => s.bytes (s.myLoc p.1) p.2)

/-- No piece is poisoned. -/
def Unpoisoned (s : State) (ps : List (Word × Nat)) : Prop := ∀ p ∈ ps, s.poisAt (s.myLoc p.1) p.2 = false

theorem matRead_local (h : Unpoisoned s ps) :
    s.matRead (localPieces ps) = (s, ps.map (fun p => (s.bytes (s.myLoc p.1) p.2, false))) := by
  induction ps with
  | nil => rfl
  | cons p ps ih =>
    have hclean : s.poisAt (localLoc s.cur.core p.1.toNat) p.2 = false := h p List.mem_cons_self
    have hone : s.matReadOne (.own p.1.toNat, p.2) = (s, s.bytes (s.myLoc p.1) p.2, false) := by
      simp only [State.matReadOne, hclean, localRecord_clean, State.myLoc]
    rw [localPieces, List.map_cons, State.matRead, hone]
    simp only
    rw [← localPieces, ih fun q hq => h q (List.mem_cons_of_mem p hq)]
    rfl

theorem joined_local : joined (ps.map (fun p => (s.bytes (s.myLoc p.1) p.2, false))) = (localData s ps, false) := by
  rw [joined, List.flatMap_map, List.any_map]
  exact Prod.ext rfl (by simp)

theorem localData_append (ps qs : List (Word × Nat)) : localData s (ps ++ qs) = localData s ps ++ localData s qs :=
  List.flatMap_append

end

/-! ### Consecutive pieces -/

section
variable {s : State} {va : Word} {n z : Nat}

theorem myLoc_add {f : Nat} (hin : inLocal va n) (hf : f < n) : s.myLoc (va + word f) = s.myLoc va + f := by
  rw [State.myLoc, toNat_add_offset hin hf, State.myLoc, localLoc, localLoc]
  exact (Nat.add_assoc _ _ _).symm

theorem mem_piecesAt {p : Word × Nat} : p ∈ piecesAt va z n ↔ ∃ j, j < n ∧ p = (va + word (z * j), z) := by
  rw [piecesAt, List.mem_map]
  simp [mem_upto, eq_comm]

/-- The offset of a piece of an operand lies in it. -/
theorem piece_inside {j : Nat} (hj : j < n) : z * j + z ≤ z * n := by
  have := Nat.mul_le_mul_left z hj
  rwa [Nat.mul_succ] at this

theorem allLocal_piecesAt (hz : 0 < z) (hin : inLocal va (z * n)) : AllLocal (piecesAt va z n) := by
  intro p hp
  obtain ⟨j, hj, rfl⟩ := mem_piecesAt.mp hp
  have hpiece := piece_inside (z := z) hj
  have hend : va.toNat + z * n ≤ 0x40000 := hin
  rw [toNat_add_offset hin (f := z * j) (by omega)]
  omega

theorem unpoisoned_piecesAt (hz : 0 < z) (hin : inLocal va (z * n)) (h : s.poisAt (s.myLoc va) (z * n) = false) :
    Unpoisoned s (piecesAt va z n) := by
  intro p hp
  obtain ⟨j, hj, rfl⟩ := mem_piecesAt.mp hp
  have hpiece := piece_inside (z := z) hj
  rw [myLoc_add hin (f := z * j) (by omega)]
  exact poisAt_part h (by omega) (by omega)

theorem localData_piecesAt (hz : 0 < z) (hin : inLocal va (z * n)) :
    localData s (piecesAt va z n) = s.bytes (s.myLoc va) (z * n) := by
  have hpieces := bytes_pieces s (s.myLoc va) z 0 n
  rw [Nat.mul_zero, Nat.add_zero] at hpieces
  rw [localData, piecesAt, List.flatMap_map, ← hpieces]
  refine List.flatMap_congr fun j hj => ?_
  have hpiece := piece_inside (z := z) (by simpa [mem_upto] using hj)
  rw [myLoc_add hin (f := z * j) (by omega)]

/-! ### What the pieces write (R154, R162) -/

theorem matSend_local (bad : Bool) (ps : List (Word × Nat)) (bs : List Byte) :
    s.matSend bad (localPieces ps) bs = (s, true) := by
  induction ps generalizing bs with
  | nil => rfl
  | cons p ps ih => exact ih (bs.drop p.2)

/-- Pieces from the a-th on write their bytes from where the a-th lies. -/
theorem matPoke_local (bad : Bool) (hz : 0 < z) (a m : Nat) (s : State) (bs : List Byte) (hin : inLocal va (z * (a + m)))
    (hlen : bs.length = z * m) :
    ∃ p, s.matPoke bad (localPieces ((upto a m).map (fun j => (va + word (z * j), z)))) bs
      = { s with mem := memPuts s.mem (s.myLoc va + z * a) bs, pois := p } := by
  induction m generalizing a s bs with
  | zero =>
    obtain rfl : bs = [] := List.eq_nil_of_length_eq_zero hlen
    exact ⟨s.pois, rfl⟩
  | succ m ih =>
    have hpiece := piece_inside (z := z) (show a < a + (m + 1) by omega)
    have hloc : localLoc s.cur.core (va + word (z * a)).toNat = s.myLoc va + z * a := myLoc_add hin (by omega)
    have htake : (bs.take z).length = z := List.length_take_of_le (by rw [hlen, mul_add]; omega)
    have hin' : inLocal va (z * (a + 1 + m)) := by rwa [Nat.add_assoc, Nat.add_comm 1]
    obtain ⟨p, hp⟩ := ih (a + 1) (s.poke (s.myLoc va + z * a) (bs.take z) bad) (bs.drop z) hin'
      (by rw [List.length_drop, hlen, mul_add]; omega)
    refine ⟨p, ?_⟩
    rw [upto, List.map_cons, localPieces, List.map_cons, ← localPieces, State.matPoke, hloc, hp]
    have hmem : memPuts s.mem (s.myLoc va + z * a) bs
        = memPuts (memPuts s.mem (s.myLoc va + z * a) (bs.take z)) (s.myLoc va + z * (a + 1)) (bs.drop z) := by
      conv_lhs => rw [← List.take_append_drop z bs, memPuts_append, htake]
      rw [mul_add, mul_one, Nat.add_assoc]
    rw [hmem]
    rfl

/-- An operand in local memory is written in one piece. -/
theorem matWrite_local (bad : Bool) (hz : 0 < z) (s : State) (bs : List Byte) (hin : inLocal va (z * n))
    (hlen : bs.length = z * n) :
    ∃ p, s.matWrite bad (localPieces (piecesAt va z n)) bs
      = ({ s with mem := memPuts s.mem (s.myLoc va) bs, pois := p }, true) := by
  obtain ⟨p, hp⟩ := matPoke_local bad hz 0 n s bs ((Nat.zero_add n).symm ▸ hin) hlen
  rw [Nat.mul_zero, Nat.add_zero, ← piecesAt] at hp
  exact ⟨p, by rw [State.matWrite, matSend_local, ← hp]⟩

end

end Sys2Proof.Proofs.LocalOperands

/-! SUPPORT. MLDW on local memory (R148). -/

namespace Sys2Proof.Proofs.SliceWeights

open Machine Slices LocalOperands ByteStrings

/-! ### Loading wb (R148) -/

/-- The weights that bytes give: the first of them columns, the rest scales. -/
def loadedPlane (fmt planes cols : Nat) (bs : List Byte) : Plane :=
  ⟨fmt, planes, tableOf (bs.take cols), tableOf (bs.drop cols), false⟩

/-- SPTR moved on, for a form that has scales. -/
def scalesMoved (s : State) : Option Word → State
  | none => s
  | some p => s.setMy (s.my.setCw cwSCLB p)

/-- The control words that a load writes. -/
def scaleWords : Option Word → List Nat
  | none => []
  | some _ => [0x043]

theorem writes_scalesMoved (s : State) (sptr : Option Word) : Writes [] [] [] (scaleWords sptr) s (scalesMoved s sptr) := by
  cases sptr with
  | none => exact .refl _ _ _ _ _
  | some p => exact writes_setMy s (keeps_setCw _ _ _) ⟨rfl, rfl, rfl⟩

theorem loadWb_local {s : State} {ps : List (Word × Nat)} {plane : Bool} (hkind : planeCluster s.cur.core.cluster = plane)
    (hclean : Unpoisoned s ps) (fmt planes cols cycles : Nat) (sptr : Option Word) :
    s.loadWb plane fmt planes cols cycles (localPieces ps) sptr
      = (scalesMoved (s.setSlice s.cur.core { s.slice with wb := loadedPlane fmt planes cols (localData s ps) }) sptr).sliceDone
          cycles := by
  have hok : s.kindOk plane = true := by rw [State.kindOk, hkind, beq_self_eq_true]
  rw [State.loadWb, if_neg (by rw [hok]; exact Bool.noConfusion), gather_local]
  simp only [matRead_local hclean, joined_local]
  cases sptr <;> rfl

theorem cwv_moved (u : State) (p : Word) (n : Nat) : ((scalesMoved u (some p)).sliceDone n).my.cwv 0x043 = p := by
  rw [(keeps_sliceDone _ n).cw 0x043 (by decide), scalesMoved, my_setMy]
  exact cwv_setCw _ _ _

section
variable {s u : State} (hu : SliceIs s u (owned s)) {ps : List (Word × Nat)}
include hu

theorem unpoisoned_taken (h : Unpoisoned s ps) : Unpoisoned u ps := fun p hp => by
  rw [hu.poisAt, hu.myLoc]
  exact h p hp

theorem localData_taken : localData u ps = localData s ps :=
  List.flatMap_congr fun p _ => by rw [hu.bytes, hu.myLoc]

/-- A load of weights, once its checks are passed. -/
theorem loadWb_step {plane : Bool} (hkind : planeCluster s.cur.core.cluster = plane) (hclean : Unpoisoned s ps)
    (fmt planes cols cycles : Nat) (sptr : Option Word) {p : Slice → Prop}
    (hp : ∀ y : Slice, y.wb = loadedPlane fmt planes cols (localData s ps) → y.wa = s.slice.wa → y.acc = s.slice.acc →
      y.mpois = s.slice.mpois → p y) :
    SliceStep (scaleWords sptr) p s (u.loadWb plane fmt planes cols cycles (localPieces ps) sptr) := by
  rw [loadWb_local (by rw [hu.cur]; exact hkind) (unpoisoned_taken hu hclean), localData_taken hu, hu.slice]
  exact sliceStep_done (hu.setSlice _) (writes_scalesMoved _ sptr) rfl rfl fun y h => hp y h.wb h.wa h.acc h.mpois

theorem loadWb_scales {plane : Bool} (hkind : planeCluster s.cur.core.cluster = plane) (hclean : Unpoisoned s ps)
    (fmt planes cols cycles : Nat) (p : Word) :
    (u.loadWb plane fmt planes cols cycles (localPieces ps) (some p)).my.cwv 0x043 = p := by
  rw [loadWb_local (by rw [hu.cur]; exact hkind) (unpoisoned_taken hu hclean), cwv_moved]

end

/-! ### MLDW.BF16 and MLDW.F32 -/

theorem bits_low (w : Word) (n : Nat) : bits w n 0 = w.toNat % 2 ^ (n + 1) := by
  rw [bits, bitsN, pow_zero, Nat.div_one, Nat.sub_zero]

/-- The pieces of sixteen columns of z bytes, cs apart. -/
def columnPieces (ea : Word) (cs z : Nat) : List (Word × Nat) :=
  (upto 0 16).flatMap (fun n => piecesAt (ea + word (n * cs)) 32 (z / 32))

section
variable {s : State} {ea : Word} {cs z : Nat} (hz : 32 * (z / 32) = z)
  (hin : ∀ n, n < 16 → inLocal (ea + word (n * cs)) z ∧ s.poisAt (s.myLoc (ea + word (n * cs))) z = false)
include hz hin

theorem allLocal_columns : AllLocal (columnPieces ea cs z) := by
  intro p hp
  obtain ⟨n, hn, hp⟩ := List.mem_flatMap.mp hp
  exact allLocal_piecesAt (by decide) (hz.symm ▸ (hin n (by simpa [VectorMemory.mem_upto] using hn)).1) p hp

theorem unpoisoned_columns : Unpoisoned s (columnPieces ea cs z) := by
  intro p hp
  obtain ⟨n, hn, hp⟩ := List.mem_flatMap.mp hp
  obtain ⟨hlocal, hclean⟩ := hin n (by simpa [VectorMemory.mem_upto] using hn)
  exact unpoisoned_piecesAt (by decide) (hz.symm ▸ hlocal) (hz.symm ▸ hclean) p hp

theorem localData_columns :
    localData s (columnPieces ea cs z) = (List.range 16).flatMap (fun n => s.bytes (s.myLoc (ea + word (n * cs))) z) := by
  rw [localData, columnPieces, List.flatMap_assoc, Lanes.upto_zero]
  refine List.flatMap_congr fun n hn => ?_
  have hdata := localData_piecesAt (s := s) (va := ea + word (n * cs)) (n := z / 32) (z := 32) (by decide)
    (hz.symm ▸ (hin n (List.mem_range.mp hn)).1)
  rw [hz] at hdata
  exact hdata

/-- Byte b of column n of the weights loaded. -/
theorem column_byte (fmt planes : Nat) {n b : Nat} (hn : n < 16) (hb : b < z) :
    tget 0 (loadedPlane fmt planes (16 * z) (localData s (columnPieces ea cs z))).cols (z * n + b)
      = s.byte (s.myLoc (ea + word (n * cs)) + b) := by
  have hlen : ∀ n, (s.bytes (s.myLoc (ea + word (n * cs))) z).length = z := fun n => bytes_length _ _ _
  have hall : ((List.range 16).flatMap (fun n => s.bytes (s.myLoc (ea + word (n * cs))) z)).length = 16 * z := by
    rw [length_flatMap_pieces fun n _ => hlen n, List.length_range, mul_comm]
  have hplace : z * n + b < 16 * z := by
    have := Nat.mul_le_mul_left z (show n ≤ 15 by omega)
    omega
  rw [localData_columns hz hin, loadedPlane, List.take_of_length_le hall.le, tget_tableOf _ (by rwa [hall]),
    VectorMemory.getD_flatMap_pieces hlen _ (by simpa using hn) hb, List.getElem_range, VectorMemory.getD_bytes s _ hb]

end

/-- The columns of the float forms. -/
theorem mldw_float {s : State} {g : Reg} (hslot : s.InSlot) (hmay : s.MaySlice) (hstash : s.NoStash) (hclean : s.Clean [g] [])
    (i : Instr) (fmt z cycles : Nat) (hz : 32 * (z / 32) = z) :
    let ea := s.g g
    let w := (s.my.cwv 0x041).toNat % 8192 * 32
    let cs := if w = 0 then z else w
    planeCluster s.cur.core.cluster = false → ea.toNat % 32 = 0 →
    (∀ n, n < 16 → inLocal (ea + BitVec.ofNat 64 (n * cs)) z
      ∧ s.poisAt (s.myLoc (ea + BitVec.ofNat 64 (n * cs))) z = false) →
    CompletesWith (.next (opMldw s i g fmt z cycles)) (SliceStep [] (fun x => x.wb.fmt = fmt ∧ x.wb.pois = false
      ∧ (∀ n b, n < 16 → b < z → tget 0 x.wb.cols (z * n + b) = s.byte (s.myLoc (ea + BitVec.ofNat 64 (n * cs)) + b))
      ∧ x.wa = s.slice.wa ∧ x.acc = s.slice.acc ∧ x.mpois = s.slice.mpois) s) := by
  intro ea w cs hkind halign hin
  refine withSlice_completes hslot hclean hmay fun u hu => ?_
  have hstride : bits (u.my.cwv 0x041) 12 0 * 32 = w := by rw [hu.my, bits_low]; rfl
  simp only [hstride, hu.g]
  rw [if_neg (not_not.mpr halign), ← columnPieces, matOperand_local _ _ (hu.noStash hstash) (allLocal_columns hz hin)]
  refine loadWb_step hu hkind (unpoisoned_columns hz hin) fmt 0 (16 * z) cycles none fun y hwb hwa hacc hmp => ?_
  rw [hwb]
  exact ⟨rfl, rfl, fun n b hn hb => column_byte hz hin fmt 0 hn hb, hwa, hacc, hmp⟩

/-! ### MLDW.P -/

/-- A block of 64 × k bytes and its sixteen scales. -/
def blockPieces (ea sp : Word) (k : Nat) : List (Word × Nat) := piecesAt ea 64 k ++ piecesAt sp 2 16

section
variable {s : State} {ea sp : Word} {k : Nat}

theorem allLocal_block (hin : inLocal ea (64 * k)) (hscales : inLocal sp 32) : AllLocal (blockPieces ea sp k) := fun p hp =>
  (List.mem_append.mp hp).elim (allLocal_piecesAt (by decide) hin p) (allLocal_piecesAt (n := 16) (by decide) hscales p)

theorem unpoisoned_block (hin : inLocal ea (64 * k)) (hscales : inLocal sp 32) (hclean : s.poisAt (s.myLoc ea) (64 * k) = false)
    (hscale : s.poisAt (s.myLoc sp) 32 = false) : Unpoisoned s (blockPieces ea sp k) := fun p hp =>
  (List.mem_append.mp hp).elim (unpoisoned_piecesAt (by decide) hin hclean p)
    (unpoisoned_piecesAt (n := 16) (by decide) hscales hscale p)

theorem table_byte (s : State) (a : Nat) {n b : Nat} (h : b < n) : tget 0 (tableOf (s.bytes a n)) b = s.byte (a + b) := by
  rw [tget_tableOf _ (by rwa [bytes_length]), VectorMemory.getD_bytes s a h]

theorem localData_block (hin : inLocal ea (64 * k)) (hscales : inLocal sp 32) :
    localData s (blockPieces ea sp k) = s.bytes (s.myLoc ea) (64 * k) ++ s.bytes (s.myLoc sp) 32 := by
  rw [blockPieces, localData_append, localData_piecesAt (by decide) hin, localData_piecesAt (n := 16) (by decide) hscales]

theorem block_byte (hin : inLocal ea (64 * k)) (hscales : inLocal sp 32) (fmt planes : Nat) {b : Nat} (hb : b < 64 * k) :
    tget 0 (loadedPlane fmt planes (64 * k) (localData s (blockPieces ea sp k))).cols b = s.byte (s.myLoc ea + b) := by
  rw [localData_block hin hscales, loadedPlane, List.take_left' (bytes_length _ _ _), table_byte s _ hb]

theorem scale_byte (hin : inLocal ea (64 * k)) (hscales : inLocal sp 32) (fmt planes : Nat) {b : Nat} (hb : b < 32) :
    tget 0 (loadedPlane fmt planes (64 * k) (localData s (blockPieces ea sp k))).scales b = s.byte (s.myLoc sp + b) := by
  rw [localData_block hin hscales, loadedPlane, List.drop_left' (bytes_length _ _ _), table_byte s _ hb]

end

theorem mldw_plane {s : State} {g : Reg} {pl : BitVec 3} (hslot : s.InSlot) (hmay : s.MaySlice) (hstash : s.NoStash)
    (hclean : s.Clean [g] []) :
    let ea := s.g g
    let sp := s.my.cwv 0x043
    let k := pl.toNat + 1
    planeCluster s.cur.core.cluster = true → ea.toNat % 64 = 0 → sp.toNat % 2 = 0 → inLocal ea (64 * k) → inLocal sp 32 →
    s.poisAt (s.myLoc ea) (64 * k) = false → s.poisAt (s.myLoc sp) 32 = false →
    CompletesWith (exec (.mldwP g pl) s) (fun t => SliceStep [0x043] (fun x => x.wb.fmt = 3 ∧ x.wb.planes = k
      ∧ x.wb.pois = false ∧ (∀ b, b < 64 * k → tget 0 x.wb.cols b = s.byte (s.myLoc ea + b))
      ∧ (∀ b, b < 32 → tget 0 x.wb.scales b = s.byte (s.myLoc sp + b))
      ∧ x.wa = s.slice.wa ∧ x.acc = s.slice.acc ∧ x.mpois = s.slice.mpois) s t ∧ t.my.cwv 0x043 = sp + 32) := by
  intro ea sp k hkind halign hscale hin hscales hdata hfactors
  refine withSlice_completes hslot hclean hmay fun u hu => ?_
  have hsp : u.my.cwv cwSCLB = sp := by rw [hu.my]; rfl
  simp only [hu.g, hsp]
  rw [if_neg (not_not.mpr halign), if_neg (not_not.mpr hscale), ← blockPieces,
    matOperand_local _ _ (hu.noStash hstash) (allLocal_block hin hscales)]
  have hpieces := unpoisoned_block hin hscales hdata hfactors
  dsimp only
  constructor
  · refine loadWb_step hu hkind hpieces 3 k (64 * k) (k + 1) (some (sp + 32)) fun y hwb hwa hacc hmp => ?_
    rw [hwb]
    exact ⟨rfl, rfl, rfl, fun b hb => block_byte hin hscales 3 k hb, fun b hb => scale_byte hin hscales 3 k hb, hwa, hacc, hmp⟩
  · exact loadWb_scales hu hkind hpieces 3 k (64 * k) (k + 1) (sp + 32)

theorem sliceLoadWeights : Claim.SliceLoadWeights := by
  intro s g pl hslot hmay hstash hclean
  exact ⟨mldw_float hslot hmay hstash hclean _ 1 32 8 rfl, mldw_float hslot hmay hstash hclean _ 2 64 16 rfl,
    mldw_plane hslot hmay hstash hclean⟩

end Sys2Proof.Proofs.SliceWeights

/-! SUPPORT. Faults of the matrix instructions, in the order of R155. -/

namespace Sys2Proof.Proofs.SliceFaults

open Machine Slices VectorMemory

/-! ### Metadata (R152) -/

/-- The set bits of a byte. -/
def bitCount (b : Nat) : Nat := (List.range 8).countP (fun i => b.testBit i)

theorem length_maskPos (g b : Nat) : (maskPos g b).length = bitCount b := by
  rw [maskPos, List.length_map, Lanes.upto_zero, bitCount, List.countP_eq_length_filter]

/-- The lowest byte without exactly four bits. -/
theorem badMeta_first {l : List Nat} {b : Nat} (i : Nat) (hb : b < l.length) (hbad : bitCount l[b] ≠ 4)
    (hgood : ∀ c, (hc : c < b) → bitCount l[c] = 4) : badMeta i l = some (i + b, l[b]) := by
  induction l generalizing i b with
  | nil => simp at hb
  | cons x l ih =>
    rw [badMeta, length_maskPos]
    cases b with
    | zero => exact if_neg hbad
    | succ b =>
      have hfirst : bitCount x = 4 := hgood 0 (Nat.zero_lt_succ b)
      have hrest := ih (i + 1) (by simpa using hb) hbad fun c hc => hgood (c + 1) (Nat.succ_lt_succ hc)
      rw [if_pos hfirst, hrest, Nat.add_assoc, Nat.add_comm 1]
      rfl

theorem metaOf_sbf16 (s : State) (v : Reg) : s.metaOf .sbf16 v = (List.range 64).map (laneAt 8 (s.v v)) := by
  have hone : s.metaOf .sbf16 v = (vbytes (s.v v)).map (fun b => b.toNat) := List.append_nil _
  rw [hone]
  refine List.ext_getElem (by rw [List.length_map, vbytes_length, List.length_map, List.length_range]) fun b hb _ => ?_
  have hlt : b < (vbytes (s.v v)).length := by simpa using hb
  have hbyte := getD_vbytes (s.v v) (n := b) (by rwa [vbytes_length] at hlt)
  rw [List.getD_eq_getElem?_getD, List.getElem?_eq_getElem hlt, Option.getD_some] at hbyte
  rw [List.getElem_map, List.getElem_map, List.getElem_range, hbyte, BitVec.toNat_ofNat, laneAt, Nat.mod_mod]

theorem badMeta_sbf16 (s : State) (v : Reg) {b : Nat} (hb : b < 64) (hbad : bitCount (laneAt 8 (s.v v) b) ≠ 4)
    (hgood : ∀ c, c < b → bitCount (laneAt 8 (s.v v) c) = 4) :
    badMeta 0 (s.metaOf .sbf16 v) = some (b, laneAt 8 (s.v v) b) := by
  have hlow := badMeta_first (l := (List.range 64).map (laneAt 8 (s.v v))) (b := b) 0 (by simpa using hb) (by simpa using hbad)
    fun c hc => by simpa using hgood c hc
  rw [metaOf_sbf16, hlow]
  simp

/-! ### Operands outside local memory (R155 step 4) -/

/-- An operand whose first piece is at an address of the wrong form or area, and none of whose pieces is a window address. -/
theorem matOperand_refused {s : State} {ea : Word} {z n : Nat} (i : Instr) (wr : Bool) (hn : 0 < n) (hform : s.matForm ea = false)
    (hwin : s.matWindows (piecesAt ea z n) = []) : s.matOperand i wr (piecesAt ea z n) = (s.raise 0x05 ea, none) := by
  have hfirst : (piecesAt ea z n).find? (fun p => !s.matForm p.1) = some (ea, z) := by
    obtain ⟨n, rfl⟩ := Nat.exists_eq_succ_of_ne_zero hn.ne'
    have hea : ea + word (z * 0) = ea := BitVec.add_zero ea
    rw [piecesAt, upto, List.map_cons, List.find?_cons_of_pos (by rw [hea, hform]; rfl), hea]
  rw [State.matOperand, hwin, hfirst, State.unasked, List.find?_nil]

/-- No address below the windows is one of them. -/
theorem place_below {s : State} {va : Word} (h : va.toNat < 255 * 2 ^ 56) (pa : Nat) : s.place va ≠ .win pa := by
  have hwindow : va.toNat / 2 ^ 56 ≠ 0xFF := by omega
  rw [State.place]
  split
  · split <;> exact Place.noConfusion
  · split
    · exact Place.noConfusion
    · exact Place.noConfusion

theorem matWindows_below {s : State} {ea : Word} {z n : Nat} (h : ∀ j, j < n → (ea + word (z * j)).toNat < 255 * 2 ^ 56) :
    s.matWindows (piecesAt ea z n) = [] := by
  rw [State.matWindows, List.filterMap_eq_nil_iff]
  intro p hp
  obtain ⟨j, hj, rfl⟩ := LocalOperands.mem_piecesAt.mp hp
  split
  · next pa hplace => exact absurd hplace (place_below (h j hj) pa)
  · rfl

/-- The tags, the counters and the first address above the translated ones are no operands. -/
theorem matForm_refused {s : State} {ea : Word} (h : ea.toNat = 0x40000 ∨ ea.toNat = 0x80000 ∨ ea.toNat = 2 ^ 57) :
    s.matForm ea = false := by
  rw [State.matForm, State.place]
  rcases h with h | h | h <;> rw [h] <;> rfl

theorem matOperand_areas {s : State} {ea : Word} (h : ea.toNat = 0x40000 ∨ ea.toNat = 0x80000 ∨ ea.toNat = 2 ^ 57) (i : Instr)
    (wr : Bool) : s.matOperand i wr (piecesAt ea 64 16) = (s.raise 0x05 ea, none) := by
  refine matOperand_refused i wr (by decide) (matForm_refused h) (matWindows_below fun j hj => ?_)
  have hlow : ea.toNat ≤ 2 ^ 57 := by omega
  rw [BitVec.toNat_add, word, BitVec.toNat_ofNat]
  omega

/-! ### The claim -/

section
variable {s : State}

theorem mulChecked_kind {f : GangForm} (h : planeCluster s.cur.core.cluster ≠ formPlane f) (m : Acc) (v ga : Reg) (pl : BitVec 3)
    (go : GangArrival → State) : s.mulChecked f m v ga pl go = s.raise 0x07 1 :=
  if_pos (beq_eq_false_iff_ne.mpr h)

theorem mulChecked_format {f : GangForm} (h : planeCluster s.cur.core.cluster = formPlane f) (hfmt : s.slice.wa.fmt ≠ formFmt f)
    (m : Acc) (v ga : Reg) (pl : BitVec 3) (go : GangArrival → State) : s.mulChecked f m v ga pl go = s.raise 0x07 2 := by
  rw [State.mulChecked, State.kindOk, h, beq_self_eq_true]
  exact if_pos hfmt

theorem mulChecked_meta {f : GangForm} {v : Reg} {b x : Nat} (h : planeCluster s.cur.core.cluster = formPlane f)
    (hfmt : s.slice.wa.fmt = formFmt f) (hbad : badMeta 0 (s.metaOf f v) = some (b, x)) (m : Acc) (ga : Reg) (pl : BitVec 3)
    (go : GangArrival → State) : s.mulChecked f m v ga pl go = s.raise 0x08 (word (b + 256 * x)) := by
  rw [State.mulChecked, State.kindOk, h, beq_self_eq_true]
  simp only [Bool.true_eq_false, if_false, hfmt, ne_eq, not_true_eq_false, hbad]

end

theorem sliceFaults : Claim.SliceFaults := by
  intro s m v g
  refine ⟨fun hslot => ⟨?_, ?_⟩, fun hslot hpois => ⟨?_, ?_⟩, fun hslot hclean howner hroom => ?_⟩
  · exact congrArg Host.Outcome.next (withSlice_handler _ hslot)
  · exact congrArg Host.Outcome.next (if_pos (by simpa [State.InSlot] using hslot))
  · exact congrArg Host.Outcome.next (withSlice_poisoned _ hslot hpois)
  · exact congrArg Host.Outcome.next (withSlice_poisoned _ hslot hpois)
  have hone : s.Clean [g] [] := VectorFloat.clean_of_subset hclean (List.Subset.refl _) (List.nil_subset _)
  have htwo : s.Clean [g] (metaRegs .sbf16 v) := hclean
  refine ⟨fun halign => ⟨?_, ?_, fun hqueue => ⟨?_, ?_⟩⟩, fun halign harea => ⟨?_, ?_⟩, fun hkind => ⟨?_, ?_⟩,
    fun hkind hfmt => ⟨?_, ?_⟩, fun hkind hfmt b hb hbad hgood => ?_⟩
  · exact congrArg Host.Outcome.next ((withSlice_owner _ hslot hone howner hroom).trans (if_pos halign))
  · exact congrArg Host.Outcome.next ((withSlice_owner _ hslot hone howner hroom).trans (if_pos halign))
  · exact congrArg Host.Outcome.next ((withDrained_owner _ hslot hone howner hqueue).trans (if_pos halign))
  · exact congrArg Host.Outcome.next ((withDrained_owner _ hslot hone howner hqueue).trans (if_pos halign))
  · refine congrArg Host.Outcome.next ((withSlice_owner _ hslot hone howner hroom).trans ((if_neg (not_not.mpr halign)).trans ?_))
    rw [matOperand_areas harea]
  · refine congrArg Host.Outcome.next ((withSlice_owner _ hslot hone howner hroom).trans ((if_neg (not_not.mpr halign)).trans ?_))
    rw [matOperand_areas harea]
  · exact congrArg Host.Outcome.next ((withSlice_owner _ hslot hone howner hroom).trans
      (mulChecked_kind (by rw [hkind]; decide) _ _ _ _ _))
  · exact congrArg Host.Outcome.next ((withSlice_owner _ hslot htwo howner hroom).trans
      (mulChecked_kind (by rw [hkind]; decide) _ _ _ _ _))
  · exact congrArg Host.Outcome.next ((withSlice_owner _ hslot hone howner hroom).trans
      (mulChecked_format hkind hfmt _ _ _ _ _))
  · exact congrArg Host.Outcome.next ((withSlice_owner _ hslot htwo howner hroom).trans
      (mulChecked_format hkind hfmt _ _ _ _ _))
  · exact congrArg Host.Outcome.next ((withSlice_owner _ hslot htwo howner hroom).trans
      (mulChecked_meta hkind hfmt (badMeta_sbf16 s v hb hbad hgood) _ _ _ _))

/-- Settles O32: the checks of a matrix instruction leave the slice taken by its slot; each of these instructions then gives the
slice its new contents and stands last in the queue. -/
theorem sliceWeights : Obligations.SliceWeights := by
  unfold Obligations.SliceWeights
  exact ⟨sliceRegisterForms, SliceWeights.sliceLoadWeights, sliceFaults⟩

end Sys2Proof.Proofs.SliceFaults

/-! SUPPORT. MMA and MMAS on a tile of local memory, and what the sum of a dense form is (R111, R112, R146, R150, R151). -/

namespace Sys2Proof.Proofs.SliceMultiply

open Machine Slices Lanes ByteStrings

/-! ### A tile of local memory (R146) -/

section
variable {s : State} {k : CoreId} {base stride len : Nat}

theorem tileRow_eq (i : Nat) :
    s.tileRow k base stride len i = (List.range len).map (fun b => s.byte (localLoc k ((base + i * stride + b) % 2 ^ 18))) := by
  rw [State.tileRow, rowOffs, upto_zero, List.map_map]
  rfl

theorem rowBad_clean {i : Nat} (h : ∀ b, b < len → s.poisAt (localLoc k ((base + i * stride + b) % 2 ^ 18)) 1 = false) :
    s.rowBad k base stride len i = none := by
  rw [State.rowBad, rowOffs, upto_zero, List.find?_map, List.find?_eq_none.mpr]
  · rfl
  · intro b hb
    rw [Function.comp_apply, h b (List.mem_range.mp hb)]
    exact Bool.false_ne_true

theorem tileBad_clean {l : List Nat} (region : Nat) (h : ∀ i ∈ l, s.rowBad k base stride len i = none) :
    s.tileBad k region base stride len l = (s, false) := by
  induction l with
  | nil => rfl
  | cons i l ih =>
    rw [State.tileBad, h i List.mem_cons_self]
    exact ih fun j hj => h j (List.mem_cons_of_mem i hj)

end

theorem tileBase_eq (w : Word) : tileBase w = w.toNat % 2 ^ 18 / 32 * 32 := by
  rw [tileBase, bits, bitsN]
  omega

theorem tileStride_eq (s : State) (row : Nat) :
    s.tileStride row = if (s.my.cwv 0x040).toNat % 8192 * 32 = 0 then row else (s.my.cwv 0x040).toNat % 8192 * 32 := by
  rw [State.tileStride, SliceWeights.bits_low]
  rfl

/-! ### Products added to an accumulator (R150) -/

theorem laneAt_mulRow (f : GangForm) (k : Nat) (wa : Plane) (mdata : List Nat) (act : Nat) (row : List Byte) (acc : VWord)
    {n : Nat} (h : n < 16) :
    laneAt 32 (mulRow f k wa mdata act row acc) n = mulElem f k wa mdata act row (laneAt 32 acc n) n % 2 ^ 32 := by
  have hlanes := laneAt_ofLanes (w := 32)
    ((List.range 16).map (fun n => mulElem f k wa mdata act row (laneAt 32 acc n) n)) (n := n) h
  rw [getD_map_range _ _ h, ← upto_zero] at hlanes
  exact hlanes

/-- The slice after a multiply. -/
def multiplied (x : Slice) (a : GangArrival) (rows : List (List Byte)) (bad : Bool) : Slice :=
  { x with
    acc := ((upto 0 16).zip rows).foldl (fun acc e =>
      tset 0 acc (16 * a.m + e.1) (mulRow a.form a.k x.wa a.mdata a.scale e.2 (tget 0 acc (16 * a.m + e.1)))) x.acc
    mpois := x.mpois ||| (if bad || x.wa.pois then 1#4 <<< a.m else 0) }

theorem mulInto_eq (u : State) (k : CoreId) (a : GangArrival) (rows : List (List Byte)) (bad : Bool) :
    u.mulInto k a rows bad = u.setSlice k (multiplied (u.core k).slice a rows bad) := rfl

section
variable (x : Slice) (a : GangArrival) {rows : List (List Byte)} (bad : Bool) (hrows : rows.length = 16)
include hrows

theorem multiplied_acc : (multiplied x a rows bad).acc = ((upto 0 rows.length).zip rows).foldl (fun t e =>
    tset 0 t (16 * a.m + e.1) (mulRow a.form a.k x.wa a.mdata a.scale e.2 (tget 0 t (16 * a.m + e.1)))) x.acc := by
  rw [hrows]
  rfl

theorem row_multiplied {i : Nat} (hi : i < 16) :
    (multiplied x a rows bad).row a.m i = mulRow a.form a.k x.wa a.mdata a.scale (rows.getD i []) (x.row a.m i) := by
  have hlt : i < rows.length := by omega
  have hrow := tget_rows_inside (mulRow a.form a.k x.wa a.mdata a.scale) (key := fun n => 16 * a.m + n)
    (fun _ _ h => Nat.add_left_cancel h) rows 0 x.acc hlt
  rw [Nat.zero_add] at hrow
  rw [Slice.row, multiplied_acc x a bad hrows, List.getD_eq_getElem?_getD, List.getElem?_eq_getElem hlt, Option.getD_some]
  exact hrow

theorem row_multiplied_other {j : Nat} (hj : j ≠ a.m) {i : Nat} (hi : i < 16) :
    (multiplied x a rows bad).row j i = x.row j i := by
  rw [Slice.row, multiplied_acc x a bad hrows]
  exact tget_rows_outside (mulRow a.form a.k x.wa a.mdata a.scale) (key := fun n => 16 * a.m + n) rows 0 x.acc fun n hn => by
    omega

end

/-! ### MMA and MMAS -/

/-- The operands that a multiply samples. -/
def arrival (s : State) (f : GangForm) (m : Acc) (v g : Reg) (pl : BitVec 3) : GangArrival :=
  ⟨s.cur.ctx.val, f, pl.toNat + 1, m.toNat, tileBase (s.g g), s.tileStride (formRow f), s.metaOf f v,
    bits (s.my.cwv cwSCLA) 31 0⟩

theorem mulChecked_runs {s : State} {f : GangForm} {v : Reg} (hkind : planeCluster s.cur.core.cluster = formPlane f)
    (hfmt : s.slice.wa.fmt = formFmt f) (hmeta : badMeta 0 (s.metaOf f v) = none) (m : Acc) (g : Reg) (pl : BitVec 3)
    (go : GangArrival → State) : s.mulChecked f m v g pl go = go (arrival s f m v g pl) := by
  rw [State.mulChecked, State.kindOk, hkind, beq_self_eq_true]
  simp only [Bool.true_eq_false, if_false, hfmt, ne_eq, not_true_eq_false, hmeta]
  rfl

/-- The rows of the tile that a multiply names. -/
def tileRows (s : State) (a : GangArrival) : List (List Byte) :=
  (upto 0 16).map (s.tileRow s.cur.core a.base a.stride (formRow a.form))

theorem length_tileRows (s : State) (a : GangArrival) : (tileRows s a).length = 16 := by
  rw [tileRows, List.length_map, upto_zero, List.length_range]

theorem getD_tileRows (s : State) (a : GangArrival) {i : Nat} (h : i < 16) :
    (tileRows s a).getD i [] = s.tileRow s.cur.core a.base a.stride (formRow a.form) i := by
  rw [tileRows, upto_zero, getD_map_range _ _ h]

section
variable {s u : State} (hu : SliceIs s u (owned s))
include hu

theorem arrival_taken (f : GangForm) (m : Acc) (v g : Reg) (pl : BitVec 3) : arrival u f m v g pl = arrival s f m v g pl := by
  have hv : ∀ r, u.v r = s.v r := fun r => congrArg (Ctx.vreg · r) hu.my
  have hmeta : u.metaOf f v = s.metaOf f v := List.flatMap_congr fun r _ => by rw [hv]
  rw [arrival, hu.cur, hu.g, hmeta, State.tileStride, hu.my]
  rfl

theorem tileRow_taken (k : CoreId) (base stride len i : Nat) : u.tileRow k base stride len i = s.tileRow k base stride len i :=
  List.map_congr_left fun o _ => congrArg (fun m : Table Byte => tget 0 m (localLoc k o)) hu.sameMem.1

end

section
variable {s : State} {f : GangForm} {m : Acc} {v g : Reg} {pl : BitVec 3}

/-- The state that a multiply leaves, where its checks are passed and no row is poisoned. -/
theorem opMma_completes {i : Instr} {p : State → Prop} (hslot : s.InSlot) (hmay : s.MaySlice)
    (hclean : s.Clean [g] (metaRegs f v)) (hkind : planeCluster s.cur.core.cluster = formPlane f)
    (hfmt : s.slice.wa.fmt = formFmt f) (hmeta : badMeta 0 (s.metaOf f v) = none)
    (htile : ∀ i b, i < 16 → b < formRow f →
      s.poisAt (localLoc s.cur.core (((arrival s f m v g pl).base + i * (arrival s f m v g pl).stride + b) % 2 ^ 18)) 1 = false)
    (h : ∀ u n, SliceIs s u (owned s) →
      p ((u.setSlice u.cur.core (multiplied (owned s) (arrival s f m v g pl) (tileRows s (arrival s f m v g pl)) false)).sliceDone n)) :
    CompletesWith (opMma s i f m v g pl) p := by
  refine withSlice_completes hslot hclean hmay fun u hu => ?_
  have harrival := arrival_taken hu f m v g pl
  have hmeta' : badMeta 0 (u.metaOf f v) = none := by
    have hsame := congrArg GangArrival.mdata harrival
    exact (congrArg (badMeta 0) hsame).trans hmeta
  rw [mulChecked_runs (by rw [hu.cur]; exact hkind) (by rw [hu.slice]; exact hfmt) hmeta', harrival]
  have hbad := tileBad_clean (s := u) (k := u.cur.core) (base := (arrival s f m v g pl).base)
    (stride := (arrival s f m v g pl).stride) (len := formRow f) (l := upto 0 16) (u.regionOf u.cur) fun i hi => rowBad_clean fun b hb => by
      rw [hu.poisAt, hu.cur]
      exact htile i b (by simpa [VectorMemory.mem_upto] using hi) hb
  have hrows : (upto 0 16).map (u.tileRow u.cur.core (arrival s f m v g pl).base (arrival s f m v g pl).stride (formRow f))
      = tileRows s (arrival s f m v g pl) := by
    rw [hu.cur]
    exact List.map_congr_left fun i _ => tileRow_taken hu _ _ _ _ _
  have hslice : (u.core u.cur.core).slice = owned s := hu.slice
  dsimp only
  rw [hbad, hrows, mulInto_eq, hslice]
  exact h u _ hu

theorem metaRegs_subset (f : GangForm) (v : Reg) : metaRegs f v ⊆ [v, v + 1] := by
  cases f <;> simp [metaRegs]

theorem multiply_step (i : Instr) (hslot : s.InSlot) (hmay : s.MaySlice) (hclean : s.Clean [g] (metaRegs f v)) :
    let base := (s.g g).toNat % 2 ^ 18 / 32 * 32
    let a := (s.my.cwv 0x040).toNat % 8192 * 32
    let stride := if a = 0 then formRow f else a
    let row : Nat → List Byte := fun i => (List.range (formRow f)).map (fun b =>
      s.byte (localLoc s.cur.core ((base + i * stride + b) % 2 ^ 18)))
    let mdata := s.metaOf f v
    planeCluster s.cur.core.cluster = formPlane f → s.slice.wa.fmt = formFmt f → badMeta 0 mdata = none →
    (∀ i b, i < 16 → b < formRow f → s.poisAt (localLoc s.cur.core ((base + i * stride + b) % 2 ^ 18)) 1 = false) →
    CompletesWith (opMma s i f m v g pl) (SliceStep [] (fun x =>
      (∀ i n, i < 16 → n < 16 → laneAt 32 (x.row m.toNat i) n = mulElem f (pl.toNat + 1) s.slice.wa mdata
        ((s.my.cwv 0x042).toNat % 2 ^ 32) (row i) (laneAt 32 (s.slice.row m.toNat i) n) n % 2 ^ 32)
      ∧ (∀ j i, j ≠ m.toNat → i < 16 → x.row j i = s.slice.row j i) ∧ x.wa = s.slice.wa ∧ x.wb = s.slice.wb
      ∧ x.mpois = s.slice.mpois ||| (if s.slice.wa.pois then (1 : BitVec 4) <<< m.toNat else 0)) s) := by
  intro base a stride row mdata hkind hfmt hmeta htile
  have hbase : (arrival s f m v g pl).base = base := tileBase_eq _
  have hstride : (arrival s f m v g pl).stride = stride := tileStride_eq s _
  have hscale : (arrival s f m v g pl).scale = (s.my.cwv 0x042).toNat % 2 ^ 32 := SliceWeights.bits_low _ _
  refine opMma_completes hslot hmay hclean hkind hfmt
    hmeta (by rw [hbase, hstride]; exact htile) fun u n hu => ?_
  have hlen := length_tileRows s (arrival s f m v g pl)
  refine sliceStep_done (hu.setSlice _) (.refl _ _ _ _ _) rfl rfl fun y h => ⟨fun i n hi hn => ?_, fun j i hj hi => ?_, h.wa, h.wb, h.mpois⟩
  · have hrow : (tileRows s (arrival s f m v g pl)).getD i [] = row i := by
      rw [getD_tileRows s _ hi, tileRow_eq, hbase, hstride]
      rfl
    have hmul := row_multiplied (owned s) (arrival s f m v g pl) false hlen hi
    rw [hrow, hscale] at hmul
    rw [h.row]
    exact (congrArg (laneAt 32 · n) hmul).trans (laneAt_mulRow _ _ _ _ _ _ _ hn)
  · rw [h.row]
    exact row_multiplied_other (owned s) (arrival s f m v g pl) false hlen hj hi

end

theorem sliceMultiplyLocal : Claim.SliceMultiply := by
  intro s m v g pl hslot hmay hclean
  have hused : ∀ f, s.Clean [g] (metaRegs f v) := fun f =>
    VectorFloat.clean_of_subset hclean (List.Subset.refl _) (metaRegs_subset f v)
  exact ⟨multiply_step (v := 0) (pl := 0) _ hslot hmay (hused .bf16), multiply_step (v := 0) (pl := 0) _ hslot hmay (hused .f32),
    multiply_step (v := 0) _ hslot hmay (hused .p), multiply_step (pl := 0) _ hslot hmay (hused .sbf16),
    multiply_step _ hslot hmay (hused .sp)⟩

/-! ### The sum of a dense form (R111, R112, R150, R151) -/

theorem upto_add (a n : Nat) : upto a n = (List.range n).map (a + ·) := by
  rw [Frames.upto_eq_range', List.range'_eq_map_range]

/-- An element of a row, byte by byte. -/
theorem elemAt_eq (row : List Byte) {z i : Nat} (h : z * (i + 1) ≤ row.length) :
    elemAt row z i = leNat ((List.range z).map (fun j => row.getD (z * i + j) 0)) := by
  have hbytes : (row.drop (z * i)).take z = (List.range z).map (fun j => row.getD (z * i + j) 0) := by
    rw [mul_add, mul_one] at h
    refine List.ext_getElem (by simp; omega) fun j hj _ => ?_
    have hz : j < z := by simp at hj; omega
    rw [List.getElem_take, List.getElem_drop, List.getElem_map, List.getElem_range, List.getD_eq_getElem?_getD,
      List.getElem?_eq_getElem (by omega), Option.getD_some]
  rw [elemAt, hbytes]

theorem int8_byte (b : Byte) : int8 b.toNat = b.toInt := by
  have hlt : b.toNat < 2 ^ 8 := b.isLt
  have hsign : b.toNat.testBit 7 = decide (128 ≤ b.toNat) := by
    rw [Nat.testBit_eq_decide_div_mod_eq]
    exact decide_eq_decide.mpr (by omega)
  rw [int8, int8.slaneI, Nat.mod_eq_of_lt hlt, BitVec.toInt_eq_toNat_cond, show 8 - 1 = 7 from rfl, hsign]
  simp only [decide_eq_true_eq]
  split <;> split <;> omega

theorem dotInt_eq (n : Nat) (w x : Nat → Int) :
    dotInt ((List.range n).map w) ((List.range n).map x) = ((List.range n).map (fun i => w i * x i)).sum := by
  rw [dotInt, List.zipWith_map, List.zipWith_self, ← List.sum_eq_foldl]

/-- The elements of a row. -/
theorem elems_eq (row : List Byte) {z : Nat} (n : Nat) (h : row.length = z * n) :
    (upto 0 n).map (elemAt row z) = (List.range n).map (fun i => leNat ((List.range z).map (fun j => row.getD (z * i + j) 0))) := by
  rw [upto_zero]
  refine List.map_congr_left fun i hi => elemAt_eq row ?_
  rw [h]
  exact Nat.mul_le_mul_left z (List.mem_range.mp hi)

/-- The weights of a column. -/
theorem column_eq (col : Nat → Byte) (z n : Nat) :
    (upto 0 16).map (fun s => leNat ((upto (16 * z * n + z * s) z).map col))
      = (List.range 16).map (fun s => leNat ((List.range z).map (fun j => col (16 * z * n + z * s + j)))) := by
  rw [upto_zero]
  exact List.map_congr_left fun s _ => by rw [upto_add, List.map_map]; rfl

theorem multiplyMeaning : Claim.MultiplyMeaning := by
  intro k wa act row c n hn le col act8
  refine ⟨fun hrow => congrArg (· % 2 ^ 32) ?_, fun hrow => congrArg (· % 2 ^ 32) ?_, fun hrow => congrArg (· % 2 ^ 32) ?_⟩
  · exact congrArg₂ (macFloat 7 c) (elems_eq row (z := 2) 16 hrow) (column_eq col 2 n)
  · exact congrArg₂ (macFloat 23 c) (elems_eq row (z := 4) 16 hrow) (column_eq col 4 n)
  · have hx : (upto 0 32).map (fun q => int8 (elemAt row 1 q)) = (List.range 32).map (fun q => (act8 q).toInt) := by
      rw [upto_zero]
      refine List.map_congr_left fun q hq => ?_
      rw [elemAt_eq row (by have := List.mem_range.mp hq; omega), ← int8_byte]
      simp [leNat, act8]
    have hsum : dotInt ((upto 0 32).map (npi col (min k wa.planes) n)) ((upto 0 32).map (fun q => int8 (elemAt row 1 q)))
        = ((List.range 32).map (fun s => npi col (min k wa.planes) n s * (act8 s).toInt)).sum := by
      rw [hx, upto_zero, dotInt_eq]
    exact congrArg (macPlane c · (le (fun o => tget 0 wa.scales o) (2 * n) 2) act) hsum

/-- Settles O33: a multiply reads its rows, adds mulElem's sum to each element of one accumulator and stands last in the queue. -/
theorem sliceMultiply : Obligations.SliceMultiply := by
  unfold Obligations.SliceMultiply
  exact ⟨sliceMultiplyLocal, multiplyMeaning, sliceQueue⟩

end Sys2Proof.Proofs.SliceMultiply

/-! SUPPORT. Accumulators moved between the slice and local memory (R154). -/

namespace Sys2Proof.Proofs.SliceMoves

open Machine Slices LocalOperands Lanes ByteStrings

/-! ### Rows of memory given to an accumulator -/

/-- Element (i, n) of rows made of bytes. -/
theorem laneAt_rowsOf (s : State) (a : Nat) {i n : Nat} (hi : i < 16) (hn : n < 16) :
    laneAt 32 ((rowsOf 16 (s.bytes a 1024)).getD i 0) n = s.readLE (a + 4 * (16 * i + n)) 4 := by
  have hlt : i < (rowsOf 16 (s.bytes a 1024)).length := by rw [length_rowsOf]; exact hi
  rw [List.getD_eq_getElem?_getD, List.getElem?_eq_getElem hlt, Option.getD_some, getElem_rowsOf,
    show 32 = 8 * 4 from rfl, laneAt_vofBytes _ (by omega), drop_take_drop_take _ (by omega), bytes_part s a (by omega),
    show 64 * i + 4 * n = 4 * (16 * i + n) by ring]
  rfl

theorem mldacc_step {s : State} {m : Acc} {g : Reg} (hslot : s.InSlot) (hmay : s.MaySlice) (hstash : s.NoStash)
    (hclean : s.Clean [g] []) (halign : (s.g g).toNat % 64 = 0) (hin : inLocal (s.g g) 1024)
    (hpois : s.poisAt (s.myLoc (s.g g)) 1024 = false) :
    CompletesWith (exec (.mldacc m g) s) (SliceStep [] (fun x =>
      (∀ i n, i < 16 → n < 16 → laneAt 32 (x.row m.toNat i) n = s.readLE (s.myLoc (s.g g) + 4 * (16 * i + n)) 4)
      ∧ (∀ j i, j ≠ m.toNat → i < 16 → x.row j i = s.slice.row j i) ∧ x.mpois.getLsbD m.toNat = false
      ∧ x.wa = s.slice.wa ∧ x.wb = s.slice.wb) s) := by
  refine withSlice_completes hslot hclean hmay fun u hu => ?_
  have hpieces := unpoisoned_piecesAt (s := s) (va := s.g g) (n := 16) (z := 64) (by decide) hin hpois
  have hdata := localData_piecesAt (s := s) (va := s.g g) (n := 16) (z := 64) (by decide) hin
  dsimp only
  rw [hu.g, if_neg (not_not.mpr halign), matOperand_local _ _ (hu.noStash hstash) (allLocal_piecesAt (n := 16) (by decide) hin)]
  dsimp only
  rw [gather_local]
  dsimp only
  rw [matRead_local (SliceWeights.unpoisoned_taken hu hpieces)]
  dsimp only
  rw [joined_local, SliceWeights.localData_taken hu, hdata, hu.slice]
  have hlen : (rowsOf 16 (s.bytes (s.myLoc (s.g g)) 1024)).length = 16 := length_rowsOf _ _
  refine sliceStep_done (hu.setSlice _) (.refl _ _ _ _ _) rfl rfl fun y h => ?_
  have hacc : y.acc = ((owned s).setRows m.toNat (rowsOf 16 (s.bytes (s.myLoc (s.g g)) 1024))).acc := h.acc.trans (acc_setPois _ _ _)
  refine ⟨fun i n hi hn => ?_, fun j i hj hi => row_setRows_other (owned s) _ _ hacc hlen hi hj, ?_, h.wa, h.wb⟩
  · rw [row_setRows (owned s) _ _ hacc hlen hi, laneAt_rowsOf s _ hi hn]
  · rw [h.mpois, getLsbD_setPois_clear]

/-! ### Bytes written, and the slice left as it was (R154, R162) -/

theorem written_bytes {s t : State} {a n : Nat} {bs : List Byte} (hlen : bs.length = n) (h : t.mem = memPuts s.mem a bs) :
    t.bytes a n = bs ∧ ∀ b, b < a ∨ a + n ≤ b → t.byte b = s.byte b := by
  subst hlen
  constructor
  · exact (LoadsAndStores.bytes_congr (s := s.poke a bs false) h a _).trans (bytes_poke_same s a bs false)
  · intro b hb
    rw [State.byte, h, byte_memPuts_outside s.mem a bs hb]
    rfl

/-- The region of a slot is its task's. -/
theorem regionOf_slot {s t : State} (hslot : s.InSlot) (hcur : t.cur = s.cur) (htask : t.my.task = s.my.task) :
    t.regionOf t.cur = s.regionOf s.cur := by
  have hs : s.cur.isHandler = false := hslot
  have htask' : (t.ctx s.cur).task = (s.ctx s.cur).task := by
    rw [State.my, hcur] at htask
    exact htask
  rw [State.regionOf, hcur, hs, htask', State.regionOf, hs]
  rfl

/-- The slice taken, memory written, and the instruction in the queue. -/
theorem written_done {s u : State} (hu : SliceIs s u (owned s)) (hslot : s.InSlot) (mem : Table Byte) (p : List Nat) (n : Nat) :
    let t := ({ u with mem := mem, pois := p } : State).sliceDone n
    t.mem = mem ∧ t.slice = busy (owned s) s.time (s.regionOf s.cur) n ∧ Keeps [] [] [] leftWords s.my t.my ∧ Past s.my t.my
      ∧ ∀ c, c ≠ s.cur → t.ctx c = s.ctx c := by
  have hmy : ({ u with mem := mem, pois := p } : State).my = s.my := hu.my
  have hcur : ({ u with mem := mem, pois := p } : State).cur = s.cur := hu.cur
  refine ⟨rfl, ?_, ?_, ?_, fun c hc => ?_⟩
  · rw [slice_sliceDone, regionOf_slot hslot hcur (by rw [hmy])]
    exact congrArg₂ (busy · · _ _) hu.slice hu.time
  · rw [← hmy]
    exact keeps_sliceDone _ n
  · rw [← hmy]
    exact past_sliceDone _ n
  · rw [ctx_sliceDone n (by rwa [hcur])]
    exact hu.ctx c

theorem rows_taken (s : State) (m : Nat) : (owned s).rows m = s.slice.rows m := rfl

/-- A form that writes the rows of an accumulator. -/
theorem mstacc_step {s : State} {g : Reg} (m : Acc) (i : Instr) (cycles : Nat) {row : VWord → List Byte} {n : Nat}
    (hslot : s.InSlot) (hmay : s.MaySlice) (hstash : s.NoStash) (hclean : s.Clean [g] []) (halign : (s.g g).toNat % 64 = 0)
    (hin : inLocal (s.g g) (64 * n)) (hlen : ((s.slice.rows m.toNat).flatMap row).length = 64 * n) :
    CompletesWith (opMstacc s i m g n cycles row) (fun t =>
      t.bytes (s.myLoc (s.g g)) (64 * n) = (s.slice.rows m.toNat).flatMap row
      ∧ (∀ a, a < s.myLoc (s.g g) ∨ s.myLoc (s.g g) + 64 * n ≤ a → t.byte a = s.byte a)
      ∧ t.slice.acc = s.slice.acc ∧ t.slice.wa = s.slice.wa ∧ t.slice.wb = s.slice.wb ∧ t.slice.mpois = s.slice.mpois
      ∧ Keeps [] [] [] leftWords s.my t.my ∧ Past s.my t.my ∧ ∀ c, c ≠ s.cur → t.ctx c = s.ctx c) := by
  refine withSlice_completes hslot hclean hmay fun u hu => ?_
  obtain ⟨p, hwrite⟩ := matWrite_local (va := s.g g) (n := n) (z := 64) (u.slice.mpois.getLsbD m.toNat) (by decide) u
    ((s.slice.rows m.toNat).flatMap row) hin hlen
  rw [hu.sameMem.1, hu.myLoc] at hwrite
  have hrows : u.slice.rows m.toNat = s.slice.rows m.toNat := by rw [hu.slice, rows_taken]
  dsimp only
  rw [hu.g, if_neg (not_not.mpr halign), matOperand_local _ _ (hu.noStash hstash) (allLocal_piecesAt (by decide) hin)]
  dsimp only
  rw [channelOk_local]
  dsimp only
  rw [hrows, hwrite]
  dsimp only
  obtain ⟨hmem, hslice, hkeeps, hpast, hothers⟩ := written_done hu hslot
    (memPuts s.mem (s.myLoc (s.g g)) ((s.slice.rows m.toNat).flatMap row)) p cycles
  obtain ⟨hbytes, houtside⟩ := written_bytes hlen hmem
  have hsame := sameContents_busy (owned s) s.time (s.regionOf s.cur) cycles
  rw [← hslice] at hsame
  exact ⟨hbytes, houtside, hsame.acc, hsame.wa, hsame.wb, hsame.mpois, hkeeps, hpast, hothers⟩

/-! ### MSTACC and MSTACC.BF16 -/

/-- A part of row i, where every row is z bytes. -/
theorem rows_part (x : Slice) (m : Nat) {row : VWord → List Byte} {z : Nat} (hrow : ∀ v, (row v).length = z) {i b k : Nat}
    (hi : i < 16) (h : b + k ≤ z) :
    ((((x.rows m).flatMap row).drop (z * i + b)).take k) = ((row (x.row m i)).drop b).take k := by
  have hlt : i < (x.rows m).length := by rw [length_rows]; exact hi
  have hget : (x.rows m)[i] = x.row m i := by simp only [rows_eq, List.getElem_map, List.getElem_range]
  rw [← drop_take_drop_take _ h, drop_take_flatMap (fun v _ => hrow v) hlt, hget]

theorem length_rows_flatMap (x : Slice) (m : Nat) {row : VWord → List Byte} {z : Nat} (hrow : ∀ v, (row v).length = z) :
    ((x.rows m).flatMap row).length = z * 16 := by
  rw [length_flatMap_pieces fun v _ => hrow v, length_rows]

/-- The elements of a row rounded to BF16, two bytes each. -/
def bf16Row (v : VWord) : List Byte := (lanes 32 v).flatMap (fun c => leBytes 2 (cvtBf16 0 c).1)

theorem length_bf16Row (v : VWord) : (bf16Row v).length = 32 := by
  rw [bf16Row, length_flatMap_pieces fun _ _ => leBytes_length 2 _, lanes_eq, List.length_map, List.length_range]

theorem bf16Row_part (v : VWord) {n : Nat} (hn : n < 16) :
    leNat (((bf16Row v).drop (2 * n)).take 2) = (cvtBf16 0 (laneAt 32 v n)).1 % 2 ^ 16 := by
  have hlt : n < (lanes 32 v).length := by rw [lanes_eq, List.length_map, List.length_range]; exact hn
  have hget : (lanes 32 v)[n] = laneAt 32 v n := by simp only [lanes_eq, List.getElem_map, List.getElem_range]
  rw [bf16Row, drop_take_flatMap (fun _ _ => leBytes_length 2 _) hlt, hget, leNat_leBytes, pow_256]

/-- A number read back out of rows written. -/
theorem readLE_rows {t : State} {x : Slice} {m a n z : Nat} {row : VWord → List Byte}
    (hbytes : t.bytes a n = (x.rows m).flatMap row) (hrow : ∀ v, (row v).length = z) (hn : n = z * 16) {i b k : Nat} (hi : i < 16)
    (h : b + k ≤ z) : t.readLE (a + (z * i + b)) k = leNat (((row (x.row m i)).drop b).take k) := by
  have hroom : z * i + z ≤ z * 16 := by
    have hmul := Nat.mul_le_mul_left z (Nat.succ_le_of_lt hi)
    rwa [Nat.mul_succ] at hmul
  rw [← rows_part x m hrow hi h, ← hbytes, bytes_part t a (by omega)]
  rfl

theorem sliceAccumulatorMoves : Claim.SliceAccumulatorMoves := by
  intro s m g hslot hmay hstash hclean ea loc halign hin
  refine ⟨mldacc_step hslot hmay hstash hclean halign hin, ?_, ?_⟩
  · obtain ⟨t, hrun, hbytes, houtside, hkeep⟩ := mstacc_step m (.mstacc m g) 16 (row := vbytes) (n := 16) hslot hmay hstash hclean
      halign hin (length_rows_flatMap s.slice m.toNat VectorMemory.vbytes_length)
    refine ⟨t, hrun, fun i n hi hn => ?_, houtside, hkeep⟩
    rw [show 4 * (16 * i + n) = 64 * i + 4 * n by ring, readLE_rows hbytes VectorMemory.vbytes_length rfl hi (by omega),
      leNat_vbytes _ (by omega)]
  · have hin' : inLocal ea (64 * 8) := le_trans (Nat.add_le_add_left (by decide) _) hin
    obtain ⟨t, hrun, hbytes, houtside, hkeep⟩ := mstacc_step m (.mstaccBf16 m g) 8 (row := bf16Row) (n := 8) hslot hmay hstash
      hclean halign hin' (length_rows_flatMap s.slice m.toNat length_bf16Row)
    refine ⟨t, hrun, fun i n hi hn => ?_, houtside, hkeep⟩
    rw [show 2 * (16 * i + n) = 32 * i + 2 * n by ring, readLE_rows hbytes length_bf16Row rfl hi (by omega),
      bf16Row_part _ hn]

end Sys2Proof.Proofs.SliceMoves

/-! SUPPORT. The context image of a slice: where its parts lie, and that the slice it holds is the one it was made of (R162, R163). -/

namespace Sys2Proof.Proofs.SliceImages

open Machine Slices Lanes ByteStrings

/-! ### Where the parts of an image lie (R162) -/

/-- The first line of an image. -/
def header (x : Slice) (plane : Bool) (cw : List Word) : List Byte :=
  leBytes 8 (2 ^ 48 + x.mstate plane) ++ wordBytes cw ++ List.replicate 24 0

/-- The accumulators in an image. -/
def accBytes (x : Slice) : List Byte := (upto 0 4).flatMap (fun m => (x.rows m).flatMap vbytes)

theorem image_eq (x : Slice) (plane : Bool) (cw : List Word) :
    x.image plane cw = header x plane cw ++ (x.wa.image ++ (x.wb.image ++ accBytes x)) := by
  rw [Slice.image, ← header, ← accBytes, List.append_assoc, List.append_assoc]

section
variable {x : Slice} {plane : Bool} {cw : List Word} (hcw : cw.length = 4)

theorem length_planeImage (p : Plane) : p.image.length = 1088 := by
  rw [Plane.image, List.length_append, List.length_map, List.length_map, upto_zero, upto_zero, List.length_range, List.length_range]

theorem length_accBytes (x : Slice) : (accBytes x).length = 4096 := by
  rw [accBytes, length_flatMap_pieces (m := 1024) fun m _ => SliceMoves.length_rows_flatMap x m VectorMemory.vbytes_length,
    upto_zero, List.length_range]

include hcw

theorem length_header : (header x plane cw).length = 64 := by
  have hwords : (wordBytes cw).length = 8 * cw.length := length_flatMap_pieces fun w _ => leBytes_length 8 _
  rw [header, List.length_append, List.length_append, leBytes_length, hwords, hcw, List.length_replicate]

theorem length_image : (x.image plane cw).length = 6336 := by
  rw [image_eq, List.length_append, List.length_append, List.length_append, length_header hcw, length_planeImage,
    length_planeImage, length_accBytes]

theorem image_drop_wa : (x.image plane cw).drop 64 = x.wa.image ++ (x.wb.image ++ accBytes x) := by
  rw [image_eq, List.drop_left' (length_header hcw)]

theorem image_drop_wb : (x.image plane cw).drop 1152 = x.wb.image ++ accBytes x := by
  rw [show 1152 = 64 + 1088 from rfl, ← List.drop_drop, image_drop_wa hcw, List.drop_left' (length_planeImage _)]

theorem image_drop_acc : (x.image plane cw).drop 2240 = accBytes x := by
  rw [show 2240 = 1152 + 1088 from rfl, ← List.drop_drop, image_drop_wb hcw, List.drop_left' (length_planeImage _)]

omit hcw in
theorem image_word : leNat ((x.image plane cw).take 8) = (2 ^ 48 + x.mstate plane) % 2 ^ 64 := by
  rw [Slice.image]
  simp only [List.append_assoc]
  rw [List.take_left' (leBytes_length 8 _), leNat_leBytes, pow_256]

end

/-! ### The header's fields -/

/-- Planes less one as a header holds them. -/
def planeField (p : Plane) : Nat := if p.fmt = 3 then p.planes - 1 else 0

/-- A bit of a word from the quotient that ends in it. -/
theorem bit_of_mod {w : Word} {n : Nat} {b : Bool} (h : w.toNat / 2 ^ n % 2 = b.toNat) : bit w n = b := by
  rw [bit, BitVec.getLsbD, Nat.testBit_eq_decide_div_mod_eq, h]
  cases b <;> rfl

section
variable {x : Slice} {plane : Bool} {cw : List Word} (hwa : x.wa.Ok) (hwb : x.wb.Ok)

theorem planeField_lt {p : Plane} (h : p.Ok) : planeField p < 8 := by
  have hplanes := h.planes
  rw [planeField]
  split at hplanes
  · next hfmt => rw [if_pos hfmt]; omega
  · next hfmt => rw [if_neg hfmt]; omega

theorem mstate_eq (x : Slice) (plane : Bool) :
    x.mstate plane = plane.toNat * 2 + x.wa.fmt * 2 ^ 4 + planeField x.wa * 2 ^ 8 + x.wb.fmt * 2 ^ 12
      + planeField x.wb * 2 ^ 16 + x.mpois.toNat * 2 ^ 24 + x.wa.pois.toNat * 2 ^ 28 + x.wb.pois.toNat * 2 ^ 29 := rfl

/-- The number in the header of an image. -/
def headWord (x : Slice) (plane : Bool) : Word := word (2 ^ 48 + x.mstate plane)

include hwa hwb

theorem toNat_headWord : (headWord x plane).toNat = 2 ^ 48 + (plane.toNat * 2 + x.wa.fmt * 2 ^ 4 + planeField x.wa * 2 ^ 8
    + x.wb.fmt * 2 ^ 12 + planeField x.wb * 2 ^ 16 + x.mpois.toNat * 2 ^ 24 + x.wa.pois.toNat * 2 ^ 28
    + x.wb.pois.toNat * 2 ^ 29) := by
  have hfa := hwa.fmt
  have hfb := hwb.fmt
  have hpa := planeField_lt hwa
  have hpb := planeField_lt hwb
  have hmp : x.mpois.toNat < 16 := x.mpois.isLt
  have hplane := plane.toNat_le
  have hba := x.wa.pois.toNat_le
  have hbb := x.wb.pois.toNat_le
  rw [headWord, mstate_eq, word, BitVec.toNat_ofNat]
  omega

theorem headWord_fields :
    bits (headWord x plane) 5 4 = x.wa.fmt ∧ bits (headWord x plane) 10 8 = planeField x.wa
      ∧ bits (headWord x plane) 13 12 = x.wb.fmt ∧ bits (headWord x plane) 18 16 = planeField x.wb := by
  have hfa := hwa.fmt
  have hfb := hwb.fmt
  have hpa := planeField_lt hwa
  have hpb := planeField_lt hwb
  have hplane := plane.toNat_le
  simp only [bits, bitsN, toNat_headWord hwa hwb]
  refine ⟨?_, ?_, ?_, ?_⟩ <;> omega

theorem headWord_bits :
    bit (headWord x plane) 28 = x.wa.pois ∧ bit (headWord x plane) 29 = x.wb.pois
      ∧ ∀ m, m < 4 → bit (headWord x plane) (24 + m) = x.mpois.getLsbD m := by
  have hfa := hwa.fmt
  have hfb := hwb.fmt
  have hpa := planeField_lt hwa
  have hpb := planeField_lt hwb
  have hmp : x.mpois.toNat < 16 := x.mpois.isLt
  have hplane := plane.toNat_le
  have hba := x.wa.pois.toNat_le
  have hbb := x.wb.pois.toNat_le
  refine ⟨bit_of_mod ?_, bit_of_mod ?_, fun m hm => bit_of_mod ?_⟩
  · rw [toNat_headWord hwa hwb]
    omega
  · rw [toNat_headWord hwa hwb]
    omega
  · rw [toNat_headWord hwa hwb, BitVec.getLsbD, Nat.toNat_testBit]
    obtain rfl | rfl | rfl | rfl : m = 0 ∨ m = 1 ∨ m = 2 ∨ m = 3 := by omega
    all_goals omega

end

/-! ### The planes of an image -/

theorem used_congr {p q : Plane} (hfmt : p.fmt = q.fmt) (hplanes : p.planes = q.planes) : p.used = q.used := by
  rw [Plane.used, hfmt, hplanes, Plane.used]

theorem used_le {p : Plane} (h : p.Ok) : p.used ≤ 1024 := by
  have hplanes := h.planes
  rw [Plane.used]
  split
  · decide
  · decide
  · next hfmt => rw [if_pos hfmt] at hplanes; omega
  · decide

theorem planes_planeField {p : Plane} (h : p.Ok) : (if p.fmt = 3 then planeField p + 1 else 0) = p.planes := by
  have hplanes := h.planes
  rw [planeField]
  split
  · next hfmt => rw [if_pos hfmt] at hplanes; omega
  · next hfmt => rw [if_neg hfmt] at hplanes; exact hplanes.symm

/-- What a plane and one made of its image share. -/
def SamePlane (a b : Plane) : Prop :=
  b.fmt = a.fmt ∧ b.planes = a.planes ∧ b.pois = a.pois ∧ (∀ i, i < a.used → tget 0 b.cols i = tget 0 a.cols i)
    ∧ (a.fmt = 3 → ∀ i, i < 32 → tget 0 b.scales i = tget 0 a.scales i)

/-- A byte of the columns of an image. -/
theorem image_col (p : Plane) (rest : List Byte) {i : Nat} (hi : i < p.used) (hlt : i < 1024) :
    (p.image ++ rest).getD i 0 = tget 0 p.cols i := by
  rw [Plane.image, List.append_assoc, List.getD_eq_getElem?_getD, List.getElem?_append_left (by simpa [upto_zero] using hlt),
    ← List.getD_eq_getElem?_getD, upto_zero, getD_map_range _ _ hlt, if_pos hi]

/-- A byte of the scales of an image. -/
theorem image_scale (p : Plane) (rest : List Byte) (hfmt : p.fmt = 3) {i : Nat} (hi : i < 32) :
    ((p.image ++ rest).drop 1024).getD i 0 = tget 0 p.scales i := by
  rw [Plane.image, List.append_assoc, List.drop_left' (by rw [List.length_map, upto_zero, List.length_range]),
    List.getD_eq_getElem?_getD, List.getElem?_append_left (by simp [upto_zero]; omega), ← List.getD_eq_getElem?_getD, upto_zero,
    getD_map_range _ _ (by omega), if_pos ⟨hfmt, hi⟩]

theorem samePlane_planeOf {p : Plane} (h : p.Ok) (rest : List Byte) :
    SamePlane p (planeOf p.fmt (planeField p) (p.image ++ rest) p.pois) := by
  have hplanes := planes_planeField h
  have hused : Plane.used ⟨p.fmt, if p.fmt = 3 then planeField p + 1 else 0, [], [], p.pois⟩ = p.used := used_congr rfl hplanes
  have hle := used_le h
  refine ⟨rfl, hplanes, rfl, fun i hi => ?_, fun hfmt i hi => ?_⟩
  · have hlen : i < (((p.image ++ rest).take 1024).take p.used).length := by
      rw [List.length_take, List.length_take, List.length_append, length_planeImage]
      omega
    rw [planeOf, hused]
    dsimp only
    rw [tget_tableOf _ hlen, List.getD_eq_getElem?_getD, List.getElem?_take_of_lt hi, List.getElem?_take_of_lt (by omega),
      ← List.getD_eq_getElem?_getD, image_col p rest hi (by omega)]
  · have hlen : i < (((p.image ++ rest).drop 1024).take 32).length := by
      rw [List.length_take, List.length_drop, List.length_append, length_planeImage]
      omega
    rw [planeOf]
    dsimp only
    rw [if_pos hfmt, tget_tableOf _ hlen, List.getD_eq_getElem?_getD, List.getElem?_take_of_lt hi,
      ← List.getD_eq_getElem?_getD, image_scale p rest hfmt hi]

/-! ### The slice of an image (R163) -/

/-- The header word of an image. -/
def imageHead (bs : List Byte) : Word := word (leNat (bs.take 8))

/-- The accumulators of an image. -/
def imageAcc (bs : List Byte) : Table VWord := ((upto 0 64).zip (rowsOf 64 bs)).foldl (fun a e => tset 0 a e.1 e.2) []

/-- The poison bits of the accumulators in a header. -/
def imagePois (h : Word) : Nat := (upto 0 4).foldl (fun n m => n + (bit h (24 + m)).toNat * 2 ^ m) 0

/-- The slice of an image of which no line arrived with an error. -/
theorem sliceOf_clean (o : Option Nat) (bs : List Byte) (n : Nat) :
    sliceOf o bs (List.replicate n false) =
      { owner := o
        acc := imageAcc (bs.drop 2240)
        mpois := BitVec.ofNat 4 (imagePois (imageHead bs))
        wa := planeOf (bits (imageHead bs) 5 4) (bits (imageHead bs) 10 8) (bs.drop 64) (bit (imageHead bs) 28)
        wb := planeOf (bits (imageHead bs) 13 12) (bits (imageHead bs) 18 16) (bs.drop 1152) (bit (imageHead bs) 29) } := by
  have hhead : (List.replicate n false).headD false = false := by cases n <;> rfl
  have hany : ∀ lo k, (((List.replicate n false).drop lo).take k).any id = false := fun lo k => by
    rw [List.any_eq_false]
    intro b hb
    simp only [List.drop_replicate, List.take_replicate] at hb
    rw [List.eq_of_mem_replicate hb]
    exact Bool.false_ne_true
  simp only [sliceOf, hhead, hany, Bool.or_false, Bool.and_false]
  rfl

theorem row_imageAcc {x y : Slice} (h : y.acc = imageAcc (accBytes x)) {m i : Nat} (hm : m < 4) (hi : i < 16) :
    y.row m i = x.row m i := by
  have hlen : (rowsOf 64 (accBytes x)).length = 64 := length_rowsOf _ _
  have hlt : 16 * m + i < (rowsOf 64 (accBytes x)).length := by omega
  have hrow := tget_rows_inside (fun v _ => v) (key := fun n => n) (fun _ _ h => h) (rowsOf 64 (accBytes x)) 0 [] hlt
  have hacc : y.acc = ((upto 0 (rowsOf 64 (accBytes x)).length).zip (rowsOf 64 (accBytes x))).foldl (fun a e => tset 0 a e.1 e.2) [] := by
    rw [hlen]
    exact h
  have hpiece : ((accBytes x).drop (64 * (16 * m + i))).take 64 = vbytes (x.row m i) := by
    have hrow : (((x.rows m).flatMap vbytes).drop (64 * i)).take 64 = vbytes (x.row m i) := by
      have hpart := SliceMoves.rows_part x m VectorMemory.vbytes_length (i := i) (b := 0) (k := 64) hi (by decide)
      rwa [List.drop_zero, List.take_of_length_le (VectorMemory.vbytes_length _).le] at hpart
    have hlt : m < (upto 0 4).length := by rw [upto_zero, List.length_range]; exact hm
    have hget : (upto 0 4)[m] = m := by simp only [upto_zero, List.getElem_range]
    have hpart := drop_take_flatMap (fun m _ => SliceMoves.length_rows_flatMap x m VectorMemory.vbytes_length) hlt
    rw [hget] at hpart
    rw [show 64 * (16 * m + i) = 64 * 16 * m + 64 * i by ring, ← drop_take_drop_take _ (show 64 * i + 64 ≤ 64 * 16 by omega), accBytes,
      hpart, hrow]
  rw [Nat.zero_add] at hrow
  rw [Slice.row, hacc]
  refine hrow.trans ?_
  rw [getElem_rowsOf, hpiece, vofBytes_vbytes]

theorem imagePois_eq (h : Word) :
    imagePois h = (bit h (24 + 0)).toNat * 2 ^ 0 + (bit h (24 + 1)).toNat * 2 ^ 1 + (bit h (24 + 2)).toNat * 2 ^ 2
      + (bit h (24 + 3)).toNat * 2 ^ 3 := by
  rw [imagePois, upto_zero, show List.range 4 = [0, 1, 2, 3] from rfl, List.foldl_cons, List.foldl_cons, List.foldl_cons,
    List.foldl_cons, List.foldl_nil, Nat.zero_add]

/-- Four bits are the number they spell. -/
theorem ofNat_bits (v : BitVec 4) : BitVec.ofNat 4 ((v.getLsbD 0).toNat * 2 ^ 0 + (v.getLsbD 1).toNat * 2 ^ 1
    + (v.getLsbD 2).toNat * 2 ^ 2 + (v.getLsbD 3).toNat * 2 ^ 3) = v := by
  revert v
  decide

theorem imagePois_headWord {x : Slice} (hwa : x.wa.Ok) (hwb : x.wb.Ok) (plane : Bool) :
    BitVec.ofNat 4 (imagePois (headWord x plane)) = x.mpois := by
  obtain ⟨-, -, hbits⟩ := headWord_bits (plane := plane) hwa hwb
  rw [imagePois_eq, hbits 0 (by decide), hbits 1 (by decide), hbits 2 (by decide), hbits 3 (by decide), ofNat_bits]

/-- The slice that an image of a slice holds. -/
theorem sliceOf_image (x : Slice) (plane : Bool) {cw : List Word} (o : Option Nat) (hwa : x.wa.Ok) (hwb : x.wb.Ok)
    (hcw : cw.length = 4) :
    let y := sliceOf o (x.image plane cw) (List.replicate 99 false)
    y.owner = o ∧ y.mpois = x.mpois ∧ SamePlane x.wa y.wa ∧ SamePlane x.wb y.wb
      ∧ ∀ m i, m < 4 → i < 16 → y.row m i = x.row m i := by
  have hhead : imageHead (x.image plane cw) = headWord x plane := by
    rw [imageHead, image_word, headWord, word, word]
    exact BitVec.eq_of_toNat_eq (by simp)
  obtain ⟨hfa, hpa, hfb, hpb⟩ := headWord_fields (plane := plane) hwa hwb
  obtain ⟨hba, hbb, -⟩ := headWord_bits (plane := plane) hwa hwb
  have hacc : (sliceOf o (x.image plane cw) (List.replicate 99 false)).acc = imageAcc (accBytes x) := by
    rw [sliceOf_clean, image_drop_acc hcw]
  refine ⟨rfl, ?_, ?_, ?_, fun m i hm hi => row_imageAcc hacc hm hi⟩
  · rw [sliceOf_clean, hhead, imagePois_headWord hwa hwb]
  · rw [sliceOf_clean, hhead, hfa, hpa, hba, image_drop_wa hcw]
    exact samePlane_planeOf hwa _
  · rw [sliceOf_clean, hhead, hfb, hpb, hbb, image_drop_wb hcw]
    exact samePlane_planeOf hwb _

end Sys2Proof.Proofs.SliceImages

/-! SUPPORT. MSAVE and MREST on local memory (R162, R163). -/

namespace Sys2Proof.Proofs.SliceSaves

open Machine Slices LocalOperands Lanes ByteStrings SliceImages

/-! ### MSAVE -/

theorem length_matWords (x : Ctx) : x.matWords.length = 4 := by rw [Ctx.matWords, List.length_map]; rfl

/-- A slice whose queue was empty, with one instruction in it. -/
theorem busy_drained {s : State} (hqueue : s.slice.queue = []) (n : Nat) :
    busy (owned s) s.time (s.regionOf s.cur) n
      = { s.slice with owner := some s.cur.ctx.val, queue := [(s.time + n, s.regionOf s.cur)] } := by
  rw [busy, owned]
  simp only [hqueue, List.foldl_nil, List.nil_append]

theorem msave_step {s : State} {g : Reg} (hslot : s.InSlot) (hmay : s.MaySlice) (hstash : s.NoStash) (hclean : s.Clean [g] [])
    (halign : (s.g g).toNat % 64 = 0) (hin : inLocal (s.g g) 6336) (hqueue : s.slice.queue = []) :
    CompletesWith (exec (.msave g) s) (fun t =>
      t.bytes (s.myLoc (s.g g)) 6336 = Slice.image { s.slice with owner := some s.cur.ctx.val }
        (planeCluster s.cur.core.cluster) s.my.matWords
      ∧ (∀ a, a < s.myLoc (s.g g) ∨ s.myLoc (s.g g) + 6336 ≤ a → t.byte a = s.byte a)
      ∧ t.slice = { s.slice with owner := some s.cur.ctx.val, queue := [(s.time + 99, s.regionOf s.cur)] }
      ∧ Keeps [] [] [] leftWords s.my t.my ∧ Past s.my t.my) := by
  refine withDrained_completes hslot hclean hmay hqueue fun u hu => ?_
  have hlen : ((owned s).image (planeCluster s.cur.core.cluster) s.my.matWords).length = 6336 := length_image (length_matWords _)
  obtain ⟨p, hwrite⟩ := matWrite_local (va := s.g g) (n := 99) (z := 64) false (by decide) u _ hin hlen
  rw [hu.sameMem.1, hu.myLoc] at hwrite
  dsimp only
  rw [hu.g, if_neg (not_not.mpr halign), matOperand_local _ _ (hu.noStash hstash) (allLocal_piecesAt (n := 99) (by decide) hin)]
  dsimp only
  rw [channelOk_local]
  dsimp only
  rw [hu.slice, hu.cur, hu.my, hwrite]
  obtain ⟨hmem, hslice, hkeeps, hpast, -⟩ := SliceMoves.written_done hu hslot
    (memPuts s.mem (s.myLoc (s.g g)) ((owned s).image (planeCluster s.cur.core.cluster) s.my.matWords)) p 99
  obtain ⟨hbytes, houtside⟩ := SliceMoves.written_bytes hlen hmem
  exact ⟨hbytes, houtside, hslice.trans (busy_drained hqueue 99), hkeeps, hpast⟩

/-! ### The lines of an image that are read (R163) -/

/-- The pieces of an operand that hold lines the header marks used. -/
def keptLines (h : Word) (ps : List (Word × Nat)) : List (Word × Nat) :=
  (((upto 0 ps.length).zip ps).filter (fun e => imageLine h e.1)).map (fun e => e.2)

theorem imagePieces_local (h : Word) (ps : List (Word × Nat)) : imagePieces h (localPieces ps) = localPieces (keptLines h ps) := by
  rw [imagePieces, localPieces, List.length_map, List.zip_map_right, List.filter_map, List.map_map, keptLines, localPieces,
    List.map_map]
  rfl

theorem unpoisoned_kept {s : State} {ps : List (Word × Nat)} (h : Unpoisoned s ps) (w : Word) : Unpoisoned s (keptLines w ps) := by
  intro p hp
  obtain ⟨e, he, rfl⟩ := List.mem_map.mp hp
  exact h _ (List.of_mem_zip (List.mem_filter.mp he).1).2

/-- Filling in the lines that were not read. -/
theorem imageFill_kept {α : Type} (h : Word) (f : α → List Byte × Bool) (js : List Nat) (l : List α) (hlen : js.length = l.length) :
    imageFill h js (((js.zip l).filter (fun e => imageLine h e.1)).map (fun e => f e.2))
      = (js.zip l).map (fun e => if imageLine h e.1 then f e.2 else (List.replicate 64 0, false)) := by
  induction js generalizing l with
  | nil => rfl
  | cons j js ih =>
    cases l with
    | nil => cases hlen
    | cons x l =>
      have hrest := ih l (Nat.succ.inj hlen)
      rw [List.zip_cons_cons, imageFill, List.map_cons, List.filter_cons]
      by_cases hj : imageLine h j = true
      · rw [if_pos hj, if_pos hj, if_pos hj, List.map_cons, List.headD_cons, List.tail_cons, hrest]
      · rw [if_neg hj, if_neg hj, if_neg hj, hrest]

/-- A line of an image as a restore takes it. -/
def filledLine (h : Word) (bs : List Byte) (j : Nat) : List Byte :=
  if imageLine h j then (bs.drop (64 * j)).take 64 else List.replicate 64 0

/-- An image as a restore takes it. -/
def filled (h : Word) (bs : List Byte) : List Byte := (List.range 99).flatMap (filledLine h bs)

theorem imageFill_local {s : State} {ea : Word} (h : Word) (hin : inLocal ea 6336) :
    imageFill h (upto 0 99) ((keptLines h (piecesAt ea 64 99)).map (fun p => (s.bytes (s.myLoc p.1) p.2, false)))
      = (List.range 99).map (fun j => (filledLine h (s.bytes (s.myLoc ea) 6336) j, false)) := by
  have hlen : (upto 0 99).length = (piecesAt ea 64 99).length := by rw [piecesAt, List.length_map]
  have hcount : (piecesAt ea 64 99).length = 99 := by rw [← hlen, upto_zero, List.length_range]
  rw [keptLines, hcount, List.map_map]
  refine (imageFill_kept h (fun p : Word × Nat => (s.bytes (s.myLoc p.1) p.2, false)) _ _ hlen).trans ?_
  rw [piecesAt, upto_zero, List.zip_map_right, List.zip_eq_zipWith, List.zipWith_self, List.map_map, List.map_map]
  refine List.map_congr_left fun j hj => ?_
  have hlt := List.mem_range.mp hj
  simp only [Function.comp_apply, Prod.map, filledLine, id]
  rw [bytes_part s _ (by omega), myLoc_add hin (f := 64 * j) (by omega)]
  split <;> rfl

theorem joined_filled (h : Word) (bs : List Byte) :
    joined ((List.range 99).map (fun j => (filledLine h bs j, false))) = (filled h bs, false) := by
  rw [joined, List.flatMap_map, List.any_map]
  exact Prod.ext rfl (by simp)

/-! ### The lines not read make no difference -/

section
variable {h : Word} {bs : List Byte} (hlen : bs.length = 6336)
include hlen

theorem length_filledLine {j : Nat} (hj : j ∈ List.range 99) : (filledLine h bs j).length = 64 := by
  have hlt := List.mem_range.mp hj
  rw [filledLine]
  split
  · rw [List.length_take, List.length_drop]
    omega
  · exact List.length_replicate

/-- Lines that were read are there as they were. -/
theorem filled_part {a k : Nat} (hk : a + k ≤ 99) (hread : ∀ j, a ≤ j → j < a + k → imageLine h j = true) :
    ((filled h bs).drop (64 * a)).take (64 * k) = (bs.drop (64 * a)).take (64 * k) := by
  induction k with
  | zero => rfl
  | succ k ih =>
    have hlt : a + k < (List.range 99).length := by rw [List.length_range]; omega
    have hline : ((filled h bs).drop (64 * (a + k))).take 64 = (bs.drop (64 * (a + k))).take 64 := by
      rw [filled, drop_take_flatMap (fun j hj => length_filledLine hlen hj) hlt, List.getElem_range, filledLine,
        if_pos (hread (a + k) (by omega) (by omega))]
    rw [mul_add 64 k 1, mul_one, List.take_add, List.take_add, ih (by omega) fun j hlow hhigh => hread j hlow (by omega),
      List.drop_drop, List.drop_drop, ← mul_add, hline]

theorem length_filled : (filled h bs).length = 6336 := by
  rw [filled, length_flatMap_pieces fun j hj => length_filledLine hlen hj, List.length_range]

theorem imageHead_filled : imageHead (filled h bs) = imageHead bs := by
  have hfirst := filled_part (h := h) hlen (a := 0) (k := 1) (by decide) fun j _ hj => by
    obtain rfl : j = 0 := by omega
    rfl
  have htake : (filled h bs).take 8 = bs.take 8 := by
    have := congrArg (List.take 8) hfirst
    simpa [List.take_take] using this
  rw [imageHead, htake, imageHead]

theorem acc_filled : (filled h bs).drop 2240 = bs.drop 2240 := by
  have hrest := filled_part (h := h) hlen (a := 35) (k := 64) (by decide) fun j hj _ => by simp [imageLine, hj]
  rwa [List.take_of_length_le (by rw [List.length_drop, length_filled hlen]),
    List.take_of_length_le (by rw [List.length_drop, hlen])] at hrest

/-- The lines that a plane of an image takes are read. -/
theorem planeOf_filled {f pl lo n : Nat} {pois : Bool}
    (hread : ∀ j, lo ≤ j → j < lo + n → imageLine h j = true) (hn : 64 * n = Plane.used ⟨f, if f = 3 then pl + 1 else 0, [], [], pois⟩)
    (hfew : n ≤ 16) (hlo : lo + 17 ≤ 99) (hscale : f = 3 → imageLine h (lo + 16) = true) :
    planeOf f pl ((filled h bs).drop (64 * lo)) pois = planeOf f pl (bs.drop (64 * lo)) pois := by
  have hcols : (((filled h bs).drop (64 * lo)).take 1024).take (64 * n) = ((bs.drop (64 * lo)).take 1024).take (64 * n) := by
    rw [List.take_take, List.take_take, Nat.min_eq_left (by omega), filled_part hlen (by omega) hread]
  have hscales : f = 3 → (((filled h bs).drop (64 * lo)).drop 1024).take 32 = ((bs.drop (64 * lo)).drop 1024).take 32 := fun hf => by
    have hline := filled_part (h := h) hlen (a := lo + 16) (k := 1) (by omega) fun j hlow hhigh => by
      obtain rfl : j = lo + 16 := by omega
      exact hscale hf
    have htake := congrArg (List.take 32) hline
    rw [List.take_take, List.take_take, mul_add] at htake
    rw [List.drop_drop, List.drop_drop]
    exact htake
  rw [planeOf, planeOf]
  dsimp only
  rw [← hn, hcols]
  by_cases hf : f = 3
  · simp only [if_pos hf, hscales hf]
  · simp only [if_neg hf]

end

/-- The lines of columns that a format takes. -/
def columnLines (f pl : Nat) : Nat := Plane.used ⟨f, pl + 1, [], [], false⟩ / 64

theorem columnLines_used {f pl : Nat} (pois : Bool) :
    64 * columnLines f pl = Plane.used ⟨f, if f = 3 then pl + 1 else 0, [], [], pois⟩ := by
  rw [columnLines, Plane.used, Plane.used]
  dsimp only
  split
  · rfl
  · rfl
  · rw [if_pos rfl, Nat.mul_div_cancel_left _ (by decide)]
  · rfl

theorem columnLines_le (f : Nat) {pl : Nat} (h : pl < 8) : columnLines f pl ≤ 16 := by
  rw [columnLines, Plane.used]
  dsimp only
  split <;> omega

/-- Where the first plane's lines are read. -/
theorem imageLine_wa (h : Word) {j : Nat} (hlow : 1 ≤ j) (hhigh : j < 1 + columnLines (bits h 5 4) (bits h 10 8)) :
    imageLine h j = true := by
  rw [imageLine]
  simp only [Bool.or_eq_true, Bool.and_eq_true, decide_eq_true_eq]
  exact .inl (.inl (.inr (.inl ⟨hlow, hhigh⟩)))

theorem imageLine_wb (h : Word) {j : Nat} (hlow : 18 ≤ j) (hhigh : j < 18 + columnLines (bits h 13 12) (bits h 18 16)) :
    imageLine h j = true := by
  rw [imageLine]
  simp only [Bool.or_eq_true, Bool.and_eq_true, decide_eq_true_eq]
  exact .inl (.inr (.inl ⟨hlow, hhigh⟩))

theorem imageLine_scales (h : Word) :
    (bits h 5 4 = 3 → imageLine h (1 + 16) = true) ∧ (bits h 13 12 = 3 → imageLine h (18 + 16) = true) :=
  ⟨fun hf => by simp [imageLine, hf], fun hf => by simp [imageLine, hf]⟩

theorem bits_planes_lt (h : Word) : bits h 10 8 < 8 ∧ bits h 18 16 < 8 := by
  simp only [bits, bitsN]
  omega

/-- A restore takes the slice that the whole image holds. -/
theorem sliceOf_filled {bs : List Byte} (hlen : bs.length = 6336) (o : Option Nat) :
    sliceOf o (filled (imageHead bs) bs) (List.replicate 99 false) = sliceOf o bs (List.replicate 99 false) := by
  obtain ⟨hpa, hpb⟩ := bits_planes_lt (imageHead bs)
  obtain ⟨hsa, hsb⟩ := imageLine_scales (imageHead bs)
  have hwa := planeOf_filled (h := imageHead bs) hlen (pois := bit (imageHead bs) 28) (lo := 1)
    (fun j => imageLine_wa (imageHead bs)) (columnLines_used _) (columnLines_le _ hpa) (by decide) hsa
  have hwb := planeOf_filled (h := imageHead bs) hlen (pois := bit (imageHead bs) 29) (lo := 18)
    (fun j => imageLine_wb (imageHead bs)) (columnLines_used _) (columnLines_le _ hpb) (by decide) hsb
  rw [sliceOf_clean, sliceOf_clean, imageHead_filled hlen, acc_filled hlen, hwa, hwb]

/-! ### The control words of an image (R162) -/

/-- A word that a restore writes is one of the context's own. -/
theorem matWord_info {n : Nat} (hn : n < 4) : ∃ m, cwInfo (0x040 + n) = some m ∧ m.scope = .slot ∧ m.sw = true := by
  obtain rfl | rfl | rfl | rfl : n = 0 ∨ n = 1 ∨ n = 2 ∨ n = 3 := by omega
  all_goals exact ⟨_, rfl, rfl, rfl⟩

theorem writes_matWord {s : State} (hslot : s.InSlot) {n : Nat} (hn : n < 4) (v : Word) :
    Writes [] [] [] [0x040 + n] s (s.cwWrite s.cur (0x040 + n) v) := by
  obtain ⟨m, hrow, hscope, hsw⟩ := matWord_info hn
  have hhandler : s.cur.isHandler = false := hslot
  rw [ControlAccess.cwWrite_slot hrow (by rw [CwInfo.here, hscope, hsw, hhandler]; rfl) (.inl hscope) (by omega) (by omega)]
  exact writes_setMy s (keeps_setCw _ _ _) ⟨rfl, rfl, rfl⟩

/-- FMTA, FMTB, SCLA, SCLB. -/
def matIndices : List Nat := [0x040, 0x041, 0x042, 0x043]

theorem writes_matWords {l : List Nat} (hl : ∀ n ∈ l, n < 4) (f : Nat → Word) {s : State} (hslot : s.InSlot) :
    Writes [] [] [] matIndices s (l.foldl (fun s n => s.cwWrite s.cur (0x040 + n) (f n)) s) := by
  induction l generalizing s with
  | nil => exact .refl _ _ _ _ _
  | cons n l ih =>
    have hn := hl n List.mem_cons_self
    have hone := writes_matWord hslot hn (f n)
    have hin : [0x040 + n] ⊆ matIndices := by
      obtain rfl | rfl | rfl | rfl : n = 0 ∨ n = 1 ∨ n = 2 ∨ n = 3 := by omega
      all_goals decide
    have hslot' : (s.cwWrite s.cur (0x040 + n) (f n)).InSlot := by rw [State.InSlot, hone.only.cur]; exact hslot
    exact (hone.mono (List.Subset.refl _) (List.Subset.refl _) (List.Subset.refl _) hin).trans
      (ih (fun k hk => hl k (List.mem_cons_of_mem n hk)) hslot')

/-! ### MREST -/

/-- A slice taken from an image, the words written, and the instruction in the queue. -/
theorem restored_done {s u v : State} {x : Slice} (hslot : s.InSlot) (hqueue : s.slice.queue = []) (h : SliceIs s u x)
    (hwrites : Writes [] [] [] matIndices u v) (howner : x.owner = some s.cur.ctx.val) (hempty : x.queue = []) (n : Nat) :
    (v.sliceDone n).slice = { x with queue := [(s.time + n, s.regionOf s.cur)] } ∧ SameMem s (v.sliceDone n)
      ∧ Keeps [] [] [] (leftWords ++ matIndices) s.my (v.sliceDone n).my ∧ Past s.my (v.sliceDone n).my := by
  obtain ⟨hcur, htime, hslice⟩ := slice_writes h hwrites
  have hstep := sliceStep_done (n := n) (p := fun _ => True) h hwrites howner (hempty.trans hqueue.symm) fun _ _ => trivial
  refine ⟨?_, hstep.mem, hstep.keeps, hstep.past⟩
  have htask : v.my.task = s.my.task := hwrites.keeps.task.trans (congrArg Ctx.task h.my)
  rw [slice_sliceDone, hslice, htime, SliceMoves.regionOf_slot hslot hcur htask, busy]
  simp only [hempty, List.foldl_nil, List.nil_append]

theorem imageHead_bytes (s : State) (a : Nat) : imageHead (s.bytes a 6336) = s.dword a := by
  rw [imageHead, bytes_take s a (by decide), State.dword, State.readLE]

section
variable {s u : State} {ea : Word} (hin : inLocal ea 6336) (hpois : s.poisAt (s.myLoc ea) 6336 = false)
include hin hpois

theorem unpoisoned_image : Unpoisoned s (piecesAt ea 64 99) := unpoisoned_piecesAt (n := 99) (by decide) hin hpois

/-- The header that a restore reads. -/
theorem matRead_header :
    word (leNat ((joined (s.matRead ((localPieces (piecesAt ea 64 99)).take 1)).2).1.take 8)) = s.dword (s.myLoc ea) := by
  have hfirst : (localPieces (piecesAt ea 64 99)).take 1 = localPieces (piecesAt ea 64 1) := rfl
  have hline : inLocal ea (64 * 1) := le_trans (Nat.add_le_add_left (by decide) _) hin
  have hclean : s.poisAt (s.myLoc ea) (64 * 1) = false := poisAt_part hpois (le_refl _) (by omega)
  rw [hfirst, matRead_local (unpoisoned_piecesAt (by decide) hline hclean), joined_local, localData_piecesAt (by decide) hline,
    bytes_take s _ (by decide), State.dword, State.readLE]

end

theorem sliceOf_owner (o : Option Nat) (bs : List Byte) (bad : List Bool) : (sliceOf o bs bad).owner = o := rfl

theorem sliceOf_queue (o : Option Nat) (bs : List Byte) (bad : List Bool) : (sliceOf o bs bad).queue = [] := rfl

theorem gather_header {s : State} (ea : Word) : s.gather true ((localPieces (piecesAt ea 64 99)).take 1) = (s, true) :=
  gather_local (ps := piecesAt ea 64 1) true

theorem mrest_step {s : State} {g : Reg} (hslot : s.InSlot) (hmay : s.MaySlice) (hstash : s.NoStash) (hclean : s.Clean [g] [])
    (halign : (s.g g).toNat % 64 = 0) (hin : inLocal (s.g g) 6336) (hqueue : s.slice.queue = [])
    (hpois : s.poisAt (s.myLoc (s.g g)) 6336 = false)
    (hgood : imageFault (s.dword (s.myLoc (s.g g))) (planeCluster s.cur.core.cluster) = none) :
    CompletesWith (exec (.mrest g) s) (fun t =>
      t.slice = { sliceOf (some s.cur.ctx.val) (s.bytes (s.myLoc (s.g g)) 6336) (List.replicate 99 false) with
        queue := [(s.time + 99, s.regionOf s.cur)] }
      ∧ SameMem s t ∧ Keeps [] [] [] (leftWords ++ matIndices) s.my t.my ∧ Past s.my t.my) := by
  refine withDrained_completes hslot hclean hmay hqueue fun u hu => ?_
  have hhead : u.dword (u.myLoc (s.g g)) = s.dword (s.myLoc (s.g g)) := by
    rw [State.dword, State.readLE, hu.bytes, hu.myLoc, State.dword, State.readLE]
  have hpois' : u.poisAt (u.myLoc (s.g g)) 6336 = false := by rw [hu.poisAt, hu.myLoc, hpois]
  have hbytes : u.bytes (u.myLoc (s.g g)) 6336 = s.bytes (s.myLoc (s.g g)) 6336 := by rw [hu.bytes, hu.myLoc]
  dsimp only
  rw [hu.g, if_neg (not_not.mpr halign), matOperand_local _ _ (hu.noStash hstash) (allLocal_piecesAt (n := 99) (by decide) hin)]
  dsimp only
  rw [gather_header]
  dsimp only
  rw [matRead_header hin hpois', hhead, hu.cur, hgood]
  dsimp only
  rw [imagePieces_local, gather_local]
  dsimp only
  rw [matRead_local (unpoisoned_kept (unpoisoned_image hin hpois') _)]
  dsimp only
  rw [imageFill_local _ hin, joined_filled, List.map_map, hbytes, ← imageHead_bytes]
  have hmarks : (List.range 99).map ((fun e : List Byte × Bool => e.2) ∘ fun j =>
      (filledLine (imageHead (s.bytes (s.myLoc (s.g g)) 6336)) (s.bytes (s.myLoc (s.g g)) 6336) j, false)) = List.replicate 99 false :=
    (List.map_const' ..).trans (by rw [List.length_range])
  have hslice : sliceOf (some u.cur.ctx.val) (filled (imageHead (s.bytes (s.myLoc (s.g g)) 6336)) (s.bytes (s.myLoc (s.g g)) 6336))
      (List.replicate 99 false) = sliceOf (some s.cur.ctx.val) (s.bytes (s.myLoc (s.g g)) 6336) (List.replicate 99 false) := by
    rw [hu.cur, sliceOf_filled (bytes_length s _ _)]
  rw [hmarks]
  dsimp only
  rw [hslice]
  have htaken := hu.setSlice (sliceOf (some s.cur.ctx.val) (s.bytes (s.myLoc (s.g g)) 6336) (List.replicate 99 false))
  exact restored_done hslot hqueue htaken (writes_matWords (by decide) _ (by rw [State.InSlot, htaken.cur]; exact hslot))
    (sliceOf_owner _ _ _) (sliceOf_queue _ _ _) 99

/-- A header out of form, on a slice that the slot owns. -/
theorem mrest_refused {s : State} {g : Reg} {v : Nat} (hslot : s.InSlot) (hstash : s.NoStash) (hclean : s.Clean [g] [])
    (halign : (s.g g).toNat % 64 = 0) (hin : inLocal (s.g g) 6336) (howner : s.slice.owner = some s.cur.ctx.val)
    (hqueue : s.slice.queue = []) (hpois : s.poisAt (s.myLoc (s.g g)) 6336 = false)
    (hbad : imageFault (s.dword (s.myLoc (s.g g))) (planeCluster s.cur.core.cluster) = some v) :
    exec (.mrest g) s = .next (s.raise 0x07 (BitVec.ofNat 64 v)) := by
  refine congrArg Host.Outcome.next ((withDrained_owner _ hslot hclean howner hqueue).trans ?_)
  dsimp only
  rw [if_neg (not_not.mpr halign), matOperand_local _ _ hstash (allLocal_piecesAt (n := 99) (by decide) hin)]
  dsimp only
  rw [gather_header]
  dsimp only
  rw [matRead_header hin hpois, hbad]
  rfl

theorem sliceSaveRestore : Claim.SliceSaveRestore := by
  refine ⟨fun s g hslot hmay hstash hclean => ?_, fun x plane cw o hwa hwb hcw => sliceOf_image x plane o hwa hwb hcw⟩
  intro ea loc plane queued halign hin hqueue
  exact ⟨msave_step hslot hmay hstash hclean halign hin hqueue,
    fun hpois hgood => mrest_step hslot hmay hstash hclean halign hin hqueue hpois hgood,
    fun hpois howner v hbad => mrest_refused hslot hstash hclean halign hin howner hqueue hpois hbad⟩

/-- Settles O34: an operand in local memory is read and written piece after piece, and the lines of an image that a restore does not
read hold nothing of the slice. -/
theorem sliceMoves : Obligations.SliceMoves := by
  unfold Obligations.SliceMoves
  exact ⟨SliceMoves.sliceAccumulatorMoves, sliceSaveRestore⟩

end Sys2Proof.Proofs.SliceSaves

/-! SUPPORT. The barrier of a row of cores: who is present, what a release does to each member, what a refusal does, and the timeout
of a member (R145, R159, R160). -/

namespace Sys2Proof.Proofs.Gangs

open Machine Slices Lanes SliceMultiply

/-! ### The cores of a row -/

/-- Core j of the row of a core. -/
def rowCore (k : CoreId) (j : Nat) : CoreId := k.cluster.coreAt (k.core.val / 4 * 4 + j)

theorem rowCores_eq (k : CoreId) : rowCores k = (List.range 4).map (rowCore k) := by
  rw [rowCores, upto_add, List.map_map]
  rfl

theorem core_rowCore (k : CoreId) {j : Nat} (hj : j < 4) : (rowCore k j).core.val = k.core.val / 4 * 4 + j := by
  have hk : k.core.val < 16 := k.core.isLt
  exact Nat.mod_eq_of_lt (by omega)

theorem self_mem_rowCores (k : CoreId) : k ∈ rowCores k := by
  rw [rowCores_eq, List.mem_map]
  refine ⟨k.core.val % 4, List.mem_range.mpr (Nat.mod_lt _ (by decide)), ?_⟩
  have hcore : (rowCore k (k.core.val % 4)).core = k.core := by
    apply Fin.ext
    rw [core_rowCore k (Nat.mod_lt _ (by decide))]
    omega
  exact congrArg (CoreId.mk k.die k.cl) hcore

theorem nodup_rowCores (k : CoreId) : (rowCores k).Nodup := by
  rw [rowCores_eq]
  refine List.Nodup.map_on (fun i hi j hj h => ?_) List.nodup_range
  have hcore := congrArg (fun c : CoreId => c.core.val) h
  simp only [core_rowCore k (List.mem_range.mp hi), core_rowCore k (List.mem_range.mp hj)] at hcore
  omega

theorem length_rowCores (k : CoreId) : (rowCores k).length = 4 := by rw [rowCores_eq, List.length_map, List.length_range]

/-! ### Members present -/

theorem length_members_lt {s : State} {k : CoreId} (h : ∃ c ∈ rowCores k, (s.core c).gangAt = none) : (s.members k).length ≠ 4 := by
  obtain ⟨c, hc, hnone⟩ := h
  have hlt : (s.members k).length < (rowCores k).length := by
    rw [State.members]
    refine List.length_filterMap_lt_length_iff_exists.mpr ⟨c, hc, ?_⟩
    rw [hnone]
    rfl
  rw [length_rowCores] at hlt
  omega

theorem members_all {s : State} {k : CoreId} {a : CoreId → GangArrival} (h : ∀ c ∈ rowCores k, (s.core c).gangAt = some (a c)) :
    s.members k = (rowCores k).map (fun c => (c, a c)) := by
  rw [State.members, ← List.filterMap_eq_map]
  exact List.filterMap_congr fun c hc => by rw [h c hc]; rfl

/-! ### What differs in the cores alone -/

/-- Nothing differs but the cores. -/
def CoresOnly (s u : State) : Prop := u = { s with cores := u.cores }

section
variable {s u v : State}

theorem CoresOnly.same {β : Type} (h : CoresOnly s u) (f : State → β) (hf : ∀ cs, f { s with cores := cs } = f s) : f u = f s := by
  rw [h]
  exact hf _

theorem CoresOnly.trans (h : CoresOnly s u) (h' : CoresOnly u v) : CoresOnly s v := by
  rw [CoresOnly, h', h]

theorem CoresOnly.cur (h : CoresOnly s u) : u.cur = s.cur := h.same State.cur fun _ => rfl
theorem CoresOnly.ctx (h : CoresOnly s u) (c : CtxId) : u.ctx c = s.ctx c := h.same (State.ctx · c) fun _ => rfl
theorem CoresOnly.sameMem (h : CoresOnly s u) : SameMem s u := ⟨h.same State.mem fun _ => rfl, h.same State.pois fun _ => rfl⟩

end

theorem coresOnly_setCore (s : State) (k : CoreId) (x : Core) : CoresOnly s (s.setCore k x) := rfl

/-- A core without its member. -/
def emptied (x : Core) : Core := { x with gangAt := none }

theorem leaveBarrier_fold (ks : List CoreId) (s : State) :
    CoresOnly s (ks.foldl (fun s c => s.setCore c (emptied (s.core c))) s)
      ∧ ∀ c, (ks.foldl (fun s c => s.setCore c (emptied (s.core c))) s).core c = if c ∈ ks then emptied (s.core c) else s.core c := by
  induction ks generalizing s with
  | nil => exact ⟨rfl, fun c => (if_neg List.not_mem_nil).symm⟩
  | cons d ks ih =>
    obtain ⟨honly, hcore⟩ := ih (s.setCore d (emptied (s.core d)))
    refine ⟨(coresOnly_setCore s d _).trans honly, fun c => ?_⟩
    rw [List.foldl_cons, hcore]
    by_cases h : c = d
    · rw [h, core_setCore_same, if_pos List.mem_cons_self]
      exact ite_self _
    · rw [core_setCore_other _ _ h]
      simp only [List.mem_cons, h, false_or]

/-- The members leave the barrier; nothing else changes. -/
theorem leaveBarrier_cores (s : State) (k : CoreId) : CoresOnly s (s.leaveBarrier k)
    ∧ ∀ c, (s.leaveBarrier k).core c = if c ∈ rowCores k then emptied (s.core c) else s.core c :=
  leaveBarrier_fold (rowCores k) s

/-! ### A release (R159) -/

/-- The rows that the members of a row supply, in order. -/
theorem rows_of_members {β : Type} (F : Nat → Nat → β) :
    (List.range 4).flatMap (fun j => (upto (4 * j) 4).map (F j)) = (List.range 16).map (fun i => F (i / 4) i) := rfl

section
variable {s : State} {k : CoreId} {a : CoreId → GangArrival}

/-- Row i of the assembled tile. -/
def gangRow (s : State) (k : CoreId) (a : CoreId → GangArrival) (i : Nat) : List Byte :=
  s.tileRow (rowCore k (i / 4)) (a (rowCore k (i / 4))).base (a (rowCore k (i / 4))).stride (formRow (a (rowCore k (i / 4))).form) i

theorem gangRows_all : ((rowCores k).map (fun c => (c, a c))).flatMap (fun e => s.gangRows e.1 e.2)
    = (List.range 16).map (gangRow s k a) := by
  rw [rowCores_eq, List.map_map, List.flatMap_map]
  refine (List.flatMap_congr fun j hj => ?_).trans (rows_of_members (fun j i =>
    s.tileRow (rowCore k j) (a (rowCore k j)).base (a (rowCore k j)).stride (formRow (a (rowCore k j)).form) i))
  have hmod : (rowCore k j).core.val % 4 = j := by
    have := List.mem_range.mp hj
    rw [core_rowCore k this]
    omega
  simp only [Function.comp_apply, State.gangRows, hmod]

/-- No member's rows are poisoned. -/
theorem gangBad_all (h : ∀ c ∈ rowCores k, ∀ i, i / 4 = c.core.val % 4 →
      s.rowBad c (a c).base (a c).stride (formRow (a c).form) i = none) :
    ((rowCores k).map (fun c => (c, a c))).foldl (fun r e => ((r.1.gangBad e.1 e.2).1, r.2 || (r.1.gangBad e.1 e.2).2)) (s, false)
      = (s, false) := by
  generalize rowCores k = ks at h
  induction ks with
  | nil => rfl
  | cons c ks ih =>
    have hone : s.gangBad c (a c) = (s, false) := tileBad_clean _ fun i hi => by
      have hrange := (VectorMemory.mem_upto _ _ _).mp hi
      exact h c List.mem_cons_self i (by omega)
    rw [List.map_cons, List.foldl_cons]
    simp only [hone, Bool.or_false]
    exact ih fun d hd => h d (List.mem_cons_of_mem c hd)

end

/-- The context of a member once it is released. -/
def releasedCtx (x : Ctx) : Ctx := (x.setCw cwGSTAT 0).advance

/-- A member's core once it is released: its slice has multiplied, with the instruction in its queue. -/
def ReleasedCore (a : GangArrival) (rows : List (List Byte)) (x y : Core) : Prop :=
  y.gangAt = x.gangAt ∧ SameContents (multiplied x.slice a rows false) y.slice

theorem gangMember_core (s : State) (k : CoreId) (a : GangArrival) (rows : List (List Byte)) :
    ReleasedCore a rows (s.core k) ((s.gangMember k a rows false).core k)
      ∧ ∀ c, c ≠ k → (s.gangMember k a rows false).core c = s.core c := by
  have hmul : (s.mulInto k a rows false).core k = { s.core k with slice := multiplied (s.core k).slice a rows false } :=
    core_setCore_same _ _ _
  have hcore : (s.gangMember k a rows false).core k = { (s.mulInto k a rows false).core k with
      slice := busy ((s.mulInto k a rows false).core k).slice (s.mulInto k a rows false).time
        ((s.mulInto k a rows false).regionOf (ctxAt k a.slot))
        (formCycles a.form (min a.k ((s.mulInto k a rows false).core k).slice.wa.planes)) } := core_setCore_same _ _ _
  constructor
  · rw [hcore, hmul]
    exact ⟨rfl, sameContents_busy _ _ _ _⟩
  · intro c hc
    exact (core_setCore_other _ _ hc).trans (core_setCore_other _ _ hc)

theorem gangMember_ctx (s : State) (k : CoreId) (a : GangArrival) (rows : List (List Byte)) :
    (s.gangMember k a rows false).ctx (ctxAt k a.slot) = releasedCtx (s.ctx (ctxAt k a.slot))
      ∧ (∀ c, c ≠ ctxAt k a.slot → (s.gangMember k a rows false).ctx c = s.ctx c)
      ∧ SameMem s (s.gangMember k a rows false) ∧ (s.gangMember k a rows false).cur = s.cur := by
  refine ⟨ctx_setCtx_same _ _ _, fun c hc => ctx_setCtx_other _ _ hc, ⟨rfl, rfl⟩, rfl⟩

theorem ctxAt_core {k k' : CoreId} {x y : Nat} (h : k ≠ k') : ctxAt k x ≠ ctxAt k' y := fun e => h (congrArg CtxId.core e)

/-- What a release does to a list of members, each of a core of its own. -/
structure Released (ks : List CoreId) (a : CoreId → GangArrival) (rows : List (List Byte)) (s t : State) : Prop where
  core : ∀ c ∈ ks, ReleasedCore (a c) rows (s.core c) (t.core c)
  ctx : ∀ c ∈ ks, t.ctx (ctxAt c (a c).slot) = releasedCtx (s.ctx (ctxAt c (a c).slot))
  mem : SameMem s t
  cur : t.cur = s.cur

theorem gangMembers_released {ks : List CoreId} (hks : ks.Nodup) (a : CoreId → GangArrival) (rows : List (List Byte)) (s : State) :
    Released ks a rows s ((ks.map (fun c => (c, a c))).foldl (fun s e => s.gangMember e.1 e.2 rows false) s)
      ∧ (∀ c, c ∉ ks → ((ks.map (fun c => (c, a c))).foldl (fun s e => s.gangMember e.1 e.2 rows false) s).core c = s.core c)
      ∧ ∀ c, c.core ∉ ks → ((ks.map (fun c => (c, a c))).foldl (fun s e => s.gangMember e.1 e.2 rows false) s).ctx c = s.ctx c := by
  induction ks generalizing s with
  | nil => exact ⟨⟨fun _ h => absurd h List.not_mem_nil, fun _ h => absurd h List.not_mem_nil, ⟨rfl, rfl⟩, rfl⟩, fun _ _ => rfl,
      fun _ _ => rfl⟩
  | cons k ks ih =>
    obtain ⟨hk, hks⟩ := List.nodup_cons.mp hks
    obtain ⟨hrest, hcores, hctxs⟩ := ih hks (s.gangMember k (a k) rows false)
    obtain ⟨hcore, hother⟩ := gangMember_core s k (a k) rows
    obtain ⟨hctx, hbeside, hmem, hcur⟩ := gangMember_ctx s k (a k) rows
    rw [List.map_cons, List.foldl_cons]
    refine ⟨⟨fun c hc => ?_, fun c hc => ?_, ⟨hrest.mem.1.trans hmem.1, hrest.mem.2.trans hmem.2⟩, hrest.cur.trans hcur⟩,
      fun c hc => ?_, fun c hc => ?_⟩
    · rcases List.mem_cons.mp hc with rfl | hc
      · rw [hcores _ hk]
        exact hcore
      · rw [← hother c fun e => hk (e ▸ hc)]
        exact hrest.core c hc
    · rcases List.mem_cons.mp hc with rfl | hc
      · rw [hctxs _ hk, hctx]
      · rw [hrest.ctx c hc, hbeside _ (ctxAt_core fun e => hk (e ▸ hc))]
    · rw [hcores c fun h => hc (List.mem_cons_of_mem k h), hother c fun e => hc (e ▸ List.mem_cons_self)]
    · rw [hctxs c fun h => hc (List.mem_cons_of_mem k h),
        hbeside c fun e => hc (by rw [e]; exact List.mem_cons_self)]

/-! ### A refusal (R159) -/

/-- The context of a member once its fault is taken. -/
def refusedCtx (c : CtxId) (x : Ctx) : Ctx :=
  Traps.trapped { x with wait := .none } c.isHandler (Traps.causeOf c 0x07) 5 x.pc

/-- Fault 0x07 of a member. -/
def refuse (s : State) (c : CtxId) : State := s.as c (fun s => (s.setMy { s.my with wait := .none }).raise 0x07 5)

/-- A context that takes a fault 0x07 as a trap. -/
structure TakesFault (x : Ctx) : Prop where
  frame : x.frame = none
  free : x.tb = false
  unmasked : (x.cwv 0x005).getLsbD 7 = true
  vector : x.cwv 0x004 ≠ 0

/-- What a change of one context does. -/
structure ChangedAt (s t : State) (c : CtxId) (x : Ctx) : Prop where
  ctx : t.ctx c = x
  others : ∀ d, d ≠ c → t.ctx d = s.ctx d
  cores : t.cores = s.cores
  mem : SameMem s t

/-- Without a frame a fault that the context takes is a trap of it alone. -/
theorem raise_trapped {s : State} (h : TakesFault s.my) (val : Word) :
    ChangedAt s (s.raise 0x07 val) s.cur (Traps.trapped s.my s.cur.isHandler (Traps.causeOf s.cur 0x07) val s.my.pc) := by
  have hown : (s.setMy s.my).ctx s.cur = s.my := ctx_setMy_same _ _
  obtain ⟨hctxs, -, hmem, hcores, -⟩ := Traps.noted_rest (s.setMy s.my) 0x07
  have hrun : s.raise 0x07 val = (Traps.noted (s.setMy s.my) 0x07).setCtx s.cur
      (Traps.trapped s.my s.cur.isHandler (Traps.causeOf s.cur 0x07) val s.my.pc) := by
    rw [Traps.raise_without_frame h.frame]
    refine (Traps.takeTrap_handled val _ ?_ ?_).trans (by rw [hown])
    · rw [hown]
      rintro ⟨-, hbusy | hmask⟩
      · exact Bool.noConfusion (hbusy.symm.trans h.free)
      · exact Bool.noConfusion (hmask.symm.trans h.unmasked)
    · rw [hown]
      exact h.vector
  rw [hrun]
  refine ⟨ctx_setCtx_same _ _ _, fun d hd => ?_, hcores, hmem⟩
  rw [ctx_setCtx_other _ _ hd, Traps.ctx_noted, ctx_setMy_other _ _ hd]

theorem refuse_changed {s : State} {c : CtxId} (h : TakesFault (s.ctx c)) :
    ChangedAt s (refuse s c) c (refusedCtx c (s.ctx c)) ∧ (refuse s c).cur = s.cur := by
  refine ⟨?_, rfl⟩
  have hmy : (({ s with cur := c } : State).setMy { s.ctx c with wait := .none }).my = { s.ctx c with wait := .none } := my_setMy _ _
  have htakes : TakesFault (({ s with cur := c } : State).setMy { s.ctx c with wait := .none }).my := by
    rw [hmy]
    exact ⟨h.frame, h.free, h.unmasked, h.vector⟩
  obtain ⟨hctx, hothers, hcores, hmem⟩ := raise_trapped htakes 5
  refine ⟨?_, fun d hd => (hothers d hd).trans (ctx_setCtx_other _ _ hd), hcores, hmem⟩
  rw [hmy] at hctx
  exact hctx

/-- What a refusal does to a list of members, each of a core of its own. -/
theorem refuse_all {ks : List CoreId} (hks : ks.Nodup) (a : CoreId → GangArrival) {s : State}
    (h : ∀ c ∈ ks, TakesFault (s.ctx (ctxAt c (a c).slot))) :
    let t := (ks.map (fun c => (c, a c))).foldl (fun s e => refuse s (ctxAt e.1 e.2.slot)) s
    (∀ c ∈ ks, t.ctx (ctxAt c (a c).slot) = refusedCtx (ctxAt c (a c).slot) (s.ctx (ctxAt c (a c).slot)))
      ∧ (∀ c, c.core ∉ ks → t.ctx c = s.ctx c) ∧ t.cores = s.cores ∧ SameMem s t := by
  induction ks generalizing s with
  | nil => exact ⟨fun _ h => absurd h List.not_mem_nil, fun _ _ => rfl, rfl, rfl, rfl⟩
  | cons k ks ih =>
    obtain ⟨hk, hks⟩ := List.nodup_cons.mp hks
    obtain ⟨⟨hctx, hothers, hcores, hmem⟩, -⟩ := refuse_changed (h k List.mem_cons_self)
    have hbeside : ∀ c ∈ ks, (refuse s (ctxAt k (a k).slot)).ctx (ctxAt c (a c).slot) = s.ctx (ctxAt c (a c).slot) := fun c hc =>
      hothers _ (ctxAt_core fun e => hk (e ▸ hc))
    obtain ⟨hrest, hrestOthers, hrestCores, hrestMem⟩ := ih hks (s := refuse s (ctxAt k (a k).slot)) fun c hc => by
      rw [hbeside c hc]
      exact h c (List.mem_cons_of_mem k hc)
    refine ⟨fun c hc => ?_, fun c hc => ?_, hrestCores.trans hcores, hrestMem.1.trans hmem.1, hrestMem.2.trans hmem.2⟩
    · rcases List.mem_cons.mp hc with rfl | hc
      · exact (hrestOthers _ hk).trans hctx
      · exact (hrest c hc).trans (by rw [hbeside c hc])
    · exact (hrestOthers c fun h => hc (List.mem_cons_of_mem k h)).trans
        (hothers c fun e => hc (by rw [e]; exact List.mem_cons_self))

/-! ### The barrier with a new member -/

/-- A state in which the current context has arrived at its barrier, its slice taken. -/
structure Arrived (s v : State) (mine : GangArrival) : Prop where
  only : CoresOnly s v
  member : ∀ k, (v.core k).gangAt = if k = s.cur.core then some mine else (s.core k).gangAt
  slice : ∀ k, (v.core k).slice = if k = s.cur.core then owned s else (s.core k).slice

theorem arrived_setMyCore {s u : State} (hu : SliceIs s u (owned s)) (mine : GangArrival) :
    Arrived s (u.setMyCore { u.myCore with gangAt := some mine }) mine := by
  have hcore : ∀ k, k ≠ s.cur.core → (u.setMyCore { u.myCore with gangAt := some mine }).core k = s.core k := fun k hk => by
    rw [State.setMyCore, core_setCore_other _ _ (by rwa [hu.cur]), hu.cores, if_neg hk]
  have hown : (u.setMyCore { u.myCore with gangAt := some mine }).core s.cur.core = { u.myCore with gangAt := some mine } := by
    rw [State.setMyCore, hu.cur, core_setCore_same]
  refine ⟨CoresOnly.trans hu.rest (coresOnly_setCore u _ _), fun k => ?_, fun k => ?_⟩
  · by_cases hk : k = s.cur.core
    · rw [if_pos hk, hk, hown]
    · rw [if_neg hk, hcore k hk]
  · by_cases hk : k = s.cur.core
    · rw [if_pos hk, hk, hown]
      exact hu.slice
    · rw [if_neg hk, hcore k hk]

/-- What a member does while fewer than four are present. -/
def gangWaits (v : State) (timed : Bool) : State :=
  let w := v.fresh.setMy { v.fresh.my with wait := .gang v.fresh.nextId }
  if timed then w.after (bits (w.my.cwv cwGTIME) 31 0) (.gangTimeout w.cur w.nextId) else w

theorem gangWaits_waits (v : State) (timed : Bool) :
    (gangWaits v timed).my = { v.my with wait := .gang (gangWaits v timed).nextId } ∧ (gangWaits v timed).cores = v.cores
      ∧ (gangWaits v timed).cur = v.cur ∧ SameMem v (gangWaits v timed) := by
  have hmy : (v.fresh.setMy { v.fresh.my with wait := .gang v.fresh.nextId }).my
      = { v.my with wait := .gang (v.fresh.setMy { v.fresh.my with wait := .gang v.fresh.nextId }).nextId } := my_setMy _ _
  cases timed
  · exact ⟨hmy, rfl, rfl, rfl, rfl⟩
  · exact ⟨hmy, rfl, rfl, rfl, rfl⟩

/-- Both forms of GANG, once their checks are passed. -/
theorem opGang_completes {s : State} {i : Instr} {timed : Bool} {f : GangForm} {m : Acc} {v g : Reg} {pl : BitVec 3}
    {p : State → Prop} (hslot : s.InSlot) (hmay : s.MaySlice) (hqueue : s.slice.queue = []) (hclean : s.Clean [g] (metaRegs f v))
    (hkind : planeCluster s.cur.core.cluster = formPlane f) (hfmt : s.slice.wa.fmt = formFmt f)
    (hmeta : badMeta 0 (s.metaOf f v) = none)
    (h : ∀ w, Arrived s w (arrival s f m v g pl) → p (if (w.members w.cur.core).length = 4 then w.gangRelease (w.members w.cur.core)
      else gangWaits w timed)) : CompletesWith (opGang s i timed f m v g pl) p := by
  refine withDrained_completes hslot hclean hmay hqueue fun u hu => ?_
  have harrival := arrival_taken hu f m v g pl
  have hmeta' : badMeta 0 (u.metaOf f v) = none := by
    have hsame := congrArg GangArrival.mdata harrival
    exact (congrArg (badMeta 0) hsame).trans hmeta
  rw [mulChecked_runs (by rw [hu.cur]; exact hkind) (by rw [hu.slice]; exact hfmt) hmeta', harrival]
  exact h _ (arrived_setMyCore hu _)

section
variable {s : State} {ms : List (CoreId × GangArrival)}

theorem gangRelease_same {f : GangForm} {n : Nat} (h : ∀ e ∈ ms, e.2.form = f ∧ e.2.k = n)
    (hbad : ms.foldl (fun r e => ((r.1.gangBad e.1 e.2).1, r.2 || (r.1.gangBad e.1 e.2).2)) (s.leaveBarrier s.cur.core, false)
      = (s.leaveBarrier s.cur.core, false)) :
    s.gangRelease ms = ms.foldl (fun w e => w.gangMember e.1 e.2
      (ms.flatMap (fun e => (s.leaveBarrier s.cur.core).gangRows e.1 e.2)) false) (s.leaveBarrier s.cur.core) := by
  unfold State.gangRelease
  dsimp only
  rw [if_pos, hbad]
  split
  · rfl
  · next c a t =>
    rw [List.all_eq_true]
    intro e he
    obtain ⟨hform, hk⟩ := h e he
    have hform' : a.form = f := (h (c, a) List.mem_cons_self).1
    have hk' : a.k = n := (h (c, a) List.mem_cons_self).2
    simp only [hform, hk, hform', hk', beq_self_eq_true, Bool.and_self]

theorem gangRelease_differs {e e' : CoreId × GangArrival} (he : e ∈ ms) (he' : e' ∈ ms)
    (h : e'.2.form ≠ e.2.form ∨ e'.2.k ≠ e.2.k) :
    s.gangRelease ms = ms.foldl (fun w e => refuse w (ctxAt e.1 e.2.slot)) (s.leaveBarrier s.cur.core) := by
  unfold State.gangRelease
  dsimp only
  rw [if_neg]
  · rfl
  · split
    · exact absurd he List.not_mem_nil
    · next c a t =>
      rw [List.all_eq_true]
      intro hall
      have hone := hall e he
      have hother := hall e' he'
      simp only [Bool.and_eq_true, beq_iff_eq] at hone hother
      exact h.elim (fun hne => hne (hother.1.trans hone.1.symm)) fun hne => hne (hother.2.trans hone.2.symm)

end

/-! ### GANG and GANG.T -/

section
variable {s v : State} {mine : GangArrival}

/-- What the barrier knows of each member, where all four are present. -/
theorem members_arrived (h : Arrived s v mine) {a : CoreId → GangArrival}
    (hall : ∀ k ∈ rowCores s.cur.core, (if k = s.cur.core then some mine else (s.core k).gangAt) = some (a k)) :
    v.members v.cur.core = (rowCores s.cur.core).map (fun c => (c, a c)) := by
  rw [h.only.cur]
  exact members_all fun c hc => by rw [h.member c, hall c hc]

theorem length_members_all {k : CoreId} (a : CoreId → GangArrival) : ((rowCores k).map (fun c => (c, a c))).length = 4 := by
  rw [List.length_map, length_rowCores]

/-- The barrier once its members have left. -/
theorem left_cores (h : Arrived s v mine) : CoresOnly s (v.leaveBarrier v.cur.core)
    ∧ ∀ c ∈ rowCores s.cur.core, ((v.leaveBarrier v.cur.core).core c).gangAt = none
      ∧ ((v.leaveBarrier v.cur.core).core c).slice = if c = s.cur.core then owned s else (s.core c).slice := by
  obtain ⟨honly, hcore⟩ := leaveBarrier_cores v v.cur.core
  refine ⟨h.only.trans honly, fun c hc => ?_⟩
  rw [hcore, h.only.cur, if_pos hc]
  exact ⟨rfl, h.slice c⟩

end

theorem wait_advance (x : Ctx) : x.advance.wait = .none := by
  rw [Ctx.advance]
  split
  · rw [Ctx.stepFrame]
    split <;> rfl
  · rfl

/-- A context that is released. -/
theorem releasedCtx_facts (x : Ctx) :
    (releasedCtx x).wait = .none ∧ (releasedCtx x).cwv 0x045 = 0 ∧ Past x (releasedCtx x) := by
  refine ⟨wait_advance _, ?_, ?_⟩
  · rw [releasedCtx, (keeps_advance _).cw 0x045 (by decide)]
    exact cwv_setCw _ _ _
  · exact SameSpot.past (y := x.setCw cwGSTAT 0) ⟨rfl, rfl, rfl⟩ (past_advance _)

/-- A context that is refused. -/
theorem refusedCtx_facts {c : CtxId} (hslot : c.isHandler = false) (x : Ctx) :
    (refusedCtx c x).wait = .none ∧ (refusedCtx c x).pc = x.cwv 0x004 ∧ (refusedCtx c x).cwv 0x001 = 7
      ∧ (refusedCtx c x).cwv 0x002 = 5 ∧ (refusedCtx c x).cwv 0x003 = x.pc := by
  obtain ⟨hpc, hcause, hval, htpc⟩ := Traps.trapped_words { x with wait := .none } c.isHandler (Traps.causeOf c 0x07) 5 x.pc
  refine ⟨rfl, hpc, hcause.trans ?_, hval, htpc⟩
  rw [Traps.causeOf, hslot]
  rfl

theorem ctxAt_slot {k : CoreId} {n : Nat} (h : n < 4) : (ctxAt k n).isHandler = false := by
  have hmod : n % 6 = n := Nat.mod_eq_of_lt (by omega)
  simp only [ctxAt, CtxId.isHandler, Fin.ofNat, hmod, decide_eq_false_iff_not]
  omega

theorem ctxAt_self (c : CtxId) : ctxAt c.core c.ctx.val = c := by
  have hctx : Fin.ofNat 6 c.ctx.val = c.ctx := Fin.ext (Nat.mod_eq_of_lt c.ctx.isLt)
  rw [ctxAt, hctx]

section
variable {s : State} {f : GangForm} {m : Acc} {v g : Reg} {pl : BitVec 3}

/-- The members present at the barrier with the one that arrives. -/
def atBarrier (s : State) (mine : GangArrival) (k : CoreId) : Option GangArrival :=
  if k = s.cur.core then some mine else (s.core k).gangAt

theorem gang_waits {w : State} {mine : GangArrival} (timed : Bool) (h : Arrived s w mine)
    (hfew : ∃ k ∈ rowCores s.cur.core, atBarrier s mine k = none) :
    (w.members w.cur.core).length ≠ 4 ∧ (gangWaits w timed).my.wait = .gang (gangWaits w timed).nextId
      ∧ (gangWaits w timed).myCore.gangAt = some mine ∧ SameMem s (gangWaits w timed) ∧ (gangWaits w timed).my.pc = s.my.pc := by
  obtain ⟨k, hk, hnone⟩ := hfew
  obtain ⟨hmy, hcores, hcur, hmem⟩ := gangWaits_waits w timed
  have hsame := h.only.sameMem
  have hown : w.my = s.my := h.only.same State.my fun _ => rfl
  refine ⟨length_members_lt ⟨k, by rwa [h.only.cur], by rw [h.member k]; exact hnone⟩, by rw [hmy], ?_,
    ⟨hmem.1.trans hsame.1, hmem.2.trans hsame.2⟩, by rw [hmy, ← hown]⟩
  have hcore : (gangWaits w timed).myCore = w.core s.cur.core := by
    rw [State.myCore, State.core, hcores, hcur, h.only.cur]
    rfl
  rw [hcore, h.member, if_pos rfl]

/-- What a member finds once the barrier has released. -/
theorem gang_releases {w : State} {mine : GangArrival} {n : Nat} (h : Arrived s w mine) {a : CoreId → GangArrival}
    (hall : ∀ k ∈ rowCores s.cur.core, atBarrier s mine k = some (a k) ∧ (a k).form = f ∧ (a k).k = n)
    (hclean : ∀ k ∈ rowCores s.cur.core, ∀ i, i / 4 = k.core.val % 4 → s.rowBad k (a k).base (a k).stride (formRow f) i = none) :
    (w.members w.cur.core).length = 4
      ∧ ∃ b : State, CoresOnly s b
        ∧ (∀ c ∈ rowCores s.cur.core, (b.core c).gangAt = none
          ∧ (b.core c).slice = if c = s.cur.core then owned s else (s.core c).slice)
        ∧ Released (rowCores s.cur.core) a ((List.range 16).map (gangRow s s.cur.core a)) b (w.gangRelease (w.members w.cur.core)) := by
  have hmembers := members_arrived h fun k hk => (hall k hk).1
  obtain ⟨honly, hleft⟩ := left_cores h
  have hbyte : ∀ (k : CoreId) (base stride len i : Nat), (w.leaveBarrier w.cur.core).tileRow k base stride len i
      = s.tileRow k base stride len i := fun k base stride len i =>
    honly.same (fun u => u.tileRow k base stride len i) fun _ => rfl
  have hbad : ∀ (k : CoreId) (base stride len i : Nat), (w.leaveBarrier w.cur.core).rowBad k base stride len i
      = s.rowBad k base stride len i := fun k base stride len i =>
    honly.same (fun u => u.rowBad k base stride len i) fun _ => rfl
  have hforms : ∀ e ∈ (rowCores s.cur.core).map (fun c => (c, a c)), e.2.form = f ∧ e.2.k = n := by
    intro e he
    obtain ⟨c, hc, rfl⟩ := List.mem_map.mp he
    exact (hall c hc).2
  have hnobad := gangBad_all (s := w.leaveBarrier w.cur.core) (k := s.cur.core) (a := a) fun c hc i hi => by
    rw [hbad, (hall c hc).2.1]
    exact hclean c hc i hi
  have hrows : (List.range 16).map (gangRow (w.leaveBarrier w.cur.core) s.cur.core a) = (List.range 16).map (gangRow s s.cur.core a) :=
    List.map_congr_left fun i _ => hbyte _ _ _ _ _
  refine ⟨by rw [hmembers, length_members_all], w.leaveBarrier w.cur.core, honly, hleft, ?_⟩
  rw [hmembers, gangRelease_same hforms hnobad, gangRows_all, hrows]
  exact (gangMembers_released (nodup_rowCores _) a _ _).1

theorem rowCore_mem (k : CoreId) {j : Nat} (hj : j < 4) : rowCore k j ∈ rowCores k := by
  rw [rowCores_eq]
  exact List.mem_map_of_mem (List.mem_range.mpr hj)

theorem gang_completes {w : State} {n : Nat} {mine : GangArrival} (h : Arrived s w mine) (hslot : mine.slot = s.cur.ctx.val)
    {a : CoreId → GangArrival}
    (hall : ∀ k ∈ rowCores s.cur.core, atBarrier s mine k = some (a k) ∧ (a k).form = f ∧ (a k).k = n)
    (hclean : ∀ k ∈ rowCores s.cur.core, ∀ i, i / 4 = k.core.val % 4 → s.rowBad k (a k).base (a k).stride (formRow f) i = none) :
    let t := w.gangRelease (w.members w.cur.core)
    Past s.my t.my ∧ SameMem s t ∧ ∀ k ∈ rowCores s.cur.core,
        (t.core k).gangAt = none ∧ (t.ctx (ctxAt k (a k).slot)).wait = .none ∧ (t.ctx (ctxAt k (a k).slot)).cwv 0x045 = 0
        ∧ Past (s.ctx (ctxAt k (a k).slot)) (t.ctx (ctxAt k (a k).slot))
        ∧ ∀ i, i < 16 → (t.core k).slice.row (a k).m i = mulRow f n (s.core k).slice.wa (a k).mdata (a k).scale
            (s.tileRow (rowCore s.cur.core (i / 4)) (a (rowCore s.cur.core (i / 4))).base (a (rowCore s.cur.core (i / 4))).stride
              (formRow f) i) ((s.core k).slice.row (a k).m i) := by
  obtain ⟨-, b, honly, hleft, hcore, hctx, hmem, hcur⟩ := gang_releases h hall hclean
  have hsame := honly.sameMem
  have hreleased : ∀ k ∈ rowCores s.cur.core, (w.gangRelease (w.members w.cur.core)).ctx (ctxAt k (a k).slot)
      = releasedCtx (s.ctx (ctxAt k (a k).slot)) := fun k hk => by rw [hctx k hk, honly.ctx]
  refine ⟨?_, ⟨hmem.1.trans hsame.1, hmem.2.trans hsame.2⟩, fun k hk => ?_⟩
  · have hself := self_mem_rowCores s.cur.core
    have hmine : a s.cur.core = mine := by
      have hat := (hall _ hself).1
      rw [atBarrier, if_pos rfl] at hat
      exact (Option.some.inj hat).symm
    have hown := hreleased _ hself
    rw [hmine, hslot, ctxAt_self] at hown
    have hmy : (w.gangRelease (w.members w.cur.core)).my = releasedCtx s.my := by
      rw [State.my, hcur, honly.cur]
      exact hown
    rw [hmy]
    exact (releasedCtx_facts s.my).2.2
  · obtain ⟨hgone, hslice⟩ := hcore k hk
    obtain ⟨hnone, hwas⟩ := hleft k hk
    obtain ⟨-, hform, hn⟩ := hall k hk
    obtain ⟨hwait, hstat, hpast⟩ := releasedCtx_facts (s.ctx (ctxAt k (a k).slot))
    rw [hreleased k hk]
    refine ⟨hgone.trans hnone, hwait, hstat, hpast, fun i hi => ?_⟩
    have hrow : ((List.range 16).map (gangRow s s.cur.core a)).getD i [] = gangRow s s.cur.core a i := getD_map_range _ _ hi
    have hother := (hall _ (rowCore_mem s.cur.core (show i / 4 < 4 by omega))).2.1
    have hbefore : (b.core k).slice.wa = (s.core k).slice.wa ∧ (b.core k).slice.row (a k).m i = (s.core k).slice.row (a k).m i := by
      rw [hwas]
      split
      · next hself => rw [hself]; exact ⟨rfl, rfl⟩
      · exact ⟨rfl, rfl⟩
    rw [hslice.row, row_multiplied _ _ _ (by rw [List.length_map, List.length_range]) hi, hrow, gangRow, hother, hform, hn,
      hbefore.1, hbefore.2]

theorem gang_differs {w : State} {n : Nat} {mine : GangArrival} (h : Arrived s w mine) (hform : mine.form = f) (hn : mine.k = n)
    {a : CoreId → GangArrival} (hall : ∀ k ∈ rowCores s.cur.core, atBarrier s mine k = some (a k) ∧ (a k).slot < 4)
    (hother : ∃ k ∈ rowCores s.cur.core, (a k).form ≠ f ∨ (a k).k ≠ n)
    (htakes : ∀ k ∈ rowCores s.cur.core, TakesFault (s.ctx (ctxAt k (a k).slot))) :
    (w.members w.cur.core).length = 4 ∧
    let t := w.gangRelease (w.members w.cur.core)
    SameMem s t ∧ ∀ k ∈ rowCores s.cur.core,
      (t.core k).gangAt = none ∧ t.ctx (ctxAt k (a k).slot) = refusedCtx (ctxAt k (a k).slot) (s.ctx (ctxAt k (a k).slot)) := by
  have hmembers := members_arrived h fun k hk => (hall k hk).1
  obtain ⟨honly, hleft⟩ := left_cores h
  have hself := self_mem_rowCores s.cur.core
  have hmine : a s.cur.core = mine := by
    have hat := (hall _ hself).1
    rw [atBarrier, if_pos rfl] at hat
    exact (Option.some.inj hat).symm
  obtain ⟨k, hk, hdiffer⟩ := hother
  have hrun := gangRelease_differs (s := w) (ms := (rowCores s.cur.core).map (fun c => (c, a c)))
    (e := (s.cur.core, a s.cur.core)) (e' := (k, a k)) (List.mem_map_of_mem hself) (List.mem_map_of_mem hk)
    (by rw [hmine, hform, hn]; exact hdiffer)
  obtain ⟨hctx, -, hcores, hmem⟩ := refuse_all (nodup_rowCores s.cur.core) a (s := w.leaveBarrier w.cur.core) fun c hc => by
    rw [honly.ctx]
    exact htakes c hc
  have hsame := honly.sameMem
  refine ⟨by rw [hmembers, length_members_all], ?_⟩
  rw [hmembers, hrun]
  refine ⟨⟨hmem.1.trans hsame.1, hmem.2.trans hsame.2⟩, fun c hc => ⟨?_, ?_⟩⟩
  · rw [← (hleft c hc).1, State.core, hcores, State.core]
  · rw [hctx c hc, honly.ctx]

/-- What GANG leaves of a barrier. -/
def gangResult (w : State) (timed : Bool) : State :=
  if (w.members w.cur.core).length = 4 then w.gangRelease (w.members w.cur.core) else gangWaits w timed

theorem gang_waits_state {w : State} {mine : GangArrival} (timed : Bool) (h : Arrived s w mine)
    (hfew : ∃ k ∈ rowCores s.cur.core, atBarrier s mine k = none) :
    (gangResult w timed).my.wait = .gang (gangResult w timed).nextId ∧ (gangResult w timed).myCore.gangAt = some mine
      ∧ SameMem s (gangResult w timed) ∧ (gangResult w timed).my.pc = s.my.pc := by
  obtain ⟨hlen, hrest⟩ := gang_waits timed h hfew
  rw [gangResult, if_neg hlen]
  exact hrest

theorem gang_completes_state {w : State} {n : Nat} {mine : GangArrival} (timed : Bool) (h : Arrived s w mine)
    (hslot : mine.slot = s.cur.ctx.val) {a : CoreId → GangArrival}
    (hall : ∀ k ∈ rowCores s.cur.core, atBarrier s mine k = some (a k) ∧ (a k).form = f ∧ (a k).k = n ∧ (a k).slot < 4 ∧ (a k).m < 4)
    (hclean : ∀ k ∈ rowCores s.cur.core, ∀ i, i / 4 = k.core.val % 4 → s.rowBad k (a k).base (a k).stride (formRow f) i = none) :
    let t := gangResult w timed
    Past s.my t.my ∧ SameMem s t ∧ ∀ k ∈ rowCores s.cur.core,
        (t.core k).gangAt = none ∧ (t.ctx (ctxAt k (a k).slot)).wait = .none ∧ (t.ctx (ctxAt k (a k).slot)).cwv 0x045 = 0
        ∧ Past (s.ctx (ctxAt k (a k).slot)) (t.ctx (ctxAt k (a k).slot))
        ∧ ∀ i, i < 16 → (t.core k).slice.row (a k).m i = mulRow f n (s.core k).slice.wa (a k).mdata (a k).scale
            (s.tileRow (rowCore s.cur.core (i / 4)) (a (rowCore s.cur.core (i / 4))).base (a (rowCore s.cur.core (i / 4))).stride
              (formRow f) i) ((s.core k).slice.row (a k).m i) := by
  have hforms : ∀ k ∈ rowCores s.cur.core, atBarrier s mine k = some (a k) ∧ (a k).form = f ∧ (a k).k = n := fun k hk =>
    ⟨(hall k hk).1, (hall k hk).2.1, (hall k hk).2.2.1⟩
  rw [gangResult, if_pos (gang_releases h hforms hclean).1]
  exact gang_completes h hslot hforms hclean

theorem gang_differs_state {w : State} {n : Nat} {mine : GangArrival} (timed : Bool) (h : Arrived s w mine) (hform : mine.form = f)
    (hn : mine.k = n) {a : CoreId → GangArrival} (hall : ∀ k ∈ rowCores s.cur.core, atBarrier s mine k = some (a k) ∧ (a k).slot < 4)
    (hother : ∃ k ∈ rowCores s.cur.core, (a k).form ≠ f ∨ (a k).k ≠ n)
    (htakes : ∀ k ∈ rowCores s.cur.core, let x := s.ctx (ctxAt k (a k).slot)
      x.frame = none ∧ x.tb = false ∧ (x.cwv 0x005).getLsbD 7 = true ∧ x.cwv 0x004 ≠ 0) :
    let t := gangResult w timed
    SameMem s t ∧ ∀ k ∈ rowCores s.cur.core,
      let x := s.ctx (ctxAt k (a k).slot)
      let y := t.ctx (ctxAt k (a k).slot)
      (t.core k).gangAt = none ∧ y.wait = .none ∧ y.pc = x.cwv 0x004 ∧ y.cwv 0x001 = 7 ∧ y.cwv 0x002 = 5 ∧ y.cwv 0x003 = x.pc := by
  have hfaults : ∀ k ∈ rowCores s.cur.core, TakesFault (s.ctx (ctxAt k (a k).slot)) := fun k hk => by
    obtain ⟨hframe, hfree, hmask, hvec⟩ := htakes k hk
    exact ⟨hframe, hfree, hmask, hvec⟩
  obtain ⟨hlen, hmem, hrest⟩ := gang_differs h hform hn hall hother hfaults
  rw [gangResult, if_pos hlen]
  refine ⟨hmem, fun k hk => ?_⟩
  obtain ⟨hnone, hctx⟩ := hrest k hk
  rw [hctx]
  exact ⟨hnone, refusedCtx_facts (ctxAt_slot (hall k hk).2) _⟩

end

theorem gangBarrier : Claim.GangBarrier := by
  intro s f m v g pl hslot hmay hqueue hclean hkind hfmt hmeta mine at'
  have hused : s.Clean [g] (metaRegs f v) := VectorFloat.clean_of_subset hclean (List.Subset.refl _) (metaRegs_subset f v)
  have hmine : arrival s f m v g pl = mine := by
    rw [arrival, tileBase_eq, SliceWeights.bits_low]
    rfl
  have hgang : ∀ (i : Instr) (timed : Bool) {p : State → Prop}, (∀ w, Arrived s w mine →
      p (if (w.members w.cur.core).length = 4 then w.gangRelease (w.members w.cur.core) else gangWaits w timed)) →
      CompletesWith (opGang s i timed f m v g pl) p := fun i timed p h =>
    opGang_completes hslot hmay hqueue hused hkind hfmt hmeta (hmine ▸ h)
  refine ⟨fun hfew => ?_, fun a hall hrows => ?_, fun a hall hother htakes => ?_, fun hfew => ?_, fun a hall hrows => ?_,
    fun a hall hother htakes => ?_⟩
  · exact hgang _ false fun w hw => gang_waits_state false hw hfew
  · exact hgang _ false fun w hw => gang_completes_state false hw rfl hall hrows
  · exact hgang _ false fun w hw => gang_differs_state false hw rfl rfl hall hother htakes
  · exact hgang _ true fun w hw => gang_waits_state true hw hfew
  · exact hgang _ true fun w hw => gang_completes_state true hw rfl hall hrows
  · exact hgang _ true fun w hw => gang_differs_state true hw rfl rfl hall hother htakes

end Sys2Proof.Proofs.Gangs

/-! SUPPORT. GANG_TIMEOUT (R159, R160). -/

namespace Sys2Proof.Proofs.GangTimeouts

open Machine Slices Gangs

/-- A member away from its barrier. -/
def withdrawn (s : State) (c : CtxId) : State :=
  (s.setCore c.core { s.core c.core with gangAt := none }).setCtx c { s.ctx c with wait := .none }

/-- What a timeout does with a member that has withdrawn. -/
def timedOut (time : Word) (z : State) : State :=
  if bit time 63 then z.raise 0x10 (word (bits time 31 0)) else z.setMy (z.my.setCw cwGSTAT 1).advance

section
variable {s : State} {c : CtxId} {id : Nat} (hevent : s.event = .gangTimeout c id)
include hevent

theorem exec_not_waiting (h : (s.ctx c).wait ≠ .gang id) : exec .gangTimeout s = .next s := by
  show Host.Outcome.next _ = _
  rw [hevent]
  exact congrArg Host.Outcome.next (if_neg h)

theorem exec_waiting (h : (s.ctx c).wait = .gang id) :
    exec .gangTimeout s = .next ((withdrawn s c).as c (timedOut ((s.ctx c).cwv cwGTIME))) := by
  have hmy : ({ withdrawn s c with cur := c } : State).my = { s.ctx c with wait := .none } := ctx_setCtx_same _ _ _
  have htime : ({ withdrawn s c with cur := c } : State).my.cwv cwGTIME = (s.ctx c).cwv cwGTIME := by rw [hmy]; rfl
  show Host.Outcome.next _ = _
  rw [hevent, ← htime]
  exact congrArg Host.Outcome.next (if_pos h)

end

theorem ctx_withdrawn (s : State) (c : CtxId) : (withdrawn s c).ctx c = { s.ctx c with wait := .none } := ctx_setCtx_same _ _ _

/-- The state of a member that moves on. -/
def movedOn (s : State) (c : CtxId) : State := (withdrawn s c).setCtx c (({ s.ctx c with wait := .none } : Ctx).setCw cwGSTAT 1).advance

theorem as_timedOut_clear {s : State} {c : CtxId} {time : Word} (h : time.getLsbD 63 = false) :
    (withdrawn s c).as c (timedOut time) = movedOn s c := by
  have hbit : bit time 63 = false := h
  have hmy : ({ withdrawn s c with cur := c } : State).my = { s.ctx c with wait := .none } := ctx_setCtx_same _ _ _
  rw [State.as, timedOut, hbit, if_neg Bool.false_ne_true, hmy]
  rfl

theorem as_timedOut_set {s : State} {c : CtxId} {time : Word} (h : time.getLsbD 63 = true) :
    (withdrawn s c).as c (timedOut time) = (withdrawn s c).as c (fun u => u.raise 0x10 (BitVec.ofNat 64 (time.toNat % 2 ^ 32))) := by
  have hbit : bit time 63 = true := h
  rw [State.as, timedOut, hbit, if_pos rfl, SliceWeights.bits_low]
  rfl

theorem movedOn_ctx (s : State) (c : CtxId) :
    (movedOn s c).ctx c = (({ s.ctx c with wait := .none } : Ctx).setCw cwGSTAT 1).advance
      ∧ ∀ d, d ≠ c → (movedOn s c).ctx d = s.ctx d :=
  ⟨ctx_setCtx_same _ _ _, fun _ hd => (ctx_setCtx_other _ _ hd).trans (ctx_setCtx_other _ _ hd)⟩

theorem keeps_unwaited (x : Ctx) : Keeps [] [] [] [] x { x with wait := .none } :=
  ⟨fun _ _ => ⟨rfl, rfl⟩, fun _ _ => rfl, fun _ _ => ⟨rfl, rfl⟩, fun _ _ => rfl, rfl, rfl⟩

theorem gangTimeouts : Claim.GangTimeouts := by
  intro s c id hevent x out time
  refine ⟨exec_not_waiting hevent, fun hwait hclear => ?_, fun hwait hset => ?_⟩
  · obtain ⟨hctx, hothers⟩ := movedOn_ctx s c
    have hkeeps : Keeps [] [] [] [cwGSTAT] x (({ x with wait := .none } : Ctx).setCw cwGSTAT 1) :=
      ((keeps_unwaited x).mono (by simp) (by simp) (by simp) (by simp)).trans (keeps_setCw _ _ _)
    refine ⟨movedOn s c, (exec_waiting hevent hwait).trans (congrArg _ (as_timedOut_clear hclear)), ?_, ?_, ?_, ⟨rfl, rfl⟩, ?_, ?_,
      hothers⟩
    · rw [hctx, (keeps_advance _).cw cwGSTAT (by decide)]
      exact cwv_setCw _ _ _
    · rw [hctx, wait_advance]
    · exact congrArg Core.gangAt (core_setCore_same s c.core { s.core c.core with gangAt := none })
    · rw [hctx]
      exact (hkeeps.mono (by simp) (by simp) (by simp) (List.subset_append_right _ _)).trans
        ((keeps_advance _).mono (by simp) (by simp) (by simp) (List.subset_append_left _ _))
    · rw [hctx]
      exact SameSpot.past (y := ({ x with wait := .none } : Ctx).setCw cwGSTAT 1) ⟨rfl, rfl, rfl⟩ (past_advance _)
  · exact (exec_waiting hevent hwait).trans (congrArg _ (as_timedOut_set hset))

end Sys2Proof.Proofs.GangTimeouts

/-! SUPPORT. FENCE, LDA and STL, and the store that waits for older tile reads (R280 to R289). -/

namespace Sys2Proof.Proofs.Ordering

open Machine LoadsAndStores Places

/-! ### Sizes and conditions -/

theorem memBytes_pos (wd : MemW) : 0 < memBytes wd := by cases wd <;> decide

theorem storeWaits_iff (s : State) : s.storeWaits = true ↔ s.my.tilesAhead = true ∨ 0 < s.my.late := by
  rw [State.storeWaits, Bool.or_eq_true, decide_eq_true_eq]

theorem storeWaits_false {s : State} (htiles : s.my.tilesAhead = false) (hlate : s.my.late = 0) : s.storeWaits = false := by
  rw [State.storeWaits, htiles, hlate]
  rfl

theorem late_advance (x : Ctx) : x.advance.late = x.late := by
  rw [Ctx.advance]
  split
  · rw [Ctx.stepFrame]
    split <;> rfl
  · rfl

/-! ### FENCE (R284) -/

theorem fence_moves {s : State} {sc : Scope} {sets : BitVec 4}
    (h : ((sets.getLsbD 3 || sets.getLsbD 2) && s.anyLoad s.cur) = false) : exec (.fence sc sets) s = .next s.advance :=
  congrArg Host.Outcome.next (if_neg (by rw [h]; exact Bool.false_ne_true))

theorem fence_stays {s : State} {sc : Scope} {sets : BitVec 4}
    (h : ((sets.getLsbD 3 || sets.getLsbD 2) && s.anyLoad s.cur) = true) : exec (.fence sc sets) s = .next s :=
  congrArg Host.Outcome.next (if_pos h)

/-! ### What follows the checks of LDA and STL -/

/-- LDA once its access has answered. -/
def ldaEnd (d : Reg) (n : Nat) : State × Option Where → State
  | (s, none) => s
  | (s, some (.own off)) =>
    let (bs, bad) := s.bankRead s.cur.core off n
    let s := s.localRecord s.cur.core off bad
    s.setMy (s.my.load d (extend bs n false) bad).advance
  | (s, some w) =>
    if s.mayIssue s.cur 1 = false then s.stallOreq 1
    else
      let s := s.fresh
      ((s.addOut s.cur s.nextId true (.g d n false) true true (s.wherePa w) n).request w s.nextId (.read n) true).advance

/-- STL once its access has answered. -/
def stlEnd (b : Reg) (n : Nat) : State × Option Where → State
  | (s, none) => s
  | (s, some w) =>
    let bs := leBytes n (s.g b).toNat
    if s.storeWaits then s.lateStore w bs
    else match w with
    | .own off => (s.bankWrite s.cur.core off bs false).advance
    | w => s.issueStore w (.write bs 0)

section
variable {s : State} {wd : MemW} {sc : Scope} {d a b : Reg}

/-- What an LDA asks of its access, and what an STL. -/
def ldaAsked (wd : MemW) : Asked := ⟨memBytes wd, true, false, false, true, false⟩
def stlAsked (wd : MemW) : Asked := ⟨memBytes wd, false, true, false, true, false⟩

theorem exec_lda (hclean : s.Clean [a] []) :
    exec (.lda wd sc d a) s = .next (ldaEnd d (memBytes wd) (s.access (.lda wd sc d a) (s.g a) (ldaAsked wd))) :=
  congrArg Host.Outcome.next (guardP_clean hclean _)

theorem exec_stl (hclean : s.Clean [a, b] []) :
    exec (.stl wd sc a b) s = .next (stlEnd b (memBytes wd) (s.access (.stl wd sc a b) (s.g a) (stlAsked wd))) :=
  congrArg Host.Outcome.next (guardP_clean hclean _)

end

/-! ### On plain local memory -/

/-- A store to plain local memory, and the instruction past. -/
theorem poke_advance (s : State) (loc n x : Nat) :
    let t := (s.poke loc (leBytes n x) false).advance
    t.readLE loc n = x % 256 ^ n ∧ (∀ c, c < loc ∨ loc + n ≤ c → t.byte c = s.byte c) ∧ OnlyMemAndMine s t
      ∧ Keeps [] [] [] leftWords s.my t.my ∧ Past s.my t.my := by
  refine ⟨by rw [readLE_advance, readLE_poke], fun c hc => byte_poke_outside s loc _ false (by rwa [leBytes_length]),
    ⟨rfl, fun c hc => ctx_setCtx_other _ _ hc⟩, ?_, ?_⟩
  · rw [my_advance]
    exact keeps_advance s.my
  · rw [my_advance]
    exact past_advance s.my

/-- The request of a store that waits. -/
def lateRequest (s : State) (w : Where) (bs : List Byte) : Request :=
  requestOf s.fresh s.fresh.nextId (s.fresh.wherePa w) (.write bs 0)

/-- A state that a late store has been put by in. -/
def putBy (u : State) (r : Request) (own : Bool) : State :=
  ((u.setMy { u.my with late := u.my.late + 1 }).after 1 (.heldStore r own)).advance

theorem putBy_facts (u : State) (r : Request) (own : Bool) :
    SameMem u (putBy u r own) ∧ Keeps [] [] [] leftWords u.my (putBy u r own).my ∧ Past u.my (putBy u r own).my
      ∧ (putBy u r own).my.late = u.my.late + 1 ∧ (putBy u r own).cores = u.cores ∧ (putBy u r own).cur = u.cur
      ∧ (putBy u r own).timers = u.timers ++ [(u.time + 1, .heldStore r own)] := by
  have hset : ((u.setMy { u.my with late := u.my.late + 1 }).after 1 (.heldStore r own)).my = { u.my with late := u.my.late + 1 } :=
    my_setMy _ _
  have hmy : (putBy u r own).my = ({ u.my with late := u.my.late + 1 } : Ctx).advance := by rw [putBy, my_advance, hset]
  have hkeeps : Keeps [] [] [] [] u.my { u.my with late := u.my.late + 1 } := Contexts.keeps_of_same
  refine ⟨⟨rfl, rfl⟩, ?_, ?_, ?_, rfl, rfl, rfl⟩
  · rw [hmy]
    exact (hkeeps.mono (by simp) (by simp) (by simp) (List.nil_subset _)).trans (keeps_advance _)
  · rw [hmy]
    exact SameSpot.past (y := { u.my with late := u.my.late + 1 }) ⟨rfl, rfl, rfl⟩ (past_advance _)
  · rw [hmy, late_advance]

section
variable {s : State} {off : Nat} {bs : List Byte}

theorem lateStore_own (h : s.myCore.stashAt off = none) :
    s.lateStore (.own off) bs = putBy s.fresh (lateRequest s (.own off) bs) true := by
  have hmay : s.mayHold (.own off) = true := by rw [State.mayHold, h]; rfl
  rw [State.lateStore, hmay]
  rfl

end

section
variable {s : State} {wd : MemW} {sc : Scope} {d a b : Reg}

theorem lda_plain (hclean : s.Clean [a] []) (hplain : s.PlainLocal (s.g a) (memBytes wd))
    (hpois : s.poisAt (s.myLoc (s.g a)) (memBytes wd) = false) :
    exec (.lda wd sc d a) s = .next (s.done d (BitVec.ofNat 64 (s.readLE (s.myLoc (s.g a)) (memBytes wd)))) := by
  have harea := areaOf_inside hplain.inside (memBytes_pos wd)
  have hclean' : s.poisAt (localLoc s.cur.core (s.g a).toNat) (memBytes wd) = false := hpois
  rw [exec_lda hclean, access_plain hplain rfl (memBytes_pos wd), ldaEnd, bankRead_mem harea, hclean']
  rfl

theorem stl_plain (hclean : s.Clean [a, b] []) (hplain : s.PlainLocal (s.g a) (memBytes wd)) (hnow : s.storeWaits = false) :
    exec (.stl wd sc a b) s
      = .next (s.poke (s.myLoc (s.g a)) (leBytes (memBytes wd) (s.g b).toNat) false).advance := by
  have harea := areaOf_inside hplain.inside (memBytes_pos wd)
  rw [exec_stl hclean, access_plain hplain rfl (memBytes_pos wd), stlEnd]
  simp only [hnow, Bool.false_eq_true, if_false, bankWrite_mem harea]
  rfl

theorem stl_plain_late (hclean : s.Clean [a, b] []) (hplain : s.PlainLocal (s.g a) (memBytes wd)) (hlate : s.storeWaits = true) :
    exec (.stl wd sc a b) s = .next (putBy s.fresh (lateRequest s (.own (s.g a).toNat)
      (leBytes (memBytes wd) (s.g b).toNat)) true) := by
  have hstash : s.myCore.stashAt (s.g a).toNat = none := hplain.noStash 0 (memBytes_pos wd)
  rw [exec_stl hclean, access_plain hplain rfl (memBytes_pos wd), stlEnd]
  simp only [hlate, if_true, lateStore_own hstash]

/-! ### At any other place (R285, R289) -/

theorem lda_ends {u : State} (hclean : s.Clean [a] [])
    (h : s.access (.lda wd sc d a) (s.g a) (ldaAsked wd) = (u, none)) : exec (.lda wd sc d a) s = .next u := by
  rw [exec_lda hclean, h]
  rfl

theorem stl_ends {u : State} (hclean : s.Clean [a, b] [])
    (h : s.access (.stl wd sc a b) (s.g a) (stlAsked wd) = (u, none)) : exec (.stl wd sc a b) s = .next u := by
  rw [exec_stl hclean, h]
  rfl

end

/-- The entry of an LDA: an acquire's. -/
def acquireEntry (u : State) (w : Where) (n : Nat) (d : Reg) : Outstanding :=
  ⟨u.nextId + 1, u.cur.ctx.val, true, .g d n false, true, false, true, u.wherePa w, n, u.regionOf u.cur, u.colourOf u.cur⟩

section
variable {u : State} {w : Where} (haway : ∀ off, w ≠ .own off)
include haway

theorem ldaEnd_away (d : Reg) (n : Nat) : ldaEnd d n (u, some w) = if u.mayIssue u.cur 1 = false then u.stallOreq 1
    else ((entered u (acquireEntry u w n d)).request w (u.nextId + 1) (.read n) true).advance := by
  cases w with
  | own off => exact absurd rfl (haway off)
  | core _ => rfl
  | dram _ => rfl
  | far _ => rfl

theorem stlEnd_away (b : Reg) (n : Nat) (h : u.storeWaits = false) :
    stlEnd b n (u, some w) = u.issueStore w (.write (leBytes n (u.g b).toNat) 0) := by
  have hnow : ¬ u.storeWaits = true := by rw [h]; exact Bool.false_ne_true
  cases w with
  | own off => exact absurd rfl (haway off)
  | core _ => exact if_neg hnow
  | dram _ => exact if_neg hnow
  | far _ => exact if_neg hnow

theorem lateStore_away {bs : List Byte} (hroom : u.mayIssue u.cur 1 = true)
    (hchannel : ∀ pa, w = .far pa → (u.my.cwv cwMCHSEL).getLsbD 63 = false) :
    u.lateStore w bs = putBy (entered u (storeEntry u)) (lateRequest u w bs) false := by
  have hmay : u.mayHold w = true := by
    cases w with
    | own off => exact absurd rfl (haway off)
    | core _ => rfl
    | dram _ => rfl
    | far pa =>
      have hbit : bit (u.my.cwv cwMCHSEL) 63 = false := hchannel pa rfl
      rw [State.mayHold, hbit]
      rfl
  have hleaves : w.away = true := by
    cases w with
    | own off => exact absurd rfl (haway off)
    | core _ => rfl
    | dram _ => rfl
    | far _ => rfl
  rw [State.lateStore, hmay, hleaves]
  simp only [Bool.not_true, Bool.not_false, Bool.true_and, hroom, Bool.true_eq_false, Bool.false_eq_true, if_false]
  rfl

end

/-- An LDA whose request was sent. -/
theorem lda_sent {u : State} (w : Where) (n : Nat) (d : Reg) :
    let t := ((entered u (acquireEntry u w n d)).request w (u.nextId + 1) (.read n) true).advance
    SameMem u t ∧ Past u.my t.my ∧ Keeps [] [] [] leftWords u.my t.my ∧ t.myCore.acquiring t.cur.ctx.val = true
      ∧ t.myCore.outs = u.myCore.outs ++ [acquireEntry u w n d] := by
  have hsent := request_load_sent (entered u (acquireEntry u w n d)) w (u.nextId + 1) (.read n)
  obtain ⟨-, hmem, hkeeps, houts⟩ := moved_on hsent
  have hmy : ((entered u (acquireEntry u w n d)).request w (u.nextId + 1) (.read n) true).my = u.my := by
    rw [State.my, State.ctx, hsent.ctxs, hsent.cur]
    rfl
  refine ⟨hmem, ?_, hkeeps, ?_, houts⟩
  · rw [my_advance, hmy]
    exact past_advance u.my
  · have hcur : ((entered u (acquireEntry u w n d)).request w (u.nextId + 1) (.read n) true).advance.cur = u.cur := hsent.cur
    rw [Core.acquiring, houts, hcur, List.any_append]
    simp [acquireEntry]

/-- An STL whose store waits on its way to another place. -/
theorem stl_sent_late {u : State} (r : Request) :
    let t := putBy (entered u (storeEntry u)) r false
    SameMem u t ∧ Past u.my t.my ∧ t.my.late = u.my.late + 1 ∧ t.myCore.oreq = u.myCore.oreq + 1
      ∧ t.timers = u.timers ++ [(u.time + 1, .heldStore r false)] := by
  obtain ⟨hmem, -, hpast, hlate, hcores, hcur, htimers⟩ := putBy_facts (entered u (storeEntry u)) r false
  have hcore : (putBy (entered u (storeEntry u)) r false).myCore = { u.myCore with outs := u.myCore.outs ++ [storeEntry u] } := by
    rw [State.myCore, State.core, hcores, hcur]
    exact (core_entered u (storeEntry u) u.cur.core).trans (if_pos rfl)
  refine ⟨hmem, hpast, hlate, ?_, htimers⟩
  rw [hcore, Core.oreq, Core.oreq, List.filter_append, List.length_append]
  rfl

/-! ### A store that waited (R280, R285) -/

section
variable {s : State} {r : Request} {own : Bool} {bs : List Byte} (hevent : s.event = .heldStore r own)
include hevent

theorem exec_heldStore : exec .memoryPortRequest s = .next (s.heldStore r own) := by
  show Host.Outcome.next _ = _
  rw [hevent]

/-- While older tile reads are to come it waits on. -/
theorem heldStore_waits (htiles : (s.ctx r.issuer).tilesAhead = true) (hlate : 0 < (s.ctx r.issuer).late) :
    exec .memoryPortRequest s = .next (s.after 1 (.heldStore r own)) := by
  rw [exec_heldStore hevent]
  refine congrArg Host.Outcome.next (if_pos ?_)
  rw [htiles, decide_eq_true hlate]
  rfl

end

/-- The issuer's store no longer waits. -/
def freed (s : State) (r : Request) : State := s.setCtx r.issuer { s.ctx r.issuer with late := (s.ctx r.issuer).late - 1 }

theorem late_freed (s : State) (r : Request) : ((freed s r).ctx r.issuer).late = (s.ctx r.issuer).late - 1 :=
  congrArg Ctx.late (ctx_setCtx_same s r.issuer _)

section
variable {s : State} {r : Request} {bs : List Byte} (hkind : r.kind = .write bs 0)
  (htiles : (s.ctx r.issuer).tilesAhead = false)
include hkind htiles

theorem heldStore_own : s.heldStore r true = (freed s r).bankWrite r.issuer.core (paOff r.pa) bs false := by
  rw [State.heldStore, htiles, hkind]
  rfl

theorem heldStore_away : s.heldStore r false = (freed s r).sendHeld r := by
  rw [State.heldStore, htiles, hkind]
  rfl

end

/-- Bytes written in local memory, or none at its end. -/
theorem bankWrite_inside (s : State) (k : CoreId) {off : Nat} {bs : List Byte} (h : off + bs.length ≤ 0x40000) :
    let t := s.bankWrite k off bs false
    t.ctxs = s.ctxs ∧ t.bytes (localLoc k off) bs.length = bs
      ∧ ∀ c, c < localLoc k off ∨ localLoc k off + bs.length ≤ c → t.byte c = s.byte c := by
  cases bs with
  | nil =>
    have hsame : (s.bankWrite k off [] false).ctxs = s.ctxs ∧ (s.bankWrite k off [] false).mem = s.mem := by
      by_cases hoff : off < 0x40000
      · rw [bankWrite_mem (areaOf_inside (n := 1) hoff (by decide))]
        exact ⟨rfl, rfl⟩
      · obtain rfl : off = 0x40000 := Nat.le_antisymm h (Nat.not_lt.mp hoff)
        exact ⟨rfl, rfl⟩
    exact ⟨hsame.1, rfl, fun c _ => congrArg (tget 0 · c) hsame.2⟩
  | cons x bs =>
    have harea : areaOf off = .mem := areaOf_inside h (by simp)
    rw [bankWrite_mem harea]
    exact ⟨rfl, bytes_poke_same s _ _ _, fun c hc => byte_poke_outside s _ _ _ hc⟩

/-- A store that waited and leaves its core for another of the device (log entry 1). -/
theorem sendHeld_device {s : State} {r : Request} (h : paDev r.pa = s.dev) :
    s.sendHeld r = if paOnDie r.pa then s.post (.memoryPortRequest r) else s.after 1 (.homeSliceRequest r) :=
  if_neg (not_not.mpr h)

section
variable {s u : State} {wd : MemW} {sc : Scope} {d a b : Reg} {w : Where}

theorem lda_away_full (hclean : s.Clean [a] []) (h : s.access (.lda wd sc d a) (s.g a) (ldaAsked wd) = (u, some w))
    (haway : ∀ off, w ≠ .own off) (hfull : u.mayIssue u.cur 1 = false) : exec (.lda wd sc d a) s = .next (u.stallOreq 1) := by
  rw [exec_lda hclean, h, ldaEnd_away haway, if_pos hfull]

theorem lda_away (hclean : s.Clean [a] []) (h : s.access (.lda wd sc d a) (s.g a) (ldaAsked wd) = (u, some w))
    (haway : ∀ off, w ≠ .own off) (hroom : u.mayIssue u.cur 1 = true) :
    ∃ t, exec (.lda wd sc d a) s = .next t ∧ SameMem u t ∧ Past u.my t.my ∧ Keeps [] [] [] leftWords u.my t.my
      ∧ t.myCore.acquiring t.cur.ctx.val = true ∧ t.myCore.outs = u.myCore.outs ++ [acquireEntry u w (memBytes wd) d] := by
  refine ⟨_, ?_, lda_sent w (memBytes wd) d⟩
  rw [exec_lda hclean, h, ldaEnd_away haway, if_neg (by rw [hroom]; exact Bool.noConfusion)]

theorem stl_away (hclean : s.Clean [a, b] []) (h : s.access (.stl wd sc a b) (s.g a) (stlAsked wd) = (u, some w))
    (haway : ∀ off, w ≠ .own off) (hnow : u.storeWaits = false) :
    exec (.stl wd sc a b) s = .next (u.issueStore w (.write (leBytes (memBytes wd) (u.g b).toNat) 0)) := by
  rw [exec_stl hclean, h, stlEnd_away haway b _ hnow]

theorem stl_away_late (hclean : s.Clean [a, b] []) (h : s.access (.stl wd sc a b) (s.g a) (stlAsked wd) = (u, some w))
    (haway : ∀ off, w ≠ .own off) (hlate : u.storeWaits = true) (hroom : u.mayIssue u.cur 1 = true)
    (hchannel : ∀ pa, w = .far pa → (u.my.cwv cwMCHSEL).getLsbD 63 = false) :
    ∃ t r, exec (.stl wd sc a b) s = .next t ∧ SameMem u t ∧ Past u.my t.my ∧ t.my.late = u.my.late + 1
      ∧ t.myCore.oreq = u.myCore.oreq + 1 ∧ t.timers = u.timers ++ [(u.time + 1, .heldStore r false)] ∧ r.issuer = u.cur
      ∧ r.pa = u.wherePa w ∧ r.kind = .write (leBytes (memBytes wd) (u.g b).toNat) 0 := by
  have hrun : stlEnd b (memBytes wd) (u, some w) = u.lateStore w (leBytes (memBytes wd) (u.g b).toNat) := if_pos hlate
  obtain ⟨hmem, hpast, hmore, horeq, htimers⟩ := stl_sent_late (lateRequest u w (leBytes (memBytes wd) (u.g b).toNat))
  refine ⟨_, _, ?_, hmem, hpast, hmore, horeq, htimers, rfl, ?_, rfl⟩
  · rw [exec_stl hclean, h, hrun, lateStore_away haway hroom hchannel]
  · cases w <;> rfl

end

theorem orderingInstructions : Claim.OrderingInstructions := by
  intro s wd sc sets d a b
  refine ⟨fun h3 h2 => fence_moves (by rw [h3, h2]; rfl), fun hload => fence_moves (by rw [hload, Bool.and_false]),
    fun hset hload => fence_stays (by rw [hload, Bool.and_true, Bool.or_eq_true]; exact hset), fun hclean => ?_,
    fun r own bs hevent hkind => ?_⟩
  · have hone : s.Clean [a] [] := VectorFloat.clean_of_subset hclean (by simp) (List.Subset.refl _)
    refine ⟨fun hplain => ⟨lda_plain hone hplain, fun htiles hlate => ?_, fun hlate => ?_⟩, fun hnone => ?_, fun hnone => ?_,
      fun p hp haway => ⟨fun hfull => ?_, fun hroom => ?_⟩, fun p hp haway => ⟨fun htiles hlate => ?_, fun hlate hroom hchannel => ?_⟩⟩
    · exact ⟨_, stl_plain hclean hplain (storeWaits_false htiles hlate), poke_advance s _ _ _⟩
    · obtain ⟨hmem, hkeeps, hpast, hmore, hcores, hcur, htimers⟩ := putBy_facts s.fresh
        (lateRequest s (.own (s.g a).toNat) (leBytes (memBytes wd) (s.g b).toNat)) true
      refine ⟨_, _, stl_plain_late hclean hplain ((storeWaits_iff s).mpr hlate), hmem, hkeeps, hpast, hmore, ?_, htimers, rfl, rfl,
        rfl⟩
      rw [State.myCore, State.core, hcores, hcur]
      rfl
    · exact lda_ends hone (Prod.ext rfl hnone)
    · exact stl_ends hclean (Prod.ext rfl hnone)
    · exact lda_away_full hone (Prod.ext rfl hp) haway hfull
    · exact lda_away hone (Prod.ext rfl hp) haway hroom
    · exact stl_away hclean (Prod.ext rfl hp) haway (storeWaits_false htiles hlate)
    · exact stl_away_late hclean (Prod.ext rfl hp) haway ((storeWaits_iff _).mpr hlate) hroom hchannel
  · refine ⟨heldStore_waits hevent, fun htiles hown hin => ?_, fun htiles hown hdev => ?_⟩
    · subst hown
      obtain ⟨hctxs, hbytes, houtside⟩ := bankWrite_inside (freed s r) r.issuer.core hin
      refine ⟨_, (exec_heldStore hevent).trans (congrArg _ (heldStore_own hkind htiles)), ?_, hbytes, houtside⟩
      rw [State.ctx, hctxs]
      exact late_freed s r
    · subst hown
      have hrun := (exec_heldStore hevent).trans (congrArg _ ((heldStore_away hkind htiles).trans (sendHeld_device hdev)))
      cases hdie : paOnDie r.pa with
      | true =>
        rw [hdie, if_pos rfl] at hrun
        exact ⟨_, hrun, late_freed s r, ⟨rfl, rfl⟩, fun _ => rfl, fun h => Bool.noConfusion h⟩
      | false =>
        rw [hdie, if_neg Bool.false_ne_true] at hrun
        exact ⟨_, hrun, late_freed s r, ⟨rfl, rfl⟩, fun h => Bool.noConfusion h, fun _ => rfl⟩

end Sys2Proof.Proofs.Ordering

/-! SUPPORT. CAS and the AMOs on plain local memory (R286 to R288). -/

namespace Sys2Proof.Proofs.Atomics

open Machine LoadsAndStores

/-! ### Register words taken with their poison -/

theorem keeps_poisG (x : Ctx) (r : Reg) : Keeps [r] [] [] [] x (x.poisG r) := by
  refine ⟨fun k hk => ⟨by simp [Ctx.greg], ?_⟩, fun _ _ => by simp [Ctx.qreg], fun _ _ => by simp [Ctx.vreg],
    fun _ _ => by simp [Ctx.cwv], by simp, by simp⟩
  have hne : k ≠ r := fun h => hk (by simp [h])
  have hval : k.toNat ≠ r.toNat := fun h => hne (BitVec.eq_of_toNat_eq h)
  have hbit : ((1 : BitVec 32) <<< r.toNat).getLsbD k.toNat = false := by
    rw [BitVec.getLsbD_shiftLeft, show (1 : BitVec 32) = 1#32 from rfl, BitVec.getLsbD_one]
    rcases Nat.lt_or_gt_of_ne hval with hlt | hgt
    · simp [hlt]
    · simp [Nat.sub_ne_zero_of_lt hgt]
  rw [Ctx.poisG]
  split
  · rfl
  · exact (BitVec.getLsbD_or ..).trans (by rw [hbit, Bool.or_false])

theorem spot_poisG (x : Ctx) (r : Reg) : SameSpot x (x.poisG r) := ⟨by simp, by simp, by simp⟩

/-- A poisoned word taken into a register, and the instruction past. -/
theorem load_bad_advance (x : Ctx) (d : Reg) (w : Word) :
    let y := (x.load d w true).advance
    (d ≠ 0 → y.greg d = w ∧ y.gpois.getLsbD d.toNat = true) ∧ Keeps [d] [] [] leftWords x y ∧ Past x y := by
  have hgo := keeps_advance (x.load d w true)
  refine ⟨fun hd => ⟨?_, ?_⟩, ?_, ((spot_setG x d w).trans (spot_poisG _ d)).past (past_advance _)⟩
  · rw [greg_advance, greg_load, if_neg hd]
  · rw [(hgo.g d (by simp)).2, gpois_load_bad x w hd]
  · exact (((keeps_setG x d w).trans (keeps_poisG _ d)).mono (by simp) (by simp) (by simp) (by simp)).trans
      (hgo.mono (by simp) (by simp) (by simp) (by simp))

/-! ### What an atomic on plain local memory leaves -/

/-- The bytes of an atomic's word. -/
def amoBytes (w32 : Bool) : Nat := if w32 then 4 else 8

/-- The word an atomic compares with: gd's for CAS. -/
def amoExpected (s : State) (op : AmoOp) (d : Reg) : Word := if op = .cas then s.g d else 0

/-- The state that an atomic on plain local memory leaves. -/
def atomicEnd (s : State) (op : AmoOp) (w32 : Bool) (d a b : Reg) : State :=
  let (u, old, bad) := s.amoAt (s.myLoc (s.g a)) op w32 (s.g b) (amoExpected s op d)
  let u := u.localRecord s.cur.core (s.g a).toNat bad
  u.setMy (u.my.load d (amoResult w32 (op == .fadd) old bad) bad).advance

theorem amoBytes_pos (w32 : Bool) : 0 < amoBytes w32 := by cases w32 <;> decide

section
variable {s : State} {w32 : Bool} {sc : Scope} {d a b : Reg}

theorem opAtomic_local (i : Instr) {op : AmoOp} (hsc : sc ≠ .sys)
    (hclean : s.Clean (if op = .cas then [a, b, d] else [a, b]) []) (hplain : s.PlainLocal (s.g a) (amoBytes w32)) :
    opAtomic s i op w32 sc d a b = .next (atomicEnd s op w32 d a b) := by
  have hpos := amoBytes_pos w32
  have hin : (s.g a).toNat < 0x40000 := by have := hplain.inside; omega
  have haligned : ¬ (s.g a).toNat % amoBytes w32 ≠ 0 := not_not.mpr hplain.aligned
  refine congrArg Host.Outcome.next ((guardP_clean hclean _).trans ((if_neg haligned).trans ?_))
  rw [VectorMemory.resolve_local _ hin (hplain.noStash 0 hpos)]
  refine (if_neg (Nat.not_lt_zero _)).trans ((VectorMemory.watched_noBreak hplain.noBreak _ _ _ _).trans ?_)
  cases sc with
  | sys => exact absurd rfl hsc
  | blk => rfl
  | cls => rfl
  | dev => rfl

theorem readBad_plain (hplain : s.PlainLocal (s.g a) (amoBytes w32)) :
    s.readBad (s.myLoc (s.g a)) (amoBytes w32) = s.poisAt (s.myLoc (s.g a)) (amoBytes w32) := by
  have hlocal : (s.myLoc (s.g a)).testBit 42 = true :=
    Bookkeeping.localLoc_onDie _ (by have := hplain.inside; omega)
  rw [State.readBad, hlocal]
  simp

/-! ### A poisoned word (R288, R378) -/

theorem my_poisonRecord (s : State) (die : Fin 4) (region pa source : Nat) : (s.poisonRecord die region pa source).my = s.my := by
  have h := Bookkeeping.tended_poisonRecord s die region pa source
  rw [State.my, State.my, State.ctx, State.ctx, h.ctxs, h.cur]

theorem atomicEnd_poisoned {op : AmoOp} (h : s.readBad (s.myLoc (s.g a)) (amoBytes w32) = true) :
    atomicEnd s op w32 d a b
      = (s.poisonRecord s.cur.core.die (s.regionOf s.cur) (s.corePa s.cur.core (s.g a).toNat) 2).setMy
        (s.my.load d (BitVec.ofNat 64 (s.readLE (s.myLoc (s.g a)) (amoBytes w32))) true).advance := by
  have hat : s.amoAt (s.myLoc (s.g a)) op w32 (s.g b) (amoExpected s op d)
      = (s, s.readLE (s.myLoc (s.g a)) (amoBytes w32), true) := if_pos h
  have hres : ∀ old, amoResult w32 (op == .fadd) old true = BitVec.ofNat 64 old := fun old => by
    rw [amoResult, Bool.not_true, Bool.and_false, if_neg Bool.false_ne_true, word]
  rw [atomicEnd, hat]
  simp only [State.localRecord, if_true, my_poisonRecord, hres]

theorem poisonRecord_off {die : Fin 4} {region pa source : Nat} (h : (s.regEff region 20).getLsbD 63 = false) :
    s.poisonRecord die region pa source = s := by
  have hoff : bit (s.regEff region 20) 63 = false := h
  rw [State.poisonRecord, State.annals]
  simp only [hoff, Bool.false_and, Bool.false_eq_true, if_false]

end

/-! ### A word that is not poisoned (R287) -/

/-- The memory after an atomic on n bytes that are not poisoned. -/
def amoMemory (s : State) (op : AmoOp) (n loc : Nat) (x e : Word) : State :=
  match amoNew op n (s.readLE loc n) x.toNat e.toNat with
  | some v => s.poke loc (leBytes n v) false
  | none => s

/-- The word after it: the value of R287, or the old one where none is written. -/
def amoWord (s : State) (op : AmoOp) (n loc : Nat) (x e : Word) : Nat :=
  match amoNew op n (s.readLE loc n) x.toNat e.toNat with
  | some v => v % 256 ^ n
  | none => s.readLE loc n

section
variable (s : State) (op : AmoOp) (n loc : Nat) (x e : Word)

theorem readLE_amoMemory : (amoMemory s op n loc x e).readLE loc n = amoWord s op n loc x e := by
  rw [amoMemory, amoWord]
  split
  · exact readLE_poke s loc n _ false
  · rfl

theorem byte_amoMemory {c : Nat} (hc : c < loc ∨ loc + n ≤ c) : (amoMemory s op n loc x e).byte c = s.byte c := by
  rw [amoMemory]
  split
  · exact byte_poke_outside s loc _ false (by rwa [leBytes_length])
  · rfl

/-- An atomic's write is nothing but a write of memory. -/
theorem amoMemory_eq : ∃ mem pois, amoMemory s op n loc x e = { s with mem := mem, pois := pois } := by
  rw [amoMemory]
  split
  · exact ⟨_, _, rfl⟩
  · exact ⟨_, _, rfl⟩

end

theorem readLE_done (s : State) (d : Reg) (w : Word) (loc n : Nat) : (s.done d w).readLE loc n = s.readLE loc n :=
  congrArg leNat (bytes_congr (s := s) (t := s.done d w) rfl loc n)
theorem byte_done (s : State) (d : Reg) (w : Word) (c : Nat) : (s.done d w).byte c = s.byte c := rfl

/-- gd written over a write of memory: nothing else of the device differs. -/
theorem done_over_memory (s : State) (mem : Table Byte) (pois : List Nat) (d : Reg) (w : Word) :
    let t := State.done { s with mem := mem, pois := pois } d w
    (d ≠ 0 → t.g d = w) ∧ OnlyMemAndMine s t ∧ Keeps [d] [] [] leftWords s.my t.my ∧ Past s.my t.my := by
  obtain ⟨-, hkeeps, hpast⟩ := regFrame_done { s with mem := mem, pois := pois } d w
  exact ⟨fun hd => (g_done _ d w).trans (if_neg hd), ⟨rfl, fun c hc => ctx_setCtx_other _ _ hc⟩, hkeeps, hpast⟩

theorem amoAt_clean {s : State} {op : AmoOp} {w32 : Bool} {loc : Nat} {x e : Word}
    (h : s.readBad loc (amoBytes w32) = false) :
    s.amoAt loc op w32 x e = (amoMemory s op (amoBytes w32) loc x e, s.readLE loc (amoBytes w32), false) := by
  rw [amoBytes] at h
  simp only [State.amoAt, amoMemory, amoBytes, h, Bool.false_eq_true, if_false]
  generalize amoNew op (if w32 = true then 4 else 8) (s.readLE loc (if w32 = true then 4 else 8)) x.toNat e.toNat = new
  cases new <;> rfl

/-- gd takes the old value. -/
theorem atomicEnd_clean {s : State} {op : AmoOp} {w32 : Bool} {d a b : Reg}
    (h : s.readBad (s.myLoc (s.g a)) (amoBytes w32) = false) :
    atomicEnd s op w32 d a b
      = (amoMemory s op (amoBytes w32) (s.myLoc (s.g a)) (s.g b) (amoExpected s op d)).done d
        (amoResult w32 (op == .fadd) (s.readLE (s.myLoc (s.g a)) (amoBytes w32)) false) := by
  rw [atomicEnd, amoAt_clean h]
  rfl

/-- What the claim says of one atomic: on a word that is not poisoned, and on one that is. -/
def AmoRuns (s : State) (n : Nat) (d a : Reg) (i : Instr) (new : Nat) (res : Word) : Prop :=
  let loc := s.myLoc (s.g a)
  (s.poisAt loc n = false → CompletesWith (exec i s) (fun t =>
      t.readLE loc n = new ∧ (∀ c, c < loc ∨ loc + n ≤ c → t.byte c = s.byte c)
      ∧ (d ≠ 0 → t.g d = res) ∧ OnlyMemAndMine s t ∧ Keeps [d] [] [] leftWords s.my t.my ∧ Past s.my t.my))
    ∧ (s.poisAt loc n = true → CompletesWith (exec i s) (fun t =>
      (d ≠ 0 → t.g d = BitVec.ofNat 64 (s.readLE loc n) ∧ t.my.gpois.getLsbD d.toNat = true)
      ∧ SameMem (s.poisonRecord s.cur.core.die (s.regionOf s.cur) (s.corePa s.cur.core (s.g a).toNat) 2) t
      ∧ ((s.regEff (s.regionOf s.cur) 20).getLsbD 63 = false → SameMem s t)
      ∧ Keeps [d] [] [] leftWords s.my t.my ∧ Past s.my t.my))

section
variable {s : State} {w32 : Bool} {sc : Scope} {d a b : Reg}

theorem amoRuns_of_opAtomic {i : Instr} {op : AmoOp} (hrun : exec i s = opAtomic s i op w32 sc d a b) (hsc : sc ≠ .sys)
    (hclean : s.Clean (if op = .cas then [a, b, d] else [a, b]) []) (hplain : s.PlainLocal (s.g a) (amoBytes w32)) :
    AmoRuns s (amoBytes w32) d a i (amoWord s op (amoBytes w32) (s.myLoc (s.g a)) (s.g b) (amoExpected s op d))
      (amoResult w32 (op == .fadd) (s.readLE (s.myLoc (s.g a)) (amoBytes w32)) false) := by
  have hend := hrun.trans (opAtomic_local i hsc hclean hplain)
  refine ⟨fun hpois => ⟨_, hend, ?_⟩, fun hpois => ⟨_, hend, ?_⟩⟩
  · rw [atomicEnd_clean ((readBad_plain hplain).trans hpois)]
    refine ⟨(readLE_done _ d _ _ _).trans (readLE_amoMemory s op _ _ _ _),
      fun c hc => (byte_done _ d _ c).trans (byte_amoMemory s op _ _ _ _ hc), ?_⟩
    obtain ⟨mem, pois, hmem⟩ := amoMemory_eq s op (amoBytes w32) (s.myLoc (s.g a)) (s.g b) (amoExpected s op d)
    rw [hmem]
    exact done_over_memory s mem pois d _
  · rw [atomicEnd_poisoned ((readBad_plain hplain).trans hpois)]
    obtain ⟨hg, hkeeps, hpast⟩ := load_bad_advance s.my d (BitVec.ofNat 64 (s.readLE (s.myLoc (s.g a)) (amoBytes w32)))
    refine ⟨?_, ⟨rfl, rfl⟩, fun hoff => ?_, ?_, ?_⟩
    · rw [State.g, my_setMy]
      exact hg
    · rw [poisonRecord_off hoff]
      exact ⟨rfl, rfl⟩
    · rw [my_setMy]
      exact hkeeps
    · rw [my_setMy]
      exact hpast

/-- The same with the word and the result as the claim names them. -/
theorem amoRuns {i : Instr} {op : AmoOp} (new : Nat) (res : Word) (hrun : exec i s = opAtomic s i op w32 sc d a b)
    (hsc : sc ≠ .sys) (hclean : s.Clean (if op = .cas then [a, b, d] else [a, b]) [])
    (hplain : s.PlainLocal (s.g a) (amoBytes w32))
    (hnew : amoWord s op (amoBytes w32) (s.myLoc (s.g a)) (s.g b) (amoExpected s op d) = new)
    (hres : amoResult w32 (op == .fadd) (s.readLE (s.myLoc (s.g a)) (amoBytes w32)) false = res) :
    AmoRuns s (amoBytes w32) d a i new res := by
  subst hnew hres
  exact amoRuns_of_opAtomic hrun hsc hclean hplain

end

/-! ### The words of R287 -/

section
variable {s : State} {op : AmoOp} {n loc : Nat} {x e : Word}

theorem amoWord_of_some {v : Nat} (h : amoNew op n (s.readLE loc n) x.toNat e.toNat = some v) (hlt : v < 2 ^ (8 * n)) :
    amoWord s op n loc x e = v := by
  rw [amoWord, h]
  exact (congrArg (v % ·) (ByteStrings.pow_256 n)).trans (Nat.mod_eq_of_lt hlt)

theorem amoWord_of_none (h : amoNew op n (s.readLE loc n) x.toNat e.toNat = none) :
    amoWord s op n loc x e = s.readLE loc n := by
  rw [amoWord, h]

/-- The operand as the bytes of a word take it. -/
theorem operand_lt (n : Nat) (x : Word) : x.toNat % 2 ^ (8 * n) < 2 ^ (8 * n) := Nat.mod_lt _ (Nat.two_pow_pos _)

theorem choice_lt {p : Prop} [Decidable p] (s : State) (n loc : Nat) (x : Word) :
    (if p then x.toNat % 2 ^ (8 * n) else s.readLE loc n) < 2 ^ (8 * n) := by
  split
  · exact operand_lt n x
  · exact readLE_lt s loc n

variable (s n loc x e)

theorem amoWord_cas : amoWord s .cas n loc x e
    = if s.readLE loc n = e.toNat % 256 ^ n then x.toNat % 256 ^ n else s.readLE loc n := by
  rw [ByteStrings.pow_256]
  split
  · next h => exact amoWord_of_some (if_pos h) (operand_lt n x)
  · next h => exact amoWord_of_none (if_neg h)

theorem amoWord_add : amoWord s .add n loc x e = (s.readLE loc n + x.toNat % 256 ^ n) % 256 ^ n := by
  rw [ByteStrings.pow_256]
  exact amoWord_of_some rfl (Nat.mod_lt _ (Nat.two_pow_pos _))

theorem amoWord_and : amoWord s .and n loc x e = s.readLE loc n &&& x.toNat % 256 ^ n := by
  rw [ByteStrings.pow_256]
  exact amoWord_of_some rfl (Nat.and_lt_two_pow _ (operand_lt n x))

theorem amoWord_or : amoWord s .or n loc x e = s.readLE loc n ||| x.toNat % 256 ^ n := by
  rw [ByteStrings.pow_256]
  exact amoWord_of_some rfl (Nat.or_lt_two_pow (readLE_lt s loc n) (operand_lt n x))

theorem amoWord_xor : amoWord s .xor n loc x e = s.readLE loc n ^^^ x.toNat % 256 ^ n := by
  rw [ByteStrings.pow_256]
  exact amoWord_of_some rfl (Nat.xor_lt_two_pow (readLE_lt s loc n) (operand_lt n x))

theorem amoWord_swap : amoWord s .swap n loc x e = x.toNat % 256 ^ n := by
  rw [ByteStrings.pow_256]
  exact amoWord_of_some rfl (operand_lt n x)

theorem amoWord_min : amoWord s .min n loc x e = if slane (8 * n) (x.toNat % 256 ^ n) < slane (8 * n) (s.readLE loc n)
    then x.toNat % 256 ^ n else s.readLE loc n := by
  rw [ByteStrings.pow_256]
  exact amoWord_of_some rfl (choice_lt s n loc x)

theorem amoWord_max : amoWord s .max n loc x e = if slane (8 * n) (s.readLE loc n) < slane (8 * n) (x.toNat % 256 ^ n)
    then x.toNat % 256 ^ n else s.readLE loc n := by
  rw [ByteStrings.pow_256]
  exact amoWord_of_some rfl (choice_lt s n loc x)

theorem amoWord_minu : amoWord s .minu n loc x e = min (s.readLE loc n) (x.toNat % 256 ^ n) := by
  rw [ByteStrings.pow_256]
  exact amoWord_of_some rfl (lt_of_le_of_lt (min_le_right _ _) (operand_lt n x))

theorem amoWord_maxu : amoWord s .maxu n loc x e = max (s.readLE loc n) (x.toNat % 256 ^ n) := by
  rw [ByteStrings.pow_256]
  exact amoWord_of_some rfl (max_lt (readLE_lt s loc n) (operand_lt n x))

/-- FADD's word is 32 bits wide. -/
theorem amoWord_fadd : amoWord s .fadd 4 loc x e = (fadd 23 0 (s.readLE loc 4) (x.toNat % 256 ^ 4)).1 % 2 ^ 32 := by
  rw [ByteStrings.pow_256]
  rfl

end

/-- CAS and every AMO but FADD: a 32-bit old value comes sign-extended. -/
theorem amoResult_int (w32 : Bool) (old : Nat) :
    amoResult w32 false old false = if w32 then (BitVec.ofNat 32 old).signExtend 64 else BitVec.ofNat 64 old := by
  cases w32 <;> rfl

theorem atomicResults : Claim.AtomicResults := by
  intro s w32 sc d a b hsc hclean n loc old x e sg runs v hplain
  refine ⟨fun hd => ?_, ?_, ?_, ?_, ?_, ?_, ?_, ?_, ?_, ?_, fun hw => ?_⟩
  · have hall : s.Clean [a, b, d] [] := by
      rw [clean_iff] at hclean hd ⊢
      simp_all
    exact amoRuns _ _ rfl hsc hall hplain (amoWord_cas s n loc (s.g b) (s.g d)) (amoResult_int w32 old)
  · exact amoRuns (op := .add) _ _ rfl hsc hclean hplain (amoWord_add s n loc (s.g b) 0) (amoResult_int w32 old)
  · exact amoRuns (op := .and) _ _ rfl hsc hclean hplain (amoWord_and s n loc (s.g b) 0) (amoResult_int w32 old)
  · exact amoRuns (op := .or) _ _ rfl hsc hclean hplain (amoWord_or s n loc (s.g b) 0) (amoResult_int w32 old)
  · exact amoRuns (op := .xor) _ _ rfl hsc hclean hplain (amoWord_xor s n loc (s.g b) 0) (amoResult_int w32 old)
  · exact amoRuns (op := .swap) _ _ rfl hsc hclean hplain (amoWord_swap s n loc (s.g b) 0) (amoResult_int w32 old)
  · exact amoRuns (op := .min) _ _ rfl hsc hclean hplain (amoWord_min s n loc (s.g b) 0) (amoResult_int w32 old)
  · exact amoRuns (op := .max) _ _ rfl hsc hclean hplain (amoWord_max s n loc (s.g b) 0) (amoResult_int w32 old)
  · exact amoRuns (op := .minu) _ _ rfl hsc hclean hplain (amoWord_minu s n loc (s.g b) 0) (amoResult_int w32 old)
  · exact amoRuns (op := .maxu) _ _ rfl hsc hclean hplain (amoWord_maxu s n loc (s.g b) 0) (amoResult_int w32 old)
  · subst hw
    exact amoRuns (op := .fadd) _ _ rfl hsc hclean hplain (amoWord_fadd s loc (s.g b) 0) rfl

/-- Settles O38: GANG by the members its barrier holds and releases, its timeouts and the ordered accesses by what their checks
left, the atomics by the word of R287. -/
theorem gangsOrderingAndAtomics : Obligations.GangsOrderingAndAtomics := by
  unfold Obligations.GangsOrderingAndAtomics
  exact ⟨Gangs.gangBarrier, GangTimeouts.gangTimeouts, Ordering.orderingInstructions, atomicResults⟩

end Sys2Proof.Proofs.Atomics

/-! SUPPORT. The ready queue of a cluster and the counts of LIVE: what one entry more, one live task or armed entry more or less,
and a slot that takes a task leave (R59, R168, R170 to R174). -/

namespace Sys2Proof.Proofs.ReadyQueue

open Machine Bookkeeping TaskEnds

/-! ### The counts of LIVE (R168, R170) -/

theorem liveArmed_lt (s : State) (r : Nat) : s.liveArmed r < 2 ^ 32 := bits_lt _ 63 32

theorem live_setLive (s : State) (r tasks armed : Nat) : (s.setLive r tasks armed).liveTasks r = tasks % 2 ^ 32
    ∧ (s.setLive r tasks armed).liveArmed r = armed % 2 ^ 32 := by
  have hlow : tasks % 2 ^ 32 < 2 ^ 32 := Nat.mod_lt _ (by decide)
  have hhigh : armed % 2 ^ 32 < 2 ^ 32 := Nat.mod_lt _ (by decide)
  simp only [State.liveTasks, State.liveArmed, State.setLive, RegionBlocks.regOwn_regPut_same, bits, bitsN, word,
    BitVec.toNat_ofNat]
  omega

theorem live_liveUp (s : State) (r : Nat) : (s.liveUp r).liveTasks r = (s.liveTasks r + 1) % 2 ^ 32
    ∧ (s.liveUp r).liveArmed r = s.liveArmed r := by
  obtain ⟨htasks, harmed⟩ := live_setLive s r (s.liveTasks r + 1) (s.liveArmed r)
  exact ⟨htasks, harmed.trans (Nat.mod_eq_of_lt (liveArmed_lt s r))⟩

theorem live_armUp (s : State) (r : Nat) : (s.armUp r).liveTasks r = s.liveTasks r
    ∧ (s.armUp r).liveArmed r = (s.liveArmed r + 1) % 2 ^ 32 := by
  obtain ⟨htasks, harmed⟩ := live_setLive s r (s.liveTasks r) (s.liveArmed r + 1)
  exact ⟨htasks.trans (Nat.mod_eq_of_lt (liveTasks_lt s r)), harmed⟩

theorem liveArmed_armDown (s : State) (r : Nat) : (s.armDown r).liveArmed r = s.liveArmed r - 1 :=
  (live_setLive s r (s.liveTasks r) (s.liveArmed r - 1)).2.trans
    (Nat.mod_eq_of_lt (lt_of_le_of_lt (Nat.sub_le _ _) (liveArmed_lt s r)))

theorem byte_setLive (s : State) (r tasks armed : Nat) {a : Nat} (h : a < s.regLoc r 14 ∨ s.regLoc r 14 + 8 ≤ a) :
    (s.setLive r tasks armed).byte a = s.byte a := RegionBlocks.byte_regPut s r 14 _ h

/-- The queue, the rings and the pressure of a cluster do not change with the counts of LIVE. -/
theorem queue_setLive (s : State) (r tasks armed : Nat) (cl : ClusterId) :
    ((s.setLive r tasks armed).cluster cl).queue = (s.cluster cl).queue := by
  obtain ⟨lines, hlines⟩ := cluster_setLive s r tasks armed cl
  rw [hlines]

/-! ### One entry more (R171, R192) -/

/-- A cluster with one entry more, whose cost joins the pressure. -/
def withEntry (x : Cluster) (e : QEntry) (cost : Nat) : Cluster := { x with queue := x.queue ++ [e], sum := x.sum + cost }

/-- An entry joins the queue of a cluster, which then looks for a slot. -/
def enqueued (s : State) (cl : ClusterId) (e : QEntry) (cost : Nat) : State :=
  (((s.setCluster cl { s.cluster cl with queue := (s.cluster cl).queue ++ [e] }).press cl cost).post (.dispatch cl))

theorem cluster_enqueued (s : State) (cl : ClusterId) (e : QEntry) (cost : Nat) :
    (enqueued s cl e cost).cluster cl = withEntry (s.cluster cl) e cost := by
  rw [enqueued, cluster_post, State.press, cluster_setCluster_same, cluster_setCluster_same]
  rfl

theorem queueEntry_room {s : State} {cl : ClusterId} {e : QEntry} (hlen : (s.cluster cl).queue.length < 256)
    (hring : (s.ring cl e.msg.region).held = 0) (cost : Nat) : s.queueEntry cl e cost = enqueued s cl e cost := by
  rw [State.queueEntry]
  exact if_neg (by omega)

/-! ### A slot takes a task (R59, R71, R205) -/

/-- What a cluster counts for its adaptive loop leaves its queue, its rings and its pressure. -/
theorem cluster_adaptCount (s : State) (cl : ClusterId) (stamp : Nat) (d : ClusterId) :
    ∃ n sum, (s.adaptCount cl stamp).cluster d = { s.cluster d with adaptN := n, adaptSum := sum } := by
  simp only [State.adaptCount]
  split
  · by_cases hd : d = cl
    · rw [hd, cluster_setCluster_same]
      exact ⟨_, _, rfl⟩
    · rw [cluster_setCluster_other _ _ hd]
      exact ⟨_, _, rfl⟩
  · exact ⟨_, _, rfl⟩

theorem adaptCount_rest (s : State) (cl : ClusterId) (stamp : Nat) : (s.adaptCount cl stamp).ctxs = s.ctxs
    ∧ SameMem s (s.adaptCount cl stamp) := by
  simp only [State.adaptCount]
  split <;> exact ⟨rfl, rfl, rfl⟩

/-- What a slot's start leaves: the slot holds the context, and no other context, no memory and no queue differs. -/
structure Entered (s t : State) (c : CtxId) (x : Ctx) : Prop where
  ctx : t.ctx c = x
  others : ∀ d, d ≠ c → t.ctx d = s.ctx d
  mem : SameMem s t
  clusters : ∀ cl, ∃ n sum, t.cluster cl = { s.cluster cl with adaptN := n, adaptSum := sum }

theorem entered_enterSlot (s : State) (c : CtxId) (x : Ctx) (r stamp : Nat) : Entered s (s.enterSlot c x r stamp) c x := by
  have hset : ∀ u : State, u = (((s.setCore c.core { s.core c.core with lineBuf := [] }).setCtx c x).count c.core 0x16 (some r) 1) →
      u.ctxs = tput s.ctxs c.key x ∧ SameMem s u ∧ u.clusters = s.clusters := by
    rintro u rfl
    exact ⟨rfl, ⟨rfl, rfl⟩, rfl⟩
  rw [State.enterSlot]
  obtain ⟨hctxs, ⟨hmem, hpois⟩, hclusters⟩ := hset _ rfl
  generalize ((s.setCore c.core { s.core c.core with lineBuf := [] }).setCtx c x).count c.core 0x16 (some r) 1 = u at *
  obtain ⟨hctxs', hmem', hpois'⟩ := adaptCount_rest u c.core.cluster stamp
  refine ⟨?_, fun d hd => ?_, ⟨hmem'.trans hmem, hpois'.trans hpois⟩, fun cl => ?_⟩
  · rw [State.ctx, hctxs', hctxs, tget_tput_same]
  · rw [State.ctx, hctxs', hctxs]
    exact ctx_setCtx_other s x hd
  · have hcl : u.cluster cl = s.cluster cl := by rw [State.cluster, hclusters, State.cluster]
    rw [← hcl]
    exact cluster_adaptCount u c.core.cluster stamp cl

/-! ### The context a task starts with (R59, R168, R177) -/

/-- Writing registers of a context without poison changes the registers alone. -/
theorem writes_registers {x : Ctx} (h : x.gpois = 0) (l : List (Reg × Word)) :
    ∃ g, l.foldl (fun x e => x.setG e.1 e.2) x = { x with g := g } := by
  induction l generalizing x with
  | nil => exact ⟨x.g, rfl⟩
  | cons e l ih =>
    have hone : ∃ g, x.setG e.1 e.2 = { x with g := g } := by
      rw [Ctx.setG]
      split
      · exact ⟨x.g, rfl⟩
      · have hpois : x.gpois &&& ~~~((1 : BitVec 32) <<< e.1.toNat) = x.gpois := by
          rw [h]
          exact BitVec.zero_and
        exact ⟨tput x.g e.1.toNat e.2, by rw [hpois]⟩
    obtain ⟨g, hg⟩ := hone
    rw [List.foldl_cons, hg]
    obtain ⟨g', hg'⟩ := ih (x := { x with g := g }) h
    exact ⟨g', hg'⟩

theorem greg_writes_other (l : List (Reg × Word)) {r : Reg} (h : r ∉ l.map Prod.fst) (x : Ctx) :
    (l.foldl (fun x e => x.setG e.1 e.2) x).greg r = x.greg r := by
  induction l generalizing x with
  | nil => rfl
  | cons e l ih =>
    rw [List.map_cons, List.mem_cons, not_or] at h
    rw [List.foldl_cons, ih h.2, greg_setG_other _ _ h.1]

theorem greg_writes_mem {l : List (Reg × Word)} (hdup : (l.map Prod.fst).Nodup) {r : Reg} {w : Word} (hr : r ≠ 0)
    (h : (r, w) ∈ l) (x : Ctx) : (l.foldl (fun x e => x.setG e.1 e.2) x).greg r = w := by
  induction l generalizing x with
  | nil => exact absurd h List.not_mem_nil
  | cons e l ih =>
    rw [List.map_cons, List.nodup_cons] at hdup
    rw [List.foldl_cons]
    rcases List.mem_cons.mp h with rfl | hl
    · rw [greg_writes_other l hdup.1, greg_setG_same _ _ hr]
    · exact ih hdup.2 hl _

/-- The context of a slot before its mode, its stamps and its stack top: entry, task and arguments. -/
def argued (m : TaskMsg) (tk : Task) : Ctx :=
  (argRegs.zip m.args).foldl (fun x e => x.setG e.1 e.2) { pc := m.entry, task := some tk }

theorem argued_eq (m : TaskMsg) (tk : Task) : ∃ g, argued m tk = { pc := m.entry, task := some tk, g := g } :=
  writes_registers (x := { pc := m.entry, task := some tk }) rfl _

theorem map_fst_arguments {m : TaskMsg} (h : m.args.length = 6) : (argRegs.zip m.args).map Prod.fst = argRegs :=
  List.map_fst_zip (by rw [h]; decide)

theorem greg_argued {m : TaskMsg} (h : m.args.length = 6) (tk : Task) {j : Nat} (hj : j < 6) :
    (argued m tk).greg (BitVec.ofNat 5 (10 + j)) = m.args.getD j 0 := by
  have hlen : j < argRegs.length := hj
  have hreg : argRegs[j] = BitVec.ofNat 5 (10 + j) := by
    interval_cases j <;> rfl
  refine greg_writes_mem (by rw [map_fst_arguments h]; decide) (by interval_cases j <;> decide) ?_ _
  rw [← hreg, List.getD_eq_getElem _ _ (by omega), ← List.getElem_zip (h := by rw [List.length_zip, h]; exact lt_min hlen hj)]
  exact List.getElem_mem _

theorem greg_argued_other {m : TaskMsg} (h : m.args.length = 6) (tk : Task) {j : Reg} (hj : j ∉ argRegs) :
    (argued m tk).greg j = 0 := by
  rw [argued, greg_writes_other _ (by rw [map_fst_arguments h]; exact hj), Ctx.greg]
  exact ite_self 0

end Sys2Proof.Proofs.ReadyQueue

/-! SUPPORT. Where tasks go: the placement rule's decision at a cluster, the package hub, armed entries (R171, R173, R174, R193, R198
to R201; log entries 1, 29 and 56). -/

namespace Sys2Proof.Proofs.Placement

open Machine Bookkeeping TaskEnds ReadyQueue

/-! ### The decision of a cycle (R193, R198) -/

/-- A cluster that has taken its placement decision of the cycle. -/
def decisionTaken (s : State) (cl : ClusterId) : State := s.setCluster cl { s.cluster cl with placed := some s.time }

theorem cluster_decisionTaken (s : State) (cl c : ClusterId) :
    ∃ p, (decisionTaken s cl).cluster c = { s.cluster c with placed := p } := by
  by_cases hc : c = cl
  · rw [decisionTaken, hc, cluster_setCluster_same]
    exact ⟨_, rfl⟩
  · rw [decisionTaken, cluster_setCluster_other _ _ hc]
    exact ⟨_, rfl⟩

theorem mayStay_decisionTaken (s : State) (cl c : ClusterId) (m : TaskMsg) :
    (decisionTaken s cl).mayStay c m = s.mayStay c m := by
  obtain ⟨p, hp⟩ := cluster_decisionTaken s cl c
  rw [State.mayStay, hp]
  rfl

theorem report_decisionTaken (s : State) (cl : ClusterId) (d : Fin 4) (n f : Nat) :
    (decisionTaken s cl).report d n f = s.report d n f := by
  obtain ⟨p, hp⟩ := cluster_decisionTaken s cl (clusterAt d n)
  rw [State.report, hp]
  rfl

theorem ports_decisionTaken (s : State) (cl c : ClusterId) (m : TaskMsg) : (decisionTaken s cl).ports c m = s.ports c m := by
  simp only [State.ports, report_decisionTaken]
  rfl

/-- The rule asks nothing that the decision itself changes. -/
theorem verdict_decisionTaken (s : State) (cl c : ClusterId) (m : TaskMsg) :
    (decisionTaken s cl).verdict c m = s.verdict c m := by
  obtain ⟨p, hp⟩ := cluster_decisionTaken s cl c
  simp only [State.verdict, mayStay_decisionTaken, ports_decisionTaken, hp]
  rfl

theorem fallbackOf_decisionTaken (s : State) (cl : ClusterId) (d : Fin 4) (m : TaskMsg) :
    (decisionTaken s cl).fallbackOf d m = s.fallbackOf d m := by
  simp only [State.fallbackOf, mayStay_decisionTaken]
  rfl

section
variable {s : State} {cl : ClusterId} {m : TaskMsg} {port : Fin 6} (hevent : s.event = .taskPlacement cl m port)
include hevent

theorem exec_pinned (htyp : m.typ = 2) : exec .taskPlacement s = .next (s.enqueuePinned cl m) := by
  show execTaskPlacement s = _
  simp only [execTaskPlacement, hevent, if_pos htyp]

theorem exec_waits_for_decision (htyp : m.typ ≠ 2) (hplaced : (s.cluster cl).placed = some s.time) :
    exec .taskPlacement s = .next (s.after 1 (.taskPlacement cl m port)) := by
  show execTaskPlacement s = _
  simp only [execTaskPlacement, hevent, if_neg htyp, if_pos hplaced]

theorem exec_decides (htyp : m.typ ≠ 2) (hplaced : (s.cluster cl).placed ≠ some s.time) :
    exec .taskPlacement s = .next ((decisionTaken s cl).placeBy cl m (s.verdict cl m)) := by
  rw [← verdict_decisionTaken s cl cl m]
  show execTaskPlacement s = _
  simp only [execTaskPlacement, hevent, if_neg htyp, if_neg hplaced]
  rfl

end

/-! ### Tasks that are enqueued (R171, R173, R200) -/

/-- A cluster holds a task as a new ready entry, and will look for a slot. -/
def Queued (s : State) (m : TaskMsg) (f : ClusterId) (t : State) : Prop :=
  (t.cluster f).queue = (s.cluster f).queue ++ [⟨m, s.time, 0, 0, 0, s.time⟩]
    ∧ (t.cluster f).sum = (s.cluster f).sum + m.cost ∧ SameMem s t ∧ t.agenda = s.agenda ++ [.ev (.dispatch f)]

theorem queued_enqueued (s : State) (m : TaskMsg) (f : ClusterId) :
    Queued s m f (enqueued s f ⟨m, s.time, 0, 0, 0, s.time⟩ m.cost) := by
  rw [Queued, cluster_enqueued]
  exact ⟨rfl, rfl, ⟨rfl, rfl⟩, rfl⟩

theorem enqueueTask_room {s : State} {f : ClusterId} {m : TaskMsg} (hlen : (s.cluster f).queue.length < 256)
    (hring : (s.ring f m.region).held = 0) :
    s.enqueueTask f m = enqueued s f ⟨m, s.time, 0, 0, 0, s.time⟩ m.cost := queueEntry_room hlen hring _

/-- After the decision of a cluster, the task joins any cluster that has room; the decision stays noted. -/
theorem queued_after_decision {s : State} {cl f : ClusterId} {m : TaskMsg} (hlen : (s.cluster f).queue.length < 256)
    (hring : (s.ring f m.region).held = 0) : Queued s m f ((decisionTaken s cl).enqueueTask f m)
      ∧ (f = cl → (((decisionTaken s cl).enqueueTask f m).cluster f).placed = some s.time) := by
  obtain ⟨p, hp⟩ := cluster_decisionTaken s cl f
  have hroom : (decisionTaken s cl).enqueueTask f m
      = enqueued (decisionTaken s cl) f ⟨m, s.time, 0, 0, 0, s.time⟩ m.cost :=
    enqueueTask_room (by rw [hp]; exact hlen) (by rw [State.ring, hp]; exact hring)
  rw [hroom]
  obtain ⟨hqueue, hsum, hmem, hagenda⟩ := queued_enqueued (decisionTaken s cl) m f
  rw [hp] at hqueue hsum
  refine ⟨⟨hqueue, hsum, hmem, hagenda⟩, fun hf => ?_⟩
  subst hf
  rw [cluster_enqueued, withEntry, decisionTaken, cluster_setCluster_same]

section
variable {s : State} {cl : ClusterId} {m : TaskMsg}

theorem enqueuePinned_failed (hfailed : (s.cluster cl).failed = true) :
    s.enqueuePinned cl m = s.endUnrun m 5 (s.workingFor cl.die) := if_pos hfailed

theorem enqueuePinned_closed (hfailed : (s.cluster cl).failed = false) (hclosed : (s.cluster cl).closed = true) :
    s.enqueuePinned cl m = s.endUnrun m 4 cl := (if_neg (by rw [hfailed]; decide)).trans (if_pos hclosed)

theorem enqueuePinned_full (hfailed : (s.cluster cl).failed = false) (hclosed : (s.cluster cl).closed = false)
    (hlen : 256 ≤ (s.cluster cl).queue.length) : s.enqueuePinned cl m = s.after 1 (.taskPlacement cl m 0) :=
  (if_neg (by rw [hfailed]; decide)).trans ((if_neg (by rw [hclosed]; decide)).trans (if_pos hlen))

theorem enqueuePinned_room (hfailed : (s.cluster cl).failed = false) (hclosed : (s.cluster cl).closed = false)
    (hlen : (s.cluster cl).queue.length < 256) :
    s.enqueuePinned cl m = enqueued s cl ⟨m, s.time, 0, 0, 0, s.time⟩ m.cost :=
  (if_neg (by rw [hfailed]; decide)).trans ((if_neg (by rw [hclosed]; decide)).trans (if_neg (by omega)))

end

/-! ### The package hub (R197, R201) -/

/-- Of the other dies, the lowest that a summary shows is the first of the siblings that it shows. -/
theorem find_siblings_lowest : ∀ (low : Fin 4 → Bool) (x y : Fin 4), x ≠ y → low y = true →
    (∀ z, z ≠ x → z < y → low z = false) → (siblings (some x)).find? low = some y := by
  decide +kernel

theorem find_siblings_none {low : Fin 4 → Bool} {x : Fin 4} (h : ∀ z, z ≠ x → low z = false) :
    (siblings (some x)).find? low = none := by
  rw [List.find?_eq_none]
  intro z hz
  have hne : z ≠ x := by
    rintro rfl
    simp [siblings] at hz
  rw [h z hne]
  exact Bool.false_ne_true

/-- The number of the field of a task's domain and kind. -/
theorem fieldNo_eq (d : Nat) (plane : Bool) : fieldNo d plane = 2 * d + (if plane then 1 else 0) := by
  cases plane <;> rfl

section
variable {s : State} {x : Fin 4} {m : TaskMsg} {h : Bool} (hevent : s.event = .switchForward (some x) m h)
include hevent

theorem exec_forward_low {y : Fin 4} {c : Nat} (hne : x ≠ y)
    (hlow : s.dieLow y (fieldNo (s.schedDom m.region) m.kind) = true)
    (hfirst : ∀ z, z ≠ x → z < y → s.dieLow z (fieldNo (s.schedDom m.region) m.kind) = false)
    (hc : tget none (s.die y).low (fieldNo (s.schedDom m.region) m.kind) = some c) :
    exec .switchForward s = .next (s.post (.taskPlacement (clusterAt y c) (s.routed y (hopOn m)) 5)) := by
  have hfind := find_siblings_lowest (fun z => s.dieLow z (fieldNo (s.schedDom m.region) m.kind)) x y hne hlow hfirst
  show execSwitchForward s = _
  simp only [execSwitchForward, hevent, hfind, State.deliverTask]
  have hc' : tget none (s.die y).low (fieldNo (s.schedDom (hopOn m).region) (hopOn m).kind) = some c := hc
  rw [hc']
  rfl

theorem exec_forward_fabric (hnone : ∀ z, z ≠ x → s.dieLow z (fieldNo (s.schedDom m.region) m.kind) = false)
    (hup : tget 63 s.plat.upDev (fieldNo (s.schedDom m.region) m.kind) < 63) :
    exec .switchForward s = .next ((s.fabric (.task s.dev s.dev (hopOn m) h)).leaveDevice m.region m.cat) := by
  have hfind := find_siblings_none (low := fun z => s.dieLow z (fieldNo (s.schedDom m.region) m.kind)) hnone
  show execSwitchForward s = _
  simp only [execSwitchForward, hevent, hfind, if_pos hup]

end

theorem leaveDevice_task {s : State} {region cat : Nat} (h : smem cat s.plat.faultHandlers = false) :
    s.leaveDevice region cat = s.liveDown region := by
  rw [State.leaveDevice, if_neg (by rw [h]; decide)]

/-! ### Armed entries (R170, R174) -/

/-- An armed task in the queue of a cluster, and charged to its region when it comes from another device (R201). -/
def takenIn (s : State) (cl : ClusterId) (m : TaskMsg) (far : Bool) : State :=
  if far then (s.setCluster cl { s.cluster cl with
    queue := (s.cluster cl).queue ++ [⟨m, s.time, 0, 0, 0, s.time⟩] }).liveUp m.region
  else s.setCluster cl { s.cluster cl with queue := (s.cluster cl).queue ++ [⟨m, s.time, 0, 0, 0, s.time⟩] }

theorem takenIn_effect (s : State) (cl : ClusterId) (m : TaskMsg) (far : Bool) :
    ((takenIn s cl m far).cluster cl).queue = (s.cluster cl).queue ++ [⟨m, s.time, 0, 0, 0, s.time⟩]
    ∧ (takenIn s cl m far).liveArmed m.region = s.liveArmed m.region
    ∧ (takenIn s cl m far).liveTasks m.region
      = (if far = true then (s.liveTasks m.region + 1) % 2 ^ 32 else s.liveTasks m.region)
    ∧ (takenIn s cl m far).time = s.time ∧ (takenIn s cl m far).timers = s.timers
    ∧ (takenIn s cl m far).counters = s.counters := by
  rw [takenIn]
  split
  · rw [(live_liveUp _ m.region).1, (live_liveUp _ m.region).2, State.liveUp, queue_setLive, cluster_setCluster_same]
    exact ⟨rfl, rfl, rfl, rfl, rfl, rfl⟩
  · rw [cluster_setCluster_same]
    exact ⟨rfl, rfl, rfl, rfl, rfl, rfl⟩

/-- It is one armed entry more of its region (R170). -/
def armedIn (s : State) (cl : ClusterId) (m : TaskMsg) (far : Bool) : State := (takenIn s cl m far).armUp m.region

theorem armedIn_effect (s : State) (cl : ClusterId) (m : TaskMsg) (far : Bool) :
    ((armedIn s cl m far).cluster cl).queue = (s.cluster cl).queue ++ [⟨m, s.time, 0, 0, 0, s.time⟩]
    ∧ (armedIn s cl m far).liveArmed m.region = (s.liveArmed m.region + 1) % 2 ^ 32
    ∧ (armedIn s cl m far).liveTasks m.region
      = (if far = true then (s.liveTasks m.region + 1) % 2 ^ 32 else s.liveTasks m.region) := by
  obtain ⟨hqueue, harmed, htasks, _⟩ := takenIn_effect s cl m far
  rw [armedIn, (live_armUp _ m.region).1, (live_armUp _ m.region).2, State.armUp, queue_setLive]
  exact ⟨hqueue, by rw [harmed], htasks⟩

theorem armedIn_rest (s : State) (cl : ClusterId) (m : TaskMsg) (far : Bool) : (armedIn s cl m far).time = s.time
    ∧ (armedIn s cl m far).timers = s.timers ∧ (armedIn s cl m far).counters = s.counters :=
  (takenIn_effect s cl m far).2.2.2

/-- The test of an armed task against the counter that releases it (R174). -/
def releases (s : State) (m : TaskMsg) : Bool :=
  ctrTest (s.ctr (paCoreId m.trig) ((paOff m.trig - 0x80000) / 4)) (BitVec.ofNat 32 m.target)

section
variable {s : State} {cl : ClusterId} {m : TaskMsg} (hevent : s.event = .armedTaskArrival cl m)
include hevent

theorem exec_armed_taken (hfailed : (s.cluster cl).failed = false) (hvalid : m.cat / 2 ^ 37 ≠ s.dev → s.regValid m.region = true)
    (hlen : (s.cluster cl).queue.length < 256) (harmed : (s.cluster cl).armed.length < 128) :
    exec .armedTaskArrival s = .next (if releases s m = true then
      (armedIn s cl m (decide (m.cat / 2 ^ 37 ≠ s.dev))).after 1 (.armedRelease cl m.cat)
      else armedIn s cl m (decide (m.cat / 2 ^ 37 ≠ s.dev))) := by
  have hknown : ¬ (decide (m.cat / 2 ^ 37 ≠ s.dev) && !s.regValid m.region) = true := by
    rw [Bool.and_eq_true, decide_eq_true_iff]
    rintro ⟨hfar, hbad⟩
    rw [hvalid hfar] at hbad
    exact Bool.false_ne_true hbad
  have htest : releases s m = releases (armedIn s cl m (decide (m.cat / 2 ^ 37 ≠ s.dev))) m := by
    rw [releases, releases, State.ctr, State.ctr, (armedIn_rest s cl m _).2.2]
  rw [htest]
  show execArmedTaskArrival s = _
  simp only [execArmedTaskArrival, hevent]
  refine congrArg Host.Outcome.next ((if_neg hknown).trans ((if_neg (by rw [hfailed]; decide)).trans
    ((if_neg (by omega)).trans ?_)))
  rfl

theorem exec_armed_failed (hfailed : (s.cluster cl).failed = true) (hhere : m.cat / 2 ^ 37 = s.dev) :
    exec .armedTaskArrival s = .next (s.endUnrun m 5 (s.workingFor cl.die)) := by
  have hfar : decide (m.cat / 2 ^ 37 ≠ s.dev) = false := decide_eq_false (fun hne => hne hhere)
  show execArmedTaskArrival s = _
  simp only [execArmedTaskArrival, hevent, hfar, hfailed, Bool.false_and, Bool.false_eq_true, if_false, if_true]

end

theorem timers_of_test (s : State) (cl : ClusterId) (m : TaskMsg) (far test : Bool) :
    (if test = true then (armedIn s cl m far).after 1 (.armedRelease cl m.cat) else armedIn s cl m far).timers
      = s.timers ++ (if test = true then [(s.time + 1, .armedRelease cl m.cat)] else []) := by
  obtain ⟨htime, htimers, _⟩ := armedIn_rest s cl m far
  cases test with
  | false => exact htimers.trans (List.append_nil _).symm
  | true => exact congrArg₂ (fun l n => l ++ [(n + 1, Event.armedRelease cl m.cat)]) htimers htime

theorem after_keeps (s : State) (cl : ClusterId) (m : TaskMsg) (test : Bool) (r : Nat) :
    let t := if test = true then s.after 1 (.armedRelease cl m.cat) else s
    (t.cluster cl).queue = (s.cluster cl).queue ∧ t.liveArmed r = s.liveArmed r ∧ t.liveTasks r = s.liveTasks r := by
  cases test <;> exact ⟨rfl, rfl, rfl⟩

/-- The entry that a release names is the first armed one of its catalogue number, and the first of its like. -/
theorem find_armed {l r : List QEntry} {e : QEntry} {cat : Nat} (htyp : e.msg.typ = 1) (hcat : e.msg.cat = cat)
    (hfirst : ∀ f ∈ l, ¬ (f.msg.typ = 1 ∧ f.msg.cat = cat)) :
    (l ++ e :: r).find? (fun e => e.msg.typ == 1 && e.msg.cat == cat) = some e ∧ (l ++ e :: r).erase e = l ++ r := by
  have hnot : e ∉ l := fun hmem => hfirst e hmem ⟨htyp, hcat⟩
  refine ⟨?_, ?_⟩
  · have hnone : l.find? (fun e => e.msg.typ == 1 && e.msg.cat == cat) = none := by
      rw [List.find?_eq_none]
      intro f hf
      rw [Bool.and_eq_true, beq_iff_eq, beq_iff_eq]
      exact hfirst f hf
    rw [List.find?_append, hnone, Option.none_or, List.find?_cons_of_pos (by rw [htyp, hcat]; simp)]
  · rw [List.erase_append_right _ hnot, List.erase_cons_head]

theorem exec_armedRelease {s : State} {cl : ClusterId} {cat : Nat} {e : QEntry} (hevent : s.event = .armedRelease cl cat)
    (hfind : (s.cluster cl).queue.find? (fun e => e.msg.typ == 1 && e.msg.cat == cat) = some e) :
    exec .armedRelease s
      = .next (((s.unqueue cl e).armDown e.msg.region).post (.taskPlacement cl { e.msg with typ := 0 } 0)) := by
  show execArmedRelease s = _
  simp only [execArmedRelease, hevent, hfind]

/-- An entry that leaves a queue with nothing spilled. -/
theorem unqueue_of_no_ring {s : State} {cl : ClusterId} (h : (s.cluster cl).rings = []) (e : QEntry) :
    s.unqueue cl e = s.setCluster cl { s.cluster cl with queue := (s.cluster cl).queue.erase e } :=
  refill_of_no_ring (by rw [cluster_setCluster_same]; exact h)

/-- An armed entry less, and its task on the way to the placement rule. -/
theorem released_effect (s : State) (cl : ClusterId) (r : Nat) (e : Event) :
    (((s.armDown r).post e).cluster cl).queue = (s.cluster cl).queue
    ∧ ((s.armDown r).post e).liveArmed r = s.liveArmed r - 1 ∧ ((s.armDown r).post e).agenda = s.agenda ++ [.ev e] := by
  have hlive : ((s.armDown r).post e).liveArmed r = (s.armDown r).liveArmed r := rfl
  rw [cluster_post, hlive, liveArmed_armDown, State.armDown, queue_setLive, post_agenda, State.setLive, regPut_agenda]
  exact ⟨rfl, rfl, rfl⟩

theorem armedRelease_effect {s : State} {cl : ClusterId} {cat : Nat} {l r : List QEntry} {e : QEntry}
    (hevent : s.event = .armedRelease cl cat) (hqueue : (s.cluster cl).queue = l ++ e :: r) (htyp : e.msg.typ = 1)
    (hcat : e.msg.cat = cat) (hfirst : ∀ f ∈ l, ¬ (f.msg.typ = 1 ∧ f.msg.cat = cat)) (hrings : (s.cluster cl).rings = []) :
    CompletesWith (exec .armedRelease s) (fun t => (t.cluster cl).queue = l ++ r
      ∧ t.liveArmed e.msg.region = s.liveArmed e.msg.region - 1
      ∧ t.agenda = s.agenda ++ [.ev (.taskPlacement cl { e.msg with typ := 0 } 0)]) := by
  obtain ⟨hfind, herase⟩ := find_armed (r := r) htyp hcat hfirst
  rw [← hqueue] at hfind herase
  refine ⟨_, exec_armedRelease hevent hfind, ?_⟩
  rw [unqueue_of_no_ring hrings, herase]
  obtain ⟨hleft, hlive, hagenda⟩ := released_effect (s.setCluster cl { s.cluster cl with queue := l ++ r }) cl e.msg.region
    (.taskPlacement cl { e.msg with typ := 0 } 0)
  rw [cluster_setCluster_same] at hleft
  exact ⟨hleft, hlive, hagenda⟩

/-! ### The claim -/

theorem placement : Claim.Placement := by
  refine ⟨fun s cl m port hevent => ?_, fun s x y m c h hevent => ?_, fun s cl m hevent hfailed hvalid hlen harmed => ?_,
    fun s cl m hevent hfailed hhere => exec_armed_failed hevent hfailed hhere,
    fun s cl cat l r e hevent hqueue htyp hcat hfirst hrings => armedRelease_effect hevent hqueue htyp hcat hfirst hrings⟩
  · intro queued room next decided here takes
    refine ⟨fun htyp htakes hlen => ?_, fun htyp htakes hlen => ?_, fun htyp hfailed => ?_, fun htyp hfailed hclosed => ?_,
      fun htyp hplaced => exec_waits_for_decision hevent htyp hplaced, fun htyp hplaced => ?_⟩
    · refine ⟨_, exec_pinned hevent htyp, ?_⟩
      rw [enqueuePinned_room htakes.1 htakes.2 hlen]
      exact queued_enqueued s m cl
    · rw [exec_pinned hevent htyp, enqueuePinned_full htakes.1 htakes.2 hlen]
    · rw [exec_pinned hevent htyp, enqueuePinned_failed hfailed]
    · rw [exec_pinned hevent htyp, enqueuePinned_closed hfailed hclosed]
    · have hexec := exec_decides hevent htyp hplaced
      refine ⟨fun hstay hroom => ?_, fun n hmesh => ?_, fun hup => ?_, fun hfall f hf hroom => ?_⟩
      · obtain ⟨hqueued, hnoted⟩ := queued_after_decision (cl := cl) hroom.1 hroom.2
        rw [hstay] at hexec
        exact ⟨_, hexec, hqueued, hnoted rfl⟩
      · rw [hexec, hmesh]
        rfl
      · rw [hexec, hup]
        rfl
      · refine ⟨_, hexec, ?_⟩
        rw [hfall, State.placeBy, State.fallBack, fallbackOf_decisionTaken, hf]
        exact (queued_after_decision hroom.1 hroom.2).1
  · intro f next
    have hfield : f = fieldNo (s.schedDom m.region) m.kind := (fieldNo_eq _ _).symm
    rw [hfield]
    refine ⟨fun hne hlow hfirst hc => exec_forward_low hevent hne hlow hfirst hc, fun hnone hup hplain => ?_⟩
    refine ⟨_, exec_forward_fabric hevent hnone hup, ?_⟩
    rw [leaveDevice_task (s := s.fabric _) hplain]
    exact ⟨rfl, liveTasks_liveDown (s.fabric _) m.region⟩
  · refine ⟨_, exec_armed_taken hevent hfailed hvalid hlen harmed, ?_⟩
    obtain ⟨hqueue, harms, htasks⟩ := after_keeps (armedIn s cl m (decide (m.cat / 2 ^ 37 ≠ s.dev))) cl m (releases s m) m.region
    obtain ⟨hentry, hlive, hcharged⟩ := armedIn_effect s cl m (decide (m.cat / 2 ^ 37 ≠ s.dev))
    refine ⟨hqueue.trans hentry, harms.trans hlive, htasks.trans (hcharged.trans ?_),
      timers_of_test s cl m _ (releases s m)⟩
    simp

end Sys2Proof.Proofs.Placement

/-! SUPPORT. DISPATCH of a ready entry that stands alone in its cluster's queue: the slot it takes starts the task (R59, R168,
R172). -/

namespace Sys2Proof.Proofs.Dispatching

open Machine Bookkeeping TaskEnds ReadyQueue

/-! ### The context that a task starts with (R59, R168, R177) -/

/-- Entry, task, arguments and stack top. -/
def started (m : TaskMsg) (tk : Task) (top : Word) : Ctx := (argued m tk).setG 2 top

theorem started_eq (m : TaskMsg) (tk : Task) (top : Word) :
    ∃ g, started m tk top = { pc := m.entry, task := some tk, g := g } := by
  obtain ⟨g, hg⟩ := argued_eq m tk
  obtain ⟨g', hg'⟩ := writes_registers (x := { pc := m.entry, task := some tk, g := g }) rfl [(2, top)]
  exact ⟨g', by rw [started, hg]; exact hg'⟩

theorem greg_started {m : TaskMsg} (h : m.args.length = 6) (tk : Task) (top : Word) :
    (∀ j : Nat, j < 6 → (started m tk top).greg (BitVec.ofNat 5 (10 + j)) = m.args.getD j 0)
    ∧ (started m tk top).greg 2 = top ∧ ∀ j : Reg, j ≠ 2 → j ∉ argRegs → (started m tk top).greg j = 0 := by
  refine ⟨fun j hj => ?_, greg_setG_same _ _ (by decide), fun j hne hj => ?_⟩
  · rw [started, greg_setG_other _ _ (by interval_cases j <;> decide), greg_argued h tk hj]
  · rw [started, greg_setG_other _ _ hne, greg_argued_other h tk hj]

/-- The stack top of a slot (R168). -/
def stackTop (s : State) (c : CtxId) (r : Nat) : Word :=
  BitVec.ofNat 64 ((s.regEff r 12).toNat % 2 ^ 18) - BitVec.ofNat 64 (c.ctx.val * ((s.regEff r 12).toNat / 2 ^ 20 % 2 ^ 16))

theorem setUp_eq (s : State) (c : CtxId) (m : TaskMsg) (stamp defer : Nat) : s.setUp c m stamp defer
    = ((((((started m (s.taskOf m defer) (stackTop s c m.region)).setCw cwSTATUS
        (statusOf (s.taskOf m defer).sup (s.taskOf m defer).sup false)).setCw cwTVEC
        (s.regEff m.region 3 &&& 0xFFFFFFFFFFFFFFFC)).setCw cwTMASK (s.regEff m.region 4 &&& 0x1FFFE)).setCw cwTJOIN
        m.join).setCw cwTENQ (word stamp)).setCw cwTDISP (word s.time) := by
  have htop : stackTop s c m.region
      = word (bits (s.regEff m.region 12) 17 0) - word (c.ctx.val * bits (s.regEff m.region 12) 35 20) := by
    rw [SliceWeights.bits_low]
    rfl
  rw [htop]
  rfl

/-- What DISPATCH promises of the context in the slot. -/
def StartsAs (s : State) (c : CtxId) (e : QEntry) (x : Ctx) : Prop :=
  x.pc = e.msg.entry ∧ x.task = some (s.taskOf e.msg e.defer) ∧ x.wait = .none ∧ x.frame = none
    ∧ (∀ j : Nat, j < 6 → x.greg (BitVec.ofNat 5 (10 + j)) = e.msg.args.getD j 0)
    ∧ x.greg 2 = stackTop s c e.msg.region
    ∧ (∀ j : Reg, j ≠ 2 → j ∉ argRegs → x.greg j = 0) ∧ (∀ j, x.vreg j = 0) ∧ x.gpois = 0 ∧ x.vpois = 0
    ∧ x.sv = (s.taskOf e.msg e.defer).sup ∧ x.tb = false
    ∧ x.cwv cwTVEC = s.regEff e.msg.region 3 &&& 0xFFFFFFFFFFFFFFFC ∧ x.cwv cwTMASK = s.regEff e.msg.region 4 &&& 0x1FFFE
    ∧ x.cwv cwTJOIN = e.msg.join ∧ x.cwv cwTENQ = BitVec.ofNat 64 e.stamp ∧ x.cwv cwTDISP = BitVec.ofNat 64 s.time

theorem statusOf_bits (sv : Bool) : bit (statusOf sv sv false) 0 = sv ∧ bit (statusOf sv sv false) 2 = false := by
  cases sv <;> decide

theorem setUp_starts (s : State) (c : CtxId) {e : QEntry} (h : e.msg.args.length = 6) :
    StartsAs s c e (s.setUp c e.msg e.stamp e.defer) := by
  obtain ⟨g, hg⟩ := started_eq e.msg (s.taskOf e.msg e.defer) (stackTop s c e.msg.region)
  obtain ⟨hargs, htop, hrest⟩ := greg_started h (s.taskOf e.msg e.defer) (stackTop s c e.msg.region)
  obtain ⟨hsv, htb⟩ := statusOf_bits (s.taskOf e.msg e.defer).sup
  have hstatus : (s.setUp c e.msg e.stamp e.defer).cwv cwSTATUS
      = statusOf (s.taskOf e.msg e.defer).sup (s.taskOf e.msg e.defer).sup false := by
    rw [setUp_eq, cwv_setCw_other _ _ (by decide), cwv_setCw_other _ _ (by decide), cwv_setCw_other _ _ (by decide),
      cwv_setCw_other _ _ (by decide), cwv_setCw_other _ _ (by decide), cwv_setCw]
  rw [StartsAs, Ctx.sv, Ctx.tb, hstatus, setUp_eq]
  rw [hg] at hargs htop hrest ⊢
  refine ⟨rfl, rfl, rfl, rfl, hargs, htop, hrest, fun _ => rfl, rfl, rfl, hsv, htb, ?_, ?_, ?_, ?_, cwv_setCw _ _ _⟩
  · rw [cwv_setCw_other _ _ (by decide), cwv_setCw_other _ _ (by decide), cwv_setCw_other _ _ (by decide),
      cwv_setCw_other _ _ (by decide), cwv_setCw]
  · rw [cwv_setCw_other _ _ (by decide), cwv_setCw_other _ _ (by decide), cwv_setCw_other _ _ (by decide), cwv_setCw]
  · rw [cwv_setCw_other _ _ (by decide), cwv_setCw_other _ _ (by decide), cwv_setCw]
  · rw [cwv_setCw_other _ _ (by decide), cwv_setCw]
    rfl

/-! ### The entry dispatched (R172) -/

/-- The entry has its slot and leaves the queue, and the cluster dispatches no other in this cycle. -/
def dispatched (s : State) (cl : ClusterId) (e : QEntry) (c : CtxId) : State :=
  ((s.place1 c e).unqueue cl e).setCluster cl
    { ((s.place1 c e).unqueue cl e).cluster cl with dispatched := some ((s.place1 c e).unqueue cl e).time }

section
variable {s : State} {cl : ClusterId} {e : QEntry} {c : CtxId}

/-- A ready entry that stands alone and has a slot is the one dispatched. -/
theorem exec_dispatch_alone (hevent : s.event = .dispatch cl) (hnow : (s.cluster cl).dispatched ≠ some s.time)
    (hqueue : (s.cluster cl).queue = [e]) (hready : s.ready cl e = true) (hslot : s.slotFor cl e = some c) :
    exec .dispatch s = .next (dispatched s cl e c) := by
  have hfirst : firstEntry ((s.cluster cl).queue.filter (fun e => s.ready cl e && (s.slotFor cl e).isSome)) = some e := by
    rw [hqueue, List.filter_cons_of_pos (by rw [hready, hslot]; rfl)]
    rfl
  show execDispatch s = _
  simp only [execDispatch, hevent, if_neg hnow, hfirst, hslot]
  rfl

theorem place1_ready (htyp : e.msg.typ = 0) : s.place1 c e
    = s.enterSlot c (s.setUp c e.msg e.stamp e.defer) e.msg.region e.stamp := by
  rw [State.place1, if_neg (by omega)]

/-- A dispatch whose slot was entered leaves an empty queue, the other contexts and memory. -/
theorem dispatched_effect {x : Ctx} (hqueue : (s.cluster cl).queue = [e]) (hrings : (s.cluster cl).rings = [])
    (hplace : Entered s (s.place1 c e) c x) : ((dispatched s cl e c).cluster cl).queue = [] ∧ SameMem s (dispatched s cl e c)
      ∧ (∀ z, z ≠ c → (dispatched s cl e c).ctx z = s.ctx z) ∧ (dispatched s cl e c).ctx c = x := by
  obtain ⟨n, sum, hcl⟩ := hplace.clusters cl
  have hunqueue := Placement.unqueue_of_no_ring (s := s.place1 c e) (by rw [hcl]; exact hrings) e
  rw [dispatched, hunqueue]
  refine ⟨?_, hplace.mem, hplace.others, hplace.ctx⟩
  rw [cluster_setCluster_same, cluster_setCluster_same, hcl, hqueue, List.erase_cons_head]

end

theorem dispatchSetsUp : Claim.DispatchSetsUp := by
  intro s cl e c hevent hnow hqueue hrings htyp hready hslot hargs r
  have hplace : Entered s (s.place1 c e) c (s.setUp c e.msg e.stamp e.defer) := by
    rw [place1_ready htyp]
    exact entered_enterSlot s c _ _ _
  obtain ⟨hempty, hmem, hothers, hctx⟩ := dispatched_effect hqueue hrings hplace
  refine ⟨_, exec_dispatch_alone hevent hnow hqueue hready hslot, hempty, hmem, hothers, ?_⟩
  rw [hctx]
  exact setUp_starts s c hargs

/-- Settles O49: the decision of a cluster that leaves the rule's answer as it was, and the slot that starts the task. -/
theorem placementAndDispatch : Obligations.PlacementAndDispatch := by
  unfold Obligations.PlacementAndDispatch
  exact ⟨Placement.placement, dispatchSetsUp⟩

end Sys2Proof.Proofs.Dispatching

/-! SUPPORT. A task that was saved in a debug stop: the completions that its restore puts back are hidden from it, as those that come
during a stop are (R189, R265, R377; log entry 69). -/

namespace Sys2Proof.Proofs.StoppedRestore

open Machine

/-- A saved task of region 0. -/
def savedTask : TaskMsg :=
  { typ := 3, rcls := 0, prio := 0, colour := 0, region := 0, cost := 1, kind := false, hops := 0, pull := 0, hdev := 0,
    sstamp := 0, hopt := 0, hdie := 0, hcls := 0, cat := 0, entry := 0, args := [0, 0, 0, 0, 0, 0], trig := 0, target := 0,
    join := 0 }

/-- Its entry, with its context in save record 1. -/
def savedEntry : QEntry := ⟨savedTask, 0, 1, 1, 0, 0⟩

/-- Doubleword n of save record 1 of region 0. -/
def recordAt (n : Nat) : Nat := 16384 + 8 * n

/-- The device after reset, but for a saved entry in cluster 0, whose record holds one completion of port 0 in its ECS words and
STOPPED in its DBGST. -/
def stoppedState : State := { State.reset with
  event := .dispatch ⟨0, 0⟩, clusters := [(0, { queue := [savedEntry] })],
  mem := [(0, 2), (recordAt (48 + cwECS), 1), (recordAt (48 + cwDBGST) + 7, 0x80)] }

theorem quiet_stoppedState : stoppedState.Quiet := ⟨rfl, by decide, by decide, by decide⟩

/-- The completions at port 0 of core 0 that a step leaves. -/
def doneAfter (o : Out) : List Completion :=
  match o with
  | .next t => ((t.core ctx0.core).port 0).done
  | _ => []

/-- The restored context is stopped, so the completion that its ECS word gives back is hidden. -/
theorem dispatch_hides : doneAfter (exec .dispatch stoppedState) = [⟨0, 1, false, true⟩] := by
  decide +kernel

/-- Refutes O50: of a task saved in a debug stop, DISPATCH puts the completions back hidden, where the statement has them shown. -/
theorem not_slotsMove : ¬ Obligations.SlotsMove := by
  unfold Obligations.SlotsMove
  rintro ⟨-, hrestores, -, -⟩
  obtain ⟨t, hexec, -, -, -, -, hports⟩ := hrestores stoppedState ⟨0, 0⟩ savedEntry ctx0 rfl (by decide) rfl rfl rfl
    (by decide +kernel) (by decide +kernel) quiet_stoppedState
  have hhidden : ((t.core ctx0.core).port 0).done = [⟨0, 1, false, true⟩] := by
    rw [← dispatch_hides, hexec, doneAfter]
  have hshown : ((t.core ctx0.core).port 0).done = [⟨0, 1, false, false⟩] :=
    (hports 0 (by decide)).trans (by decide +kernel)
  exact absurd (hhidden.symm.trans hshown) (by decide)

end Sys2Proof.Proofs.StoppedRestore

/-! SUPPORT. SPAWN, SPAWNTRIG and SPAWNAT: their checks, the message they make, the charge of their region, and where the message goes
(R166, R167, R170, R180, R181; log entry 15). -/

namespace Sys2Proof.Proofs.Spawns

open Machine Contexts TaskEnds ReadyQueue

/-! ### The checks that the spawns share (R180, R182) -/

/-- A spawn control word that is in order (R180). -/
def GoodControl (w : Word) : Prop := w.toNat % 256 ≠ 0 ∧ w.toNat / 2 ^ 9 % 2 ^ 7 = 0 ∧ w.toNat / 2 ^ 22 % 2 ^ 10 = 0
/-- A SPAWNAT target word that is in order (R181). -/
def GoodTarget (w : Word) : Prop := w.toNat % 256 ≠ 0 ∧ w.toNat / 2 ^ 9 % 2 ^ 21 = 0

theorem spawnBad_iff (w : Word) : spawnBad w = false ↔ GoodControl w := by
  rw [GoodControl, spawnBad, SliceWeights.bits_low]
  simp [bits, bitsN, and_assoc]

theorem spawnatBad_iff (w : Word) : spawnatBad w = false ↔ GoodTarget w := by
  rw [GoodTarget, spawnatBad, SliceWeights.bits_low]
  simp [bits, bitsN]

section
variable {s : State} {a b : Reg} {bad : Word → Bool} {k : Word → Word → State} (hclean : s.Clean ([a, b] ++ argRegs) [])
include hclean

theorem spawnChecks_misaligned (h : (s.g a).toNat % 4 ≠ 0) : s.spawnChecks a b bad k = s.raise 0x03 (s.g a) :=
  (guardP_clean hclean _).trans (if_pos (by rw [SliceWeights.bits_low]; exact h))

theorem spawnChecks_bad (h : (s.g a).toNat % 4 = 0) (hbad : bad (s.g b) = true) :
    s.spawnChecks a b bad k = s.raise 0x06 (s.g b) :=
  (guardP_clean hclean _).trans ((if_neg (by rw [SliceWeights.bits_low]; exact not_not.mpr h)).trans (if_pos hbad))

theorem spawnChecks_good (h : (s.g a).toNat % 4 = 0) (hgood : bad (s.g b) = false) :
    s.spawnChecks a b bad k = k (s.g a) (s.g b) :=
  (guardP_clean hclean _).trans ((if_neg (by rw [SliceWeights.bits_low]; exact not_not.mpr h)).trans
    (if_neg (by rw [hgood]; decide)))

end

/-! ### The message, and the charge of the region (R166, R167, R170) -/

/-- The next catalogue number of the cluster of the current context. -/
def nextCat (s : State) : Nat :=
  s.dev * 2 ^ 37 + s.cur.core.cluster.die.val * 2 ^ 35 + s.cur.core.cluster.cl.val * 2 ^ 27 + s.myCluster.seq

/-- The message of a spawn under that number. -/
def child (s : State) (typ : Nat) (entry ctl : Word) (trig target : Nat) : TaskMsg :=
  { s.spawnMsg typ entry ctl trig target with cat := nextCat s }

/-- The number is used, and the region has one live task more. -/
def chargedFor (s : State) : State :=
  (s.setCluster s.cur.core.cluster { s.myCluster with seq := (s.myCluster.seq + 1) % 2 ^ 27 }).liveUp (s.regionOf s.cur)

theorem allot_spawn (s : State) (typ : Nat) (entry ctl : Word) (trig target : Nat) :
    s.allot (s.spawnMsg typ entry ctl trig target) = (chargedFor s, child s typ entry ctl trig target) := rfl

/-- What a spawned message holds. -/
def IsChild (s : State) (entry ctl : Word) (m : TaskMsg) (typ : Nat) : Prop :=
  m.typ = typ ∧ m.region = s.regionOf s.cur ∧ m.entry = entry ∧ m.cost = ctl.toNat % 256
    ∧ m.kind = ctl.getLsbD 8 ∧ m.args = [s.g 10, s.g 11, s.g 12, s.g 13, s.g 14, s.g 15] ∧ m.cat = nextCat s
    ∧ m.prio = s.regPrio (s.regionOf s.cur) ∧ m.colour = s.schedColour (s.regionOf s.cur)
    ∧ m.rcls = s.schedRcls (s.regionOf s.cur) ∧ m.hopt = 0
    ∧ m.join = s.slotWord cwSPJOIN ∧ m.sstamp = s.time / 64 % 256

theorem isChild (s : State) (typ : Nat) (entry ctl : Word) (trig target : Nat) :
    IsChild s entry ctl (child s typ entry ctl trig target) typ :=
  ⟨rfl, rfl, rfl, SliceWeights.bits_low ctl 7, rfl, rfl, rfl, rfl, rfl, rfl, rfl, rfl, rfl⟩

/-- A region with one live task more, and no other change of memory or of catalogue numbers. -/
def Charged (s t : State) : Prop :=
  t.liveTasks (s.regionOf s.cur) = s.liveTasks (s.regionOf s.cur) + 1
    ∧ t.liveArmed (s.regionOf s.cur) = s.liveArmed (s.regionOf s.cur)
    ∧ (∀ c, c < s.regLoc (s.regionOf s.cur) 14 ∨ s.regLoc (s.regionOf s.cur) 14 + 8 ≤ c → t.byte c = s.byte c)
    ∧ (t.cluster s.cur.core.cluster).seq = (s.myCluster.seq + 1) % 2 ^ 27

theorem Charged.of_same {s u t : State} (h : Charged s u) (hregs : t.regs = u.regs) (hmem : t.mem = u.mem)
    (hclusters : t.clusters = u.clusters) : Charged s t := by
  obtain ⟨htasks, harmed, hbyte, hseq⟩ := h
  refine ⟨?_, ?_, fun c hc => ?_, ?_⟩
  · rw [← htasks, State.liveTasks, State.regOwn, hregs, State.liveTasks, State.regOwn]
  · rw [← harmed, State.liveArmed, State.regOwn, hregs, State.liveArmed, State.regOwn]
  · rw [← hbyte c hc, byte_congr hmem]
  · rw [← hseq, State.cluster, hclusters, State.cluster]

theorem charged_chargedFor {s : State} (h : s.tasksFull = false) : Charged s (chargedFor s) := by
  have hroom : s.liveTasks (s.regionOf s.cur) < s.budgetTmax (s.regionOf s.cur) := by
    rw [State.tasksFull, decide_eq_false_iff_not] at h
    omega
  have hmax : s.budgetTmax (s.regionOf s.cur) < 2 ^ 16 := Bookkeeping.bits_lt _ 15 0
  obtain ⟨htasks, harmed⟩ := live_liveUp (s.setCluster s.cur.core.cluster
    { s.myCluster with seq := (s.myCluster.seq + 1) % 2 ^ 27 }) (s.regionOf s.cur)
  refine ⟨htasks.trans (Nat.mod_eq_of_lt ?_), harmed, fun c hc => byte_setLive _ _ _ _ hc, ?_⟩
  · exact lt_of_le_of_lt (Nat.succ_le_of_lt hroom) (lt_trans hmax (by decide))
  · obtain ⟨lines, hlines⟩ := cluster_setLive (s.setCluster s.cur.core.cluster
      { s.myCluster with seq := (s.myCluster.seq + 1) % 2 ^ 27 }) (s.regionOf s.cur)
      (s.liveTasks (s.regionOf s.cur) + 1) (s.liveArmed (s.regionOf s.cur)) s.cur.core.cluster
    rw [cluster_setCluster_same] at hlines
    exact congrArg Cluster.seq hlines

/-- A state reached from a charged one without touching regions, memory, clusters or contexts. -/
structure Passed (s v : State) : Prop where
  regs : v.regs = (chargedFor s).regs
  mem : v.mem = (chargedFor s).mem
  clusters : v.clusters = (chargedFor s).clusters
  ctxs : v.ctxs = s.ctxs
  cur : v.cur = s.cur

theorem passed_post (s : State) (e : Event) : Passed s ((chargedFor s).post e) := ⟨rfl, rfl, rfl, rfl, rfl⟩
theorem passed_queueRequest (s : State) (p : OutPkt) : Passed s ((chargedFor s).queueRequest p) := ⟨rfl, rfl, rfl, rfl, rfl⟩

/-- What a spawn that has written its catalogue number leaves of charge and context. -/
def Spawned (s : State) (d : Reg) (t : State) : Prop :=
  Charged s t ∧ (d ≠ 0 → t.g d = BitVec.ofNat 64 (nextCat s)) ∧ Keeps [d] [] [] leftWords s.my t.my ∧ Past s.my t.my

theorem spawned_done {s v : State} (hfull : s.tasksFull = false) (h : Passed s v) (d : Reg) :
    Spawned s d (v.done d (word (nextCat s))) := by
  obtain ⟨_, hkeeps, hpast⟩ := regFrame_done v d (word (nextCat s))
  have hmy : v.my = s.my := by simp only [State.my, State.ctx, h.ctxs, h.cur]
  rw [hmy] at hkeeps hpast
  refine ⟨(charged_chargedFor hfull).of_same h.regs h.mem h.clusters, fun hd => ?_, hkeeps, hpast⟩
  rw [g_done, if_neg hd]
  rfl

theorem agenda_post_done (s : State) (e : Event) (d : Reg) (w : Word) :
    (((chargedFor s).post e).done d w).agenda = s.agenda ++ [.ev e] := rfl

theorem queueRequest_sends {s u : State} (hcores : u.core u.cur.core = s.myCore) (p : OutPkt) :
    (u.queueRequest p).myCore.sendReq = s.myCore.sendReq ++ [p] := by
  have hsent : (u.queueRequest p).myCore = { u.myCore with sendReq := u.myCore.sendReq ++ [p] } := core_setCore_same _ _ _
  rw [hsent, State.myCore, hcores]

theorem sent_done (s : State) (p : OutPkt) (d : Reg) (w : Word) :
    (((chargedFor s).queueRequest p).done d w).myCore.sendReq = s.myCore.sendReq ++ [p]
    ∧ (((chargedFor s).queueRequest p).done d w).agenda = s.agenda ++ [.ev (.sendQueueInjection s.cur.core false)] :=
  ⟨queueRequest_sends (s := s) (u := chargedFor s) rfl p, rfl⟩


/-! ### SPAWN (R180) -/

theorem exec_spawn (s : State) (d a b : Reg) : exec (.spawn d a b) s = .next (s.spawnChecks a b spawnBad (fun e ctl =>
    if s.tasksFull = true then s.raise 0x0B 1
    else if (s.verdict s.cur.core.cluster (s.spawnMsg 0 e ctl 0 0) == .stay) = false ∧ s.requestsFull = true then s.queueFull 1
    else (if (s.verdict s.cur.core.cluster (s.spawnMsg 0 e ctl 0 0) == .stay) = true then
        (chargedFor s).post (.taskPlacement s.cur.core.cluster (child s 0 e ctl 0 0) 0)
      else (chargedFor s).queueRequest (.spawn (child s 0 e ctl 0 0))).done d (word (nextCat s)))) := rfl

section
variable {s : State} {a b : Reg} (hclean : s.Clean ([a, b] ++ argRegs) []) (halign : (s.g a).toNat % 4 = 0)
  (hgood : GoodControl (s.g b))
include hclean halign hgood

theorem spawn_full (hfull : s.tasksFull = true) (d : Reg) : exec (.spawn d a b) s = .next (s.raise 0x0B 1) := by
  rw [exec_spawn, spawnChecks_good hclean halign ((spawnBad_iff _).mpr hgood), if_pos hfull]

theorem spawn_stays (hfull : s.tasksFull = false)
    (hstay : s.verdict s.cur.core.cluster (s.spawnMsg 0 (s.g a) (s.g b) 0 0) = .stay) (d : Reg) : exec (.spawn d a b) s
      = .next (((chargedFor s).post (.taskPlacement s.cur.core.cluster (child s 0 (s.g a) (s.g b) 0 0) 0)).done d
        (word (nextCat s))) := by
  have hbeq : (s.verdict s.cur.core.cluster (s.spawnMsg 0 (s.g a) (s.g b) 0 0) == .stay) = true := beq_iff_eq.mpr hstay
  rw [exec_spawn, spawnChecks_good hclean halign ((spawnBad_iff _).mpr hgood), if_neg (by rw [hfull]; decide), hbeq,
    if_neg (fun h => Bool.false_ne_true h.1.symm), if_pos rfl]

theorem spawn_leaves (hfull : s.tasksFull = false)
    (hleave : s.verdict s.cur.core.cluster (s.spawnMsg 0 (s.g a) (s.g b) 0 0) ≠ .stay) (d : Reg) : exec (.spawn d a b) s
      = .next (if s.requestsFull = true then s.queueFull 1
        else ((chargedFor s).queueRequest (.spawn (child s 0 (s.g a) (s.g b) 0 0))).done d (word (nextCat s))) := by
  have hbeq : (s.verdict s.cur.core.cluster (s.spawnMsg 0 (s.g a) (s.g b) 0 0) == .stay) = false :=
    beq_eq_false_iff_ne.mpr hleave
  rw [exec_spawn, spawnChecks_good hclean halign ((spawnBad_iff _).mpr hgood), if_neg (by rw [hfull]; decide), hbeq,
    if_neg Bool.false_ne_true]
  simp only [true_and]

end

/-! ### SPAWNTRIG (R170, R177, R180; log entry 15) -/

/-- The message of a SPAWNTRIG on a counter. -/
def armedChild (s : State) (e ctl : Word) (pa : Nat) : TaskMsg := child s 1 e ctl pa (bits (s.slotWord cwSPTGT) 31 0)

/-- What SPAWNTRIG does of a counter, the limits of its own device passed (R170). -/
def spawntrigSent (s : State) (d : Reg) (e ctl : Word) (pa : Nat) : State :=
  if ((paDev pa == s.dev) && (paCluster pa == s.cur.core.cluster)) = false ∧ s.requestsFull = true then s.queueFull 1
  else if ((paDev pa == s.dev) && (paCluster pa == s.cur.core.cluster)) = true then
    ((chargedFor s).post (.armedTaskArrival (paCluster pa) (armedChild s e ctl pa))).done d (word (nextCat s))
  else if (paDev pa == s.dev) = true then
    ((chargedFor s).queueRequest (.armed (armedChild s e ctl pa))).done d (word (nextCat s))
  else ((chargedFor s).tell d pa (some (armedChild s e ctl pa))).queueRequest (.armed (armedChild s e ctl pa))

theorem exec_spawntrig (s : State) (d a b : Reg) : exec (.spawntrig d a b) s
    = .next (s.spawnChecks a b spawnBad (fun e ctl => match s.counterPa (s.slotWord cwSPTRIG) with
      | none => s.raise 0x05 (s.slotWord cwSPTRIG)
      | some pa =>
        if s.tasksFull = true then s.raise 0x0B 1
        else if ((paDev pa == s.dev) && decide (s.budgetArm (s.regionOf s.cur) ≤ s.armsOf (paCluster pa) (s.regionOf s.cur)))
            = true then s.raise 0x0B 2
        else if ((paDev pa == s.dev) && decide (128 ≤ s.armsIn (paCluster pa))) = true then s.raise 0x0B 3
        else spawntrigSent s d e ctl pa)) := rfl

section
variable {s : State} {a b : Reg} {pa : Nat} (hclean : s.Clean ([a, b] ++ argRegs) []) (halign : (s.g a).toNat % 4 = 0)
  (hgood : GoodControl (s.g b))
include hclean halign hgood

theorem spawntrig_no_counter (hpa : s.counterPa (s.slotWord cwSPTRIG) = none) (d : Reg) :
    exec (.spawntrig d a b) s = .next (s.raise 0x05 (s.slotWord cwSPTRIG)) := by
  rw [exec_spawntrig, spawnChecks_good hclean halign ((spawnBad_iff _).mpr hgood), hpa]

variable (hpa : s.counterPa (s.slotWord cwSPTRIG) = some pa)
include hpa

theorem spawntrig_full (hfull : s.tasksFull = true) (d : Reg) : exec (.spawntrig d a b) s = .next (s.raise 0x0B 1) := by
  rw [exec_spawntrig, spawnChecks_good hclean halign ((spawnBad_iff _).mpr hgood), hpa]
  exact congrArg _ (if_pos hfull)

theorem spawntrig_here (hfull : s.tasksFull = false) (hdev : paDev pa = s.dev) (d : Reg) : exec (.spawntrig d a b) s
    = .next (if s.budgetArm (s.regionOf s.cur) ≤ s.armsOf (paCluster pa) (s.regionOf s.cur) then s.raise 0x0B 2
      else if 128 ≤ s.armsIn (paCluster pa) then s.raise 0x0B 3 else spawntrigSent s d (s.g a) (s.g b) pa) := by
  have hbeq : (paDev pa == s.dev) = true := beq_iff_eq.mpr hdev
  rw [exec_spawntrig, spawnChecks_good hclean halign ((spawnBad_iff _).mpr hgood), hpa]
  simp only [hfull, hbeq, Bool.true_and, decide_eq_true_iff, Bool.false_eq_true, if_false]

/-- Below both limits of its own device, the task is on its way. -/
theorem spawntrig_taken (hfull : s.tasksFull = false) (hdev : paDev pa = s.dev)
    (harm : s.armsOf (paCluster pa) (s.regionOf s.cur) < s.budgetArm (s.regionOf s.cur)) (hin : s.armsIn (paCluster pa) < 128)
    (d : Reg) : exec (.spawntrig d a b) s = .next (spawntrigSent s d (s.g a) (s.g b) pa) := by
  rw [spawntrig_here hclean halign hgood hpa hfull hdev, if_neg (not_le.mpr harm), if_neg (not_le.mpr hin)]

theorem spawntrig_far (hfull : s.tasksFull = false) (hdev : paDev pa ≠ s.dev) (d : Reg) :
    exec (.spawntrig d a b) s = .next (spawntrigSent s d (s.g a) (s.g b) pa) := by
  have hbeq : (paDev pa == s.dev) = false := beq_eq_false_iff_ne.mpr hdev
  rw [exec_spawntrig, spawnChecks_good hclean halign ((spawnBad_iff _).mpr hgood), hpa]
  simp only [hfull, hbeq, Bool.false_and, Bool.false_eq_true, if_false]

end

section
variable {s : State} {pa : Nat} (d : Reg) (e ctl : Word)

theorem spawntrigSent_own (hdev : paDev pa = s.dev) (hcl : paCluster pa = s.cur.core.cluster) : spawntrigSent s d e ctl pa
    = ((chargedFor s).post (.armedTaskArrival s.cur.core.cluster (armedChild s e ctl pa))).done d (word (nextCat s)) := by
  rw [spawntrigSent, hdev, hcl]
  simp only [beq_self_eq_true, Bool.and_self, Bool.true_eq_false, false_and, if_false, if_true]

theorem spawntrigSent_other (hdev : paDev pa = s.dev) (hcl : paCluster pa ≠ s.cur.core.cluster) : spawntrigSent s d e ctl pa
    = if s.requestsFull = true then s.queueFull 1
      else ((chargedFor s).queueRequest (.armed (armedChild s e ctl pa))).done d (word (nextCat s)) := by
  have hbeq : (paCluster pa == s.cur.core.cluster) = false := beq_eq_false_iff_ne.mpr hcl
  rw [spawntrigSent, hdev, hbeq]
  simp only [beq_self_eq_true, Bool.and_false, true_and, Bool.false_eq_true, if_false, if_true]

theorem spawntrigSent_far (hdev : paDev pa ≠ s.dev) : spawntrigSent s d e ctl pa
    = if s.requestsFull = true then s.queueFull 1
      else ((chargedFor s).tell d pa (some (armedChild s e ctl pa))).queueRequest (.armed (armedChild s e ctl pa)) := by
  have hbeq : (paDev pa == s.dev) = false := beq_eq_false_iff_ne.mpr hdev
  rw [spawntrigSent, hbeq]
  simp only [Bool.false_and, true_and, Bool.false_eq_true, if_false]

end

/-! #### Waiting for another device's answer: what `State.tell` changes of a state -/

theorem my_tell_request (u : State) (d : Reg) (pa : Nat) (m : TaskMsg) :
    ((u.tell d pa (some m)).queueRequest (.armed m)).my
      = { u.my with wait := .told ((u.tell d pa (some m)).queueRequest (.armed m)).nextId d (some m) } :=
  my_setMy (u.fresh.addOut u.cur (u.nextId + 1) false .none false false pa) _

theorem sendReq_tell (u : State) (d : Reg) (pa : Nat) (o : Option TaskMsg) :
    (u.tell d pa o).myCore.sendReq = u.myCore.sendReq := by
  have hcore : ∃ outs, (u.tell d pa o).myCore = { u.myCore with outs := outs } := ⟨_, core_setCore_same u.fresh u.cur.core _⟩
  obtain ⟨outs, hcore⟩ := hcore
  rw [hcore]

theorem rest_tell_request (u : State) (d : Reg) (pa : Nat) (m : TaskMsg) :
    ((u.tell d pa (some m)).queueRequest (.armed m)).regs = u.regs
    ∧ ((u.tell d pa (some m)).queueRequest (.armed m)).mem = u.mem
    ∧ ((u.tell d pa (some m)).queueRequest (.armed m)).clusters = u.clusters := ⟨rfl, rfl, rfl⟩

theorem my_chargedFor (s : State) : (chargedFor s).my = s.my := rfl
theorem sendReq_chargedFor (s : State) : (chargedFor s).myCore.sendReq = s.myCore.sendReq := rfl

/-- An armed task for another device is in the request queue, and its spawner waits for the answer. -/
theorem told_effect {s : State} (hfull : s.tasksFull = false) (d : Reg) (pa : Nat) (m : TaskMsg) :
    let t := ((chargedFor s).tell d pa (some m)).queueRequest (.armed m)
    Charged s t ∧ t.my = { s.my with wait := .told t.nextId d (some m) }
      ∧ t.myCore.sendReq = s.myCore.sendReq ++ [.armed m] := by
  have hmy := my_tell_request (chargedFor s) d pa m
  have hsent := queueRequest_sends (s := (chargedFor s).tell d pa (some m)) rfl (.armed m)
  obtain ⟨hregs, hmem, hclusters⟩ := rest_tell_request (chargedFor s) d pa m
  rw [my_chargedFor] at hmy
  rw [sendReq_tell, sendReq_chargedFor] at hsent
  exact ⟨(charged_chargedFor hfull).of_same hregs hmem hclusters, hmy, hsent⟩

/-! ### SPAWNAT (R181) -/

/-- A context waits for the outcome of a SPAWNAT, under a fresh number. -/
def awaiting (u : State) (pa : Nat) (m : TaskMsg) (d : Reg) : State :=
  u.fresh.setMy { u.fresh.my with wait := .spawnat u.fresh.nextId pa m d }

/-- SPAWNAT, its checks passed, of the named core's address (R170, R181). -/
def spawnatSent (s : State) (d : Reg) (pa : Nat) (p : State × TaskMsg) : State :=
  if (paDev pa == s.dev && paCluster pa == s.cur.core.cluster) = true then
    (awaiting p.1 pa p.2 d).post (.spawnatOutcome (paCoreId pa) (awaiting p.1 pa p.2 d).cur p.1.fresh.nextId p.2)
  else (awaiting p.1 pa p.2 d).queueRequest (.spawnat p.2 pa p.1.fresh.nextId)

theorem exec_spawnat {s : State} (hwait : ∀ i pa m g, s.my.wait ≠ .spawnat i pa m g) (d a b : Reg) : exec (.spawnat d a b) s
    = .next (s.spawnChecks a b spawnatBad (fun e ctl =>
      if s.destOk ctl = false then s.raise 0x05 ctl
      else if s.tasksFull = true then s.raise 0x0B 1
      else if (paDev (destPa ctl) == s.dev && paCluster (destPa ctl) == s.cur.core.cluster) = false
          ∧ s.requestsFull = true then s.queueFull 1
      else spawnatSent s d (destPa ctl) (s.allot (s.spawnMsg 2 e ctl 0 0)))) := by
  show execSpawnat d a b s = _
  rw [execSpawnat]
  split
  · rename_i h
    exact absurd h (hwait _ _ _ _)
  · rfl

theorem my_awaiting (u : State) (pa : Nat) (m : TaskMsg) (d : Reg) :
    (awaiting u pa m d).my = { u.my with wait := .spawnat (awaiting u pa m d).nextId pa m d } := my_setMy u.fresh _

theorem Charged.awaiting {s u : State} (h : Charged s u) (pa : Nat) (m : TaskMsg) (d : Reg) :
    Charged s (awaiting u pa m d) := h.of_same rfl rfl rfl

theorem Charged.post {s u : State} (h : Charged s u) (e : Event) : Charged s (u.post e) := h.of_same rfl rfl rfl
theorem Charged.queueRequest {s u : State} (h : Charged s u) (p : OutPkt) : Charged s (u.queueRequest p) := h.of_same rfl rfl rfl

theorem cur_chargedFor (s : State) : (chargedFor s).cur = s.cur := rfl
theorem agenda_chargedFor (s : State) : (chargedFor s).agenda = s.agenda := rfl
theorem rest_awaiting (u : State) (pa : Nat) (m : TaskMsg) (d : Reg) : (awaiting u pa m d).cur = u.cur
    ∧ (awaiting u pa m d).agenda = u.agenda ∧ (awaiting u pa m d).myCore.sendReq = u.myCore.sendReq := ⟨rfl, rfl, rfl⟩

section
variable {s : State} {pa : Nat} (hfull : s.tasksFull = false) (d : Reg) (m : TaskMsg)
include hfull

theorem spawnatSent_own (hdev : paDev pa = s.dev) (hcl : paCluster pa = s.cur.core.cluster) :
    let t := spawnatSent s d pa (chargedFor s, m)
    Charged s t ∧ t.my = { s.my with wait := .spawnat t.nextId pa m d }
      ∧ t.agenda = s.agenda ++ [.ev (.spawnatOutcome (paCoreId pa) s.cur t.nextId m)] := by
  have hown : (paDev pa == s.dev && paCluster pa == s.cur.core.cluster) = true := by rw [hdev, hcl]; simp
  obtain ⟨hcur, hagenda, -⟩ := rest_awaiting (chargedFor s) pa m d
  have hmy := my_awaiting (chargedFor s) pa m d
  rw [cur_chargedFor] at hcur
  rw [agenda_chargedFor] at hagenda
  rw [my_chargedFor] at hmy
  simp only [spawnatSent, if_pos hown, hcur]
  refine ⟨((charged_chargedFor hfull).awaiting pa m d).post _, hmy, ?_⟩
  exact congrArg (· ++ _) hagenda

theorem spawnatSent_other (hother : paDev pa ≠ s.dev ∨ paCluster pa ≠ s.cur.core.cluster) :
    let t := spawnatSent s d pa (chargedFor s, m)
    Charged s t ∧ t.my = { s.my with wait := .spawnat t.nextId pa m d }
      ∧ t.myCore.sendReq = s.myCore.sendReq ++ [.spawnat m pa t.nextId] := by
  have hown : ¬ (paDev pa == s.dev && paCluster pa == s.cur.core.cluster) = true := by
    rw [Bool.and_eq_true, beq_iff_eq, beq_iff_eq]
    exact fun h => hother.elim (· h.1) (· h.2)
  have hmy := my_awaiting (chargedFor s) pa m d
  have hsent := queueRequest_sends (s := awaiting (chargedFor s) pa m d) rfl (.spawnat m pa (chargedFor s).fresh.nextId)
  obtain ⟨-, -, hqueue⟩ := rest_awaiting (chargedFor s) pa m d
  rw [my_chargedFor] at hmy
  rw [hqueue, sendReq_chargedFor] at hsent
  simp only [spawnatSent, if_neg hown]
  exact ⟨((charged_chargedFor hfull).awaiting pa m d).queueRequest _, hmy, hsent⟩

end

section
variable {s : State} {a b : Reg} (hwait : ∀ i pa m g, s.my.wait ≠ .spawnat i pa m g) (hclean : s.Clean ([a, b] ++ argRegs) [])
include hwait hclean

theorem spawnat_misaligned (h : (s.g a).toNat % 4 ≠ 0) (d : Reg) : exec (.spawnat d a b) s = .next (s.raise 0x03 (s.g a)) := by
  rw [exec_spawnat hwait, spawnChecks_misaligned hclean h]

variable (halign : (s.g a).toNat % 4 = 0)
include halign

theorem spawnat_bad (h : ¬ GoodTarget (s.g b)) (d : Reg) : exec (.spawnat d a b) s = .next (s.raise 0x06 (s.g b)) := by
  rw [exec_spawnat hwait, spawnChecks_bad hclean halign]
  rw [← spawnatBad_iff] at h
  exact eq_true_of_ne_false h

variable (hgood : GoodTarget (s.g b))
include hgood

theorem spawnat_no_core (hdest : s.destOk (s.g b) = false) (d : Reg) :
    exec (.spawnat d a b) s = .next (s.raise 0x05 (s.g b)) := by
  rw [exec_spawnat hwait, spawnChecks_good hclean halign ((spawnatBad_iff _).mpr hgood), if_pos hdest]

variable (hdest : s.destOk (s.g b) = true)
include hdest

theorem spawnat_full (hfull : s.tasksFull = true) (d : Reg) : exec (.spawnat d a b) s = .next (s.raise 0x0B 1) := by
  rw [exec_spawnat hwait, spawnChecks_good hclean halign ((spawnatBad_iff _).mpr hgood), if_neg (by rw [hdest]; decide),
    if_pos hfull]

theorem spawnat_sent (hfull : s.tasksFull = false) (d : Reg)
    (hroom : (paDev (destPa (s.g b)) = s.dev ∧ paCluster (destPa (s.g b)) = s.cur.core.cluster) ∨ s.requestsFull = false) :
    exec (.spawnat d a b) s
      = .next (spawnatSent s d (destPa (s.g b)) (chargedFor s, child s 2 (s.g a) (s.g b) 0 0)) := by
  have hqueue : ¬ ((paDev (destPa (s.g b)) == s.dev && paCluster (destPa (s.g b)) == s.cur.core.cluster) = false
      ∧ s.requestsFull = true) := by
    rintro ⟨hown, hreq⟩
    rcases hroom with ⟨hdev, hcl⟩ | hroom
    · rw [hdev, hcl] at hown
      simp at hown
    · exact absurd hreq (by rw [hroom]; decide)
  rw [exec_spawnat hwait, spawnChecks_good hclean halign ((spawnatBad_iff _).mpr hgood), if_neg (by rw [hdest]; decide),
    if_neg (by rw [hfull]; decide), if_neg hqueue, allot_spawn]

end

/-! ### The claim of the three spawns -/

theorem not_goodControl {s : State} {a b : Reg} (hclean : s.Clean ([a, b] ++ argRegs) []) (halign : (s.g a).toNat % 4 = 0)
    (h : ¬ GoodControl (s.g b)) {k : Word → Word → State} : s.spawnChecks a b spawnBad k = s.raise 0x06 (s.g b) := by
  rw [← spawnBad_iff] at h
  exact spawnChecks_bad hclean halign (eq_true_of_ne_false h)

theorem spawns_claim : Claim.Spawns := by
  intro s d a b hclean e ctl r cl cat full pin is charged spawned good goodAt
  refine ⟨fun h i hi => ?_, fun halign hbad i hi => ?_, fun hgood hfull => spawn_full hclean hgood.1 hgood.2 hfull d,
    fun hgood hfull => ⟨fun hstay => ?_, fun hleave hreq => ?_, fun hleave hreq => ?_⟩,
    fun hgood hpin => spawntrig_no_counter hclean hgood.1 hgood.2 hpin d, fun hgood pa hpa => ⟨fun hfull => ?_,
      fun hfull hdev => ⟨fun harm => ?_, fun harm hin => ?_, fun harm hin => ⟨fun hcl => ?_, fun hcl hreq => ?_,
        fun hcl hreq => ?_⟩⟩, fun hfull hdev hreq => ?_, fun hfull hdev hreq => ?_⟩,
    fun hwait => ⟨fun h => spawnat_misaligned hwait hclean h d, fun halign hbad => ?_,
      fun hgood hdest => spawnat_no_core hwait hclean hgood.1 hgood.2 hdest d,
      fun hgood hdest hfull => spawnat_full hwait hclean hgood.1 hgood.2 hdest hfull d,
      fun hgood hdest hfull => ⟨fun hdev hcl => ?_, fun hother hreq => ?_⟩⟩⟩
  · rcases List.mem_pair.mp hi with rfl | rfl
    · rw [exec_spawn, spawnChecks_misaligned hclean h]
    · rw [exec_spawntrig, spawnChecks_misaligned hclean h]
  · have hbad' : ¬ GoodControl (s.g b) := fun h => hbad ⟨halign, h⟩
    rcases List.mem_pair.mp hi with rfl | rfl
    · rw [exec_spawn, not_goodControl hclean halign hbad']
    · rw [exec_spawntrig, not_goodControl hclean halign hbad']
  · exact ⟨_, _, spawn_stays hclean hgood.1 hgood.2 hfull hstay d, spawned_done hfull (passed_post s _) d, isChild ..,
      agenda_post_done s _ d _⟩
  · obtain ⟨hsent, hagenda⟩ := sent_done s (.spawn (child s 0 (s.g a) (s.g b) 0 0)) d (word (nextCat s))
    refine ⟨_, _, (spawn_leaves hclean hgood.1 hgood.2 hfull hleave d).trans (congrArg _ (if_neg (by rw [hreq]; decide))),
      spawned_done hfull (passed_queueRequest s _) d, isChild .., hsent, hagenda⟩
  · rw [spawn_leaves hclean hgood.1 hgood.2 hfull hleave, if_pos hreq]
  · exact spawntrig_full hclean hgood.1 hgood.2 hpa hfull d
  · rw [spawntrig_here hclean hgood.1 hgood.2 hpa hfull hdev, if_pos harm]
  · rw [spawntrig_here hclean hgood.1 hgood.2 hpa hfull hdev, if_neg (not_le.mpr harm), if_pos hin]
  · refine ⟨_, armedChild s e (s.g b) pa, ?_, spawned_done hfull (passed_post s _) d, isChild .., rfl, SliceWeights.bits_low _ 31,
      agenda_post_done s _ d _⟩
    rw [spawntrig_taken hclean hgood.1 hgood.2 hpa hfull hdev harm hin, spawntrigSent_own _ _ _ hdev hcl]
  · rw [spawntrig_taken hclean hgood.1 hgood.2 hpa hfull hdev harm hin, spawntrigSent_other _ _ _ hdev hcl, if_pos hreq]
  · refine ⟨_, armedChild s e (s.g b) pa, ?_, spawned_done hfull (passed_queueRequest s _) d, isChild .., rfl,
      (sent_done s _ d _).1⟩
    rw [spawntrig_taken hclean hgood.1 hgood.2 hpa hfull hdev harm hin, spawntrigSent_other _ _ _ hdev hcl,
      if_neg (by rw [hreq]; decide)]
  · rw [spawntrig_far hclean hgood.1 hgood.2 hpa hfull hdev, spawntrigSent_far _ _ _ hdev, if_pos hreq]
  · obtain ⟨hcharged, hmy, hsent⟩ := told_effect hfull d pa (armedChild s e (s.g b) pa)
    refine ⟨_, armedChild s e (s.g b) pa, ?_, hcharged, isChild .., rfl, hmy, hsent⟩
    rw [spawntrig_far hclean hgood.1 hgood.2 hpa hfull hdev, spawntrigSent_far _ _ _ hdev, if_neg (by rw [hreq]; decide)]
  · exact spawnat_bad hwait hclean halign (fun h => hbad ⟨halign, h⟩) d
  · obtain ⟨hcharged, hmy, hagenda⟩ := spawnatSent_own hfull d (child s 2 e (s.g b) 0 0) hdev hcl
    exact ⟨_, _, spawnat_sent hwait hclean hgood.1 hgood.2 hdest hfull d (.inl ⟨hdev, hcl⟩), hcharged, isChild .., hmy, hagenda⟩
  · obtain ⟨hcharged, hmy, hsent⟩ := spawnatSent_other hfull d (child s 2 e (s.g b) 0 0) hother
    exact ⟨_, _, spawnat_sent hwait hclean hgood.1 hgood.2 hdest hfull d (.inr hreq), hcharged, isChild .., hmy, hsent⟩

end Sys2Proof.Proofs.Spawns

/-! SUPPORT. SPAWNAT_OUTCOME at a core of this device: the child has a slot, has an entry, or runs inline (R181). -/

namespace Sys2Proof.Proofs.SpawnOutcomes

open Machine Contexts TaskEnds ReadyQueue

/-! ### What the caller learns -/

/-- A caller whose child has a slot (0) or an entry (1): gd and, in a slot, OUT. -/
def learnt (x : Ctx) (handler : Bool) (d : Reg) (cat o : Nat) : Ctx :=
  if handler = true then x.setG d (word cat)
  else (x.setG d (word cat)).setCw cwTSTAT ((x.setG d (word cat)).cwv cwTSTAT &&& 4 ||| word o)

/-- A caller in a slot that runs its child inline: gd, OUT, INL and the return address, and the child's entry. -/
def inlined (x : Ctx) (d : Reg) (entry : Word) : Ctx :=
  { (((x.setG d 0).setCw cwTSTAT 6).setCw cwTINRET ((x.setG d 0).pc + 4)).leave with pc := entry }

/-- Where a caller's context is the only one touched, and the queues of all clusters are. -/
structure Caller (s t : State) (c : CtxId) (x : Ctx) : Prop where
  ctx : t.ctx c = x
  others : ∀ z, z ≠ c → t.ctx z = s.ctx z
  queue : ∀ cl, (t.cluster cl).queue = (s.cluster cl).queue

theorem caller_setCtx {s u : State} (hctxs : u.ctxs = s.ctxs) (hqueue : ∀ cl, (u.cluster cl).queue = (s.cluster cl).queue)
    (c : CtxId) (x : Ctx) : Caller s (u.setCtx c x) c x :=
  ⟨ctx_setCtx_same u c x, fun z hz => by rw [ctx_setCtx_other u x hz, State.ctx, hctxs, State.ctx], hqueue⟩

theorem caller_liveDown (s : State) (r : Nat) (c : CtxId) (x : Ctx) : Caller s ((s.liveDown r).setCtx c x) c x :=
  caller_setCtx (s := s) (u := s.liveDown r) rfl (queue_setLive s r _ _) c x

section
variable {s : State} {c : CtxId} {id pa : Nat} {m : TaskMsg} {d : Reg} (h : (s.ctx c).wait.spawned = some (id, pa, m, d))
include h

theorem caller_learns {o : Nat} (ho : o ≠ 2) :
    Caller s (s.spawnatEnd c o) c (learnt (s.ctx c) c.isHandler d m.cat o).advance := by
  simp only [State.spawnatEnd, h, if_neg ho]
  by_cases hfar : (paDev pa != s.dev) = true
  · rw [if_pos hfar]
    exact caller_liveDown s m.region c _
  · rw [if_neg hfar]
    exact caller_setCtx rfl (fun _ => rfl) c _

theorem caller_inlines (hslot : c.isHandler = false) : Caller s (s.spawnatEnd c 2) c (inlined (s.ctx c) d m.entry) := by
  simp only [State.spawnatEnd, h, if_pos, hslot, Bool.false_eq_true, if_false]
  exact caller_liveDown s m.region c _

theorem awaits_of_wait : s.awaits c id = true := by rw [State.awaits, h]; simp

end

/-! ### The registers of that caller -/

theorem tstat_kept : cwTSTAT ∉ leftWords := by decide
theorem tinret_kept : cwTINRET ∉ leftWords := by decide

theorem past_learnt (x : Ctx) (handler : Bool) (d : Reg) (cat o : Nat) : Past x (learnt x handler d cat o).advance := by
  refine SameSpot.past ?_ (past_advance _)
  rw [learnt]
  split
  · exact spot_setG x d _
  · exact (spot_setG x d _).trans ⟨rfl, rfl, rfl⟩

theorem greg_learnt (x : Ctx) (handler : Bool) {d : Reg} (hd : d ≠ 0) (cat o : Nat) :
    (learnt x handler d cat o).advance.greg d = word cat := by
  rw [greg_advance, learnt]
  split
  · exact greg_setG_same x _ hd
  · exact ((keeps_setCw _ _ _).g d List.not_mem_nil).1.trans (greg_setG_same x _ hd)

theorem tstat_learnt (x : Ctx) (d : Reg) (cat o : Nat) :
    (learnt x false d cat o).advance.cwv cwTSTAT = x.cwv cwTSTAT &&& 4 ||| word o := by
  rw [(keeps_advance _).cw _ tstat_kept, learnt, if_neg Bool.false_ne_true, cwv_setCw,
    (keeps_setG x d _).cw _ List.not_mem_nil]

theorem keeps_learnt (x : Ctx) (d : Reg) (cat o : Nat) :
    Keeps [d] [] [] (leftWords ++ [cwTSTAT]) x (learnt x false d cat o).advance := by
  rw [learnt, if_neg Bool.false_ne_true]
  refine (((keeps_setG x d _).mono ?_ ?_ ?_ ?_).trans ((keeps_setCw _ _ _).mono ?_ ?_ ?_ ?_)).trans
    ((keeps_advance _).mono ?_ ?_ ?_ ?_) <;> simp

theorem inlined_effect (x : Ctx) (d : Reg) (entry : Word) : (inlined x d entry).pc = entry
    ∧ (inlined x d entry).cwv cwTSTAT = 6 ∧ (inlined x d entry).cwv cwTINRET = x.pc + 4
    ∧ Keeps [d] [] [] (leftWords ++ [cwTSTAT, cwTINRET]) x (inlined x d entry)
    ∧ (d ≠ 0 → (inlined x d entry).greg d = 0) := by
  have hleave : Keeps [] [] [] leftWords (((x.setG d 0).setCw cwTSTAT 6).setCw cwTINRET ((x.setG d 0).pc + 4))
      (inlined x d entry) := (keeps_leave _).trans keeps_of_same
  refine ⟨rfl, ?_, ?_, ?_, fun hd => ?_⟩
  · rw [hleave.cw _ tstat_kept, cwv_setCw_other _ _ (by decide), cwv_setCw]
  · rw [hleave.cw _ tinret_kept, cwv_setCw, (spot_setG x d 0).pc]
  · refine ((((keeps_setG x d _).mono ?_ ?_ ?_ ?_).trans ((keeps_setCw _ _ _).mono ?_ ?_ ?_ ?_)).trans
      ((keeps_setCw _ _ _).mono ?_ ?_ ?_ ?_)).trans (hleave.mono ?_ ?_ ?_ ?_) <;> simp
  · rw [(hleave.g d List.not_mem_nil).1, ((keeps_setCw _ _ _).g d List.not_mem_nil).1,
      ((keeps_setCw _ _ _).g d List.not_mem_nil).1, greg_setG_same x _ hd]

/-! ### At the named core -/

section
variable {s : State} {k : CoreId} {m : TaskMsg} (hcore : (s.core k).failed = false)
  (hfailed : (s.cluster k.cluster).failed = false) (hclosed : (s.cluster k.cluster).closed = false)
include hcore hfailed hclosed

theorem open_core : ¬ ((s.cluster k.cluster).failed = true ∨ (s.cluster k.cluster).closed = true ∨ (s.core k).failed = true) := by
  rw [hcore, hfailed, hclosed]
  decide

theorem spawnatAt_slot {z : CtxId} {l : List CtxId} (hbelow : s.belowSlots k.cluster m.region = true)
    (hstop : s.plat.stopped.getLsbD m.colour = false) (hfree : s.freeSlots k = z :: l) :
    s.spawnatAt k m = ((s.enterSlot z (s.setUp z m s.time 0) m.region s.time).press k.cluster m.cost, some 0) := by
  have hslot : (if (s.belowSlots k.cluster m.region && !s.plat.stopped.getLsbD m.colour) = true then (s.freeSlots k).head? else none)
      = some z := by rw [hbelow, hstop, hfree]; rfl
  rw [State.spawnatAt]
  dsimp only
  rw [if_neg (open_core hcore hfailed hclosed), hslot]

theorem spawnatAt_no_slot (hfree : s.freeSlots k = []) : s.spawnatAt k m
    = if (s.cluster k.cluster).queue.length < 256 then
        (enqueued s k.cluster ⟨m, s.time, 0, 0, k.core.val, s.time⟩ m.cost, some 1)
      else (s, none) := by
  have hslot : (if (s.belowSlots k.cluster m.region && !s.plat.stopped.getLsbD m.colour) = true then (s.freeSlots k).head? else none)
      = none := by rw [hfree]; exact ite_self _
  rw [State.spawnatAt]
  dsimp only
  rw [if_neg (open_core hcore hfailed hclosed), hslot]
  rfl

end

/-- A task set up stands at its entry. -/
theorem setUp_stands (s : State) (c : CtxId) (m : TaskMsg) (stamp defer : Nat) :
    (s.setUp c m stamp defer).pc = m.entry ∧ (s.setUp c m stamp defer).task = some (s.taskOf m defer) := by
  obtain ⟨g, hg⟩ := Dispatching.started_eq m (s.taskOf m defer) (Dispatching.stackTop s c m.region)
  rw [Dispatching.setUp_eq, hg]
  exact ⟨rfl, rfl⟩

section
variable {s : State} {k : CoreId} {c : CtxId} {id : Nat} {m : TaskMsg} (hevent : s.event = .spawnatOutcome k c id m)
  (hawaits : s.awaits c id = true)
include hevent hawaits

theorem exec_outcome_placed {u : State} {o : Nat} (h : s.spawnatAt k m = (u, some o)) :
    exec .spawnatOutcome s = .next (u.spawnatEnd c o) := by
  show execSpawnatOutcome s = _
  simp only [execSpawnatOutcome, hevent, hawaits, h, Bool.true_eq_false, if_false]

theorem exec_outcome_inline {u : State} (h : s.spawnatAt k m = (u, none)) (hinline : u.inlineNow c = false) :
    exec .spawnatOutcome s = .next (u.spawnatEnd c 2) := by
  show execSpawnatOutcome s = _
  simp only [execSpawnatOutcome, hevent, hawaits, h, hinline, Bool.true_eq_false, Bool.false_eq_true, if_false]

end

theorem enqueued_ctx (s : State) (cl : ClusterId) (e : QEntry) (cost : Nat) (c : CtxId) :
    (enqueued s cl e cost).ctx c = s.ctx c := rfl

theorem spawnatOutcome_claim : Claim.SpawnatOutcome := by
  intro s k c id pa m d hevent hwait hdev hslot hcore hfailed hclosed hbelow hstop x
  have hspawned : (s.ctx c).wait.spawned = some (id, pa, m, d) := by rw [hwait]; rfl
  have hawaits := awaits_of_wait hspawned
  refine ⟨fun z l hfree hz => ?_, fun hfree hlen => ?_, fun hfree hlen hinl => ?_⟩
  · have hentered := entered_enterSlot s z (s.setUp z m s.time 0) m.region s.time
    have hctx : ((s.enterSlot z (s.setUp z m s.time 0) m.region s.time).press k.cluster m.cost).ctx c = s.ctx c :=
      hentered.others c hz.symm
    have hchild : ((s.enterSlot z (s.setUp z m s.time 0) m.region s.time).press k.cluster m.cost).ctx z
      = s.setUp z m s.time 0 := hentered.ctx
    obtain ⟨hpc, htask⟩ := setUp_stands s z m s.time 0
    have hplaced := spawnatAt_slot hcore hfailed hclosed hbelow hstop hfree
    generalize (s.enterSlot z (s.setUp z m s.time 0) m.region s.time).press k.cluster m.cost = u at *
    have hcaller := caller_learns (s := u) (c := c) (o := 0) (by rw [hctx, hspawned]) (by decide)
    rw [hctx, hslot] at hcaller
    refine ⟨_, exec_outcome_placed hevent hawaits hplaced, ?_⟩
    rw [hcaller.ctx, hcaller.others z hz, hchild]
    exact ⟨hpc, htask, fun hd => greg_learnt _ _ hd _ _, (tstat_learnt _ _ _ _).trans BitVec.or_zero, keeps_learnt _ _ _ _,
      past_learnt _ _ _ _ _⟩
  · have hplaced := (spawnatAt_no_slot (m := m) hcore hfailed hclosed hfree).trans (if_pos hlen)
    have hcaller := caller_learns (s := enqueued s k.cluster ⟨m, s.time, 0, 0, k.core.val, s.time⟩ m.cost) (c := c) (o := 1)
      hspawned (by decide)
    rw [enqueued_ctx, hslot] at hcaller
    refine ⟨_, exec_outcome_placed hevent hawaits hplaced, ?_⟩
    rw [hcaller.ctx, hcaller.queue, cluster_enqueued]
    exact ⟨rfl, fun hd => greg_learnt _ _ hd _ _, tstat_learnt _ _ _ _, keeps_learnt _ _ _ _, past_learnt _ _ _ _ _⟩
  · have hplaced := (spawnatAt_no_slot (m := m) hcore hfailed hclosed hfree).trans (if_neg (not_lt.mpr hlen))
    have hinline : s.inlineNow c = false := by
      rw [State.inlineNow, hslot]
      exact hinl
    have hcaller := caller_inlines hspawned hslot
    refine ⟨_, exec_outcome_inline hevent hawaits hplaced hinline, ?_⟩
    rw [hcaller.ctx]
    exact inlined_effect _ _ _

end Sys2Proof.Proofs.SpawnOutcomes

/-! SUPPORT. SPAWNTRIG, TCANCEL and SPAWNAT at another device: what it answers, and what the issuer does of the answer (R170, R181,
R185; log entries 15 and 30). -/

namespace Sys2Proof.Proofs.FarSpawns

open Machine Contexts TaskEnds ReadyQueue SpawnOutcomes

/-! ### At the device asked -/

section
variable {s : State} {src : Nat} {q : Request} (hevent : s.event = .remoteRequest src q) (hpa : paDev q.pa = s.dev)
  (hdie : paOnDie q.pa = true)
include hevent hpa hdie

theorem exec_arm {m : TaskMsg} (hkind : q.kind = .arm m) : exec .remoteRequest s = .next (s.armFar src q m) := by
  show execRemoteRequest s = _
  simp only [execRemoteRequest, hevent, hkind, hdie, if_pos, if_neg (not_not.mpr hpa)]

theorem exec_cancel {cat : Nat} (hkind : q.kind = .cancel cat) : exec .remoteRequest s
    = .next ((s.cancelArms q.pa cat q.region).1.answerAmo src q.issuer q.id (s.cancelArms q.pa cat q.region).2 8 false false) := by
  show execRemoteRequest s = _
  simp only [execRemoteRequest, hevent, hkind, hdie, if_pos, if_neg (not_not.mpr hpa)]

end

/-- Another device hears of the outcome by the fabric. -/
theorem answerAmo_far {s : State} {src : Nat} (h : src ≠ s.dev) (c : CtxId) (id n : Nat) :
    s.answerAmo src c id n 8 false false = s.fabric (.reply s.dev src c id (leBytes 8 n) 0 false) := if_neg h

theorem armFar_valid {s : State} {src : Nat} (hsrc : src ≠ s.dev) (q : Request) {m : TaskMsg}
    (hvalid : s.regValid m.region = true) (hworks : (s.cluster (paCluster m.trig)).failed = false) : s.armFar src q m
    = if s.budgetArm m.region ≤ s.armsOf (paCluster m.trig) m.region then
        s.fabric (.reply s.dev src q.issuer q.id (leBytes 8 2) 0 false)
      else if 128 ≤ s.armsIn (paCluster m.trig) then s.fabric (.reply s.dev src q.issuer q.id (leBytes 8 3) 0 false)
      else (s.post (.armedTaskArrival (paCluster m.trig) m)).fabric
        (.reply s.dev src q.issuer q.id (leBytes 8 0) 0 false) := by
  have hother : src ≠ (s.post (.armedTaskArrival (paCluster m.trig) m)).dev := hsrc
  rw [State.armFar, hvalid, hworks, answerAmo_far hsrc, answerAmo_far hsrc, answerAmo_far hother]
  rfl

/-- Entries cancelled leave what the device has on the way. -/
theorem plat_cancel_fold {cl : ClusterId} (es : List QEntry) {s : State} (h : (s.cluster cl).rings = []) :
    (es.foldl (cancelOne cl) s).plat = s.plat := by
  induction es generalizing s with
  | nil => rfl
  | cons e es ih =>
    obtain ⟨-, hrings, -, -⟩ := cancelOne_effect h e
    rw [List.foldl_cons, ih hrings, cancelOne, Placement.unqueue_of_no_ring h]
    rfl

theorem plat_cancelArms {s : State} {pa : Nat} (h : (s.cluster (paCluster pa)).rings = []) (cat region : Nat) :
    (s.cancelArms pa cat region).1.plat = s.plat := by
  rw [cancelArms_eq]
  dsimp only
  split <;> exact plat_cancel_fold _ h

/-- The entries named leave the queue of the counter's cluster, and the answer is on its way. -/
theorem cancel_answered {s : State} {src : Nat} (hsrc : src ≠ s.dev) {q : Request} {cat : Nat}
    (hrings : (s.cluster (paCluster q.pa)).rings = []) {t : State}
    (ht : t = (s.cancelArms q.pa cat q.region).1.answerAmo src q.issuer q.id (s.cancelArms q.pa cat q.region).2 8 false false) :
    (t.cluster (paCluster q.pa)).queue
      = (s.cluster (paCluster q.pa)).queue.filter (fun e => !(e.msg.typ == 1 && named s q.pa cat q.region e))
    ∧ t.plat.fabric = s.plat.fabric ++ [.reply s.dev src q.issuer q.id (leBytes 8 ((s.cluster (paCluster q.pa)).queue.filter
        (fun e => e.msg.typ == 1 && named s q.pa cat q.region e)).length) 0 false] := by
  obtain ⟨hqueue, hcount, -, -⟩ := cancelArms_effect hrings cat q.region
  have hplat := plat_cancelArms hrings cat q.region
  have hdev : (s.cancelArms q.pa cat q.region).1.dev = s.dev := congrArg Platform.dev hplat
  rw [answerAmo_far (by rw [hdev]; exact hsrc), hdev, hcount] at ht
  subst ht
  exact ⟨hqueue, congrArg (fun p : Platform => p.fabric ++ _) hplat⟩

/-! ### The answer at the issuer (log entry 15) -/

section
variable {s : State} {c : CtxId} {id : Nat} {d : Reg} {o : Option TaskMsg} {n : Word}
  (hevent : s.event = .atomicReply c id n false false) (hwait : (s.ctx c).wait = .told id d o)
include hevent hwait

theorem exec_told : exec .atomicReply s = .next ((s.freeOut c id).toldEnd c d o n false) := by
  show execAtomicReply s = _
  simp only [execAtomicReply, hevent, State.deliverAmo, hwait, if_true]

end

/-- What the issuer of a task or cancel that another device took writes to gd. -/
def toldWord (o : Option TaskMsg) (n : Word) : Word :=
  match o with
  | some m => BitVec.ofNat 64 m.cat
  | none => n

theorem ctx_toldEnd (s : State) (c : CtxId) (d : Reg) {o : Option TaskMsg} {n : Word} (h : o = none ∨ n = 0) :
    (s.toldEnd c d o n false).ctx c = ((s.ctx c).setG d (toldWord o n)).advance := by
  cases o with
  | none => exact ctx_setCtx_same s c _
  | some m =>
    have hzero : n = 0 ∨ false = true := .inl (h.resolve_left (Option.some_ne_none m))
    rw [State.toldEnd]
    dsimp only
    rw [if_pos hzero]
    exact ctx_setCtx_same (s.liveDown m.region) c _

theorem toldEnd_limit (s : State) (c : CtxId) (d : Reg) (m : TaskMsg) {n : Word} (h : n ≠ 0) :
    s.toldEnd c d (some m) n false
      = (s.liveDown m.region).as c (fun u => (u.setMy { u.my with wait := .none }).raise 0x0B n) := by
  have hlimit : ¬ (n = 0 ∨ false = true) := fun hn => hn.elim h Bool.false_ne_true
  rw [State.toldEnd]
  exact if_neg hlimit

/-- A fault of a context that no longer waits: the state that raises it, and the count of a region there. -/
theorem as_unwaited_raise (v : State) (c : CtxId) (w : Word) (r : Nat) : ∃ u : State, u.cur = c
    ∧ u.my = { v.ctx c with wait := .none } ∧ u.liveTasks r = v.liveTasks r
    ∧ v.as c (fun u => (u.setMy { u.my with wait := .none }).raise 0x0B w) = { u.raise 0x0B w with cur := v.cur } :=
  ⟨({ v with cur := c } : State).setMy { v.ctx c with wait := .none }, rfl, my_setMy { v with cur := c } _, rfl, rfl⟩

theorem told_limit {s : State} (c : CtxId) (id : Nat) (d : Reg) (m : TaskMsg) {n : Word} (h : n ≠ 0) : ∃ u : State, u.cur = c
    ∧ u.my = { s.ctx c with wait := .none } ∧ u.liveTasks m.region = s.liveTasks m.region - 1
    ∧ (s.freeOut c id).toldEnd c d (some m) n false = { u.raise 0x0B n with cur := s.cur } := by
  obtain ⟨u, hcur, hmy, hlive, hraise⟩ := as_unwaited_raise ((s.freeOut c id).liveDown m.region) c n m.region
  rw [liveTasks_liveDown] at hlive
  rw [toldEnd_limit _ _ _ _ h]
  exact ⟨u, hcur, hmy, hlive, hraise⟩

/-- A write of one register before an instruction is left. -/
theorem setG_advance_effect (x : Ctx) (d : Reg) (w : Word) : Keeps [d] [] [] leftWords x (x.setG d w).advance
    ∧ Past x (x.setG d w).advance ∧ (d ≠ 0 → (x.setG d w).advance.greg d = w) := by
  refine ⟨((keeps_setG x d w).mono ?_ ?_ ?_ ?_).trans ((keeps_advance _).mono ?_ ?_ ?_ ?_),
    (spot_setG x d w).past (past_advance _), fun hd => (greg_advance _ _).trans (greg_setG_same x w hd)⟩ <;> simp

/-! ### A SPAWNAT recalled, and its answer (R181; log entry 30) -/

theorem exec_recall {s : State} {src : Nat} {k : CoreId} {c : CtxId} {id cat : Nat}
    (hevent : s.event = .spawnatCancel src k c id cat) : exec .spawnatOutcome s = .next (s.spawnatBack src c id) := by
  show execSpawnatOutcome s = _
  rw [execSpawnatOutcome, hevent]

section
variable {s : State} {c : CtxId} {id pa : Nat} {m : TaskMsg} {d : Reg} (hwait : (s.ctx c).wait = .recalled id pa m d)
include hwait

theorem exec_answer {o : Nat} (hevent : s.event = .spawnatAnswer c id o) (ho : o ≠ 2) :
    exec .spawnatOutcome s = .next (if o = 3 then s.abandon c else s.spawnatEnd c o) := by
  have hawaits : s.awaits c id = true := awaits_of_wait (pa := pa) (m := m) (d := d) (by rw [hwait]; rfl)
  have hrecalled : (s.ctx c).wait.isRecalled = true := by rw [hwait]; rfl
  show execSpawnatOutcome s = _
  simp only [execSpawnatOutcome, hevent, hawaits, hrecalled, ho, false_and, or_false, true_and, if_false, Bool.true_eq_false]

theorem abandon_effect : (s.abandon c).ctx c = { s.ctx c with wait := .none }
    ∧ (s.abandon c).liveTasks m.region = s.liveTasks m.region - 1 := by
  have habandon : s.abandon c = (s.liveDown m.region).setCtx c { s.ctx c with wait := .none } := by
    rw [State.abandon, hwait]
    rfl
  rw [habandon]
  exact ⟨ctx_setCtx_same _ _ _, liveTasks_liveDown s m.region⟩

theorem stands_effect {o : Nat} (ho : o ≠ 2) : Past (s.ctx c) ((s.spawnatEnd c o).ctx c)
    ∧ (d ≠ 0 → ((s.spawnatEnd c o).ctx c).greg d = BitVec.ofNat 64 m.cat) := by
  have hcaller := caller_learns (s := s) (c := c) (id := id) (pa := pa) (m := m) (d := d) (by rw [hwait]; rfl) ho
  rw [hcaller.ctx]
  exact ⟨past_learnt _ _ _ _ _, fun hd => greg_learnt _ _ hd _ _⟩

end

/-! ### The claim -/

theorem farSpawns_claim : Claim.FarSpawns := by
  refine ⟨fun s src q m hevent hsrc hpa hdie => ⟨fun hkind hvalid hworks => ?_, fun cat hkind hrings => ?_⟩,
    fun s c id d o n hevent hwait => ⟨fun htaken => ⟨_, exec_told hevent hwait, ?_⟩, fun m hm hn => ?_⟩,
    fun s src k c id cat hevent => ?_, fun s c id pa m d o hevent hwait => ⟨fun ho => ?_, fun ho => ?_⟩⟩
  · rw [exec_arm hevent hpa hdie hkind, armFar_valid hsrc q hvalid hworks]
    exact ⟨fun harm => by rw [if_pos harm], fun harm hin => by rw [if_neg (not_le.mpr harm), if_pos hin],
      fun harm hin => by rw [if_neg (not_le.mpr harm), if_neg (not_le.mpr hin)]⟩
  · intro hit
    have hnamed : hit = fun e => e.msg.typ == 1 && named s q.pa cat q.region e :=
      funext (fun e => by simp only [hit, named, Bool.and_assoc])
    rw [hnamed]
    exact ⟨_, exec_cancel hevent hpa hdie hkind, cancel_answered hsrc hrings rfl⟩
  · obtain ⟨hkeeps, hpast, hword⟩ := setG_advance_effect (s.ctx c) d (toldWord o n)
    have hctx : ((s.freeOut c id).toldEnd c d o n false).ctx c = ((s.ctx c).setG d (toldWord o n)).advance :=
      ctx_toldEnd (s.freeOut c id) c d htaken
    rw [← hctx] at hkeeps hpast hword
    exact ⟨hkeeps, hpast, hword⟩
  · subst hm
    obtain ⟨u, hcur, hmy, hlive, hraise⟩ := told_limit (s := s) c id d m hn
    exact ⟨_, exec_told hevent hwait, u, hcur, hmy, hlive, hraise⟩
  · rw [exec_recall hevent, State.spawnatBack]
    exact ⟨fun hdecided => congrArg _ (if_pos hdecided), fun hopen => ⟨_, congrArg _ (if_neg hopen), rfl, rfl⟩⟩
  · exact ⟨_, (exec_answer hwait hevent (by omega)).trans (congrArg _ (if_pos ho)), abandon_effect hwait⟩
  · exact ⟨_, (exec_answer hwait hevent (by omega)).trans (congrArg _ (if_neg (by omega))), stands_effect hwait (by omega)⟩

/-- Settles O47: the message a spawn makes and the charge of its region, which no later part of the spawn touches. -/
theorem spawns : Obligations.Spawns := by
  unfold Obligations.Spawns
  exact ⟨Spawns.spawns_claim, SpawnOutcomes.spawnatOutcome_claim, farSpawns_claim⟩

end Sys2Proof.Proofs.FarSpawns
